-- ==== Sys2Proof/Word.lean ====
section
/-! DEFINITION. The native word of the device and the payload of a lane block (R7, R45). -/

namespace Sys2Proof

/-- The native word: 72 bits, bit 71 most significant (R7). -/
abbrev Word := BitVec 72

/-- The 64-bit payload of a lane block (R45). -/
abbrev Block := BitVec 64

end Sys2Proof
end

