-- ==== Sys2Proof/Syntax.lean ====
section
/-! DEFINITION. The commands of the block: one constructor per row of the opcode table, with the operands the spec
gives each. A command is a thing that happens to the unit: a block or frame on a lane, an edge on a pin, a request to
the dictionary, or an instant that the unit's own clock reaches. -/

namespace Sys2Proof

/-- The two chain ports of the unit (R43). -/
inductive ChainPort where
  | u | d
deriving DecidableEq, Repr

/-- A chain port, or one of the image lanes I0–I3, each a link of its own (R46). -/
inductive LinkSel where
  | chain (p : ChainPort)
  | image (i : Fin 4)
deriving DecidableEq, Repr

/-- A frame on a chain port: the SOF fields of R58 other than KIND, the data blocks between SOF and EOF, and the EOF
fields. KIND is that of the command which carries the frame. -/
structure Frame where
  port : ChainPort
  seq : BitVec 16
  dest : BitVec 8
  src : BitVec 8
  origin : Bool
  hopmode : Bool
  len : BitVec 6
  hops : BitVec 8
  data : List Block
  crc : BitVec 32
  stomp : Bool
deriving DecidableEq, Repr

/-- A DREQ frame (R112–R114). `frame.data` holds the blocks after D0, the two seal blocks included; D0 is made of the
fields here and of OP, INDEX and SUB, which the command gives. `waiting` is how many requests stand in the queue of the
object's kind when the EOF arrives (R118). -/
structure Dreq where
  frame : Frame
  tag : BitVec 8
  group : BitVec 4
  ty : BitVec 4
  sealed : Bool
  shadow : Bool
  count : BitVec 5
  rsv : BitVec 13
  waiting : Nat
deriving DecidableEq, Repr

/-- Result of a read of the SSI sensor as its wires show it (R159): the bits sampled, and whether the line is low half a period after the
last sample. What SSI_DATA does before a read is the operand `ready` of the commands that start one: how many core clocks after the start it
has been high for SSI_MONOFLOP µs, none where it is not in time. -/
structure SsiWire where
  word : BitVec 32
  stopLow : Bool
deriving DecidableEq, Repr

/-- The header block of a raster packet (R217). -/
structure RasterHdr where
  rsop : Block
  first : Block
deriving DecidableEq, Repr

/-- A CSI-2 packet other than Frame Start and Frame End (R375). `hdrErr` is what the header's ECC shows: none,
corrected, or uncorrectable; `pixels` the samples of a line packet; `crcOk` the payload checksum. -/
inductive HdrEcc where
  | clean | corrected | bad
deriving DecidableEq, Repr

/-- See R375. -/
structure CsiPacket where
  ecc : HdrEcc
  vc : BitVec 2
  dataType : BitVec 6
  pixels : List Nat
  crcOk : Bool
deriving DecidableEq, Repr

/-- One access of a port of the Scratch Banks (R438–R440). -/
structure ScratchAcc where
  addr : Nat
  write : Bool
  data : Word
deriving DecidableEq, Repr

/-- The kinds of restart of Caldera (R504). -/
inductive RestartCause where
  | powerOn | chipReset | watchdog | blockReset | host (r : Dreq) | activate | abort | recover | clock
deriving DecidableEq, Repr

/-- A raise that reaches the Fault Collector from a checker outside the other commands (R476), or the raise that an
armed injection makes (R495). -/
structure RaiseIn where
  src : Fin 256
  detail : BitVec 16
  inj : Bool
deriving DecidableEq, Repr

/-- The commands. The comment names the rule of each. -/
inductive Instr where
  -- lanes (R47–R54)
  | laneSignalDetect (lane : Fin 8)
  | laneBringupTimeout (lane : Fin 8)
  | laneRetry (lane : Fin 8)
  | train (lane : Fin 8) (hdr : BitVec 2) (blk : Block)
  | fastExit (link : LinkSel) (lockBlock : Nat) (skew : Nat) (refclkOk : Bool)
  | align (link : LinkSel) (skew : Nat)
  | eidle (lane : Fin 8)
  | laneLossOfSignal (lane : Fin 8)
  | invalidSyncHeader (lane : Fin 8) (hdr : BitVec 2) (ty : BitVec 8)
  -- chain cycle and chain time (R66–R73, R88)
  | chainPortDown (p : ChainPort)
  | chainPortUp (p : ChainPort)
  | cycle (p : ChainPort) (blk : Block) (phase : Fin 8) (residence : Nat)
  | chainActive
  | chainTimeMisaligned
  | probeSend (p : ChainPort) (phase : Fin 8)
  | probe (p : ChainPort) (blk : Block) (residence : Nat)
  | pret (p : ChainPort) (blk : Block) (phase : Fin 8)
  | pretTimeout (p : ChainPort)
  | frameEofTimeout (p : ChainPort)
  | frameForward (kind : BitVec 5) (f : Frame)
  -- position broadcast (R75–R77, R169)
  | posSend
  | pos (f : Frame)
  | posApply
  | chainCycleEnd
  | posBroadcastLost
  | time (f : Frame)
  -- Geyser (R95–R99)
  | geyserArm (f : Frame)
  | geyserCancel (f : Frame)
  | geyserLatch (b : Fin 4)
  -- enumeration and ring (R84–R93)
  | enumDiscover (f : Frame)
  | enumAssign (f : Frame)
  | enumDone (f : Frame)
  | unsolicitedEnumReport
  | stickyStore
  | ringEnable (f : Frame)
  | ringDisable (f : Frame)
  | ringRestore (f : Frame)
  | restoreSwitch
  | forwardCycleTimeout
  | wrap
  | eventSend
  | eventLostNotice
  -- dictionary (R103–R141)
  | read (r : Dreq) (index : BitVec 16) (sub : BitVec 8)
  | write (r : Dreq) (index : BitVec 16) (sub : BitVec 8)
  | groupClose (r : Dreq) (index : BitVec 16) (sub : BitVec 8)
  | groupAbort (r : Dreq) (index : BitVec 16) (sub : BitVec 8)
  | groupExpire (g : Fin 16)
  | domOpen (r : Dreq) (index : BitVec 16) (sub : BitVec 8)
  | domWrite (r : Dreq) (index : BitVec 16) (sub : BitVec 8)
  | domCommit (r : Dreq) (index : BitVec 16) (sub : BitVec 8)
  | domAbort (r : Dreq) (index : BitVec 16) (sub : BitVec 8)
  | domRead (r : Dreq) (index : BitVec 16) (sub : BitVec 8)
  | sessionExpire (k : Fin 4)
  | commitNow (r : Dreq) (index : BitVec 16) (sub : BitVec 8)
  | fwRequestAnswered
  | fwRequestTimeout
  | sealFloorRaise
  | sealFloorCommitted
  -- Position Base (R145–R173)
  | encEdge (level : Bool) (reverted : Bool)
  | encLineFault
  | encLineClear
  | encDirEdge (level : Bool)
  | hallEdge (code : BitVec 3)
  | slipWindowEnd
  | speedStop
  | ssiTestRead (r : Dreq) (ready : Option Nat)
  | ssiRecoveryRead (r : Option Dreq) (ready : Option Nat)
  | ssiReadDone (w : SsiWire) (ready : Option Nat)
  | ssiRetry (ready : Option Nat)
  | encEnable (r : Dreq) (ready : Option Nat)
  | encConfigWrite (r : Dreq) (index : BitVec 16) (sub : BitVec 8)
  | posRole (r : Dreq)
  | roleSwitch
  | posPreset (r : Dreq)
  -- Line Scheduler (R176–R211)
  | gridEnable (r : Dreq)
  | lineEvent
  | freezePoint (cls : Fin 3)
  | cueEdge (input : Fin 2) (level : Bool)
  | sheetAt (r : Dreq)
  | assemblyStart (port : Fin 16)
  | screeningStart (port : Fin 16) (asmDone : Bool) (tableErr : List (Nat × Nat))
  | shipStart (port : Fin 16)
  | fireSlot (port : Fin 16) (phase : Fin 8) (sense : List Nat)
  | deferredFire (port : Fin 16) (phase : Fin 8) (sense : List Nat)
  | cmpCtrl (r : Dreq) (c : Fin 32)
  | cmpTarget (r : Dreq) (c : Fin 32)
  | cmpFire (c : Fin 32)
  | cmpPulseEnd (c : Fin 32)
  -- Raster Ingress (R216–R234)
  | rasterPacket (lane : Fin 4) (hdr : RasterHdr) (words : List Word) (crc : BitVec 32)
  | rasterPacketTimeout (lane : Fin 4)
  | lineComplete (plane : Fin 16) (line : BitVec 32) (pass : BitVec 16)
  | creditSend (lane : Fin 4)
  | layoutWrite (r : Dreq) (index : BitVec 16) (sub : BitVec 8)
  | ingressReady
  | bankClearDone (plane : Fin 16)
  -- Fire Sequencer and Waveform Engine (R301–R317)
  | fireArm (r : Dreq)
  | fireDisarm (r : Dreq)
  | clearLatch (port : Fin 16)
  | gateAssert (gate : Fin 4)
  | rampEnd (port : Fin 16)
  | gateRelease (gate : Fin 4)
  | idleTickle (port : Fin 16) (sense : List Nat)
  | headIdRead (port : Fin 16) (bytes : Option (List (BitVec 8)))
  -- Drive Calibration (R325–R348)
  | calStart (group : Fin 4)
  | hovFrame (group : Fin 4)
  | hovStrobe (group : Fin 4)
  | hovVerify (group : Fin 4) (reply : Option (BitVec 32))
  | hovRestoreRetry (group : Fin 4)
  | measureStart (group : Fin 4)
  | calRoundDone (group : Fin 4) (sums : List Nat) (refs : List Nat)
  | calAbort (r : Dreq) (group : Fin 4)
  | calRequest (r : Dreq) (ch : Fin 68)
  | calSetCopy (group : Fin 4)
  -- Thermal Monitor (R355–R369)
  | thermalScan (readings : Vector (BitVec 32) 80)
  | heatPeriodStart (port : Fin 16)
  -- inspection (R374–R404)
  | frameStart (cam : Fin 2) (vc : BitVec 2) (number : BitVec 16)
  | frameEnd (cam : Fin 2) (vc : BitVec 2)
  | csiPacket (cam : Fin 2) (p : CsiPacket)
  | frameTimeout (cam : Fin 2)
  | camSilent (cam : Fin 2)
  | camEnable (r : Dreq) (cam : Fin 2)
  | i2cCmd (r : Dreq) (cam : Fin 2)
  | i2cDone (cam : Fin 2) (nack : Bool) (data : BitVec 32)
  | i2cTimeout (cam : Fin 2)
  | pipeGrant
  | pipeUnitDone
  -- Nozzle Health Loop (R415–R428)
  | loopArm (cam : Fin 2)
  | loopCheck (cam : Fin 2)
  | loopEnable (r : Dreq)
  | loopClear (r : Dreq) (port : Fin 16)
  -- memory (R436–R451)
  | scratchAccess (a : Option ScratchAcc) (b : Option ScratchAcc)
  | scrubVisit
  | bmControl (r : Dreq)
  | bmTrainingDone (failMask : BitVec 10)
  | bmAlert
  | bmRefresh
  | bmScrubRead
  | bmTrackCheck (moved : Bool)
  | bmZqShort
  -- DMA movers (R454–R472)
  | dmaStart (r : Option Dreq) (ch : Fin 32)
  | dmaPause (r : Dreq) (ch : Fin 32)
  | dmaPauseDone (ch : Fin 32)
  | dmaResume (r : Dreq) (ch : Fin 32)
  | dmaAbort (r : Dreq) (ch : Fin 32)
  | dmaSlot (m : Fin 4)
  | dmaDescDone (ch : Fin 32)
  | dmaReadbackDone (ch : Fin 32)
  | wordData (r : Dreq) (write : Bool)
  -- Fault Collector (R475–R499)
  | faultArrival (raises : List RaiseIn)
  | histBatchWrite
  | faultClear (r : Dreq)
  | firstClear (r : Dreq)
  | histClear (r : Dreq)
  | inject (r : Dreq)
  | injectExpire
  -- resets (R555–R564)
  | blockReset (blk : Nat)
  | chipReset
  | powerOnReset (vaonLost : Bool)
  | refclkWaitTimeout
  | startupComplete
  | tapReset
  -- Caldera (R504–R526)
  | calderaRestart (cause : RestartCause)
  | calderaRunning
  | wdtExpire
  | railTrip (row : Fin 9)
  | railRecover (row : Fin 9)
  | clockFail (row : Fin 5)
  | clockRecover (row : Fin 5)
  | logProgram
  | logWindowSeq (r : Dreq)
  | updateInstall (r : Dreq)
  | updateActivate (r : Dreq)
  | updateConfirm (r : Dreq)
  | updateAbort (r : Dreq)
  | trialTimeout
  -- lifecycle, power, trace (R529–R551)
  | lifecycleAdvance (r : Dreq)
  | lifecycleRetire (r : Dreq)
  | keyCommit (r : Dreq)
  | otpScan
  | lcAdvance
  | lcRetire
  | provision (field : Nat) (data : BitVec 256)
  | recover (image : List (BitVec 8))
  | jtagInstruction (opcode : BitVec 8)
  | powerReq (r : Dreq)
  | powerChange
  | wake (source : Nat)
  | shelfWake
  | traceMode (r : Dreq)
  | traceRestart (r : Dreq)
  | traceFrame
  | traceSample
  | pmcSel (r : Dreq) (k : Fin 16)
  -- rows added at the end of the table
  | blockLock (lane : Fin 8)
  | chipResetRelease
  | pipeLineDone (tableErr : List (Fin 3 × Nat))
deriving DecidableEq, Repr

end Sys2Proof
end

