-- ==== Sys2Proof/Config.lean ====
section
/-! DEFINITION. What the spec leaves open: values that exist but that no rule states. Each is an opaque constant, so that
nothing can evaluate it and every statement about it holds for every value. The log entry that declares it is named. -/

namespace Sys2Proof

/-- Which way the mean of these samples with this trim is rounded, which no rule states (R70): up when true (log 10). -/
opaque Config.roundUp : List Int → Int → Bool

/-- The word that bulk memory reads as where nothing has been written since power-on (R449, R565; log 5). The first
argument is the model's counter at power-on, the second the address. -/
opaque Config.bulkWord : Nat → Nat → BitVec 72

/-- Which consumers of bulk memory waited on a clock, in the order of R36: the times are not stated (R548; log 31). -/
opaque Config.freeWait : Nat → BitVec 5

/-- NONCE of a trace session, from the on-die random source (R550; log 11). -/
opaque Config.nonce : Nat → BitVec 64

/-- K_log, made by the unit from its on-die random source (R532; log 12). -/
opaque Config.kLog : Nat → BitVec 256

/-- The random number of the signature of a log anchor, which the spec does not state (R515; log 13). -/
opaque Config.anchorNonce : Nat → BitVec 256

/-- Which way an entry of the default THERM_CURVE is rounded, which the spec gives by a thermistor formula without rounding (R358): up when
true (log 14). -/
opaque Config.thermUp : Nat → Bool

/-- The entries of the default THERM_CURVE at the two ends, where the formula gives no temperature: entry 0 and entry 64 (log 14). -/
opaque Config.thermEnd : Nat → BitVec 16

/-- The temperature in 1/16 °C that the two-current method gives for a diode's ratio and an ideality factor other than 1.000: no rule states the
formula (R357; log 10). -/
opaque Config.diodeTemp : BitVec 16 → BitVec 16 → Int

/-- The level at which a spare that draws for no channel rests, which no rule states (R297, R338; log 10). -/
opaque Config.spareRest : Nat → BitVec 16

/-- PREV of the first log record ever written, which has no predecessor (R511; log 13). -/
opaque Config.firstPrev : BitVec 256

/-- CODE of a configuration log record by what it stores: 0 sticky address, 1 seal floor, 2 correction set; the spec gives the record kinds
no numbers (R512; log 13). -/
opaque Config.recordKind : Nat → BitVec 16

/-- Does a word of Scratch Banks 14 and 15 hold the loop's state of a port's nozzle? Word, port, nozzle: no rule lays them out (R438; log 49). -/
opaque Config.loopHolds : Nat → Nat → Nat → Bool

/-- What such a word then stands for: word, contents, port, nozzle; state, runs, LOOP_DEAD and TRIM from bit 0 up (R438; log 49). -/
opaque Config.loopCell : Nat → BitVec 72 → Nat → Nat → BitVec 21

/-- A value the spec leaves undefined after an operation that goes on (log 15). -/
opaque Config.freeWord : Nat → BitVec 72

end Sys2Proof
end

