-- ==== Sys2Proof/Machine/Bits.lean ====
section
/-! DEFINITION. Bit fields, two's complement, byte orders, CRC-32C and wrapping differences, as the spec writes them
(R7, R8, R11, R12, R18, R59, R104). Pure arithmetic on numbers; nothing here reads the machine. -/

namespace Sys2Proof.Machine

/-- Field `hi..lo` of a number (R7: a field is written by its bit range). -/
def bits (n hi lo : Nat) : Nat := n / 2 ^ lo % 2 ^ (hi + 1 - lo)

/-- Bit `i` of a number. -/
def bit (n i : Nat) : Bool := n / 2 ^ i % 2 == 1

/-- A Bool as the number 0 or 1. -/
def b2n (b : Bool) : Nat := if b then 1 else 0

/-- The number with bit `i` set to `b`. -/
def setBit (n i : Nat) (b : Bool) : Nat := n - (n / 2 ^ i % 2) * 2 ^ i + b2n b * 2 ^ i

/-- Field value `v` placed at bit `lo`, cut to `w` bits. -/
def fld (v w lo : Nat) : Nat := v % 2 ^ w * 2 ^ lo

/-- The low `w` bits of `n` read in two's complement (R8, R104). -/
def sgn (w n : Nat) : Int :=
  let m := n % 2 ^ w
  if m < 2 ^ (w - 1) then (m : Int) else (m : Int) - 2 ^ w

/-- An integer as `w` bits of two's complement. -/
def unsgn (w : Nat) (i : Int) : Nat := (i % 2 ^ w).toNat

/-- Signed difference `x − y` modulo `2 ^ w` (R11 with 48 bits, R12 with 32 bits, R63 with 16 bits). -/
def diff (w x y : Nat) : Int := sgn w (x % 2 ^ w + 2 ^ w - y % 2 ^ w)

/-- Position or line `x` lies at `p` or ahead of it in the direction of travel (R11). -/
def atOrAhead (w : Nat) (x p : Nat) (reverse : Bool) : Bool :=
  let d := diff w x p
  if reverse then d ≤ 0 else 0 ≤ d

/-- Magnitude of an integer. -/
def iabs (i : Int) : Nat := i.natAbs

/-- `i` limited to `lo … hi`. -/
def clampI (lo hi i : Int) : Int := if i < lo then lo else if hi < i then hi else i

/-- Floor division of integers. -/
def fdivI (a b : Int) : Int := a.fdiv b

/-- Round half up of `a / b` for `b > 0`. -/
def roundHalfUp (a b : Int) : Int := (2 * a + b).fdiv (2 * b)

/-- Round half away from zero of `a / b` for `b > 0`. -/
def roundHalfAway (a b : Int) : Int :=
  if 0 ≤ a then (2 * a + b).fdiv (2 * b) else - ((-2 * a + b).fdiv (2 * b))

/-- Ceiling of `a / b`. -/
def ceilDiv (a b : Nat) : Nat := (a + b - 1) / b

/-- `k` bytes of `n`, least significant first (R59). -/
def leBytes : Nat → Nat → List Nat
  | 0, _ => []
  | k + 1, n => n % 256 :: leBytes k (n / 256)

/-- `k` bytes of `n`, most significant first (R133). -/
def beBytes (k n : Nat) : List Nat := (leBytes k n).reverse

/-- The number whose bytes, most significant first, are `l`. -/
def ofBytes (l : List Nat) : Nat := l.foldl (fun a b => a * 256 + b) 0

/-- One bit of the reflected CRC-32C shift register; 0x82F6_3B78 is 0x1EDC_6F41 reflected (R18). -/
def crcBit (c : Nat) : Nat := if c % 2 = 1 then Nat.xor (c / 2) 0x82F63B78 else c / 2

/-- One byte of CRC-32C (R18). -/
def crcByte (c b : Nat) : Nat :=
  crcBit (crcBit (crcBit (crcBit (crcBit (crcBit (crcBit (crcBit (Nat.xor c b))))))))

/-- CRC-32C of a byte string (R18). -/
def crc32c (l : List Nat) : Nat := Nat.xor (l.foldl crcByte 0xFFFFFFFF) 0xFFFFFFFF

/-- Words as 9 bytes each, least significant byte first (R125). -/
def wordBytes (l : List Nat) : List Nat := l.flatMap (leBytes 9)

/-- Words packed as one bit stream, word 0 lowest (R115). -/
def packBits : List Nat → Nat
  | [] => 0
  | w :: ws => w % 2 ^ 72 + 2 ^ 72 * packBits ws

/-- `k` data blocks of a bit stream, the first holding the lowest 64 bits (R115). -/
def streamBlocks : Nat → Nat → List Block
  | 0, _ => []
  | k + 1, n => BitVec.ofNat 64 n :: streamBlocks k (n / 2 ^ 64)

/-- Data blocks of `ws` packed (R113, R115). -/
def packWords (ws : List Nat) : List Block := streamBlocks (ceilDiv (9 * ws.length) 8) (packBits ws)

/-- The bit stream of data blocks (R115). -/
def blockBits : List Block → Nat
  | [] => 0
  | b :: bs => b.toNat + 2 ^ 64 * blockBits bs

/-- `k` words of a bit stream (R115). -/
def streamWords : Nat → Nat → List Nat
  | 0, _ => []
  | k + 1, n => n % 2 ^ 72 :: streamWords k (n / 2 ^ 72)

/-- The `k` words packed in data blocks (R115). -/
def unpackWords (k : Nat) (bs : List Block) : List Nat := streamWords k (blockBits bs)

/-- The elements of a list from `i` on, the first replaced by `f` of itself. -/
def modAt {α : Type} (f : α → α) : Nat → List α → List α
  | _, [] => []
  | 0, a :: l => f a :: l
  | i + 1, a :: l => a :: modAt f i l

/-- Sum of a list of integers. -/
def isum (l : List Int) : Int := l.foldl (· + ·) 0

/-- Sum of a list of numbers. -/
def nsum (l : List Nat) : Nat := l.foldl (· + ·) 0

/-- Mean of a list, truncated toward zero (R72). -/
def imean (l : List Int) : Int := if l.isEmpty then 0 else (isum l).tdiv (l.length : Int)

end Sys2Proof.Machine
end

