-- ==== Sys2Proof/Machine/Objects.lean ====
section
/-! DEFINITION. The object table of the unit: every object of the dictionary with its index, subindices, type, access,
default, commit class, range, write condition and stage, as the object tables of the spec's chapters give them
(R14, R103-R106, R142, R143), and a name for the key of every object. -/

namespace Sys2Proof.Machine

/-- The types of R104. -/
inductive Ty where
  | bool | u8 | u16 | u32 | u48 | u64 | i16 | i32 | w72 | q16 | dom
deriving DecidableEq, Repr

/-- The access classes of R106. -/
inductive Access where
  | ro | rw | rws | rwa | woa
deriving DecidableEq, Repr

/-- The commit classes of R107; `none` for an RO object (R143). -/
inductive Commit where
  | imm | line | band | sheet | none
deriving DecidableEq, Repr

/-- The range of a value (R105). `special` ranges depend on other objects and are judged by `rangeSpecial`. -/
inductive Rng where
  | any
  | between (lo hi : Int)
  | either (x : Nat) (lo hi : Int)
  | oneOf (l : List Nat)
  | special
deriving DecidableEq, Repr

/-- When a write is accepted at all (status STATE otherwise). -/
inductive Cond where
  | always | notArmed | gridOff | camOff | camsOff | special
deriving DecidableEq, Repr

/-- One row of an object table: `count` indices `base`, `base + stride`, … with subindices `lo` to `hi`. -/
structure Obj where
  base : Nat
  stride : Nat
  count : Nat
  lo : Nat
  hi : Nat
  ty : Ty
  access : Access
  commit : Commit
  dflt : List Nat
  rng : Rng
  cond : Cond
  fw : Bool
  stage : Nat
  size : Nat
deriving DecidableEq, Repr

/-- Width in bits (R104); a DOMAIN holds no scalar. -/
def Ty.width : Ty → Nat
  | .bool => 1 | .u8 => 8 | .u16 => 16 | .u32 => 32 | .u48 => 48 | .u64 => 64
  | .i16 => 16 | .i32 => 32 | .w72 => 72 | .q16 => 32 | .dom => 0

/-- Type code (R104). -/
def Ty.code : Ty → Nat
  | .bool => 0 | .u8 => 1 | .u16 => 2 | .u32 => 3 | .u48 => 4 | .u64 => 5
  | .i16 => 6 | .i32 => 7 | .w72 => 8 | .q16 => 9 | .dom => 10

/-- Is the type two's complement? -/
def Ty.signed : Ty → Bool
  | .i16 => true | .i32 => true | _ => false

/-- ACCESS code of the directory (R143). -/
def Access.code : Access → Nat
  | .ro => 0 | .rw => 1 | .rws => 2 | .rwa => 3 | .woa => 4

/-- COMMIT code of the directory (R143). -/
def Commit.code : Commit → Nat
  | .imm => 0 | .line => 1 | .band => 2 | .sheet => 3 | .none => 7

/-- Objects: identity and chain (R101, R144). -/
def objsA : List Obj := [
  ⟨0x1100, 1, 1, 0, 0, .u8, .ro, .none, [0], .any, .always, false, 0, 0⟩,  -- CHAIN_ADDR
  ⟨0x1100, 1, 1, 1, 1, .u8, .ro, .none, [0], .any, .always, false, 0, 0⟩,  -- CHAIN_HOP
  ⟨0x1100, 1, 1, 2, 2, .u8, .rwa, .imm, [0], .any, .always, true, 0, 0⟩,  -- STICKY_ADDR
  ⟨0x1100, 1, 1, 3, 3, .u8, .ro, .none, [0], .any, .always, false, 0, 0⟩,  -- CHAIN_STATE
  ⟨0x1100, 1, 1, 4, 4, .bool, .ro, .none, [0], .any, .always, false, 0, 0⟩,  -- RING_MODE
  ⟨0x1101, 1, 1, 0, 7, .u16, .ro, .none, [0], .any, .always, false, 0, 0⟩,  -- LANE_STATUS
  ⟨0x1102, 1, 1, 0, 0, .u32, .ro, .none, [0], .any, .always, false, 0, 0⟩,  -- LINK_DELAY_U
  ⟨0x1102, 1, 1, 1, 1, .u32, .ro, .none, [0], .any, .always, false, 0, 0⟩,  -- LINK_DELAY_D
  ⟨0x1102, 1, 1, 2, 2, .i16, .rw, .imm, [0], .any, .always, false, 0, 0⟩,  -- ASYM_U
  ⟨0x1102, 1, 1, 3, 3, .i16, .rw, .imm, [0], .any, .always, false, 0, 0⟩,  -- ASYM_D
  ⟨0x1102, 1, 1, 4, 4, .u32, .ro, .none, [0], .any, .always, false, 0, 0⟩,  -- ACC_DELAY_F
  ⟨0x1102, 1, 1, 5, 5, .u32, .ro, .none, [0], .any, .always, false, 0, 0⟩,  -- ACC_DELAY_R
  ⟨0x1102, 1, 1, 6, 6, .i32, .ro, .none, [0], .any, .always, false, 0, 0⟩,  -- CT_ERROR
  ⟨0x1103, 1, 1, 0, 0, .u64, .ro, .none, [0], .any, .always, false, 0, 0⟩,  -- CHAIN_TIME
  ⟨0x1103, 1, 1, 1, 1, .u32, .rw, .imm, [50000], .between 1000 500000, .notArmed, false, 0, 0⟩,  -- POS_APPLY_DELAY
  ⟨0x1104, 1, 1, 0, 0, .u8, .rw, .imm, [2], .between 1 16, .always, false, 0, 0⟩,  -- EVENT_RATE
  ⟨0x1105, 1, 1, 0, 0, .u32, .ro, .none, [0], .any, .always, false, 0, 0⟩,  -- CRC_ERR_U
  ⟨0x1105, 1, 1, 1, 1, .u32, .ro, .none, [0], .any, .always, false, 0, 0⟩,  -- CRC_ERR_D
  ⟨0x1105, 1, 1, 2, 2, .u32, .ro, .none, [0], .any, .always, false, 0, 0⟩,  -- LOCK_LOSS_U
  ⟨0x1105, 1, 1, 3, 3, .u32, .ro, .none, [0], .any, .always, false, 0, 0⟩,  -- LOCK_LOSS_D
  ⟨0x1105, 1, 1, 4, 4, .u32, .ro, .none, [0], .any, .always, false, 0, 0⟩,  -- BRINGUP_FAIL
  ⟨0x1105, 1, 1, 5, 5, .u32, .ro, .none, [0], .any, .always, false, 0, 0⟩,  -- POS_MISSED
  ⟨0x1105, 1, 1, 6, 6, .u32, .ro, .none, [0], .any, .always, false, 0, 0⟩,  -- POS_STEP
  ⟨0x1105, 1, 1, 7, 7, .u32, .ro, .none, [0], .any, .always, false, 0, 0⟩,  -- DUP_DISCARD
  ⟨0x1105, 1, 1, 8, 8, .u32, .ro, .none, [0], .any, .always, false, 0, 0⟩,  -- EVENT_LOST
  ⟨0x1105, 1, 1, 9, 9, .u32, .ro, .none, [0], .any, .always, false, 0, 0⟩,  -- WRAP_COUNT
  ⟨0x1105, 1, 1, 10, 10, .u32, .ro, .none, [0], .any, .always, false, 0, 0⟩,  -- KIND_UNKNOWN
  ⟨0x1105, 1, 1, 11, 11, .u32, .ro, .none, [0], .any, .always, false, 0, 0⟩,  -- GEYSER_MISSED
  ⟨0x1180, 1, 1, 0, 3, .u8, .ro, .none, [0], .any, .always, false, 0, 0⟩,  -- GEYSER_STATE
  ⟨0x1181, 1, 1, 0, 3, .u64, .ro, .none, [0], .any, .always, false, 0, 0⟩,  -- GEYSER_TARGET
  ⟨0x1182, 1, 1, 0, 3, .u64, .ro, .none, [0], .any, .always, false, 0, 0⟩,  -- GEYSER_TAKEN_CT
  ⟨0x1000, 1, 1, 0, 0, .u32, .ro, .none, [15736229], .any, .always, false, 0, 0⟩,  -- VENDOR_ID
  ⟨0x1000, 1, 1, 1, 1, .u8, .ro, .none, [0], .any, .always, false, 0, 0⟩,  -- PART
  ⟨0x1000, 1, 1, 2, 2, .u8, .ro, .none, [0], .any, .always, false, 0, 0⟩,  -- GRADE
  ⟨0x1000, 1, 1, 3, 3, .u16, .ro, .none, [0], .any, .always, false, 0, 0⟩,  -- PORT_MASK
  ⟨0x1000, 1, 1, 4, 4, .u64, .ro, .none, [0], .any, .always, false, 0, 0⟩,  -- SERIAL
  ⟨0x1000, 1, 1, 5, 5, .u8, .ro, .none, [0], .any, .always, false, 0, 0⟩,  -- DIE_STEP
  ⟨0x1000, 1, 1, 6, 6, .u32, .ro, .none, [0], .any, .always, false, 0, 0⟩,  -- ROM_VERSION
  ⟨0x1000, 1, 1, 7, 7, .u16, .ro, .none, [256], .any, .always, false, 0, 0⟩,  -- DICT_VERSION
  ⟨0x1000, 1, 1, 8, 8, .u16, .ro, .none, [0], .any, .always, false, 0, 0⟩   -- OBJECT_COUNT
  ]

/-- Objects: unit-wide DOMAIN tables. -/
def objsU : List Obj := [
  ⟨0x5f00, 1, 4, 0, 0, .dom, .ro, .none, [0], .any, .always, false, 0, 0⟩,  -- GEYSER_BANK
  ⟨0x5e00, 1, 1, 0, 0, .dom, .ro, .none, [0], .any, .always, false, 0, 0⟩,  -- DICT_DIRECTORY
  ⟨0x4400, 1, 16, 0, 0, .dom, .rws, .sheet, [0], .any, .always, false, 2, 10924⟩,  -- MATRIX
  ⟨0x4410, 1, 8, 0, 0, .dom, .rws, .sheet, [0], .any, .always, false, 2, 1⟩,  -- KERNEL
  ⟨0x4420, 1, 8, 0, 0, .dom, .rws, .sheet, [0], .any, .always, false, 2, 3642⟩,  -- MASK
  ⟨0x4500, 1, 4, 0, 0, .dom, .rwa, .imm, [0], .any, .always, false, 0, 170⟩,  -- CAL_SETS
  ⟨0x4600, 1, 2, 0, 0, .dom, .rw, .imm, [0], .any, .always, false, 0, 129⟩,  -- LIN_TABLE
  ⟨0x4602, 1, 2, 0, 0, .dom, .rw, .imm, [0], .any, .always, false, 0, 1366⟩,  -- DEFECT_TABLE
  ⟨0x4604, 1, 2, 0, 0, .dom, .rw, .imm, [0], .any, .always, false, 0, 260⟩,  -- DENSITY_LUT
  ⟨0x4610, 1, 16, 0, 0, .dom, .ro, .none, [0], .any, .always, false, 0, 1025⟩,  -- PROFILE_LAST
  ⟨0x4620, 1, 2, 0, 0, .dom, .ro, .none, [0], .any, .always, false, 0, 8⟩,  -- MARKS_LAST
  ⟨0x4700, 1, 16, 0, 0, .dom, .ro, .none, [0], .any, .always, false, 0, 768⟩,  -- NOZZLE_REPORT
  ⟨0x4622, 1, 2, 0, 0, .dom, .ro, .none, [0], .any, .always, false, 0, 6⟩,  -- FRAME_LAST
  ⟨0x5000, 1, 1, 0, 0, .dom, .woa, .imm, [0], .any, .special, true, 0, 87439⟩,  -- FW_IMAGE
  ⟨0x5d00, 1, 1, 0, 0, .dom, .ro, .none, [0], .any, .always, true, 0, 911⟩   -- LOG_WINDOW
  ]

/-- Objects: dictionary (R144). -/
def objsB : List Obj := [
  ⟨0x1200, 1, 1, 0, 0, .u32, .ro, .none, [0], .any, .always, false, 0, 0⟩,  -- REQ_COUNT
  ⟨0x1200, 1, 1, 1, 1, .u32, .ro, .none, [0], .any, .always, false, 0, 0⟩,  -- REQ_ERRORS
  ⟨0x1200, 1, 1, 2, 2, .u32, .ro, .none, [0], .any, .always, false, 0, 0⟩,  -- BUSY_COUNT
  ⟨0x1200, 1, 1, 3, 3, .u32, .ro, .none, [0], .any, .always, false, 0, 0⟩,  -- FW_TIMEOUT
  ⟨0x1200, 1, 1, 4, 4, .u32, .ro, .none, [0], .any, .always, false, 0, 0⟩,  -- BCAST_REFUSED
  ⟨0x1200, 1, 1, 5, 5, .u8, .ro, .none, [0], .any, .always, false, 0, 0⟩,  -- BCAST_LAST_STATUS
  ⟨0x1200, 1, 1, 6, 6, .u32, .ro, .none, [0], .any, .always, false, 0, 0⟩,  -- GROUP_EXPIRED
  ⟨0x1200, 1, 1, 7, 7, .u32, .ro, .none, [0], .any, .always, false, 0, 0⟩,  -- SESSION_EXPIRED
  ⟨0x1210, 1, 1, 0, 0, .u16, .ro, .none, [0], .any, .always, false, 0, 0⟩,  -- GROUP_BUSY
  ⟨0x1210, 1, 1, 1, 15, .u8, .ro, .none, [0], .any, .always, false, 0, 0⟩,  -- GROUP_STATE
  ⟨0x1211, 1, 1, 0, 0, .u32, .ro, .none, [0], .any, .always, false, 0, 0⟩,  -- GROUP_EPOCH_LAST
  ⟨0x1211, 1, 1, 1, 15, .u32, .ro, .none, [0], .any, .always, false, 0, 0⟩,  -- COMMIT_EPOCH
  ⟨0x1212, 1, 1, 0, 2, .u32, .ro, .none, [0], .any, .always, false, 0, 0⟩,  -- COMMIT_EPOCH_LAST
  ⟨0x1213, 1, 1, 0, 0, .u32, .rw, .imm, [50000000], .between 500000 500000000, .always, false, 0, 0⟩,  -- GROUP_TIMEOUT
  ⟨0x1220, 1, 1, 0, 3, .u16, .ro, .none, [0], .any, .always, false, 0, 0⟩,  -- SESSION_INDEX
  ⟨0x1221, 1, 1, 0, 3, .u8, .ro, .none, [0], .any, .always, false, 0, 0⟩,  -- SESSION_STATE
  ⟨0x1222, 1, 1, 0, 3, .u32, .ro, .none, [0], .any, .always, false, 0, 0⟩,  -- SESSION_EPOCH
  ⟨0x1230, 1, 1, 0, 0, .u32, .ro, .none, [0], .any, .always, false, 0, 0⟩,  -- SEAL_LAST
  ⟨0x1230, 1, 1, 1, 1, .u32, .ro, .none, [0], .any, .always, false, 0, 0⟩,  -- SEAL_FLOOR
  ⟨0x1230, 1, 1, 2, 2, .u32, .ro, .none, [0], .any, .always, false, 0, 0⟩,  -- SEAL_REJECT_TAG
  ⟨0x1230, 1, 1, 3, 3, .u32, .ro, .none, [0], .any, .always, false, 0, 0⟩,  -- SEAL_REJECT_REPLAY
  ⟨0x1230, 1, 1, 4, 4, .u32, .ro, .none, [0], .any, .always, false, 0, 0⟩   -- SEAL_HOLD_COUNT
  ]

/-- Objects: Position Base (R175), part 1. -/
def objs20_1 : List Obj := [
  ⟨0x2000, 1, 1, 0, 0, .bool, .rw, .imm, [0], .any, .notArmed, false, 0, 0⟩,  -- ENC_ENABLE
  ⟨0x2000, 1, 1, 1, 1, .u8, .rw, .imm, [0], .oneOf [0, 1], .notArmed, false, 0, 0⟩,  -- ENC_INPUT
  ⟨0x2000, 1, 1, 2, 2, .bool, .rw, .imm, [0], .any, .notArmed, false, 0, 0⟩,  -- ENC_INVERT
  ⟨0x2000, 1, 1, 3, 3, .u8, .rw, .imm, [0], .oneOf [0, 1, 2], .notArmed, false, 0, 0⟩,  -- ENC_EDGE
  ⟨0x2000, 1, 1, 4, 4, .u8, .rw, .imm, [4], .any, .always, false, 0, 0⟩,  -- ENC_GLITCH
  ⟨0x2001, 1, 1, 0, 0, .u16, .rw, .imm, [0], .either 0 8 65535, .notArmed, false, 0, 0⟩,  -- TEETH
  ⟨0x2001, 1, 1, 1, 1, .u8, .rw, .imm, [0], .oneOf [0, 1, 2], .notArmed, false, 0, 0⟩,  -- REF_KIND
  ⟨0x2001, 1, 1, 2, 2, .u8, .rw, .imm, [1], .between 1 3, .notArmed, false, 0, 0⟩,  -- REF_GAP
  ⟨0x2001, 1, 1, 3, 3, .u8, .rw, .imm, [1], .between 0 8, .always, false, 0, 0⟩,  -- REF_TOL
  ⟨0x2001, 1, 1, 4, 4, .u32, .ro, .none, [0], .any, .always, false, 0, 0⟩,  -- TICKS_PER_REV
  ⟨0x2002, 1, 1, 0, 0, .u48, .ro, .none, [0], .any, .always, false, 0, 0⟩,  -- POS_LOCAL
  ⟨0x2002, 1, 1, 1, 1, .bool, .ro, .none, [0], .any, .always, false, 0, 0⟩,  -- POS_LOCAL_VALID
  ⟨0x2002, 1, 1, 2, 2, .q16, .ro, .none, [0], .any, .always, false, 0, 0⟩,  -- SPEED_LOCAL
  ⟨0x2002, 1, 1, 3, 3, .u8, .ro, .none, [2], .any, .always, false, 0, 0⟩,  -- MOTION
  ⟨0x2002, 1, 1, 4, 4, .u8, .ro, .none, [0], .any, .always, false, 0, 0⟩,  -- REF_STATE
  ⟨0x2002, 1, 1, 5, 5, .i16, .ro, .none, [0], .any, .always, false, 0, 0⟩,  -- REF_ERROR
  ⟨0x2002, 1, 1, 6, 6, .u48, .ro, .none, [0], .any, .always, false, 0, 0⟩,  -- REF_POS
  ⟨0x2002, 1, 1, 7, 7, .i32, .ro, .none, [0], .any, .always, false, 0, 0⟩,  -- SLEW_PENDING
  ⟨0x2002, 1, 1, 8, 8, .u8, .ro, .none, [0], .any, .always, false, 0, 0⟩,  -- HALL_CODE
  ⟨0x2003, 1, 1, 0, 0, .u32, .ro, .none, [0], .any, .always, false, 0, 0⟩,  -- TICK_GLITCH
  ⟨0x2003, 1, 1, 1, 1, .u32, .ro, .none, [0], .any, .always, false, 0, 0⟩,  -- TICK_OVERRATE
  ⟨0x2003, 1, 1, 2, 2, .u32, .ro, .none, [0], .any, .always, false, 0, 0⟩,  -- INTERVAL_IRREG
  ⟨0x2003, 1, 1, 3, 3, .u32, .ro, .none, [0], .any, .always, false, 0, 0⟩,  -- REF_ACCEPTED
  ⟨0x2003, 1, 1, 4, 4, .u32, .ro, .none, [0], .any, .always, false, 0, 0⟩,  -- REF_CORRECTED
  ⟨0x2003, 1, 1, 5, 5, .u32, .ro, .none, [0], .any, .always, false, 0, 0⟩,  -- REF_REJECTED
  ⟨0x2003, 1, 1, 6, 6, .u32, .ro, .none, [0], .any, .always, false, 0, 0⟩,  -- REF_SKIPPED
  ⟨0x2003, 1, 1, 7, 7, .u32, .ro, .none, [0], .any, .always, false, 0, 0⟩,  -- REF_LOST
  ⟨0x2003, 1, 1, 8, 8, .u32, .ro, .none, [0], .any, .always, false, 0, 0⟩,  -- HALL_INVALID
  ⟨0x2003, 1, 1, 9, 9, .u32, .ro, .none, [0], .any, .always, false, 0, 0⟩,  -- SLIP_EVENTS
  ⟨0x2003, 1, 1, 10, 10, .u32, .ro, .none, [0], .any, .always, false, 0, 0⟩,  -- SSI_READS
  ⟨0x2003, 1, 1, 11, 11, .u32, .ro, .none, [0], .any, .always, false, 0, 0⟩,  -- SSI_FAILED
  ⟨0x2003, 1, 1, 12, 12, .u32, .ro, .none, [0], .any, .always, false, 0, 0⟩,  -- SSI_CORRECTIONS
  ⟨0x2004, 1, 1, 0, 0, .u8, .rw, .imm, [1], .between 0 3, .always, false, 0, 0⟩,  -- INTERP_AVG
  ⟨0x2004, 1, 1, 1, 1, .u8, .rw, .imm, [4], .between 0 8, .always, false, 0, 0⟩,  -- SPEED_AVG
  ⟨0x2004, 1, 1, 2, 2, .u32, .rw, .imm, [5000000], .between 50000 500000000, .always, false, 0, 0⟩,  -- STOP_TIMEOUT
  ⟨0x2005, 1, 1, 0, 0, .u8, .rw, .imm, [2], .oneOf [0, 1, 2, 3], .notArmed, false, 0, 0⟩,  -- DIR_SOURCE
  ⟨0x2005, 1, 1, 1, 1, .bool, .rw, .imm, [0], .any, .notArmed, false, 0, 0⟩,  -- HALL_INVERT
  ⟨0x2005, 1, 1, 2, 2, .u16, .rw, .imm, [20], .between 0 1000, .always, false, 0, 0⟩,  -- HALL_FILTER
  ⟨0x2005, 1, 1, 3, 3, .q16, .rw, .imm, [0], .any, .always, false, 0, 0⟩,  -- SLIP_STEP_TICKS
  ⟨0x2005, 1, 1, 4, 4, .u8, .rw, .imm, [24], .between 6 255, .always, false, 0, 0⟩   -- SLIP_WINDOW
  ]

/-- Objects: Position Base (R175), part 2. -/
def objs20_2 : List Obj := [
  ⟨0x2005, 1, 1, 5, 5, .u8, .rw, .imm, [5], .between 1 50, .always, false, 0, 0⟩,  -- SLIP_TOL
  ⟨0x2005, 1, 1, 6, 6, .bool, .rw, .imm, [0], .any, .notArmed, false, 0, 0⟩,  -- DIR_PIN_INVERT
  ⟨0x2006, 1, 1, 0, 0, .bool, .rw, .imm, [0], .any, .always, false, 0, 0⟩,  -- SSI_ENABLE
  ⟨0x2006, 1, 1, 1, 1, .u8, .rw, .imm, [13], .special, .always, false, 0, 0⟩,  -- SSI_BITS
  ⟨0x2006, 1, 1, 2, 2, .u8, .rw, .imm, [0], .special, .always, false, 0, 0⟩,  -- SSI_STATUS_BITS
  ⟨0x2006, 1, 1, 3, 3, .u8, .rw, .imm, [0], .any, .always, false, 0, 0⟩,  -- SSI_ERR_MASK
  ⟨0x2006, 1, 1, 4, 4, .bool, .rw, .imm, [1], .any, .always, false, 0, 0⟩,  -- SSI_GRAY
  ⟨0x2006, 1, 1, 5, 5, .u16, .rw, .imm, [1000], .between 100 4000, .always, false, 0, 0⟩,  -- SSI_CLOCK
  ⟨0x2006, 1, 1, 6, 6, .u8, .rw, .imm, [0], .between 0 125, .always, false, 0, 0⟩,  -- SSI_LINE_DELAY
  ⟨0x2006, 1, 1, 7, 7, .u16, .rw, .imm, [20], .between 1 1000, .always, false, 0, 0⟩,  -- SSI_MONOFLOP
  ⟨0x2006, 1, 1, 8, 8, .u8, .rw, .imm, [1], .oneOf [0, 1], .always, false, 0, 0⟩,  -- SSI_CHECK
  ⟨0x2006, 1, 1, 9, 9, .q16, .rw, .imm, [65536], .any, .always, false, 0, 0⟩,  -- SSI_SCALE
  ⟨0x2006, 1, 1, 10, 10, .u48, .rw, .imm, [0], .any, .always, false, 0, 0⟩,  -- SSI_OFFSET
  ⟨0x2006, 1, 1, 11, 11, .u48, .rw, .imm, [0], .any, .always, false, 0, 0⟩,  -- SSI_MODULUS
  ⟨0x2006, 1, 1, 12, 12, .bool, .rw, .imm, [1], .any, .always, false, 0, 0⟩,  -- SSI_AT_START
  ⟨0x2006, 1, 1, 13, 13, .u16, .rw, .imm, [64], .between 1 1024, .always, false, 0, 0⟩,  -- SSI_MAX_CORR
  ⟨0x2006, 1, 1, 14, 14, .u8, .rw, .imm, [0], .oneOf [1, 2], .always, false, 0, 0⟩,  -- SSI_COMMAND
  ⟨0x2006, 1, 1, 15, 15, .u8, .ro, .none, [0], .any, .always, false, 0, 0⟩,  -- SSI_RESULT
  ⟨0x2006, 1, 1, 16, 16, .u32, .ro, .none, [0], .any, .always, false, 0, 0⟩,  -- SSI_RAW
  ⟨0x2006, 1, 1, 17, 17, .u48, .ro, .none, [0], .any, .always, false, 0, 0⟩,  -- SSI_POS
  ⟨0x2006, 1, 1, 18, 18, .i32, .ro, .none, [0], .any, .always, false, 0, 0⟩,  -- SSI_DIFF
  ⟨0x2006, 1, 1, 19, 19, .u64, .ro, .none, [0], .any, .always, false, 0, 0⟩,  -- SSI_FREEZE_CT
  ⟨0x2007, 1, 1, 0, 0, .u8, .rw, .imm, [0], .oneOf [0, 1], .special, false, 0, 0⟩,  -- POS_ROLE
  ⟨0x2007, 1, 1, 1, 1, .u64, .rw, .imm, [0], .any, .always, false, 0, 0⟩,  -- POS_SWITCH_CT
  ⟨0x2007, 1, 1, 2, 2, .u8, .rw, .imm, [0], .between 0 254, .always, false, 0, 0⟩,  -- POS_SOURCE_ADDR
  ⟨0x2007, 1, 1, 3, 3, .u48, .rw, .imm, [0], .any, .notArmed, false, 0, 0⟩,  -- POS_PRESET
  ⟨0x2007, 1, 1, 4, 4, .u8, .rw, .imm, [0], .oneOf [0, 1, 2], .always, false, 0, 0⟩,  -- ENC_OUT_MODE
  ⟨0x2007, 1, 1, 5, 5, .u16, .rw, .imm, [1], .between 1 65535, .always, false, 0, 0⟩,  -- ENC_OUT_DIV
  ⟨0x2007, 1, 1, 6, 6, .u8, .ro, .none, [0], .any, .always, false, 0, 0⟩,  -- POS_SOURCE_SEEN
  ⟨0x2007, 1, 1, 7, 7, .u8, .ro, .none, [0], .any, .always, false, 0, 0⟩   -- ROLE_IN_FORCE
  ]

/-- Objects: Position Base (R175). -/
def objs20 : List Obj := objs20_1 ++ objs20_2

/-- Objects: Line Scheduler (R213, R214), part 1. -/
def objs21_1 : List Obj := [
  ⟨0x2100, 1, 1, 0, 0, .bool, .rw, .imm, [0], .any, .special, false, 0, 0⟩,  -- GRID_ENABLE
  ⟨0x2100, 1, 1, 1, 1, .u48, .rw, .imm, [0], .any, .gridOff, false, 0, 0⟩,  -- LINE_ORIGIN
  ⟨0x2100, 1, 1, 2, 2, .q16, .rws, .sheet, [16777216], .between 4194304 4294967295, .always, false, 4, 0⟩,  -- LINE_PITCH
  ⟨0x2100, 1, 1, 3, 3, .u8, .rw, .imm, [0], .oneOf [0, 1, 2], .gridOff, false, 0, 0⟩,  -- GRID_DIR
  ⟨0x2100, 1, 1, 4, 4, .u16, .rws, .band, [1024], .between 1 65535, .always, false, 0, 0⟩,  -- BAND_LEN
  ⟨0x2100, 1, 1, 5, 5, .u32, .rw, .imm, [0], .any, .gridOff, false, 0, 0⟩,  -- BAND_PHASE
  ⟨0x2101, 1, 1, 0, 0, .u32, .ro, .none, [0], .any, .always, false, 0, 0⟩,  -- LINE_NOW
  ⟨0x2101, 1, 1, 1, 1, .u32, .ro, .none, [0], .any, .always, false, 0, 0⟩,  -- NEXT_LINE
  ⟨0x2101, 1, 1, 2, 2, .u32, .ro, .none, [0], .any, .always, false, 0, 0⟩,  -- NEXT_BAND_LINE
  ⟨0x2101, 1, 1, 3, 3, .u32, .ro, .none, [4294967295], .any, .always, false, 0, 0⟩,  -- NEXT_SHEET_LINE
  ⟨0x2101, 1, 1, 4, 4, .u64, .ro, .none, [0], .any, .always, false, 0, 0⟩,  -- NEXT_LINE_CT
  ⟨0x2101, 1, 1, 5, 5, .u8, .ro, .none, [0], .any, .always, false, 0, 0⟩,  -- FREEZE_STATE
  ⟨0x2101, 1, 1, 6, 6, .u32, .ro, .none, [0], .any, .always, false, 0, 0⟩,  -- PASS_COUNT
  ⟨0x2101, 1, 1, 7, 7, .u32, .ro, .none, [0], .any, .always, false, 0, 0⟩,  -- LINE_EVENTS
  ⟨0x2101, 1, 1, 8, 8, .u32, .ro, .none, [0], .any, .always, false, 0, 0⟩,  -- FREEZE_SHORT
  ⟨0x2101, 1, 1, 9, 9, .u32, .ro, .none, [0], .any, .always, false, 0, 0⟩,  -- LINE_BURST
  ⟨0x2102, 1, 1, 0, 0, .u8, .rw, .imm, [0], .oneOf [0, 1, 2, 3, 4], .special, false, 0, 0⟩,  -- SHEET_SOURCE
  ⟨0x2102, 1, 1, 1, 1, .u8, .rw, .imm, [0], .oneOf [0, 1], .always, false, 0, 0⟩,  -- CUE_SELECT
  ⟨0x2102, 1, 1, 2, 2, .u8, .rw, .imm, [0], .oneOf [0, 1], .always, false, 0, 0⟩,  -- CUE_EDGE
  ⟨0x2102, 1, 1, 3, 3, .u16, .rw, .imm, [10], .between 0 1000, .always, false, 0, 0⟩,  -- CUE_FILTER
  ⟨0x2102, 1, 1, 4, 4, .i32, .rw, .imm, [0], .any, .always, false, 0, 0⟩,  -- CUE_OFFSET
  ⟨0x2102, 1, 1, 5, 5, .u32, .rw, .imm, [16], .between 1 4294967295, .always, false, 0, 0⟩,  -- SHEET_MIN
  ⟨0x2102, 1, 1, 6, 6, .u32, .rw, .imm, [0], .any, .always, false, 0, 0⟩,  -- SHEET_LINES
  ⟨0x2102, 1, 1, 7, 7, .u48, .rw, .imm, [0], .any, .special, false, 0, 0⟩,  -- SHEET_AT
  ⟨0x2102, 1, 1, 8, 8, .u8, .ro, .none, [0], .any, .always, false, 0, 0⟩,  -- SHEET_QUEUE
  ⟨0x2102, 1, 1, 9, 9, .u32, .ro, .none, [0], .any, .always, false, 0, 0⟩,  -- SHEET_COUNT
  ⟨0x2102, 1, 1, 10, 10, .u32, .ro, .none, [0], .any, .always, false, 0, 0⟩,  -- LAST_SHEET_LINE
  ⟨0x2102, 1, 1, 11, 11, .u32, .ro, .none, [0], .any, .always, false, 0, 0⟩,  -- CUE_IGNORED
  ⟨0x2102, 1, 1, 12, 12, .u32, .ro, .none, [0], .any, .always, false, 0, 0⟩,  -- SHEET_QUEUE_FULL
  ⟨0x2102, 1, 1, 13, 13, .u32, .ro, .none, [0], .any, .always, false, 0, 0⟩,  -- SHEET_LATE
  ⟨0x2102, 1, 1, 14, 14, .u32, .ro, .none, [0], .any, .always, false, 0, 0⟩,  -- SHEET_MERGED
  ⟨0x2108, 1, 1, 0, 0, .u8, .rws, .line, [0], .oneOf [0, 1, 2], .always, false, 4, 0⟩,  -- OVERRUN_POLICY
  ⟨0x2108, 1, 1, 1, 1, .u8, .rws, .line, [64], .between 1 255, .always, false, 4, 0⟩,  -- DEFER_LIMIT
  ⟨0x2108, 1, 1, 2, 2, .u16, .ro, .none, [0], .any, .always, false, 0, 0⟩,  -- OVERSPEED_PORTS
  ⟨0x2108, 1, 1, 3, 3, .u16, .ro, .none, [0], .any, .always, false, 0, 0⟩,  -- OVERSPEED_WARN_PORTS
  ⟨0x2160, 1, 1, 0, 0, .u8, .ro, .none, [0], .any, .always, false, 0, 0⟩,  -- GPO_LEVEL
  ⟨0x2160, 1, 1, 1, 1, .u8, .rw, .imm, [0], .any, .always, false, 0, 0⟩,  -- GPO_INVERT
  ⟨0x2160, 1, 1, 2, 2, .u16, .rw, .imm, [0], .any, .always, false, 0, 0⟩,  -- GPO_FORCE
  ⟨0x2160, 1, 1, 3, 3, .u8, .rw, .imm, [0], .any, .always, false, 0, 0⟩,  -- CAM_TRIG_INVERT
  ⟨0x2140, 1, 32, 0, 0, .u32, .rw, .imm, [0], .special, .special, false, 0, 0⟩   -- CMP_CTRL
  ]

/-- Objects: Line Scheduler (R213, R214), part 2. -/
def objs21_2 : List Obj := [
  ⟨0x2140, 1, 32, 1, 1, .u48, .rw, .imm, [0], .special, .special, false, 0, 0⟩,  -- CMP_TARGET
  ⟨0x2140, 1, 32, 2, 2, .q16, .rw, .imm, [0], .any, .special, false, 0, 0⟩,  -- CMP_PERIOD
  ⟨0x2140, 1, 32, 3, 3, .u32, .rw, .imm, [0], .any, .special, false, 0, 0⟩,  -- CMP_REPEAT
  ⟨0x2140, 1, 32, 4, 4, .u32, .rw, .imm, [0], .between 0 100000, .special, false, 0, 0⟩,  -- CMP_ADVANCE
  ⟨0x2140, 1, 32, 5, 5, .u32, .rw, .imm, [500], .between 1 500000, .special, false, 0, 0⟩,  -- CMP_WIDTH
  ⟨0x2140, 1, 32, 6, 6, .u8, .ro, .none, [0], .any, .always, false, 0, 0⟩,  -- CMP_STATUS
  ⟨0x2140, 1, 32, 7, 7, .u64, .ro, .none, [0], .any, .always, false, 0, 0⟩,  -- CMP_FIRED_CT
  ⟨0x2140, 1, 32, 8, 8, .u48, .ro, .none, [0], .any, .always, false, 0, 0⟩,  -- CMP_FIRED_POS
  ⟨0x2140, 1, 32, 9, 9, .u32, .ro, .none, [0], .any, .always, false, 0, 0⟩,  -- CMP_FIRE_COUNT
  ⟨0x2140, 1, 32, 10, 10, .u32, .ro, .none, [0], .any, .always, false, 0, 0⟩   -- CMP_SKIPPED
  ]

/-- Objects: Line Scheduler (R213, R214). -/
def objs21 : List Obj := objs21_1 ++ objs21_2

/-- Objects: head ports, part 1. -/
def objsP_1 : List Obj := [
  ⟨0x3000, 16, 16, 0, 0, .u32, .rws, .sheet, [0], .between 0 1048575, .always, false, 1, 0⟩,  -- STAGGER
  ⟨0x3000, 16, 16, 1, 1, .i32, .rws, .sheet, [0], .any, .always, false, 4, 0⟩,  -- FINE_OFFSET
  ⟨0x3000, 16, 16, 2, 2, .i32, .ro, .none, [0], .any, .always, false, 0, 0⟩,  -- LOOP_OFFSET
  ⟨0x3000, 16, 16, 3, 3, .u32, .rws, .sheet, [0], .between 0 800000, .always, false, 4, 0⟩,  -- FLIGHT_ADV_S
  ⟨0x3000, 16, 16, 4, 4, .u32, .rws, .sheet, [0], .between 0 800000, .always, false, 4, 0⟩,  -- FLIGHT_ADV_M
  ⟨0x3000, 16, 16, 5, 5, .u32, .rws, .sheet, [0], .between 0 800000, .always, false, 4, 0⟩,  -- FLIGHT_ADV_L
  ⟨0x3000, 16, 16, 6, 6, .u8, .rws, .sheet, [2], .oneOf [1, 2, 3], .always, false, 4, 0⟩,  -- FLIGHT_SEL
  ⟨0x3000, 16, 16, 7, 7, .u32, .ro, .none, [33334], .any, .always, false, 0, 0⟩,  -- MIN_FIRE_PERIOD
  ⟨0x3001, 16, 16, 0, 0, .u32, .ro, .none, [0], .any, .always, false, 0, 0⟩,  -- DROP_COUNT
  ⟨0x3001, 16, 16, 1, 1, .u32, .ro, .none, [0], .any, .always, false, 0, 0⟩,  -- DEFER_COUNT
  ⟨0x3001, 16, 16, 2, 2, .u32, .ro, .none, [0], .any, .always, false, 0, 0⟩,  -- LAST_DROP_LINE
  ⟨0x3001, 16, 16, 3, 3, .u32, .ro, .none, [0], .any, .always, false, 0, 0⟩,  -- LAST_DEFER_LINE
  ⟨0x3001, 16, 16, 4, 4, .u32, .rw, .imm, [0], .oneOf [0], .always, false, 0, 0⟩,  -- MAX_LATENESS
  ⟨0x3001, 16, 16, 5, 5, .u64, .ro, .none, [0], .any, .always, false, 0, 0⟩,  -- LAST_FIRE_CT
  ⟨0x3001, 16, 16, 6, 6, .u32, .ro, .none, [0], .any, .always, false, 0, 0⟩,  -- LAST_FIRE_LINE
  ⟨0x3002, 16, 16, 0, 0, .u8, .rws, .sheet, [0], .between 0 15, .always, false, 1, 0⟩,  -- PLANE_SEL
  ⟨0x3002, 16, 16, 1, 1, .i32, .rws, .sheet, [0], .between (-65536) 65535, .always, false, 1, 0⟩,  -- COL_BASE
  ⟨0x3002, 16, 16, 2, 2, .u16, .ro, .none, [0], .any, .always, false, 0, 0⟩,  -- GEOM_COST
  ⟨0x3002, 16, 16, 3, 3, .u8, .ro, .none, [0], .any, .always, false, 0, 0⟩,  -- GEOM_ROWMAX
  ⟨0x3002, 16, 16, 4, 4, .u32, .ro, .none, [0], .any, .always, false, 0, 0⟩,  -- MISSING_COUNT
  ⟨0x3002, 16, 16, 5, 5, .u32, .ro, .none, [0], .any, .always, false, 0, 0⟩,  -- LAST_MISSING_LINE
  ⟨0x3002, 16, 16, 6, 6, .u16, .ro, .none, [0], .any, .always, false, 0, 0⟩,  -- MISSING_NOZZLES
  ⟨0x3002, 16, 16, 7, 7, .u32, .ro, .none, [0], .any, .always, false, 0, 0⟩,  -- ASSEMBLY_LATE
  ⟨0x3003, 16, 16, 0, 0, .u8, .rws, .sheet, [0], .oneOf [0, 1], .always, false, 2, 0⟩,  -- SCREEN_MODE
  ⟨0x3003, 16, 16, 1, 1, .u8, .rws, .sheet, [0], .between 0 15, .always, false, 2, 0⟩,  -- MATRIX_SEL
  ⟨0x3003, 16, 16, 2, 2, .u8, .rws, .sheet, [0], .any, .always, false, 2, 0⟩,  -- MATRIX_COL_PHASE
  ⟨0x3003, 16, 16, 3, 3, .u8, .rws, .sheet, [0], .any, .always, false, 2, 0⟩,  -- MATRIX_LINE_PHASE
  ⟨0x3003, 16, 16, 4, 4, .u8, .rws, .sheet, [0], .between 0 7, .always, false, 2, 0⟩,  -- KERNEL_SEL
  ⟨0x3003, 16, 16, 5, 5, .u8, .rws, .sheet, [1], .any, .always, false, 2, 0⟩,  -- DIFF_CTRL
  ⟨0x3003, 16, 16, 6, 6, .u16, .rws, .sheet, [2048], .between 256 4095, .always, false, 2, 0⟩,  -- ERR_LIMIT
  ⟨0x3003, 16, 16, 7, 7, .u8, .rws, .sheet, [14], .special, .always, false, 2, 0⟩,  -- CODE_SET
  ⟨0x3003, 16, 16, 8, 8, .u48, .rws, .sheet, [17588069991765], .special, .always, false, 2, 0⟩,  -- LEVELS
  ⟨0x3003, 16, 16, 9, 9, .u8, .rws, .band, [1], .oneOf [0, 1], .always, false, 2, 0⟩,  -- REDIST_SCOPE
  ⟨0x3003, 16, 16, 10, 10, .u8, .rws, .band, [8], .between 1 64, .always, false, 2, 0⟩,  -- REDIST_REACH
  ⟨0x3003, 16, 16, 11, 11, .u8, .rws, .band, [128], .any, .always, false, 2, 0⟩,  -- REDIST_WEIGHT
  ⟨0x3003, 16, 16, 12, 12, .u16, .rws, .band, [256], .between 0 256, .always, false, 2, 0⟩,  -- REDIST_SOLO
  ⟨0x3003, 16, 16, 13, 13, .u8, .rws, .sheet, [255], .either 255 0 7, .always, false, 2, 0⟩,  -- MASK_SEL
  ⟨0x3004, 16, 16, 0, 0, .u32, .ro, .none, [0], .any, .always, false, 2, 0⟩,  -- LINES_SCREENED
  ⟨0x3004, 16, 16, 1, 1, .u16, .ro, .none, [0], .any, .always, false, 2, 0⟩,  -- DEAD_IN_FORCE
  ⟨0x3004, 16, 16, 2, 2, .u16, .ro, .none, [0], .any, .always, false, 2, 0⟩   -- DEAD_UNCOVERED
  ]

/-- Objects: head ports, part 2. -/
def objsP_2 : List Obj := [
  ⟨0x3004, 16, 16, 3, 3, .u32, .ro, .none, [0], .any, .always, false, 2, 0⟩,  -- REDIST_CLIP
  ⟨0x3004, 16, 16, 4, 4, .u64, .ro, .none, [0], .any, .always, false, 2, 0⟩,  -- CODE1_COUNT
  ⟨0x3004, 16, 16, 5, 5, .u64, .ro, .none, [0], .any, .always, false, 2, 0⟩,  -- CODE2_COUNT
  ⟨0x3004, 16, 16, 6, 6, .u64, .ro, .none, [0], .any, .always, false, 2, 0⟩,  -- CODE3_COUNT
  ⟨0x3004, 16, 16, 7, 7, .u32, .ro, .none, [0], .any, .always, false, 2, 0⟩,  -- PORT_TABLE_ERRORS
  ⟨0x3005, 16, 16, 0, 3, .u8, .rws, .line, [0], .between 0 15, .always, false, 4, 0⟩,  -- WAVE_SEL
  ⟨0x3005, 16, 16, 4, 7, .u16, .rws, .sheet, [0], .between 0 16000, .always, false, 4, 0⟩,  -- CH_SKEW
  ⟨0x3005, 16, 16, 8, 12, .i16, .rws, .sheet, [400, 560, 720, 880, 1040], .special, .always, false, 4, 0⟩,  -- SCALE_TEMP
  ⟨0x3005, 16, 16, 13, 13, .u32, .rw, .imm, [0], .any, .always, false, 0, 0⟩,  -- IDLE_TICKLE
  ⟨0x3006, 16, 16, 0, 3, .u16, .rwa, .sheet, [32768], .any, .always, false, 4, 0⟩,  -- REST_LEVEL
  ⟨0x3006, 16, 16, 4, 7, .u16, .rwa, .sheet, [0], .any, .always, false, 4, 0⟩,  -- LEVEL_MIN
  ⟨0x3006, 16, 16, 8, 11, .u16, .rwa, .sheet, [65535], .any, .always, false, 4, 0⟩,  -- LEVEL_MAX
  ⟨0x3006, 16, 16, 12, 15, .u16, .rwa, .sheet, [512], .between 1 65535, .always, false, 4, 0⟩,  -- SLEW_MAX
  ⟨0x3007, 16, 16, 0, 0, .u32, .rws, .sheet, [46137344], .special, .always, false, 3, 0⟩,  -- LINK_PROFILE
  ⟨0x3007, 16, 16, 1, 1, .u32, .rws, .sheet, [169085440], .special, .always, false, 3, 0⟩,  -- LINK_TIMING
  ⟨0x3007, 16, 16, 2, 2, .u8, .rws, .sheet, [64], .between 1 64, .always, false, 3, 0⟩,  -- FIRE_WORDS
  ⟨0x3007, 16, 16, 3, 3, .u16, .rws, .sheet, [1024], .any, .always, false, 4, 0⟩,  -- SENSE_TOL
  ⟨0x3007, 16, 16, 4, 4, .u8, .rws, .sheet, [16], .between 0 63, .always, false, 4, 0⟩,  -- SENSE_DELAY
  ⟨0x3008, 16, 16, 0, 0, .u8, .ro, .none, [0], .any, .always, false, 0, 0⟩,  -- PORT_STATE
  ⟨0x3008, 16, 16, 1, 1, .u32, .ro, .none, [0], .any, .always, false, 0, 0⟩,  -- FIRES
  ⟨0x3008, 16, 16, 2, 2, .u32, .ro, .none, [0], .any, .always, false, 0, 0⟩,  -- IDLE_FIRES
  ⟨0x3008, 16, 16, 3, 3, .u32, .ro, .none, [0], .any, .always, false, 0, 0⟩,  -- SHIP_LATE
  ⟨0x3008, 16, 16, 4, 4, .u32, .ro, .none, [0], .any, .always, false, 0, 0⟩,  -- GATE_SUPPRESSED
  ⟨0x3008, 16, 16, 5, 5, .u8, .ro, .none, [0], .any, .always, false, 0, 0⟩,  -- STOP_CAUSE
  ⟨0x3008, 16, 16, 6, 6, .u32, .ro, .none, [0], .any, .always, false, 0, 0⟩,  -- STOP_LINE
  ⟨0x3008, 16, 16, 7, 7, .u48, .ro, .none, [0], .any, .always, false, 0, 0⟩,  -- STOP_POS
  ⟨0x3008, 16, 16, 8, 8, .u64, .ro, .none, [0], .any, .always, false, 0, 0⟩,  -- STOP_CT
  ⟨0x3008, 16, 16, 9, 9, .u32, .ro, .none, [0], .any, .always, false, 0, 0⟩,  -- CLAMP_COUNT
  ⟨0x3008, 16, 16, 10, 10, .u32, .ro, .none, [0], .any, .always, false, 0, 0⟩,  -- SENSE_FAILS
  ⟨0x3008, 16, 16, 11, 11, .u8, .ro, .none, [0], .any, .always, false, 0, 0⟩,  -- SENSE_LAST_CH
  ⟨0x3008, 16, 16, 12, 12, .i32, .ro, .none, [0], .any, .always, false, 0, 0⟩,  -- SENSE_LAST_ERR
  ⟨0x3008, 16, 16, 13, 16, .u16, .ro, .none, [2048], .any, .always, false, 0, 0⟩,  -- SCALE_IN_FORCE
  ⟨0x3008, 16, 16, 17, 20, .u16, .ro, .none, [65535], .any, .always, false, 0, 0⟩,  -- WAVE_VALID
  ⟨0x3008, 16, 16, 21, 21, .u32, .ro, .none, [32], .any, .always, false, 0, 0⟩,  -- WAVE_SPAN
  ⟨0x3009, 16, 16, 0, 0, .u8, .rw, .imm, [15], .any, .always, false, 0, 0⟩,  -- THERM_MASK
  ⟨0x3009, 16, 16, 1, 1, .i16, .ro, .none, [0], .any, .always, false, 0, 0⟩,  -- HEAD_TEMP
  ⟨0x3009, 16, 16, 2, 2, .i16, .ro, .none, [0], .any, .always, false, 0, 0⟩,  -- HEAD_TEMP_MAX
  ⟨0x3009, 16, 16, 3, 3, .i16, .rw, .imm, [880], .special, .always, false, 0, 0⟩,  -- LIMIT_WARN
  ⟨0x3009, 16, 16, 4, 4, .i16, .rw, .imm, [960], .special, .always, false, 0, 0⟩,  -- LIMIT_SOFT
  ⟨0x3009, 16, 16, 5, 5, .i16, .rwa, .imm, [1040], .special, .always, false, 0, 0⟩   -- LIMIT_HARD
  ]

/-- Objects: head ports, part 3. -/
def objsP_3 : List Obj := [
  ⟨0x3009, 16, 16, 6, 6, .u16, .rw, .imm, [32], .between 0 320, .always, false, 0, 0⟩,  -- LIMIT_HYST
  ⟨0x3009, 16, 16, 7, 7, .u8, .ro, .none, [0], .any, .always, false, 0, 0⟩,  -- LIMIT_STATE
  ⟨0x3009, 16, 16, 8, 8, .u8, .rw, .imm, [0], .oneOf [0, 1, 2], .always, false, 0, 0⟩,  -- HEAT_MODE
  ⟨0x3009, 16, 16, 9, 9, .i16, .rw, .imm, [640], .any, .always, false, 0, 0⟩,  -- HEAT_SETPOINT
  ⟨0x3009, 16, 16, 10, 10, .u16, .rw, .imm, [2048], .any, .always, false, 0, 0⟩,  -- HEAT_KP
  ⟨0x3009, 16, 16, 11, 11, .u16, .rw, .imm, [16], .any, .always, false, 0, 0⟩,  -- HEAT_KI
  ⟨0x3009, 16, 16, 12, 12, .u16, .rwa, .imm, [768], .between 0 1024, .always, false, 0, 0⟩,  -- HEAT_DUTY_MAX
  ⟨0x3009, 16, 16, 13, 13, .u16, .rwa, .imm, [0], .between 0 1024, .always, false, 0, 0⟩,  -- HEAT_FIXED
  ⟨0x3009, 16, 16, 14, 14, .u16, .ro, .none, [0], .any, .always, false, 0, 0⟩,  -- HEAT_DUTY
  ⟨0x300a, 16, 16, 0, 0, .u8, .rws, .band, [255], .oneOf [0, 1, 255], .always, false, 1, 0⟩,  -- MAP_CAM
  ⟨0x300a, 16, 16, 1, 1, .i32, .rw, .imm, [0], .any, .always, false, 0, 0⟩,  -- MAP_X0
  ⟨0x300a, 16, 16, 2, 2, .q16, .rw, .imm, [131072], .between 1 4294967295, .always, false, 0, 0⟩,  -- MAP_PITCH
  ⟨0x300a, 16, 16, 3, 3, .u16, .rws, .band, [0], .between 0 8191, .always, false, 1, 0⟩,  -- MARK_COL
  ⟨0x300a, 16, 16, 4, 4, .u8, .rw, .imm, [3], .oneOf [0, 1, 2, 3], .always, false, 0, 0⟩,  -- CHECK_CHANNEL
  ⟨0x300a, 16, 16, 5, 5, .u8, .rw, .imm, [255], .special, .always, false, 0, 0⟩,  -- REG_REF
  ⟨0x300a, 16, 16, 6, 6, .i32, .rw, .imm, [0], .any, .always, false, 0, 0⟩,  -- REG_TARGET
  ⟨0x300a, 16, 16, 7, 7, .u8, .rw, .imm, [7], .any, .always, false, 0, 0⟩,  -- LOOP_APPLY
  ⟨0x300a, 16, 16, 8, 8, .u8, .rw, .imm, [0], .any, .always, false, 0, 0⟩,  -- LOOP_CLEAR
  ⟨0x300a, 16, 16, 9, 9, .u16, .ro, .none, [0], .any, .always, false, 0, 0⟩,  -- DEAD_LOOP
  ⟨0x300a, 16, 16, 10, 10, .u16, .ro, .none, [0], .any, .always, false, 0, 0⟩,  -- WEAK_COUNT
  ⟨0x300a, 16, 16, 11, 11, .u16, .ro, .none, [0], .any, .always, false, 0, 0⟩,  -- RESP_MEDIAN
  ⟨0x300a, 16, 16, 12, 12, .u16, .ro, .none, [0], .any, .always, false, 0, 0⟩,  -- BAR_MEDIAN
  ⟨0x300a, 16, 16, 13, 13, .i32, .ro, .none, [0], .any, .always, false, 0, 0⟩,  -- REG_ERROR
  ⟨0x300a, 16, 16, 14, 14, .i32, .ro, .none, [0], .any, .always, false, 0, 0⟩,  -- XTRACK_ERROR
  ⟨0x300a, 16, 16, 15, 15, .u32, .ro, .none, [0], .any, .always, false, 0, 0⟩,  -- CHECKS
  ⟨0x300a, 16, 16, 16, 16, .u16, .ro, .none, [0], .any, .always, false, 0, 0⟩   -- TRIM_SAT
  ]

/-- Objects: head ports. -/
def objsP : List Obj := objsP_1 ++ objsP_2 ++ objsP_3

/-- Objects: ingress (R246, R247). -/
def objs22 : List Obj := [
  ⟨0x2200, 1, 1, 0, 0, .u8, .rw, .imm, [0], .oneOf [0, 1, 2], .notArmed, false, 0, 0⟩,  -- INGRESS_MODE
  ⟨0x2200, 1, 1, 1, 1, .u8, .rw, .imm, [15], .any, .always, false, 0, 0⟩,  -- LANE_ENABLE
  ⟨0x2200, 1, 1, 2, 2, .u16, .rw, .imm, [64], .between 4 4096, .always, false, 0, 0⟩,  -- RASTER_LEAD
  ⟨0x2200, 1, 1, 3, 3, .u8, .rws, .line, [0], .oneOf [0, 1, 2], .always, false, 1, 0⟩,  -- LATE_POLICY
  ⟨0x2200, 1, 1, 4, 4, .u48, .rw, .imm, [0], .any, .notArmed, false, 0, 0⟩,  -- DS_BASE
  ⟨0x2200, 1, 1, 5, 5, .u32, .rw, .imm, [0], .between 0 2147483648, .notArmed, false, 0, 0⟩,  -- DS_SIZE
  ⟨0x2200, 1, 1, 6, 6, .u32, .ro, .none, [0], .any, .always, false, 0, 0⟩,  -- DS_USED
  ⟨0x2200, 1, 1, 7, 7, .u16, .rw, .imm, [0], .any, .notArmed, false, 0, 0⟩,  -- PLANE_ENABLE
  ⟨0x2200, 1, 1, 8, 8, .bool, .ro, .none, [0], .any, .always, false, 0, 0⟩,  -- INGRESS_READY
  ⟨0x2202, 1, 1, 0, 0, .u32, .ro, .none, [0], .any, .always, false, 0, 0⟩,  -- PACKETS_OK
  ⟨0x2202, 1, 1, 1, 1, .u32, .ro, .none, [0], .any, .always, false, 0, 0⟩,  -- PACKET_CRC
  ⟨0x2202, 1, 1, 2, 2, .u32, .ro, .none, [0], .any, .always, false, 0, 0⟩,  -- RASTER_AHEAD
  ⟨0x2202, 1, 1, 3, 3, .u32, .ro, .none, [0], .any, .always, false, 0, 0⟩,  -- RASTER_STALE
  ⟨0x2202, 1, 1, 4, 4, .u32, .ro, .none, [0], .any, .always, false, 0, 0⟩,  -- RASTER_ORDER
  ⟨0x2202, 1, 1, 5, 5, .u32, .ro, .none, [0], .any, .always, false, 0, 0⟩,  -- RASTER_INCOMPLETE
  ⟨0x2202, 1, 1, 6, 6, .u32, .ro, .none, [0], .any, .always, false, 0, 0⟩,  -- TABLE_FULL
  ⟨0x2202, 1, 1, 7, 7, .u32, .ro, .none, [0], .any, .always, false, 0, 0⟩,  -- PLANE_OFF
  ⟨0x2202, 1, 1, 8, 8, .u32, .ro, .none, [0], .any, .always, false, 0, 0⟩,  -- PACKET_FORMAT
  ⟨0x2202, 1, 1, 9, 9, .u32, .ro, .none, [0], .any, .always, false, 0, 0⟩,  -- CREDIT_VIOLATION
  ⟨0x2203, 1, 1, 0, 3, .u32, .ro, .none, [0], .any, .always, false, 0, 0⟩,  -- LANE_PACKETS
  ⟨0x2203, 1, 1, 4, 7, .u32, .ro, .none, [0], .any, .always, false, 0, 0⟩,  -- PSEQ_GAP
  ⟨0x2210, 1, 16, 0, 0, .u16, .rw, .imm, [2304], .between 1 65535, .notArmed, false, 0, 0⟩,  -- PLANE_WIDTH
  ⟨0x2210, 1, 16, 1, 1, .u8, .rw, .imm, [1], .oneOf [1, 2, 4, 8], .notArmed, false, 0, 0⟩,  -- PLANE_INTERLEAVE
  ⟨0x2210, 1, 16, 2, 2, .u32, .rw, .imm, [128], .between 8 2097152, .notArmed, false, 0, 0⟩,  -- PLANE_DEPTH
  ⟨0x2210, 1, 16, 3, 3, .u32, .rw, .imm, [0], .any, .notArmed, false, 0, 0⟩,  -- PLANE_FIRST_LINE
  ⟨0x2210, 1, 16, 4, 4, .u16, .rws, .line, [0], .any, .always, false, 1, 0⟩,  -- OUT_VALUE
  ⟨0x2210, 1, 16, 5, 5, .u32, .ro, .none, [0], .any, .always, false, 0, 0⟩,  -- DEPTH_NEEDED
  ⟨0x2210, 1, 16, 6, 6, .u32, .ro, .none, [0], .any, .always, false, 0, 0⟩,  -- LINE_WORDS
  ⟨0x2210, 1, 16, 7, 7, .u32, .ro, .none, [0], .any, .always, false, 0, 0⟩,  -- WINDOW_BOTTOM
  ⟨0x2210, 1, 16, 8, 8, .u32, .ro, .none, [0], .any, .always, false, 0, 0⟩,  -- WINDOW_TOP
  ⟨0x2210, 1, 16, 9, 9, .u32, .ro, .none, [0], .any, .always, false, 0, 0⟩,  -- LINES_COMPLETE
  ⟨0x2210, 1, 16, 10, 10, .u32, .ro, .none, [0], .any, .always, false, 0, 0⟩   -- LAST_COMPLETE_LINE
  ]

/-- Objects: DOMAIN tables of ports. -/
def objsT : List Obj := [
  ⟨0x4000, 64, 16, 0, 0, .dom, .rws, .sheet, [0], .any, .always, false, 1, 768⟩,  -- NOZZLE_GEOMETRY
  ⟨0x4001, 64, 16, 0, 0, .dom, .rws, .band, [0], .any, .always, false, 2, 768⟩,  -- NOZZLE_CORR
  ⟨0x4002, 64, 16, 0, 0, .dom, .rws, .band, [0], .any, .always, false, 2, 257⟩,  -- TONE_CURVE
  ⟨0x4003, 64, 16, 0, 0, .dom, .ro, .band, [0], .any, .always, false, 2, 768⟩,  -- LOOP_MAP
  ⟨0x4008, 64, 16, 0, 0, .dom, .rws, .sheet, [0], .any, .always, false, 4, 528⟩,  -- WAVE_TABLES
  ⟨0x4009, 64, 16, 0, 0, .dom, .rws, .sheet, [0], .any, .always, false, 4, 528⟩,  -- WAVE_TABLES
  ⟨0x400a, 64, 16, 0, 0, .dom, .rws, .sheet, [0], .any, .always, false, 4, 528⟩,  -- WAVE_TABLES
  ⟨0x400b, 64, 16, 0, 0, .dom, .rws, .sheet, [0], .any, .always, false, 4, 528⟩,  -- WAVE_TABLES
  ⟨0x400c, 64, 16, 0, 0, .dom, .ro, .none, [0], .any, .always, true, 0, 29⟩,  -- HEAD_IDENTITY
  ⟨0x4010, 64, 16, 0, 0, .dom, .rw, .imm, [0], .any, .always, false, 0, 17⟩   -- THERM_CURVE
  ]

/-- Objects: screening (R274). -/
def objs23 : List Obj := [
  ⟨0x2300, 1, 1, 0, 0, .u16, .ro, .none, [2880], .any, .always, false, 0, 0⟩,  -- SCREEN_CLOCKS
  ⟨0x2300, 1, 1, 1, 1, .u32, .ro, .none, [0], .any, .always, false, 0, 0⟩   -- SCREEN_TABLE_ERRORS
  ]

/-- Objects: firing (R319). -/
def objs24 : List Obj := [
  ⟨0x2400, 1, 1, 0, 0, .u16, .rwa, .imm, [0], .any, .special, false, 0, 0⟩,  -- FIRE_ARM
  ⟨0x2400, 1, 1, 1, 1, .u16, .rw, .imm, [0], .any, .always, false, 0, 0⟩,  -- FIRE_DISARM
  ⟨0x2400, 1, 1, 2, 2, .u16, .ro, .none, [0], .any, .always, false, 0, 0⟩,  -- ARMED_PORTS
  ⟨0x2400, 1, 1, 3, 3, .u16, .ro, .none, [0], .any, .always, false, 0, 0⟩,  -- ARM_REFUSE
  ⟨0x2400, 1, 1, 4, 4, .u16, .ro, .none, [0], .any, .always, false, 0, 0⟩,  -- ARM_REFUSE_PORTS
  ⟨0x2400, 1, 1, 5, 5, .bool, .ro, .none, [0], .any, .always, false, 0, 0⟩,  -- FIRE_INHIBIT
  ⟨0x2400, 1, 1, 6, 6, .u32, .ro, .none, [0], .any, .always, false, 0, 0⟩,  -- ARM_COUNT
  ⟨0x2401, 1, 1, 0, 3, .u32, .rwa, .imm, [4294903818], .special, .notArmed, false, 0, 0⟩,  -- GATE_CFG
  ⟨0x2401, 1, 1, 4, 4, .u8, .ro, .none, [0], .any, .always, false, 0, 0⟩,  -- GATE_LEVEL
  ⟨0x2401, 1, 1, 5, 8, .u32, .ro, .none, [0], .any, .always, false, 0, 0⟩   -- GATE_CUTS
  ]

/-- Objects: waveforms and drive calibration (R319, R351, R352), part 1. -/
def objs25_1 : List Obj := [
  ⟨0x2500, 1, 1, 0, 0, .u16, .rwa, .imm, [64], .between 1 4096, .always, false, 0, 0⟩,  -- SAFE_SLEW
  ⟨0x2500, 1, 1, 1, 1, .u16, .rw, .imm, [2], .between 1 4095, .always, false, 0, 0⟩,  -- SCALE_STEP
  ⟨0x2500, 1, 1, 2, 2, .bool, .rwa, .imm, [1], .any, .always, false, 0, 0⟩,  -- SENSE_ENABLE
  ⟨0x2500, 1, 1, 3, 3, .u8, .rw, .imm, [8], .between 1 255, .always, false, 0, 0⟩,  -- SENSE_CONSEC
  ⟨0x2510, 1, 1, 0, 0, .bool, .rw, .imm, [0], .any, .always, false, 0, 0⟩,  -- CAL_ENABLE
  ⟨0x2510, 1, 1, 1, 1, .u16, .rw, .imm, [64], .between 16 1600, .always, false, 0, 0⟩,  -- CAL_DELTA_T
  ⟨0x2510, 1, 1, 2, 2, .u32, .rw, .imm, [0], .any, .always, false, 0, 0⟩,  -- CAL_MAX_AGE
  ⟨0x2510, 1, 1, 3, 3, .u32, .rw, .imm, [500000000], .between 5000000 4294967295, .always, false, 0, 0⟩,  -- CAL_RETRY
  ⟨0x2510, 1, 1, 4, 4, .u8, .rw, .imm, [3], .between 1 15, .always, false, 0, 0⟩,  -- CAL_REJECT_LIMIT
  ⟨0x2510, 1, 1, 5, 5, .u8, .rw, .imm, [2], .special, .always, false, 0, 0⟩,  -- CAL_ACCEPT
  ⟨0x2510, 1, 1, 6, 6, .u8, .rw, .imm, [9], .between 3 17, .always, false, 0, 0⟩,  -- CAL_POINTS
  ⟨0x2510, 1, 1, 7, 7, .u16, .rw, .imm, [2048], .special, .always, false, 0, 0⟩,  -- CAL_CODE_LO
  ⟨0x2510, 1, 1, 8, 8, .u16, .rw, .imm, [63488], .special, .always, false, 0, 0⟩,  -- CAL_CODE_HI
  ⟨0x2510, 1, 1, 9, 9, .u16, .rw, .imm, [500], .between 16 16383, .always, false, 0, 0⟩,  -- CAL_DWELL
  ⟨0x2510, 1, 1, 10, 10, .u8, .rw, .imm, [8], .between 0 10, .always, false, 0, 0⟩,  -- CAL_AVG
  ⟨0x2510, 1, 1, 11, 11, .u16, .rw, .imm, [64], .between 1 4096, .always, false, 0, 0⟩,  -- CAL_SLEW
  ⟨0x2510, 1, 1, 12, 12, .u16, .rwa, .imm, [6554], .special, .always, false, 0, 0⟩,  -- CAL_REF_LO
  ⟨0x2510, 1, 1, 13, 13, .u16, .rwa, .imm, [58982], .special, .always, false, 0, 0⟩,  -- CAL_REF_HI
  ⟨0x2510, 1, 1, 14, 14, .u16, .rwa, .imm, [1638], .any, .always, false, 0, 0⟩,  -- CAL_GAIN_TOL
  ⟨0x2510, 1, 1, 15, 15, .u16, .rwa, .imm, [1311], .any, .always, false, 0, 0⟩,  -- CAL_OFFSET_TOL
  ⟨0x2510, 1, 1, 16, 16, .u32, .rwa, .imm, [52429], .any, .always, false, 0, 0⟩,  -- CAL_SENSE_GAIN_TOL
  ⟨0x2510, 1, 1, 17, 17, .u16, .rwa, .imm, [1311], .any, .always, false, 0, 0⟩,  -- CAL_SENSE_OFFSET_TOL
  ⟨0x2510, 1, 1, 18, 18, .u16, .rwa, .imm, [2048], .any, .always, false, 0, 0⟩,  -- CAL_RESID_MAX
  ⟨0x2510, 1, 1, 19, 19, .u16, .rw, .imm, [33], .any, .always, false, 0, 0⟩,  -- CAL_REPEAT_GAIN_TOL
  ⟨0x2510, 1, 1, 20, 20, .u16, .rw, .imm, [16], .any, .always, false, 0, 0⟩,  -- CAL_REPEAT_OFFSET_TOL
  ⟨0x2510, 1, 1, 21, 21, .u16, .rw, .imm, [10000], .between 1000 20000, .notArmed, false, 0, 0⟩,  -- HOV_CLOCK
  ⟨0x2510, 1, 1, 22, 22, .u16, .rw, .imm, [150], .between 20 200, .notArmed, false, 0, 0⟩,  -- HOV_SETTLE
  ⟨0x2511, 1, 1, 0, 4, .i16, .rw, .imm, [400, 560, 720, 880, 1040], .special, .always, false, 0, 0⟩,  -- CAL_SET_TEMP
  ⟨0x2512, 1, 1, 0, 3, .u8, .rw, .imm, [0, 1, 2, 3], .between 0 3, .always, false, 0, 0⟩,  -- DRIVE_SENSOR
  ⟨0x2513, 1, 1, 0, 3, .bool, .rw, .imm, [0], .any, .always, false, 0, 0⟩,  -- CAL_ABORT
  ⟨0x2514, 1, 1, 0, 3, .u32, .ro, .none, [0], .any, .always, false, 0, 0⟩,  -- CAL_RESULT
  ⟨0x2515, 1, 1, 0, 3, .u8, .ro, .none, [255], .any, .always, false, 0, 0⟩,  -- CAL_CHANNEL
  ⟨0x2516, 1, 1, 0, 3, .u32, .ro, .none, [0], .any, .always, false, 0, 0⟩,  -- CAL_DEFERRED
  ⟨0x2517, 1, 1, 0, 3, .u32, .ro, .none, [0], .any, .always, false, 0, 0⟩,  -- HOV_ERRORS
  ⟨0x2518, 1, 1, 0, 3, .u8, .ro, .none, [159], .any, .always, false, 0, 0⟩,  -- HOV_STATE
  ⟨0x2520, 1, 1, 0, 67, .u16, .ro, .none, [0], .any, .always, false, 0, 0⟩,  -- CAL_STATE
  ⟨0x2521, 1, 1, 0, 67, .i16, .ro, .none, [0], .any, .always, false, 0, 0⟩,  -- CAL_TEMP_REF
  ⟨0x2522, 1, 1, 0, 67, .u16, .ro, .none, [32768], .any, .always, false, 0, 0⟩,  -- CAL_GAIN_IN_FORCE
  ⟨0x2523, 1, 1, 0, 67, .i16, .ro, .none, [0], .any, .always, false, 0, 0⟩,  -- CAL_OFFSET_IN_FORCE
  ⟨0x2524, 1, 1, 0, 67, .u32, .ro, .none, [1048576], .any, .always, false, 0, 0⟩   -- SENSE_GAIN_IN_FORCE
  ]

/-- Objects: waveforms and drive calibration (R319, R351, R352), part 2. -/
def objs25_2 : List Obj := [
  ⟨0x2525, 1, 1, 0, 67, .i16, .ro, .none, [0], .any, .always, false, 0, 0⟩,  -- SENSE_OFFSET_IN_FORCE
  ⟨0x2526, 1, 1, 0, 67, .u16, .ro, .none, [0], .any, .always, false, 0, 0⟩,  -- CAL_RESID_LAST
  ⟨0x2527, 1, 1, 0, 67, .u32, .ro, .none, [0], .any, .always, false, 0, 0⟩,  -- CAL_DONE
  ⟨0x2528, 1, 1, 0, 67, .u32, .ro, .none, [0], .any, .always, false, 0, 0⟩,  -- CAL_REJECTED
  ⟨0x2529, 1, 1, 0, 67, .bool, .rw, .imm, [0], .any, .always, false, 0, 0⟩   -- CAL_REQUEST
  ]

/-- Objects: waveforms and drive calibration (R319, R351, R352). -/
def objs25 : List Obj := objs25_1 ++ objs25_2

/-- Objects: thermal (R371). -/
def objs26 : List Obj := [
  ⟨0x2600, 1, 1, 0, 0, .u32, .ro, .none, [0], .any, .always, false, 0, 0⟩,  -- SCAN_COUNT
  ⟨0x2600, 1, 1, 1, 1, .u16, .rw, .imm, [128], .between 32 800, .always, false, 0, 0⟩,  -- DEV_LIMIT
  ⟨0x2600, 1, 1, 2, 2, .u16, .rw, .imm, [50], .between 2 10000, .always, false, 0, 0⟩,  -- DEV_SCANS
  ⟨0x2600, 1, 1, 3, 3, .u16, .rw, .imm, [1000], .between 10 65535, .always, false, 0, 0⟩,  -- RECOVER_SCANS
  ⟨0x2600, 1, 1, 4, 4, .u8, .rw, .imm, [15], .any, .always, false, 0, 0⟩,  -- DT_ENABLE
  ⟨0x2600, 1, 1, 5, 8, .u16, .rw, .imm, [32768], .any, .always, false, 0, 0⟩,  -- DT_IDEALITY
  ⟨0x2600, 1, 1, 9, 9, .i16, .ro, .none, [0], .any, .always, false, 0, 0⟩,  -- DIE_TEMP
  ⟨0x2600, 1, 1, 10, 10, .i16, .rw, .imm, [1600], .any, .always, false, 0, 0⟩,  -- DIE_WARN
  ⟨0x2600, 1, 1, 11, 11, .i16, .rwa, .imm, [1760], .any, .always, false, 0, 0⟩,  -- DIE_HARD
  ⟨0x2600, 1, 1, 12, 12, .i16, .rwa, .imm, [1360], .any, .always, false, 0, 0⟩,  -- DRIVE_HARD
  ⟨0x2600, 1, 1, 13, 13, .u32, .rw, .imm, [10000], .between 100 100000, .always, false, 0, 0⟩,  -- HEAT_PERIOD
  ⟨0x2600, 1, 1, 14, 14, .u8, .rw, .imm, [10], .between 1 255, .always, false, 0, 0⟩,  -- HEAT_DIV
  ⟨0x2610, 1, 1, 0, 79, .i16, .ro, .none, [0], .any, .always, false, 0, 0⟩,  -- SENSOR_TEMP
  ⟨0x2611, 1, 1, 0, 79, .u8, .ro, .none, [0], .any, .always, false, 0, 0⟩,  -- SENSOR_STATE
  ⟨0x2612, 1, 1, 0, 79, .u32, .ro, .none, [0], .any, .always, false, 0, 0⟩,  -- BROKEN_COUNT
  ⟨0x2613, 1, 1, 0, 79, .u32, .ro, .none, [0], .any, .always, false, 0, 0⟩,  -- RECOVER_COUNT
  ⟨0x2614, 1, 1, 0, 79, .i16, .ro, .none, [0], .any, .always, false, 0, 0⟩   -- SENSOR_OFS
  ]

/-- Objects: inspection (R407, R408), part 1. -/
def objs27_1 : List Obj := [
  ⟨0x2700, 1, 1, 0, 0, .u8, .rw, .imm, [1], .oneOf [0, 1], .camsOff, false, 0, 0⟩,  -- SHARE_MODE
  ⟨0x2700, 1, 1, 1, 1, .u8, .rw, .imm, [111], .between 1 111, .always, false, 0, 0⟩,  -- OUT_RATE
  ⟨0x2700, 1, 1, 2, 2, .u32, .ro, .none, [0], .any, .always, false, 0, 0⟩,  -- PIPE_UNITS
  ⟨0x2700, 1, 1, 3, 3, .u32, .ro, .none, [0], .any, .always, false, 0, 0⟩,  -- CTX_SWITCHES
  ⟨0x2700, 1, 1, 4, 4, .u64, .ro, .none, [0], .any, .always, false, 0, 0⟩,  -- PIPE_BUSY_CT
  ⟨0x2700, 1, 1, 5, 5, .u32, .ro, .none, [0], .any, .always, false, 0, 0⟩,  -- PIPE_TABLE_ERRORS
  ⟨0x2710, 1, 2, 0, 0, .bool, .rw, .imm, [0], .any, .always, false, 0, 0⟩,  -- CAM_ENABLE
  ⟨0x2710, 1, 2, 1, 1, .u8, .rw, .imm, [4], .between 1 4, .camOff, false, 0, 0⟩,  -- CAM_LANES
  ⟨0x2710, 1, 2, 2, 2, .u8, .rw, .imm, [228], .special, .camOff, false, 0, 0⟩,  -- LANE_MAP
  ⟨0x2710, 1, 2, 3, 3, .u8, .rw, .imm, [60], .any, .camOff, false, 0, 0⟩,  -- HS_SETTLE
  ⟨0x2710, 1, 2, 4, 4, .u8, .rw, .imm, [44], .oneOf [43, 44, 45], .camOff, false, 0, 0⟩,  -- DATA_TYPE
  ⟨0x2710, 1, 2, 5, 5, .u8, .rw, .imm, [36], .special, .camOff, false, 0, 0⟩,  -- CAM_VC
  ⟨0x2710, 1, 2, 6, 6, .u8, .rw, .imm, [1], .between 1 3, .camOff, false, 0, 0⟩,  -- EXPOSURES
  ⟨0x2710, 1, 2, 7, 7, .u16, .rw, .imm, [4096], .special, .camOff, false, 0, 0⟩,  -- CAM_WIDTH
  ⟨0x2710, 1, 2, 8, 8, .u16, .rw, .imm, [256], .between 4 4096, .camOff, false, 0, 0⟩,  -- CAM_HEIGHT
  ⟨0x2710, 1, 2, 9, 9, .u16, .rw, .imm, [0], .any, .always, false, 0, 0⟩,  -- FILL_VALUE
  ⟨0x2710, 1, 2, 10, 10, .u32, .rw, .imm, [50000000], .between 50000 4294967295, .always, false, 0, 0⟩,  -- FRAME_TIMEOUT
  ⟨0x2710, 1, 2, 11, 11, .u32, .rw, .imm, [5000000], .any, .always, false, 0, 0⟩,  -- TRIG_WINDOW
  ⟨0x2710, 1, 2, 12, 12, .u32, .rw, .imm, [0], .any, .always, false, 0, 0⟩,  -- CAM_SILENT
  ⟨0x2710, 1, 2, 13, 13, .u48, .rw, .imm, [0], .any, .camOff, false, 0, 0⟩,  -- CAP_BASE
  ⟨0x2710, 1, 2, 14, 14, .u16, .rw, .imm, [0], .any, .camOff, false, 0, 0⟩,  -- CAP_SLOTS
  ⟨0x2710, 1, 2, 15, 15, .u48, .rw, .imm, [0], .any, .camOff, false, 0, 0⟩,  -- OUT_BASE
  ⟨0x2710, 1, 2, 16, 16, .u16, .rw, .imm, [0], .any, .camOff, false, 0, 0⟩,  -- OUT_SLOTS
  ⟨0x2710, 1, 2, 17, 17, .u8, .rw, .imm, [2], .between 0 3, .camOff, false, 0, 0⟩,  -- OUT_DECIM
  ⟨0x2710, 1, 2, 18, 18, .u48, .rw, .imm, [0], .any, .camOff, false, 0, 0⟩,  -- RES_BASE
  ⟨0x2710, 1, 2, 19, 19, .u32, .rw, .imm, [0], .either 0 4096 16777216, .camOff, false, 0, 0⟩,  -- RES_WORDS
  ⟨0x2710, 1, 2, 20, 20, .bool, .rw, .imm, [0], .any, .always, false, 0, 0⟩,  -- CAM_RESET
  ⟨0x2710, 1, 2, 21, 21, .u8, .rw, .imm, [1], .oneOf [0, 1], .always, false, 0, 0⟩,  -- I2C_SPEED
  ⟨0x2710, 1, 2, 22, 22, .u64, .rw, .imm, [0], .special, .special, false, 0, 0⟩,  -- I2C_CMD
  ⟨0x2710, 1, 2, 23, 23, .u8, .ro, .none, [0], .any, .always, false, 0, 0⟩,  -- I2C_STATUS
  ⟨0x2710, 1, 2, 24, 24, .u32, .ro, .none, [0], .any, .always, false, 0, 0⟩,  -- I2C_DATA
  ⟨0x2720, 1, 2, 0, 0, .u8, .ro, .none, [0], .any, .always, false, 0, 0⟩,  -- CAM_STATE
  ⟨0x2720, 1, 2, 1, 1, .u32, .ro, .none, [0], .any, .always, false, 0, 0⟩,  -- FRAMES
  ⟨0x2720, 1, 2, 2, 2, .u32, .ro, .none, [0], .any, .always, false, 0, 0⟩,  -- FRAMES_USABLE
  ⟨0x2720, 1, 2, 3, 3, .u32, .ro, .none, [0], .any, .always, false, 0, 0⟩,  -- FRAMES_SHORT
  ⟨0x2720, 1, 2, 4, 4, .u32, .ro, .none, [0], .any, .always, false, 0, 0⟩,  -- FRAMES_LONG
  ⟨0x2720, 1, 2, 5, 5, .u32, .ro, .none, [0], .any, .always, false, 0, 0⟩,  -- LINES_DROPPED
  ⟨0x2720, 1, 2, 6, 6, .u32, .ro, .none, [0], .any, .always, false, 0, 0⟩,  -- HDR_ECC_CORRECTED
  ⟨0x2720, 1, 2, 7, 7, .u32, .ro, .none, [0], .any, .always, false, 0, 0⟩,  -- HDR_ECC_ERRORS
  ⟨0x2720, 1, 2, 8, 8, .u32, .ro, .none, [0], .any, .always, false, 0, 0⟩   -- PAYLOAD_CRC
  ]

/-- Objects: inspection (R407, R408), part 2. -/
def objs27_2 : List Obj := [
  ⟨0x2720, 1, 2, 9, 9, .u32, .ro, .none, [0], .any, .always, false, 0, 0⟩,  -- TYPE_DISCARDED
  ⟨0x2720, 1, 2, 10, 10, .u32, .ro, .none, [0], .any, .always, false, 0, 0⟩,  -- VC_DISCARDED
  ⟨0x2720, 1, 2, 11, 11, .u32, .ro, .none, [0], .any, .always, false, 0, 0⟩,  -- OUT_OF_FRAME
  ⟨0x2720, 1, 2, 12, 12, .u32, .ro, .none, [0], .any, .always, false, 0, 0⟩,  -- TRIG_ORPHAN
  ⟨0x2720, 1, 2, 13, 13, .u32, .ro, .none, [0], .any, .always, false, 0, 0⟩,  -- OUT_LINES_LOST
  ⟨0x2720, 1, 2, 14, 14, .u8, .rw, .imm, [0], .oneOf [0], .always, false, 0, 0⟩,  -- BUF_PEAK
  ⟨0x2720, 1, 2, 15, 15, .u32, .ro, .none, [0], .any, .always, false, 0, 0⟩,  -- CONFIG_SEQ
  ⟨0x2720, 1, 2, 16, 16, .u32, .ro, .none, [0], .any, .always, false, 0, 0⟩,  -- RES_WRITE
  ⟨0x2720, 1, 2, 17, 17, .u32, .ro, .none, [0], .any, .always, false, 0, 0⟩,  -- FRAME_SEQ
  ⟨0x2730, 1, 2, 0, 0, .u8, .rw, .imm, [0], .oneOf [0, 1, 2, 3, 4], .always, false, 0, 0⟩,  -- CFA
  ⟨0x2730, 1, 2, 1, 2, .u16, .rw, .imm, [4096], .between 256 65535, .always, false, 0, 0⟩,  -- EXP_GAIN
  ⟨0x2730, 1, 2, 3, 3, .u16, .rw, .imm, [49152], .special, .always, false, 0, 0⟩,  -- KNEE_LO
  ⟨0x2730, 1, 2, 4, 4, .u16, .rw, .imm, [61440], .special, .always, false, 0, 0⟩,  -- KNEE_HI
  ⟨0x2730, 1, 2, 5, 5, .u8, .rw, .imm, [4], .between 0 8, .always, false, 0, 0⟩,  -- MERGE_SHIFT
  ⟨0x2730, 1, 2, 6, 9, .u16, .rw, .imm, [0], .any, .always, false, 0, 0⟩,  -- BLACK
  ⟨0x2730, 1, 2, 10, 13, .u16, .rw, .imm, [4096], .any, .always, false, 0, 0⟩,  -- BLACK_GAIN
  ⟨0x2730, 1, 2, 14, 14, .u16, .rw, .imm, [0], .any, .always, false, 0, 0⟩,  -- DYN_THRESH
  ⟨0x2730, 1, 2, 15, 23, .i16, .rw, .imm, [1024, 0, 0, 0, 1024, 0, 0, 0, 1024], .any, .always, false, 0, 0⟩,  -- CCM
  ⟨0x2730, 1, 2, 24, 26, .i16, .rw, .imm, [0], .any, .always, false, 0, 0⟩,  -- CCM_OFS
  ⟨0x2740, 1, 2, 0, 7, .u64, .rw, .imm, [68702699551], .any, .special, false, 0, 0⟩,  -- REGION
  ⟨0x2742, 1, 2, 0, 3, .u64, .rw, .imm, [68702699551], .any, .special, false, 0, 0⟩,  -- FINDER
  ⟨0x2742, 1, 2, 4, 7, .u16, .rw, .imm, [1024], .between 0 4095, .special, false, 0, 0⟩,  -- FINDER_T
  ⟨0x2742, 1, 2, 8, 11, .u32, .rw, .imm, [16], .between 1 16777215, .special, false, 0, 0⟩   -- FINDER_MIN
  ]

/-- Objects: inspection (R407, R408). -/
def objs27 : List Obj := objs27_1 ++ objs27_2

/-- Objects: nozzle health (R432, R433). -/
def objs28 : List Obj := [
  ⟨0x2800, 1, 1, 0, 0, .bool, .rw, .imm, [0], .any, .always, false, 0, 0⟩,  -- LOOP_ENABLE
  ⟨0x2800, 1, 1, 1, 1, .u32, .rws, .band, [10000], .between 64 16777216, .always, false, 1, 0⟩,  -- MARGIN_PERIOD
  ⟨0x2800, 1, 1, 2, 2, .u32, .rws, .band, [0], .any, .always, false, 1, 0⟩,  -- MARGIN_PHASE
  ⟨0x2800, 1, 1, 3, 3, .u16, .rws, .band, [0], .any, .always, false, 1, 0⟩,  -- MARGIN_LINES
  ⟨0x2800, 1, 1, 4, 4, .u8, .rws, .band, [32], .special, .always, false, 1, 0⟩,  -- STRIP_LINES
  ⟨0x2800, 1, 1, 5, 5, .u8, .rws, .band, [4], .special, .always, false, 1, 0⟩,  -- STRIP_PITCH
  ⟨0x2800, 1, 1, 6, 6, .u8, .rws, .band, [2], .between 1 3, .always, false, 1, 0⟩,  -- STRIP_CODE
  ⟨0x2800, 1, 1, 7, 7, .u8, .rws, .band, [32], .either 0 8 255, .always, false, 1, 0⟩,  -- BAR_LINES
  ⟨0x2800, 1, 1, 8, 8, .u16, .rws, .band, [128], .any, .always, false, 1, 0⟩,  -- BAR_VALUE
  ⟨0x2800, 1, 1, 9, 9, .u8, .rws, .band, [8], .between 4 255, .always, false, 1, 0⟩,  -- GAP_LINES
  ⟨0x2800, 1, 1, 10, 10, .u8, .rws, .band, [16], .either 0 4 255, .always, false, 1, 0⟩,  -- MARK_LINES
  ⟨0x2800, 1, 1, 11, 11, .u8, .rws, .band, [16], .between 4 255, .always, false, 1, 0⟩,  -- MARK_COLS
  ⟨0x2800, 1, 1, 12, 12, .u8, .rws, .band, [3], .between 1 3, .always, false, 1, 0⟩,  -- MARK_CODE
  ⟨0x2800, 1, 1, 13, 13, .u8, .rw, .imm, [2], .between 0 15, .always, false, 0, 0⟩,  -- YGUARD
  ⟨0x2800, 1, 1, 14, 14, .u8, .rw, .imm, [16], .any, .always, false, 0, 0⟩,  -- MARK_SEARCH
  ⟨0x2800, 1, 1, 15, 15, .u8, .rw, .imm, [3], .between 1 15, .always, false, 0, 0⟩,  -- CONFIRM
  ⟨0x2800, 1, 1, 16, 16, .u8, .rw, .imm, [5], .between 1 15, .always, false, 0, 0⟩,  -- RECOVER
  ⟨0x2800, 1, 1, 17, 17, .u8, .rw, .imm, [96], .special, .always, false, 0, 0⟩,  -- MISS_FRAC
  ⟨0x2800, 1, 1, 18, 18, .u8, .rw, .imm, [192], .special, .always, false, 0, 0⟩,  -- WEAK_FRAC
  ⟨0x2800, 1, 1, 19, 19, .u16, .rw, .imm, [1024], .any, .always, false, 0, 0⟩,  -- MIN_RESPONSE
  ⟨0x2800, 1, 1, 20, 20, .u16, .rw, .imm, [64], .between 1 2304, .always, false, 0, 0⟩,  -- DEAD_LIMIT
  ⟨0x2800, 1, 1, 21, 21, .u8, .rw, .imm, [64], .any, .always, false, 0, 0⟩,  -- TRIM_GAIN
  ⟨0x2800, 1, 1, 22, 22, .u8, .rw, .imm, [16], .between 1 64, .always, false, 0, 0⟩,  -- TRIM_STEP_MAX
  ⟨0x2800, 1, 1, 23, 23, .u16, .rw, .imm, [256], .between 1 511, .always, false, 0, 0⟩,  -- TRIM_LIMIT
  ⟨0x2800, 1, 1, 24, 24, .u8, .rw, .imm, [10], .any, .always, false, 0, 0⟩,  -- TRIM_DEADBAND
  ⟨0x2800, 1, 1, 25, 25, .u16, .rw, .imm, [128], .between 0 256, .always, false, 0, 0⟩,  -- REG_GAIN
  ⟨0x2800, 1, 1, 26, 26, .u16, .rw, .imm, [128], .between 0 256, .always, false, 0, 0⟩,  -- STITCH_GAIN
  ⟨0x2800, 1, 1, 27, 27, .u32, .rw, .imm, [2560], .between 1 1000000, .always, false, 0, 0⟩,  -- REG_STEP_MAX
  ⟨0x2800, 1, 1, 28, 28, .u32, .rw, .imm, [25600], .between 1 100000000, .always, false, 0, 0⟩,  -- REG_LIMIT
  ⟨0x2800, 1, 1, 29, 29, .u16, .rw, .imm, [64], .any, .always, false, 0, 0⟩,  -- REG_DEADBAND
  ⟨0x2800, 1, 1, 30, 30, .u32, .ro, .none, [0], .any, .always, false, 0, 0⟩,  -- BLOCKS_DONE
  ⟨0x2800, 1, 1, 31, 31, .u32, .ro, .none, [0], .any, .always, false, 0, 0⟩,  -- BLOCKS_SKIPPED
  ⟨0x2800, 1, 1, 32, 32, .u32, .ro, .none, [0], .any, .always, false, 0, 0⟩,  -- CHECKS_VOID
  ⟨0x2800, 1, 1, 33, 33, .u32, .ro, .none, [0], .any, .always, false, 0, 0⟩,  -- STALE_MEASURE
  ⟨0x2810, 1, 2, 0, 0, .u48, .rw, .imm, [0], .any, .always, false, 0, 0⟩,  -- CAM_DIST
  ⟨0x2810, 1, 2, 1, 1, .q16, .rw, .imm, [65536], .between 1 4294967295, .always, false, 0, 0⟩,  -- CAM_LPG
  ⟨0x2810, 1, 2, 2, 2, .u32, .ro, .none, [0], .any, .always, false, 0, 0⟩,  -- BLOCK_LAST
  ⟨0x2810, 1, 2, 3, 3, .u8, .ro, .none, [255], .any, .always, false, 0, 0⟩   -- PORT_LAST
  ]

/-- Objects: memory and DMA (R453, R472, R473), part 1. -/
def objs29_1 : List Obj := [
  ⟨0x2900, 1, 1, 0, 0, .u16, .rw, .imm, [500], .between 10 65535, .always, false, 0, 0⟩,  -- SCRUB_INTERVAL
  ⟨0x2900, 1, 1, 1, 1, .u32, .ro, .none, [0], .any, .always, false, 0, 0⟩,  -- SCRATCH_CE
  ⟨0x2900, 1, 1, 2, 2, .u32, .ro, .none, [0], .any, .always, false, 0, 0⟩,  -- SCRATCH_UE
  ⟨0x2900, 1, 1, 3, 3, .u48, .ro, .none, [0], .any, .always, false, 0, 0⟩,  -- SCRATCH_LAST_ERR
  ⟨0x2900, 1, 1, 4, 4, .u32, .ro, .none, [0], .any, .always, false, 0, 0⟩,  -- SCRATCH_COLLISIONS
  ⟨0x2901, 1, 1, 0, 0, .u8, .ro, .none, [0], .any, .always, false, 0, 0⟩,  -- BM_STATE
  ⟨0x2901, 1, 1, 1, 1, .u8, .rw, .imm, [0], .oneOf [1], .notArmed, false, 0, 0⟩,  -- BM_CONTROL
  ⟨0x2901, 1, 1, 2, 2, .u16, .rw, .imm, [3200], .oneOf [2400, 2666, 2933, 3200], .always, false, 0, 0⟩,  -- BM_SPEED
  ⟨0x2901, 1, 1, 3, 3, .u8, .rw, .imm, [0], .oneOf [0, 1], .always, false, 0, 0⟩,  -- BM_DENSITY
  ⟨0x2901, 1, 1, 4, 4, .w72, .rw, .imm, [0], .special, .always, false, 0, 0⟩,  -- BM_TIMING
  ⟨0x2901, 1, 1, 5, 5, .u8, .rw, .imm, [0], .oneOf [0, 1], .always, false, 0, 0⟩,  -- BM_REFRESH
  ⟨0x2901, 1, 1, 6, 6, .u32, .rw, .imm, [500], .either 0 100 4294967295, .always, false, 0, 0⟩,  -- BM_SCRUB_INTERVAL
  ⟨0x2901, 1, 1, 7, 7, .u32, .ro, .none, [0], .any, .always, false, 0, 0⟩,  -- BM_CAPACITY
  ⟨0x2901, 1, 1, 8, 8, .u32, .ro, .none, [0], .any, .always, false, 0, 0⟩,  -- BM_CE
  ⟨0x2901, 1, 1, 9, 9, .u32, .ro, .none, [0], .any, .always, false, 0, 0⟩,  -- BM_UE
  ⟨0x2901, 1, 1, 10, 10, .u48, .ro, .none, [0], .any, .always, false, 0, 0⟩,  -- BM_LAST_ERR
  ⟨0x2901, 1, 1, 11, 11, .u32, .ro, .none, [0], .any, .always, false, 0, 0⟩,  -- BM_OUT_OF_RANGE
  ⟨0x2901, 1, 1, 12, 12, .u32, .ro, .none, [0], .any, .always, false, 0, 0⟩,  -- BM_PAR_RETRY
  ⟨0x2901, 1, 1, 13, 13, .u16, .ro, .none, [0], .any, .always, false, 0, 0⟩,  -- BM_TRAIN_FAIL
  ⟨0x2901, 1, 1, 14, 14, .u32, .ro, .none, [0], .any, .always, false, 0, 0⟩,  -- BM_TRACK_ADJ
  ⟨0x2902, 1, 1, 0, 0, .u32, .ro, .none, [0], .any, .always, false, 0, 0⟩,  -- DMA_BUS_ERRORS
  ⟨0x2902, 1, 1, 1, 1, .u16, .rw, .imm, [0], .any, .always, false, 0, 0⟩,  -- DMA_HOST_FLAGS
  ⟨0x2902, 1, 1, 2, 2, .u48, .rw, .imm, [0], .any, .always, false, 0, 0⟩,  -- WORD_ADDR
  ⟨0x2902, 1, 1, 3, 3, .w72, .rw, .imm, [0], .any, .always, false, 0, 0⟩,  -- WORD_DATA
  ⟨0x2902, 1, 1, 4, 4, .u8, .ro, .none, [0], .any, .always, false, 0, 0⟩,  -- WORD_STATUS
  ⟨0x2902, 1, 1, 5, 5, .u32, .ro, .none, [0], .any, .always, false, 0, 0⟩,  -- DMA_RETRIES
  ⟨0x2902, 1, 1, 6, 6, .u8, .ro, .none, [0], .any, .always, false, 0, 0⟩,  -- DMA_COMPLETION
  ⟨0x2903, 1, 1, 0, 3, .u8, .ro, .none, [255], .any, .always, false, 0, 0⟩,  -- MOVER_CHANNEL
  ⟨0x2910, 1, 32, 0, 0, .u8, .rw, .imm, [0], .oneOf [0, 1], .special, false, 0, 0⟩,  -- CH_MODE
  ⟨0x2910, 1, 32, 1, 1, .u48, .rw, .imm, [0], .any, .special, false, 0, 0⟩,  -- CH_SRC
  ⟨0x2910, 1, 32, 2, 2, .u48, .rw, .imm, [0], .any, .special, false, 0, 0⟩,  -- CH_DST
  ⟨0x2910, 1, 32, 3, 3, .u32, .rw, .imm, [0], .any, .special, false, 0, 0⟩,  -- CH_COUNT
  ⟨0x2910, 1, 32, 4, 4, .u8, .rw, .imm, [0], .special, .special, false, 0, 0⟩,  -- CH_FLAGS
  ⟨0x2910, 1, 32, 5, 5, .u48, .rw, .imm, [0], .any, .special, false, 0, 0⟩,  -- CH_TABLE
  ⟨0x2910, 1, 32, 6, 6, .u48, .rw, .imm, [0], .any, .special, false, 0, 0⟩,  -- CH_HEAD
  ⟨0x2910, 1, 32, 7, 7, .u8, .rw, .imm, [0], .oneOf [1, 2, 3, 4], .always, false, 0, 0⟩,  -- CH_CMD
  ⟨0x2910, 1, 32, 8, 8, .u16, .rw, .imm, [1823], .any, .always, false, 0, 0⟩,  -- CH_RATE
  ⟨0x2910, 1, 32, 9, 9, .u32, .ro, .none, [2097152], .any, .always, false, 0, 0⟩,  -- CH_STATUS
  ⟨0x2910, 1, 32, 10, 10, .u48, .ro, .none, [0], .any, .always, false, 0, 0⟩,  -- CH_CUR
  ⟨0x2910, 1, 32, 11, 11, .u32, .ro, .none, [0], .any, .always, false, 0, 0⟩   -- CH_DONE
  ]

/-- Objects: memory and DMA (R453, R472, R473), part 2. -/
def objs29_2 : List Obj := [
  ⟨0x2910, 1, 32, 12, 12, .u32, .ro, .none, [0], .any, .always, false, 0, 0⟩,  -- CH_DESC_DONE
  ⟨0x2910, 1, 32, 13, 13, .u32, .ro, .none, [0], .any, .always, false, 0, 0⟩,  -- CH_BAD
  ⟨0x2910, 1, 32, 14, 14, .u32, .ro, .none, [0], .any, .always, false, 0, 0⟩,  -- CH_BELL_BUSY
  ⟨0x2910, 1, 32, 15, 15, .u64, .ro, .none, [0], .any, .always, false, 0, 0⟩   -- CH_WORDS
  ]

/-- Objects: memory and DMA (R453, R472, R473). -/
def objs29 : List Obj := objs29_1 ++ objs29_2

/-- Objects: faults (R500, R501). -/
def objs2A : List Obj := [
  ⟨0x2a00, 1, 1, 0, 0, .u8, .ro, .none, [0], .any, .always, false, 0, 0⟩,  -- FAULT_SUMMARY
  ⟨0x2a00, 1, 1, 1, 1, .bool, .ro, .none, [0], .any, .always, false, 0, 0⟩,  -- ERR_N_STATE
  ⟨0x2a00, 1, 1, 2, 2, .u32, .ro, .none, [0], .any, .always, false, 0, 0⟩,  -- HIST_COUNT
  ⟨0x2a00, 1, 1, 3, 3, .u32, .ro, .none, [0], .any, .always, false, 0, 0⟩,  -- HIST_LOST
  ⟨0x2a00, 1, 1, 4, 4, .u16, .rw, .imm, [0], .either 65535 0 255, .special, false, 0, 0⟩,  -- FAULT_CLEAR
  ⟨0x2a00, 1, 1, 5, 5, .bool, .rw, .imm, [0], .any, .always, false, 0, 0⟩,  -- FIRST_CLEAR
  ⟨0x2a00, 1, 1, 6, 6, .bool, .rw, .imm, [0], .any, .always, false, 0, 0⟩,  -- HIST_CLEAR
  ⟨0x2a00, 1, 1, 7, 7, .u8, .rw, .imm, [0], .between 0 3, .always, false, 0, 0⟩,  -- EVENT_FLOOR
  ⟨0x2a00, 1, 1, 8, 8, .u8, .ro, .none, [255], .any, .always, false, 0, 0⟩,  -- GRAVE_PRIOR
  ⟨0x2a00, 1, 1, 9, 9, .u32, .ro, .none, [0], .any, .always, false, 0, 0⟩,  -- INJ_COUNT
  ⟨0x2a00, 1, 1, 10, 10, .u32, .ro, .none, [0], .any, .always, false, 0, 0⟩,  -- INJ_EXPIRED
  ⟨0x2a01, 1, 1, 0, 2, .u8, .rwa, .imm, [32, 34, 35], .any, .always, false, 0, 0⟩,  -- CLASS_REACT
  ⟨0x2a01, 1, 1, 3, 3, .u8, .ro, .imm, [19], .any, .always, false, 0, 0⟩,  -- CLASS_REACT
  ⟨0x2a02, 1, 1, 0, 3, .u64, .ro, .none, [0], .any, .always, false, 0, 0⟩,  -- STATUS_MAP
  ⟨0x2a03, 1, 1, 0, 1, .w72, .ro, .none, [0], .any, .always, false, 0, 0⟩,  -- FIRST_FAULT
  ⟨0x2a03, 1, 1, 2, 2, .bool, .ro, .none, [0], .any, .always, false, 0, 0⟩,  -- FIRST_VALID
  ⟨0x2a04, 1, 1, 0, 0, .u16, .woa, .imm, [0], .special, .special, false, 0, 0⟩,  -- INJECT
  ⟨0x2a04, 1, 1, 1, 1, .u16, .ro, .none, [255], .any, .always, false, 0, 0⟩,  -- INJ_PENDING
  ⟨0x2a05, 1, 1, 0, 31, .w72, .ro, .none, [0], .any, .always, false, 0, 0⟩,  -- HISTORY
  ⟨0x2a10, 1, 1, 0, 255, .u32, .rwa, .imm, [0], .special, .always, false, 0, 0⟩,  -- SRC_CONFIG
  ⟨0x2a11, 1, 1, 0, 255, .u16, .ro, .none, [0], .any, .always, false, 0, 0⟩,  -- SRC_STATE
  ⟨0x2a12, 1, 1, 0, 255, .u32, .ro, .none, [0], .any, .always, false, 0, 0⟩   -- SRC_COUNT
  ]

/-- Objects: Caldera (R527). -/
def objs2B : List Obj := [
  ⟨0x2b00, 1, 1, 0, 0, .u8, .ro, .none, [0], .any, .always, false, 0, 0⟩,  -- CALDERA_STATE
  ⟨0x2b00, 1, 1, 1, 1, .u32, .ro, .none, [0], .any, .always, false, 0, 0⟩,  -- CALDERA_RESTARTS
  ⟨0x2b00, 1, 1, 2, 2, .u8, .ro, .none, [0], .any, .always, false, 0, 0⟩,  -- RESTART_CAUSE
  ⟨0x2b00, 1, 1, 3, 3, .u32, .ro, .none, [0], .any, .always, false, 0, 0⟩,  -- FW_VERSION
  ⟨0x2b00, 1, 1, 4, 4, .u8, .ro, .none, [0], .any, .always, false, 0, 0⟩,  -- FW_BANK
  ⟨0x2b00, 1, 1, 5, 5, .u8, .woa, .imm, [0], .oneOf [1], .always, false, 0, 0⟩,  -- CALDERA_RESTART
  ⟨0x2b00, 1, 1, 6, 6, .u16, .rwa, .imm, [100], .between 10 1000, .always, true, 0, 0⟩,  -- WDT_PERIOD
  ⟨0x2b00, 1, 1, 7, 7, .u16, .ro, .none, [0], .any, .always, false, 0, 0⟩,  -- RAIL_STATUS
  ⟨0x2b00, 1, 1, 8, 8, .u8, .ro, .none, [0], .any, .always, false, 0, 0⟩,  -- CLOCK_STATUS
  ⟨0x2b01, 1, 1, 0, 0, .u8, .ro, .none, [0], .any, .always, false, 0, 0⟩,  -- UPDATE_STATE
  ⟨0x2b01, 1, 1, 1, 1, .u8, .woa, .imm, [0], .oneOf [1, 2, 3, 4], .special, true, 0, 0⟩,  -- UPDATE_COMMAND
  ⟨0x2b01, 1, 1, 2, 2, .u32, .ro, .none, [0], .any, .always, false, 0, 0⟩,  -- UPDATE_RESULT
  ⟨0x2b01, 1, 1, 3, 3, .u8, .ro, .none, [0], .any, .always, false, 0, 0⟩,  -- ROLLBACK_FLOOR
  ⟨0x2b01, 1, 1, 4, 5, .u8, .ro, .none, [255], .any, .always, false, 0, 0⟩,  -- BANK_SVN
  ⟨0x2b01, 1, 1, 6, 7, .u32, .ro, .none, [0], .any, .always, false, 0, 0⟩,  -- BANK_VERSION
  ⟨0x2b01, 1, 1, 8, 8, .u32, .rwa, .imm, [60000], .between 1000 3600000, .always, true, 0, 0⟩,  -- TRIAL_TIMEOUT
  ⟨0x2b02, 1, 1, 0, 0, .u32, .ro, .none, [0], .any, .always, true, 0, 0⟩,  -- LOG_NEXT_SEQ
  ⟨0x2b02, 1, 1, 1, 1, .u32, .ro, .none, [0], .any, .always, true, 0, 0⟩,  -- LOG_FIRST_SEQ
  ⟨0x2b02, 1, 1, 2, 2, .u32, .ro, .none, [0], .any, .always, true, 0, 0⟩,  -- LOG_LOST
  ⟨0x2b02, 1, 1, 3, 3, .u16, .ro, .none, [0], .any, .always, true, 0, 0⟩,  -- LOG_PENDING
  ⟨0x2b02, 1, 1, 4, 4, .u16, .rwa, .imm, [256], .between 16 4096, .always, true, 0, 0⟩,  -- LOG_ANCHOR_EVERY
  ⟨0x2b02, 1, 1, 5, 5, .u32, .rw, .imm, [0], .special, .always, true, 0, 0⟩   -- LOG_WINDOW_SEQ
  ]

/-- Objects: lifecycle (R553). -/
def objs2C : List Obj := [
  ⟨0x2c00, 1, 1, 0, 0, .u8, .ro, .none, [0], .any, .always, false, 0, 0⟩,  -- LIFECYCLE
  ⟨0x2c00, 1, 1, 1, 1, .u8, .woa, .imm, [0], .oneOf [1, 2], .notArmed, true, 0, 0⟩,  -- LIFECYCLE_CMD
  ⟨0x2c00, 1, 1, 2, 2, .u16, .ro, .none, [0], .any, .always, false, 0, 0⟩,  -- KEY_STATE
  ⟨0x2c00, 1, 1, 3, 3, .u8, .woa, .imm, [0], .oneOf [1], .special, true, 0, 0⟩,  -- KEY_COMMIT
  ⟨0x2c00, 1, 1, 4, 4, .u32, .ro, .none, [0], .any, .always, false, 0, 0⟩,  -- JTAG_REFUSED
  ⟨0x2c00, 1, 1, 5, 5, .u32, .ro, .none, [0], .any, .always, false, 0, 0⟩,  -- IDCODE
  ⟨0x2c10, 1, 1, 0, 0, .dom, .woa, .imm, [0], .any, .always, true, 0, 2⟩,  -- KEY_WRAP
  ⟨0x2c11, 1, 1, 0, 0, .dom, .ro, .none, [0], .any, .always, false, 0, 8⟩   -- LOG_PUBKEY
  ]

/-- Objects: power (R553). -/
def objs2D : List Obj := [
  ⟨0x2d00, 1, 1, 0, 0, .u8, .rw, .imm, [1], .oneOf [0, 1, 2, 3, 4], .special, false, 0, 0⟩,  -- POWER_REQ
  ⟨0x2d00, 1, 1, 1, 1, .u64, .rw, .imm, [0], .any, .always, false, 0, 0⟩,  -- POWER_AT
  ⟨0x2d00, 1, 1, 2, 2, .u8, .ro, .none, [1], .any, .always, false, 0, 0⟩,  -- POWER_STATE
  ⟨0x2d00, 1, 1, 3, 3, .u8, .ro, .none, [0], .any, .always, false, 0, 0⟩,  -- POWER_RESULT
  ⟨0x2d00, 1, 1, 4, 4, .u8, .ro, .none, [0], .any, .always, false, 0, 0⟩,  -- WAKE_CAUSE
  ⟨0x2d00, 1, 1, 5, 5, .u8, .rw, .imm, [7], .any, .always, false, 0, 0⟩,  -- WAKE_ENABLE
  ⟨0x2d00, 1, 1, 6, 6, .u64, .ro, .none, [0], .any, .always, false, 0, 0⟩,  -- AON_TIME
  ⟨0x2d00, 1, 1, 7, 7, .u32, .ro, .none, [0], .any, .always, false, 0, 0⟩   -- SHELF_COUNT
  ]

/-- Objects: trace and counters (R553). -/
def objs2E : List Obj := [
  ⟨0x2e00, 1, 1, 0, 0, .u8, .rwa, .imm, [0], .oneOf [0, 1, 2, 3], .always, false, 0, 0⟩,  -- TRACE_MODE
  ⟨0x2e00, 1, 1, 1, 1, .u64, .rw, .imm, [0], .any, .always, false, 0, 0⟩,  -- TRACE_FILTER
  ⟨0x2e00, 1, 1, 2, 2, .u16, .rw, .imm, [100], .between 50 200, .special, false, 0, 0⟩,  -- TRACE_CLOCK
  ⟨0x2e00, 1, 1, 3, 3, .u32, .rw, .imm, [0], .either 0 5000 4294967295, .always, false, 0, 0⟩,  -- TRACE_SAMPLE
  ⟨0x2e00, 1, 1, 4, 4, .u16, .rw, .imm, [65535], .any, .always, false, 0, 0⟩,  -- TRACE_PORTS
  ⟨0x2e00, 1, 1, 5, 5, .u64, .ro, .none, [0], .any, .always, false, 0, 0⟩,  -- TRACE_RECORDS
  ⟨0x2e00, 1, 1, 6, 6, .u32, .ro, .none, [0], .any, .always, false, 0, 0⟩,  -- TRACE_LOST
  ⟨0x2e00, 1, 1, 7, 7, .u64, .ro, .none, [0], .any, .always, false, 0, 0⟩,  -- TRACE_NONCE
  ⟨0x2e00, 1, 1, 8, 8, .bool, .rw, .imm, [0], .any, .always, false, 0, 0⟩,  -- TRACE_RESTART
  ⟨0x2e00, 1, 1, 9, 9, .u16, .ro, .none, [0], .any, .always, false, 0, 0⟩,  -- COUNTER_COUNT
  ⟨0x2e01, 1, 1, 0, 15, .u32, .rw, .imm, [0], .special, .always, false, 0, 0⟩,  -- PMC_SEL
  ⟨0x2e02, 1, 1, 0, 15, .u64, .ro, .none, [0], .any, .always, false, 0, 0⟩,  -- PMC
  ⟨0x2e10, 1, 1, 0, 0, .dom, .ro, .none, [0], .any, .always, false, 0, 0⟩   -- COUNTER_LIST
  ]

/-- The rows in which an index can lie (R142). -/
def objPage (idx : Nat) : List Obj :=
  let page := idx / 256
  if page < 0x12 then objsA
  else if page < 0x20 then objsB
  else if page = 0x20 then objs20
  else if page = 0x21 then objs21
  else if page = 0x22 then objs22
  else if page = 0x23 then objs23
  else if page = 0x24 then objs24
  else if page = 0x25 then objs25
  else if page = 0x26 then objs26
  else if page = 0x27 then objs27
  else if page = 0x28 then objs28
  else if page = 0x29 then objs29
  else if page = 0x2a then objs2A
  else if page = 0x2b then objs2B
  else if page = 0x2c then objs2C
  else if page = 0x2d then objs2D
  else if page = 0x2e then objs2E
  else if page < 0x30 then []
  else if page < 0x40 then objsP
  else if page < 0x44 then objsT
  else objsU

/-- All rows, in the order of the chapters' index ranges. -/
def objAll : List Obj :=
  objsA ++ objsU ++ objsB ++ objs20 ++ objs21 ++ objsP ++ objs22 ++ objsT ++ objs23 ++ objs24 ++ objs25 ++ objs26 ++ objs27 ++ objs28 ++ objs29 ++ objs2A ++ objs2B ++ objs2C ++ objs2D ++ objs2E

end Sys2Proof.Machine
end

