-- ==== Sys2Proof/Machine/Sources.lean ====
section
/-! DEFINITION. The fault sources of the unit, as the table of R477 lists them (R475–R477, R487). -/

namespace Sys2Proof.Machine

/-- Source numbers `lo` to `hi`: condition (kind C) or event (kind E), base class code 0 Advisory … 3 Grave, and default
reactions with bits INT 32, NMI 16, BLOCK_RESET 8, CHIP_RESET 4, ERR_PIN 2, FIRE_INHIBIT 1 (R475–R477, R502). -/
structure SrcRow where
  lo : Nat
  hi : Nat
  cond : Bool
  base : Nat
  react : Nat
deriving DecidableEq, Repr

/-- R477. -/
def srcTable : List SrcRow := [
  ⟨0x0, 0x0, false, 3, 0x13⟩,  -- collector-self-check
  ⟨0x1, 0x1, true, 3, 0x13⟩,  -- core-rail-failure
  ⟨0x2, 0x2, true, 3, 0x13⟩,  -- core-clock-failure
  ⟨0x3, 0x3, false, 3, 0x13⟩,  -- fire-path-check
  ⟨0x4, 0x4, false, 3, 0x13⟩,  -- otp-integrity
  ⟨0x5, 0x5, true, 2, 0x23⟩,  -- refclk-lost
  ⟨0x6, 0xd, true, 2, 0x23⟩,  -- rail-failure
  ⟨0xe, 0xe, true, 2, 0x23⟩,  -- lane-pll-unlock
  ⟨0xf, 0xf, true, 2, 0x23⟩,  -- bm-pll-unlock
  ⟨0x10, 0x10, true, 1, 0x22⟩,  -- caldera-pll-unlock
  ⟨0x11, 0x11, false, 1, 0x2a⟩,  -- caldera-watchdog
  ⟨0x12, 0x12, false, 1, 0x2a⟩,  -- caldera-ecc-uncorrectable
  ⟨0x13, 0x13, false, 1, 0x22⟩,  -- firmware-fault
  ⟨0x14, 0x14, false, 1, 0x22⟩,  -- nor-flash-error
  ⟨0x15, 0x15, false, 0, 0x20⟩,  -- sealed-write-rejected
  ⟨0x16, 0x16, false, 0, 0x20⟩,  -- debug-access-refused
  ⟨0x18, 0x18, false, 1, 0x22⟩,  -- lane-bring-up-failed
  ⟨0x19, 0x19, true, 1, 0x22⟩,  -- chain-time-misaligned
  ⟨0x1a, 0x1a, true, 2, 0x22⟩,  -- position-broadcast-lost
  ⟨0x20, 0x20, true, 2, 0x23⟩,  -- encoder-line
  ⟨0x21, 0x21, false, 1, 0x22⟩,  -- encoder-over-rate
  ⟨0x22, 0x22, false, 0, 0x20⟩,  -- reference-rejected
  ⟨0x23, 0x23, true, 1, 0x22⟩,  -- reference-lost
  ⟨0x24, 0x24, false, 0, 0x20⟩,  -- commutation-invalid
  ⟨0x25, 0x25, false, 1, 0x22⟩,  -- slip
  ⟨0x26, 0x26, false, 2, 0x23⟩,  -- encoder-silent
  ⟨0x27, 0x27, false, 1, 0x22⟩,  -- SSI-read-failed
  ⟨0x28, 0x28, false, 1, 0x22⟩,  -- absolute-mismatch
  ⟨0x29, 0x29, true, 2, 0x23⟩,  -- second-position-source
  ⟨0x2c, 0x2c, false, 2, 0x22⟩,  -- overrun-halt
  ⟨0x2d, 0x2d, true, 0, 0x20⟩,  -- overspeed-approach
  ⟨0x2e, 0x2e, false, 1, 0x22⟩,  -- sheet-queue-overflow
  ⟨0x30, 0x30, false, 0, 0x20⟩,  -- raster-missing
  ⟨0x31, 0x31, false, 2, 0x22⟩,  -- raster-missing-halt
  ⟨0x32, 0x32, false, 1, 0x22⟩,  -- raster-credit-violation
  ⟨0x33, 0x33, false, 1, 0x22⟩,  -- raster-table-full
  ⟨0x34, 0x34, true, 1, 0x22⟩,  -- delay-store-shallow
  ⟨0x36, 0x36, false, 2, 0x22⟩,  -- screening-table-error
  ⟨0x37, 0x37, true, 0, 0x20⟩,  -- dead-nozzle-uncovered
  ⟨0x38, 0x38, false, 0, 0x20⟩,  -- drive-sense-mismatch
  ⟨0x39, 0x39, false, 2, 0x23⟩,  -- drive-output-failed
  ⟨0x3a, 0x3a, true, 2, 0x22⟩,  -- waveform-invalid
  ⟨0x3b, 0x3b, false, 0, 0x20⟩,  -- level-clamp
  ⟨0x3c, 0x3f, true, 1, 0x22⟩,  -- gate-cut, GATE0–GATE3
  ⟨0x40, 0x40, false, 0, 0x20⟩,  -- calibration-deferred
  ⟨0x41, 0x41, false, 0, 0x20⟩,  -- calibration-rejected
  ⟨0x42, 0x42, false, 1, 0x22⟩,  -- calibration-failed
  ⟨0x43, 0x43, false, 1, 0x22⟩,  -- hov-bus-error
  ⟨0x44, 0x44, false, 0, 0x20⟩,  -- sensor-broken
  ⟨0x45, 0x45, true, 0, 0x20⟩,  -- head-temp-warn
  ⟨0x46, 0x46, true, 1, 0x22⟩,  -- head-temp-soft
  ⟨0x47, 0x47, true, 2, 0x22⟩,  -- head-no-thermistor
  ⟨0x48, 0x48, true, 0, 0x20⟩,  -- die-hot
  ⟨0x49, 0x49, true, 2, 0x23⟩,  -- die-overtemperature
  ⟨0x4a, 0x4a, true, 2, 0x23⟩,  -- drive-overtemperature
  ⟨0x50, 0x50, false, 0, 0x20⟩,  -- camera-link-error, CAM0, CAM1
  ⟨0x51, 0x51, false, 0, 0x20⟩,  -- camera-frame-malformed
  ⟨0x52, 0x52, false, 0, 0x20⟩,  -- camera-lines-dropped
  ⟨0x53, 0x53, true, 1, 0x22⟩,  -- camera-silent
  ⟨0x54, 0x54, false, 0, 0x20⟩,  -- camera-control-error
  ⟨0x55, 0x55, false, 0, 0x20⟩,  -- camera-link-error, CAM0, CAM1
  ⟨0x56, 0x56, false, 0, 0x20⟩,  -- camera-frame-malformed
  ⟨0x57, 0x57, false, 0, 0x20⟩,  -- camera-lines-dropped
  ⟨0x58, 0x58, true, 1, 0x22⟩,  -- camera-silent
  ⟨0x59, 0x59, false, 0, 0x20⟩,  -- camera-control-error
  ⟨0x5a, 0x5a, false, 1, 0x22⟩,  -- pipeline-table-error
  ⟨0x5c, 0x5c, false, 0, 0x20⟩,  -- scratch-correctable
  ⟨0x5d, 0x5d, false, 1, 0x22⟩,  -- scratch-uncorrectable
  ⟨0x5e, 0x5e, false, 0, 0x20⟩,  -- bulk-memory-correctable
  ⟨0x5f, 0x5f, false, 1, 0x22⟩,  -- bulk-memory-uncorrectable
  ⟨0x60, 0x60, false, 1, 0x22⟩,  -- bulk-memory-range
  ⟨0x61, 0x61, false, 2, 0x23⟩,  -- bulk-memory-link
  ⟨0x62, 0x62, true, 2, 0x22⟩,  -- bulk-memory-training-failed
  ⟨0x64, 0x67, false, 0, 0x20⟩,  -- dma-bus-error, M0–M3
  ⟨0x68, 0x6b, false, 1, 0x22⟩,  -- dma-chain-error, M0–M3
  ⟨0xa0, 0xaf, true, 2, 0x22⟩,  -- head-temp-hard, port p
  ⟨0xb0, 0xbf, false, 1, 0x22⟩,  -- nozzle-dead-limit
  ⟨0xc0, 0xcf, false, 1, 0x22⟩,  -- head-check-silent
  ⟨0xd0, 0xdf, true, 0, 0x20⟩,  -- trim-saturated
  ⟨0xe0, 0xef, true, 0, 0x20⟩,  -- registration-saturated
  ⟨0xf0, 0xff, false, 0, 0x20⟩   -- mark-not-found
  ]

/-- The row of a source, if it is listed. -/
def srcRow (k : Nat) : Option SrcRow := srcTable.find? (fun r => decide (r.lo ≤ k) && decide (k ≤ r.hi))

/-- Does source `k` exist in a part with `ports` bonded ports (R4, R475)? -/
def srcExists (ports k : Nat) : Bool :=
  (srcRow k).isSome && (decide (k < 0xA0) || decide (k % 16 < ports))

/-- Base class code of a source; 0 for one that does not exist. -/
def srcBase (k : Nat) : Nat := ((srcRow k).map SrcRow.base).getD 0

/-- Is the source of kind C? -/
def srcCond (k : Nat) : Bool := ((srcRow k).map SrcRow.cond).getD false

/-- Default ESC_N (R487). -/
def escN (k : Nat) : Nat :=
  if k = 0x15 then 4 else if srcBase k = 0 then 10 else if srcBase k = 1 then 4 else 0

/-- Default ESC_W (R487). -/
def escW (k : Nat) : Nat := if srcBase k = 1 then 10000 else 1000

/-- SRC_CONFIG at reset (R487, R502). -/
def srcConfigDefault (k : Nat) : Nat :=
  match srcRow k with
  | none => 0
  | some r => r.react * 2 ^ 24 + escN k * 2 ^ 20 + escW k

/-- Sources whose owning block has no block reset (R489): rails, clocks, REFCLK, OTP and source 0x00. -/
def srcNoBlock (k : Nat) : Bool :=
  [0x00, 0x01, 0x02, 0x04, 0x05, 0x06, 0x07, 0x08, 0x09, 0x0A, 0x0B, 0x0C, 0x0D, 0x0E, 0x0F, 0x10].contains k

end Sys2Proof.Machine
end

