-- ==== Sys2Proof/Machine/Defaults.lean ====
section
/-! DEFINITION. The Default of every object: what it reads as before anything has been written to it (R14, R559). -/

namespace Sys2Proof.Machine

/-- What an object reads as before anything is written to it: its Default (R14, R559). Keys are index × 256 + subindex. -/
def objOf (key : Nat) : Option Obj :=
  (objPage (key / 256)).find? (fun o =>
    decide (o.base ≤ key / 256) && (key / 256 - o.base) % o.stride == 0
      && decide ((key / 256 - o.base) / o.stride < o.count)
      && decide (o.lo ≤ key % 256) && decide (key % 256 ≤ o.hi))

/-- BM_TIMING at reset: the Reset column of R447, CL in bits 71..66 down to TCCD_L − 4 in bits 2..0. -/
def bmTimingDefault : Nat :=
  22 * 2 ^ 66 + 16 * 2 ^ 61 + 22 * 2 ^ 55 + 22 * 2 ^ 49 + 52 * 2 ^ 43 +
  560 * 2 ^ 32 + 34 * 2 ^ 26 + 4 * 2 ^ 22 + 8 * 2 ^ 18 + 24 * 2 ^ 12 +
  4 * 2 ^ 8 + 12 * 2 ^ 3 + 4 * 2 ^ 0

/-- The Default of an object as the table gives it. -/
def regDefault (key : Nat) : Word :=
  if key / 256 = 0x2A10 then BitVec.ofNat 72 (srcConfigDefault (key % 256))
  else if key = 0x290104 then BitVec.ofNat 72 bmTimingDefault
  else match objOf key with
  | none => 0
  | some o =>
    match o.dflt[key % 256 - o.lo]? with
    | some v => BitVec.ofNat 72 v
    | none => BitVec.ofNat 72 (o.dflt.headD 0)

end Sys2Proof.Machine
end

