-- ==== Sys2Proof/Machine/Keys.lean ====
section
/-! DEFINITION. The key of every dictionary object: index × 256 + subindex, under the object's own name in the spec's
object tables (R14, R103). -/

namespace Sys2Proof.Machine.Key

/-- 0x1100.00 (R101). -/
abbrev CHAIN_ADDR : Nat := 0x110000
/-- 0x1100.01 (R101). -/
abbrev CHAIN_HOP : Nat := 0x110001
/-- 0x1100.02 (R101). -/
abbrev STICKY_ADDR : Nat := 0x110002
/-- 0x1100.03 (R101). -/
abbrev CHAIN_STATE : Nat := 0x110003
/-- 0x1100.04 (R101). -/
abbrev RING_MODE : Nat := 0x110004
/-- 0x1101.00–0x1101.07 (R101). -/
abbrev LANE_STATUS (k : Nat) : Nat := 0x110100 + k
/-- 0x1102.00 (R101). -/
abbrev LINK_DELAY_U : Nat := 0x110200
/-- 0x1102.01 (R101). -/
abbrev LINK_DELAY_D : Nat := 0x110201
/-- 0x1102.02 (R101). -/
abbrev ASYM_U : Nat := 0x110202
/-- 0x1102.03 (R101). -/
abbrev ASYM_D : Nat := 0x110203
/-- 0x1102.04 (R101). -/
abbrev ACC_DELAY_F : Nat := 0x110204
/-- 0x1102.05 (R101). -/
abbrev ACC_DELAY_R : Nat := 0x110205
/-- 0x1102.06 (R101). -/
abbrev CT_ERROR : Nat := 0x110206
/-- 0x1103.00 (R101). -/
abbrev CHAIN_TIME : Nat := 0x110300
/-- 0x1103.01 (R101). -/
abbrev POS_APPLY_DELAY : Nat := 0x110301
/-- 0x1104.00 (R101). -/
abbrev EVENT_RATE : Nat := 0x110400
/-- 0x1105.00 (R101). -/
abbrev CRC_ERR_U : Nat := 0x110500
/-- 0x1105.01 (R101). -/
abbrev CRC_ERR_D : Nat := 0x110501
/-- 0x1105.02 (R101). -/
abbrev LOCK_LOSS_U : Nat := 0x110502
/-- 0x1105.03 (R101). -/
abbrev LOCK_LOSS_D : Nat := 0x110503
/-- 0x1105.04 (R101). -/
abbrev BRINGUP_FAIL : Nat := 0x110504
/-- 0x1105.05 (R101). -/
abbrev POS_MISSED : Nat := 0x110505
/-- 0x1105.06 (R101). -/
abbrev POS_STEP : Nat := 0x110506
/-- 0x1105.07 (R101). -/
abbrev DUP_DISCARD : Nat := 0x110507
/-- 0x1105.08 (R101). -/
abbrev EVENT_LOST : Nat := 0x110508
/-- 0x1105.09 (R101). -/
abbrev WRAP_COUNT : Nat := 0x110509
/-- 0x1105.0A (R101). -/
abbrev KIND_UNKNOWN : Nat := 0x11050a
/-- 0x1105.0B (R101). -/
abbrev GEYSER_MISSED : Nat := 0x11050b
/-- 0x1180.00–0x1180.03 (R101). -/
abbrev GEYSER_STATE (k : Nat) : Nat := 0x118000 + k
/-- 0x1181.00–0x1181.03 (R101). -/
abbrev GEYSER_TARGET (k : Nat) : Nat := 0x118100 + k
/-- 0x1182.00–0x1182.03 (R101). -/
abbrev GEYSER_TAKEN_CT (k : Nat) : Nat := 0x118200 + k
/-- 0x5F00.00–0x5F03.00 (R101). -/
abbrev GEYSER_BANK (k : Nat) : Nat := 0x5f0000 + 256 * k
/-- 0x1000.00 (R144). -/
abbrev VENDOR_ID : Nat := 0x100000
/-- 0x1000.01 (R144). -/
abbrev PART : Nat := 0x100001
/-- 0x1000.02 (R144). -/
abbrev GRADE : Nat := 0x100002
/-- 0x1000.03 (R144). -/
abbrev PORT_MASK : Nat := 0x100003
/-- 0x1000.04 (R144). -/
abbrev SERIAL : Nat := 0x100004
/-- 0x1000.05 (R144). -/
abbrev DIE_STEP : Nat := 0x100005
/-- 0x1000.06 (R144). -/
abbrev ROM_VERSION : Nat := 0x100006
/-- 0x1000.07 (R144). -/
abbrev DICT_VERSION : Nat := 0x100007
/-- 0x1000.08 (R144). -/
abbrev OBJECT_COUNT : Nat := 0x100008
/-- 0x1200.00 (R144). -/
abbrev REQ_COUNT : Nat := 0x120000
/-- 0x1200.01 (R144). -/
abbrev REQ_ERRORS : Nat := 0x120001
/-- 0x1200.02 (R144). -/
abbrev BUSY_COUNT : Nat := 0x120002
/-- 0x1200.03 (R144). -/
abbrev FW_TIMEOUT : Nat := 0x120003
/-- 0x1200.04 (R144). -/
abbrev BCAST_REFUSED : Nat := 0x120004
/-- 0x1200.05 (R144). -/
abbrev BCAST_LAST_STATUS : Nat := 0x120005
/-- 0x1200.06 (R144). -/
abbrev GROUP_EXPIRED : Nat := 0x120006
/-- 0x1200.07 (R144). -/
abbrev SESSION_EXPIRED : Nat := 0x120007
/-- 0x1210.00 (R144). -/
abbrev GROUP_BUSY : Nat := 0x121000
/-- 0x1210.01–0x1210.0F (R144). -/
abbrev GROUP_STATE (g : Nat) : Nat := 0x121000 + g
/-- 0x1211.00 (R144). -/
abbrev GROUP_EPOCH_LAST : Nat := 0x121100
/-- 0x1211.01–0x1211.0F (R144). -/
abbrev COMMIT_EPOCH (g : Nat) : Nat := 0x121100 + g
/-- 0x1212.00–0x1212.02 (R144). -/
abbrev COMMIT_EPOCH_LAST (k : Nat) : Nat := 0x121200 + k
/-- 0x1213.00 (R144). -/
abbrev GROUP_TIMEOUT : Nat := 0x121300
/-- 0x1220.00–0x1220.03 (R144). -/
abbrev SESSION_INDEX (k : Nat) : Nat := 0x122000 + k
/-- 0x1221.00–0x1221.03 (R144). -/
abbrev SESSION_STATE (k : Nat) : Nat := 0x122100 + k
/-- 0x1222.00–0x1222.03 (R144). -/
abbrev SESSION_EPOCH (k : Nat) : Nat := 0x122200 + k
/-- 0x1230.00 (R144). -/
abbrev SEAL_LAST : Nat := 0x123000
/-- 0x1230.01 (R144). -/
abbrev SEAL_FLOOR : Nat := 0x123001
/-- 0x1230.02 (R144). -/
abbrev SEAL_REJECT_TAG : Nat := 0x123002
/-- 0x1230.03 (R144). -/
abbrev SEAL_REJECT_REPLAY : Nat := 0x123003
/-- 0x1230.04 (R144). -/
abbrev SEAL_HOLD_COUNT : Nat := 0x123004
/-- 0x5E00.00 (R144). -/
abbrev DICT_DIRECTORY : Nat := 0x5e0000
/-- 0x2000.00 (R175). -/
abbrev ENC_ENABLE : Nat := 0x200000
/-- 0x2000.01 (R175). -/
abbrev ENC_INPUT : Nat := 0x200001
/-- 0x2000.02 (R175). -/
abbrev ENC_INVERT : Nat := 0x200002
/-- 0x2000.03 (R175). -/
abbrev ENC_EDGE : Nat := 0x200003
/-- 0x2000.04 (R175). -/
abbrev ENC_GLITCH : Nat := 0x200004
/-- 0x2001.00 (R175). -/
abbrev TEETH : Nat := 0x200100
/-- 0x2001.01 (R175). -/
abbrev REF_KIND : Nat := 0x200101
/-- 0x2001.02 (R175). -/
abbrev REF_GAP : Nat := 0x200102
/-- 0x2001.03 (R175). -/
abbrev REF_TOL : Nat := 0x200103
/-- 0x2001.04 (R175). -/
abbrev TICKS_PER_REV : Nat := 0x200104
/-- 0x2002.00 (R175). -/
abbrev POS_LOCAL : Nat := 0x200200
/-- 0x2002.01 (R175). -/
abbrev POS_LOCAL_VALID : Nat := 0x200201
/-- 0x2002.02 (R175). -/
abbrev SPEED_LOCAL : Nat := 0x200202
/-- 0x2002.03 (R175). -/
abbrev MOTION : Nat := 0x200203
/-- 0x2002.04 (R175). -/
abbrev REF_STATE : Nat := 0x200204
/-- 0x2002.05 (R175). -/
abbrev REF_ERROR : Nat := 0x200205
/-- 0x2002.06 (R175). -/
abbrev REF_POS : Nat := 0x200206
/-- 0x2002.07 (R175). -/
abbrev SLEW_PENDING : Nat := 0x200207
/-- 0x2002.08 (R175). -/
abbrev HALL_CODE : Nat := 0x200208
/-- 0x2003.00 (R175). -/
abbrev TICK_GLITCH : Nat := 0x200300
/-- 0x2003.01 (R175). -/
abbrev TICK_OVERRATE : Nat := 0x200301
/-- 0x2003.02 (R175). -/
abbrev INTERVAL_IRREG : Nat := 0x200302
/-- 0x2003.03 (R175). -/
abbrev REF_ACCEPTED : Nat := 0x200303
/-- 0x2003.04 (R175). -/
abbrev REF_CORRECTED : Nat := 0x200304
/-- 0x2003.05 (R175). -/
abbrev REF_REJECTED : Nat := 0x200305
/-- 0x2003.06 (R175). -/
abbrev REF_SKIPPED : Nat := 0x200306
/-- 0x2003.07 (R175). -/
abbrev REF_LOST : Nat := 0x200307
/-- 0x2003.08 (R175). -/
abbrev HALL_INVALID : Nat := 0x200308
/-- 0x2003.09 (R175). -/
abbrev SLIP_EVENTS : Nat := 0x200309
/-- 0x2003.0A (R175). -/
abbrev SSI_READS : Nat := 0x20030a
/-- 0x2003.0B (R175). -/
abbrev SSI_FAILED : Nat := 0x20030b
/-- 0x2003.0C (R175). -/
abbrev SSI_CORRECTIONS : Nat := 0x20030c
/-- 0x2004.00 (R175). -/
abbrev INTERP_AVG : Nat := 0x200400
/-- 0x2004.01 (R175). -/
abbrev SPEED_AVG : Nat := 0x200401
/-- 0x2004.02 (R175). -/
abbrev STOP_TIMEOUT : Nat := 0x200402
/-- 0x2005.00 (R175). -/
abbrev DIR_SOURCE : Nat := 0x200500
/-- 0x2005.01 (R175). -/
abbrev HALL_INVERT : Nat := 0x200501
/-- 0x2005.02 (R175). -/
abbrev HALL_FILTER : Nat := 0x200502
/-- 0x2005.03 (R175). -/
abbrev SLIP_STEP_TICKS : Nat := 0x200503
/-- 0x2005.04 (R175). -/
abbrev SLIP_WINDOW : Nat := 0x200504
/-- 0x2005.05 (R175). -/
abbrev SLIP_TOL : Nat := 0x200505
/-- 0x2005.06 (R175). -/
abbrev DIR_PIN_INVERT : Nat := 0x200506
/-- 0x2006.00 (R175). -/
abbrev SSI_ENABLE : Nat := 0x200600
/-- 0x2006.01 (R175). -/
abbrev SSI_BITS : Nat := 0x200601
/-- 0x2006.02 (R175). -/
abbrev SSI_STATUS_BITS : Nat := 0x200602
/-- 0x2006.03 (R175). -/
abbrev SSI_ERR_MASK : Nat := 0x200603
/-- 0x2006.04 (R175). -/
abbrev SSI_GRAY : Nat := 0x200604
/-- 0x2006.05 (R175). -/
abbrev SSI_CLOCK : Nat := 0x200605
/-- 0x2006.06 (R175). -/
abbrev SSI_LINE_DELAY : Nat := 0x200606
/-- 0x2006.07 (R175). -/
abbrev SSI_MONOFLOP : Nat := 0x200607
/-- 0x2006.08 (R175). -/
abbrev SSI_CHECK : Nat := 0x200608
/-- 0x2006.09 (R175). -/
abbrev SSI_SCALE : Nat := 0x200609
/-- 0x2006.0A (R175). -/
abbrev SSI_OFFSET : Nat := 0x20060a
/-- 0x2006.0B (R175). -/
abbrev SSI_MODULUS : Nat := 0x20060b
/-- 0x2006.0C (R175). -/
abbrev SSI_AT_START : Nat := 0x20060c
/-- 0x2006.0D (R175). -/
abbrev SSI_MAX_CORR : Nat := 0x20060d
/-- 0x2006.0E (R175). -/
abbrev SSI_COMMAND : Nat := 0x20060e
/-- 0x2006.0F (R175). -/
abbrev SSI_RESULT : Nat := 0x20060f
/-- 0x2006.10 (R175). -/
abbrev SSI_RAW : Nat := 0x200610
/-- 0x2006.11 (R175). -/
abbrev SSI_POS : Nat := 0x200611
/-- 0x2006.12 (R175). -/
abbrev SSI_DIFF : Nat := 0x200612
/-- 0x2006.13 (R175). -/
abbrev SSI_FREEZE_CT : Nat := 0x200613
/-- 0x2007.00 (R175). -/
abbrev POS_ROLE : Nat := 0x200700
/-- 0x2007.01 (R175). -/
abbrev POS_SWITCH_CT : Nat := 0x200701
/-- 0x2007.02 (R175). -/
abbrev POS_SOURCE_ADDR : Nat := 0x200702
/-- 0x2007.03 (R175). -/
abbrev POS_PRESET : Nat := 0x200703
/-- 0x2007.04 (R175). -/
abbrev ENC_OUT_MODE : Nat := 0x200704
/-- 0x2007.05 (R175). -/
abbrev ENC_OUT_DIV : Nat := 0x200705
/-- 0x2007.06 (R175). -/
abbrev POS_SOURCE_SEEN : Nat := 0x200706
/-- 0x2007.07 (R175). -/
abbrev ROLE_IN_FORCE : Nat := 0x200707
/-- 0x2100.00 (R213). -/
abbrev GRID_ENABLE : Nat := 0x210000
/-- 0x2100.01 (R213). -/
abbrev LINE_ORIGIN : Nat := 0x210001
/-- 0x2100.02 (R213). -/
abbrev LINE_PITCH : Nat := 0x210002
/-- 0x2100.03 (R213). -/
abbrev GRID_DIR : Nat := 0x210003
/-- 0x2100.04 (R213). -/
abbrev BAND_LEN : Nat := 0x210004
/-- 0x2100.05 (R213). -/
abbrev BAND_PHASE : Nat := 0x210005
/-- 0x2101.00 (R213). -/
abbrev LINE_NOW : Nat := 0x210100
/-- 0x2101.01 (R213). -/
abbrev NEXT_LINE : Nat := 0x210101
/-- 0x2101.02 (R213). -/
abbrev NEXT_BAND_LINE : Nat := 0x210102
/-- 0x2101.03 (R213). -/
abbrev NEXT_SHEET_LINE : Nat := 0x210103
/-- 0x2101.04 (R213). -/
abbrev NEXT_LINE_CT : Nat := 0x210104
/-- 0x2101.05 (R213). -/
abbrev FREEZE_STATE : Nat := 0x210105
/-- 0x2101.06 (R213). -/
abbrev PASS_COUNT : Nat := 0x210106
/-- 0x2101.07 (R213). -/
abbrev LINE_EVENTS : Nat := 0x210107
/-- 0x2101.08 (R213). -/
abbrev FREEZE_SHORT : Nat := 0x210108
/-- 0x2101.09 (R213). -/
abbrev LINE_BURST : Nat := 0x210109
/-- 0x2102.00 (R213). -/
abbrev SHEET_SOURCE : Nat := 0x210200
/-- 0x2102.01 (R213). -/
abbrev CUE_SELECT : Nat := 0x210201
/-- 0x2102.02 (R213). -/
abbrev CUE_EDGE : Nat := 0x210202
/-- 0x2102.03 (R213). -/
abbrev CUE_FILTER : Nat := 0x210203
/-- 0x2102.04 (R213). -/
abbrev CUE_OFFSET : Nat := 0x210204
/-- 0x2102.05 (R213). -/
abbrev SHEET_MIN : Nat := 0x210205
/-- 0x2102.06 (R213). -/
abbrev SHEET_LINES : Nat := 0x210206
/-- 0x2102.07 (R213). -/
abbrev SHEET_AT : Nat := 0x210207
/-- 0x2102.08 (R213). -/
abbrev SHEET_QUEUE : Nat := 0x210208
/-- 0x2102.09 (R213). -/
abbrev SHEET_COUNT : Nat := 0x210209
/-- 0x2102.0A (R213). -/
abbrev LAST_SHEET_LINE : Nat := 0x21020a
/-- 0x2102.0B (R213). -/
abbrev CUE_IGNORED : Nat := 0x21020b
/-- 0x2102.0C (R213). -/
abbrev SHEET_QUEUE_FULL : Nat := 0x21020c
/-- 0x2102.0D (R213). -/
abbrev SHEET_LATE : Nat := 0x21020d
/-- 0x2102.0E (R213). -/
abbrev SHEET_MERGED : Nat := 0x21020e
/-- 0x2108.00 (R213). -/
abbrev OVERRUN_POLICY : Nat := 0x210800
/-- 0x2108.01 (R213). -/
abbrev DEFER_LIMIT : Nat := 0x210801
/-- 0x2108.02 (R213). -/
abbrev OVERSPEED_PORTS : Nat := 0x210802
/-- 0x2108.03 (R213). -/
abbrev OVERSPEED_WARN_PORTS : Nat := 0x210803
/-- 0x2160.00 (R213). -/
abbrev GPO_LEVEL : Nat := 0x216000
/-- 0x2160.01 (R213). -/
abbrev GPO_INVERT : Nat := 0x216001
/-- 0x2160.02 (R213). -/
abbrev GPO_FORCE : Nat := 0x216002
/-- 0x2160.03 (R213). -/
abbrev CAM_TRIG_INVERT : Nat := 0x216003
/-- 0x2140+c.00 (R214). -/
abbrev CMP_CTRL (c : Nat) : Nat := 0x214000 + 256 * c
/-- 0x2140+c.01 (R214). -/
abbrev CMP_TARGET (c : Nat) : Nat := 0x214001 + 256 * c
/-- 0x2140+c.02 (R214). -/
abbrev CMP_PERIOD (c : Nat) : Nat := 0x214002 + 256 * c
/-- 0x2140+c.03 (R214). -/
abbrev CMP_REPEAT (c : Nat) : Nat := 0x214003 + 256 * c
/-- 0x2140+c.04 (R214). -/
abbrev CMP_ADVANCE (c : Nat) : Nat := 0x214004 + 256 * c
/-- 0x2140+c.05 (R214). -/
abbrev CMP_WIDTH (c : Nat) : Nat := 0x214005 + 256 * c
/-- 0x2140+c.06 (R214). -/
abbrev CMP_STATUS (c : Nat) : Nat := 0x214006 + 256 * c
/-- 0x2140+c.07 (R214). -/
abbrev CMP_FIRED_CT (c : Nat) : Nat := 0x214007 + 256 * c
/-- 0x2140+c.08 (R214). -/
abbrev CMP_FIRED_POS (c : Nat) : Nat := 0x214008 + 256 * c
/-- 0x2140+c.09 (R214). -/
abbrev CMP_FIRE_COUNT (c : Nat) : Nat := 0x214009 + 256 * c
/-- 0x2140+c.0A (R214). -/
abbrev CMP_SKIPPED (c : Nat) : Nat := 0x21400a + 256 * c
/-- 0x3000+0x10·p.00 (R215). -/
abbrev STAGGER (p : Nat) : Nat := 0x300000 + 4096 * p
/-- 0x3000+0x10·p.01 (R215). -/
abbrev FINE_OFFSET (p : Nat) : Nat := 0x300001 + 4096 * p
/-- 0x3000+0x10·p.02 (R215). -/
abbrev LOOP_OFFSET (p : Nat) : Nat := 0x300002 + 4096 * p
/-- 0x3000+0x10·p.03 (R215). -/
abbrev FLIGHT_ADV_S (p : Nat) : Nat := 0x300003 + 4096 * p
/-- 0x3000+0x10·p.04 (R215). -/
abbrev FLIGHT_ADV_M (p : Nat) : Nat := 0x300004 + 4096 * p
/-- 0x3000+0x10·p.05 (R215). -/
abbrev FLIGHT_ADV_L (p : Nat) : Nat := 0x300005 + 4096 * p
/-- 0x3000+0x10·p.06 (R215). -/
abbrev FLIGHT_SEL (p : Nat) : Nat := 0x300006 + 4096 * p
/-- 0x3000+0x10·p.07 (R215). -/
abbrev MIN_FIRE_PERIOD (p : Nat) : Nat := 0x300007 + 4096 * p
/-- 0x3001+0x10·p.00 (R215). -/
abbrev DROP_COUNT (p : Nat) : Nat := 0x300100 + 4096 * p
/-- 0x3001+0x10·p.01 (R215). -/
abbrev DEFER_COUNT (p : Nat) : Nat := 0x300101 + 4096 * p
/-- 0x3001+0x10·p.02 (R215). -/
abbrev LAST_DROP_LINE (p : Nat) : Nat := 0x300102 + 4096 * p
/-- 0x3001+0x10·p.03 (R215). -/
abbrev LAST_DEFER_LINE (p : Nat) : Nat := 0x300103 + 4096 * p
/-- 0x3001+0x10·p.04 (R215). -/
abbrev MAX_LATENESS (p : Nat) : Nat := 0x300104 + 4096 * p
/-- 0x3001+0x10·p.05 (R215). -/
abbrev LAST_FIRE_CT (p : Nat) : Nat := 0x300105 + 4096 * p
/-- 0x3001+0x10·p.06 (R215). -/
abbrev LAST_FIRE_LINE (p : Nat) : Nat := 0x300106 + 4096 * p
/-- 0x2200.00 (R246). -/
abbrev INGRESS_MODE : Nat := 0x220000
/-- 0x2200.01 (R246). -/
abbrev LANE_ENABLE : Nat := 0x220001
/-- 0x2200.02 (R246). -/
abbrev RASTER_LEAD : Nat := 0x220002
/-- 0x2200.03 (R246). -/
abbrev LATE_POLICY : Nat := 0x220003
/-- 0x2200.04 (R246). -/
abbrev DS_BASE : Nat := 0x220004
/-- 0x2200.05 (R246). -/
abbrev DS_SIZE : Nat := 0x220005
/-- 0x2200.06 (R246). -/
abbrev DS_USED : Nat := 0x220006
/-- 0x2200.07 (R246). -/
abbrev PLANE_ENABLE : Nat := 0x220007
/-- 0x2200.08 (R246). -/
abbrev INGRESS_READY : Nat := 0x220008
/-- 0x2202.00 (R246). -/
abbrev PACKETS_OK : Nat := 0x220200
/-- 0x2202.01 (R246). -/
abbrev PACKET_CRC : Nat := 0x220201
/-- 0x2202.02 (R246). -/
abbrev RASTER_AHEAD : Nat := 0x220202
/-- 0x2202.03 (R246). -/
abbrev RASTER_STALE : Nat := 0x220203
/-- 0x2202.04 (R246). -/
abbrev RASTER_ORDER : Nat := 0x220204
/-- 0x2202.05 (R246). -/
abbrev RASTER_INCOMPLETE : Nat := 0x220205
/-- 0x2202.06 (R246). -/
abbrev TABLE_FULL : Nat := 0x220206
/-- 0x2202.07 (R246). -/
abbrev PLANE_OFF : Nat := 0x220207
/-- 0x2202.08 (R246). -/
abbrev PACKET_FORMAT : Nat := 0x220208
/-- 0x2202.09 (R246). -/
abbrev CREDIT_VIOLATION : Nat := 0x220209
/-- 0x2203.00–0x2203.03 (R246). -/
abbrev LANE_PACKETS (k : Nat) : Nat := 0x220300 + k
/-- 0x2203.04–0x2203.07 (R246). -/
abbrev PSEQ_GAP (k : Nat) : Nat := 0x220304 + k
/-- 0x2210+q.00 (R247). -/
abbrev PLANE_WIDTH (q : Nat) : Nat := 0x221000 + 256 * q
/-- 0x2210+q.01 (R247). -/
abbrev PLANE_INTERLEAVE (q : Nat) : Nat := 0x221001 + 256 * q
/-- 0x2210+q.02 (R247). -/
abbrev PLANE_DEPTH (q : Nat) : Nat := 0x221002 + 256 * q
/-- 0x2210+q.03 (R247). -/
abbrev PLANE_FIRST_LINE (q : Nat) : Nat := 0x221003 + 256 * q
/-- 0x2210+q.04 (R247). -/
abbrev OUT_VALUE (q : Nat) : Nat := 0x221004 + 256 * q
/-- 0x2210+q.05 (R247). -/
abbrev DEPTH_NEEDED (q : Nat) : Nat := 0x221005 + 256 * q
/-- 0x2210+q.06 (R247). -/
abbrev LINE_WORDS (q : Nat) : Nat := 0x221006 + 256 * q
/-- 0x2210+q.07 (R247). -/
abbrev WINDOW_BOTTOM (q : Nat) : Nat := 0x221007 + 256 * q
/-- 0x2210+q.08 (R247). -/
abbrev WINDOW_TOP (q : Nat) : Nat := 0x221008 + 256 * q
/-- 0x2210+q.09 (R247). -/
abbrev LINES_COMPLETE (q : Nat) : Nat := 0x221009 + 256 * q
/-- 0x2210+q.0A (R247). -/
abbrev LAST_COMPLETE_LINE (q : Nat) : Nat := 0x22100a + 256 * q
/-- 0x3002+0x10·p.00 (R248). -/
abbrev PLANE_SEL (p : Nat) : Nat := 0x300200 + 4096 * p
/-- 0x3002+0x10·p.01 (R248). -/
abbrev COL_BASE (p : Nat) : Nat := 0x300201 + 4096 * p
/-- 0x3002+0x10·p.02 (R248). -/
abbrev GEOM_COST (p : Nat) : Nat := 0x300202 + 4096 * p
/-- 0x3002+0x10·p.03 (R248). -/
abbrev GEOM_ROWMAX (p : Nat) : Nat := 0x300203 + 4096 * p
/-- 0x3002+0x10·p.04 (R248). -/
abbrev MISSING_COUNT (p : Nat) : Nat := 0x300204 + 4096 * p
/-- 0x3002+0x10·p.05 (R248). -/
abbrev LAST_MISSING_LINE (p : Nat) : Nat := 0x300205 + 4096 * p
/-- 0x3002+0x10·p.06 (R248). -/
abbrev MISSING_NOZZLES (p : Nat) : Nat := 0x300206 + 4096 * p
/-- 0x3002+0x10·p.07 (R248). -/
abbrev ASSEMBLY_LATE (p : Nat) : Nat := 0x300207 + 4096 * p
/-- 0x4000+0x40·p.00 (R249). -/
abbrev NOZZLE_GEOMETRY (p : Nat) : Nat := 0x400000 + 16384 * p
/-- 0x2300.00 (R274). -/
abbrev SCREEN_CLOCKS : Nat := 0x230000
/-- 0x2300.01 (R274). -/
abbrev SCREEN_TABLE_ERRORS : Nat := 0x230001
/-- 0x3003+0x10·p.00 (R275). -/
abbrev SCREEN_MODE (p : Nat) : Nat := 0x300300 + 4096 * p
/-- 0x3003+0x10·p.01 (R275). -/
abbrev MATRIX_SEL (p : Nat) : Nat := 0x300301 + 4096 * p
/-- 0x3003+0x10·p.02 (R275). -/
abbrev MATRIX_COL_PHASE (p : Nat) : Nat := 0x300302 + 4096 * p
/-- 0x3003+0x10·p.03 (R275). -/
abbrev MATRIX_LINE_PHASE (p : Nat) : Nat := 0x300303 + 4096 * p
/-- 0x3003+0x10·p.04 (R275). -/
abbrev KERNEL_SEL (p : Nat) : Nat := 0x300304 + 4096 * p
/-- 0x3003+0x10·p.05 (R275). -/
abbrev DIFF_CTRL (p : Nat) : Nat := 0x300305 + 4096 * p
/-- 0x3003+0x10·p.06 (R275). -/
abbrev ERR_LIMIT (p : Nat) : Nat := 0x300306 + 4096 * p
/-- 0x3003+0x10·p.07 (R275). -/
abbrev CODE_SET (p : Nat) : Nat := 0x300307 + 4096 * p
/-- 0x3003+0x10·p.08 (R275). -/
abbrev LEVELS (p : Nat) : Nat := 0x300308 + 4096 * p
/-- 0x3003+0x10·p.09 (R275). -/
abbrev REDIST_SCOPE (p : Nat) : Nat := 0x300309 + 4096 * p
/-- 0x3003+0x10·p.0A (R275). -/
abbrev REDIST_REACH (p : Nat) : Nat := 0x30030a + 4096 * p
/-- 0x3003+0x10·p.0B (R275). -/
abbrev REDIST_WEIGHT (p : Nat) : Nat := 0x30030b + 4096 * p
/-- 0x3003+0x10·p.0C (R275). -/
abbrev REDIST_SOLO (p : Nat) : Nat := 0x30030c + 4096 * p
/-- 0x3003+0x10·p.0D (R275). -/
abbrev MASK_SEL (p : Nat) : Nat := 0x30030d + 4096 * p
/-- 0x3004+0x10·p.00 (R275). -/
abbrev LINES_SCREENED (p : Nat) : Nat := 0x300400 + 4096 * p
/-- 0x3004+0x10·p.01 (R275). -/
abbrev DEAD_IN_FORCE (p : Nat) : Nat := 0x300401 + 4096 * p
/-- 0x3004+0x10·p.02 (R275). -/
abbrev DEAD_UNCOVERED (p : Nat) : Nat := 0x300402 + 4096 * p
/-- 0x3004+0x10·p.03 (R275). -/
abbrev REDIST_CLIP (p : Nat) : Nat := 0x300403 + 4096 * p
/-- 0x3004+0x10·p.04 (R275). -/
abbrev CODE1_COUNT (p : Nat) : Nat := 0x300404 + 4096 * p
/-- 0x3004+0x10·p.05 (R275). -/
abbrev CODE2_COUNT (p : Nat) : Nat := 0x300405 + 4096 * p
/-- 0x3004+0x10·p.06 (R275). -/
abbrev CODE3_COUNT (p : Nat) : Nat := 0x300406 + 4096 * p
/-- 0x3004+0x10·p.07 (R275). -/
abbrev PORT_TABLE_ERRORS (p : Nat) : Nat := 0x300407 + 4096 * p
/-- 0x4001+0x40·p.00 (R276). -/
abbrev NOZZLE_CORR (p : Nat) : Nat := 0x400100 + 16384 * p
/-- 0x4002+0x40·p.00 (R276). -/
abbrev TONE_CURVE (p : Nat) : Nat := 0x400200 + 16384 * p
/-- 0x4003+0x40·p.00 (R276). -/
abbrev LOOP_MAP (p : Nat) : Nat := 0x400300 + 16384 * p
/-- 0x4400+m.00 (R276). -/
abbrev MATRIX (m : Nat) : Nat := 0x440000 + 256 * m
/-- 0x4410+k.00 (R276). -/
abbrev KERNEL (k : Nat) : Nat := 0x441000 + 256 * k
/-- 0x4420+m.00 (R276). -/
abbrev MASK (m : Nat) : Nat := 0x442000 + 256 * m
/-- 0x2400.00 (R319). -/
abbrev FIRE_ARM : Nat := 0x240000
/-- 0x2400.01 (R319). -/
abbrev FIRE_DISARM : Nat := 0x240001
/-- 0x2400.02 (R319). -/
abbrev ARMED_PORTS : Nat := 0x240002
/-- 0x2400.03 (R319). -/
abbrev ARM_REFUSE : Nat := 0x240003
/-- 0x2400.04 (R319). -/
abbrev ARM_REFUSE_PORTS : Nat := 0x240004
/-- 0x2400.05 (R319). -/
abbrev FIRE_INHIBIT : Nat := 0x240005
/-- 0x2400.06 (R319). -/
abbrev ARM_COUNT : Nat := 0x240006
/-- 0x2401.00–0x2401.03 (R319). -/
abbrev GATE_CFG (k : Nat) : Nat := 0x240100 + k
/-- 0x2401.04 (R319). -/
abbrev GATE_LEVEL : Nat := 0x240104
/-- 0x2401.05–0x2401.08 (R319). -/
abbrev GATE_CUTS (k : Nat) : Nat := 0x240105 + k
/-- 0x2500.00 (R319). -/
abbrev SAFE_SLEW : Nat := 0x250000
/-- 0x2500.01 (R319). -/
abbrev SCALE_STEP : Nat := 0x250001
/-- 0x2500.02 (R319). -/
abbrev SENSE_ENABLE : Nat := 0x250002
/-- 0x2500.03 (R319). -/
abbrev SENSE_CONSEC : Nat := 0x250003
/-- 0x3005+0x10·p.00–.03 (R320). -/
abbrev WAVE_SEL (p : Nat) (k : Nat) : Nat := 0x300500 + 4096 * p + k
/-- 0x3005+0x10·p.04–.07 (R320). -/
abbrev CH_SKEW (p : Nat) (k : Nat) : Nat := 0x300504 + 4096 * p + k
/-- 0x3005+0x10·p.08–.0C (R320). -/
abbrev SCALE_TEMP (p : Nat) (k : Nat) : Nat := 0x300508 + 4096 * p + k
/-- 0x3005+0x10·p.0D (R320). -/
abbrev IDLE_TICKLE (p : Nat) : Nat := 0x30050d + 4096 * p
/-- 0x3006+0x10·p.00–.03 (R320). -/
abbrev REST_LEVEL (p : Nat) (k : Nat) : Nat := 0x300600 + 4096 * p + k
/-- 0x3006+0x10·p.04–.07 (R320). -/
abbrev LEVEL_MIN (p : Nat) (k : Nat) : Nat := 0x300604 + 4096 * p + k
/-- 0x3006+0x10·p.08–.0B (R320). -/
abbrev LEVEL_MAX (p : Nat) (k : Nat) : Nat := 0x300608 + 4096 * p + k
/-- 0x3006+0x10·p.0C–.0F (R320). -/
abbrev SLEW_MAX (p : Nat) (k : Nat) : Nat := 0x30060c + 4096 * p + k
/-- 0x3007+0x10·p.00 (R320). -/
abbrev LINK_PROFILE (p : Nat) : Nat := 0x300700 + 4096 * p
/-- 0x3007+0x10·p.01 (R320). -/
abbrev LINK_TIMING (p : Nat) : Nat := 0x300701 + 4096 * p
/-- 0x3007+0x10·p.02 (R320). -/
abbrev FIRE_WORDS (p : Nat) : Nat := 0x300702 + 4096 * p
/-- 0x3007+0x10·p.03 (R320). -/
abbrev SENSE_TOL (p : Nat) : Nat := 0x300703 + 4096 * p
/-- 0x3007+0x10·p.04 (R320). -/
abbrev SENSE_DELAY (p : Nat) : Nat := 0x300704 + 4096 * p
/-- 0x3008+0x10·p.00 (R320). -/
abbrev PORT_STATE (p : Nat) : Nat := 0x300800 + 4096 * p
/-- 0x3008+0x10·p.01 (R320). -/
abbrev FIRES (p : Nat) : Nat := 0x300801 + 4096 * p
/-- 0x3008+0x10·p.02 (R320). -/
abbrev IDLE_FIRES (p : Nat) : Nat := 0x300802 + 4096 * p
/-- 0x3008+0x10·p.03 (R320). -/
abbrev SHIP_LATE (p : Nat) : Nat := 0x300803 + 4096 * p
/-- 0x3008+0x10·p.04 (R320). -/
abbrev GATE_SUPPRESSED (p : Nat) : Nat := 0x300804 + 4096 * p
/-- 0x3008+0x10·p.05 (R320). -/
abbrev STOP_CAUSE (p : Nat) : Nat := 0x300805 + 4096 * p
/-- 0x3008+0x10·p.06 (R320). -/
abbrev STOP_LINE (p : Nat) : Nat := 0x300806 + 4096 * p
/-- 0x3008+0x10·p.07 (R320). -/
abbrev STOP_POS (p : Nat) : Nat := 0x300807 + 4096 * p
/-- 0x3008+0x10·p.08 (R320). -/
abbrev STOP_CT (p : Nat) : Nat := 0x300808 + 4096 * p
/-- 0x3008+0x10·p.09 (R320). -/
abbrev CLAMP_COUNT (p : Nat) : Nat := 0x300809 + 4096 * p
/-- 0x3008+0x10·p.0A (R320). -/
abbrev SENSE_FAILS (p : Nat) : Nat := 0x30080a + 4096 * p
/-- 0x3008+0x10·p.0B (R320). -/
abbrev SENSE_LAST_CH (p : Nat) : Nat := 0x30080b + 4096 * p
/-- 0x3008+0x10·p.0C (R320). -/
abbrev SENSE_LAST_ERR (p : Nat) : Nat := 0x30080c + 4096 * p
/-- 0x3008+0x10·p.0D–.10 (R320). -/
abbrev SCALE_IN_FORCE (p : Nat) (k : Nat) : Nat := 0x30080d + 4096 * p + k
/-- 0x3008+0x10·p.11–.14 (R320). -/
abbrev WAVE_VALID (p : Nat) (k : Nat) : Nat := 0x300811 + 4096 * p + k
/-- 0x3008+0x10·p.15 (R320). -/
abbrev WAVE_SPAN (p : Nat) : Nat := 0x300815 + 4096 * p
/-- 0x4008+0x40·p+w.00 (R321). -/
abbrev WAVE_TABLES (p : Nat) (w : Nat) : Nat := 0x400800 + 16384 * p + 256 * w
/-- 0x400C+0x40·p.00 (R321). -/
abbrev HEAD_IDENTITY (p : Nat) : Nat := 0x400c00 + 16384 * p
/-- 0x2510.00 (R351). -/
abbrev CAL_ENABLE : Nat := 0x251000
/-- 0x2510.01 (R351). -/
abbrev CAL_DELTA_T : Nat := 0x251001
/-- 0x2510.02 (R351). -/
abbrev CAL_MAX_AGE : Nat := 0x251002
/-- 0x2510.03 (R351). -/
abbrev CAL_RETRY : Nat := 0x251003
/-- 0x2510.04 (R351). -/
abbrev CAL_REJECT_LIMIT : Nat := 0x251004
/-- 0x2510.05 (R351). -/
abbrev CAL_ACCEPT : Nat := 0x251005
/-- 0x2510.06 (R351). -/
abbrev CAL_POINTS : Nat := 0x251006
/-- 0x2510.07 (R351). -/
abbrev CAL_CODE_LO : Nat := 0x251007
/-- 0x2510.08 (R351). -/
abbrev CAL_CODE_HI : Nat := 0x251008
/-- 0x2510.09 (R351). -/
abbrev CAL_DWELL : Nat := 0x251009
/-- 0x2510.0A (R351). -/
abbrev CAL_AVG : Nat := 0x25100a
/-- 0x2510.0B (R351). -/
abbrev CAL_SLEW : Nat := 0x25100b
/-- 0x2510.0C (R351). -/
abbrev CAL_REF_LO : Nat := 0x25100c
/-- 0x2510.0D (R351). -/
abbrev CAL_REF_HI : Nat := 0x25100d
/-- 0x2510.0E (R351). -/
abbrev CAL_GAIN_TOL : Nat := 0x25100e
/-- 0x2510.0F (R351). -/
abbrev CAL_OFFSET_TOL : Nat := 0x25100f
/-- 0x2510.10 (R351). -/
abbrev CAL_SENSE_GAIN_TOL : Nat := 0x251010
/-- 0x2510.11 (R351). -/
abbrev CAL_SENSE_OFFSET_TOL : Nat := 0x251011
/-- 0x2510.12 (R351). -/
abbrev CAL_RESID_MAX : Nat := 0x251012
/-- 0x2510.13 (R351). -/
abbrev CAL_REPEAT_GAIN_TOL : Nat := 0x251013
/-- 0x2510.14 (R351). -/
abbrev CAL_REPEAT_OFFSET_TOL : Nat := 0x251014
/-- 0x2510.15 (R351). -/
abbrev HOV_CLOCK : Nat := 0x251015
/-- 0x2510.16 (R351). -/
abbrev HOV_SETTLE : Nat := 0x251016
/-- 0x2511.00–0x2511.04 (R351). -/
abbrev CAL_SET_TEMP (k : Nat) : Nat := 0x251100 + k
/-- 0x2512.00–0x2512.03 (R351). -/
abbrev DRIVE_SENSOR (k : Nat) : Nat := 0x251200 + k
/-- 0x2513.00–0x2513.03 (R351). -/
abbrev CAL_ABORT (k : Nat) : Nat := 0x251300 + k
/-- 0x2514.00–0x2514.03 (R351). -/
abbrev CAL_RESULT (k : Nat) : Nat := 0x251400 + k
/-- 0x2515.00–0x2515.03 (R351). -/
abbrev CAL_CHANNEL (k : Nat) : Nat := 0x251500 + k
/-- 0x2516.00–0x2516.03 (R351). -/
abbrev CAL_DEFERRED (k : Nat) : Nat := 0x251600 + k
/-- 0x2517.00–0x2517.03 (R351). -/
abbrev HOV_ERRORS (k : Nat) : Nat := 0x251700 + k
/-- 0x2518.00–0x2518.03 (R351). -/
abbrev HOV_STATE (k : Nat) : Nat := 0x251800 + k
/-- 0x2520.c (R352). -/
abbrev CAL_STATE (k : Nat) : Nat := 0x252000 + k
/-- 0x2521.c (R352). -/
abbrev CAL_TEMP_REF (k : Nat) : Nat := 0x252100 + k
/-- 0x2522.c (R352). -/
abbrev CAL_GAIN_IN_FORCE (k : Nat) : Nat := 0x252200 + k
/-- 0x2523.c (R352). -/
abbrev CAL_OFFSET_IN_FORCE (k : Nat) : Nat := 0x252300 + k
/-- 0x2524.c (R352). -/
abbrev SENSE_GAIN_IN_FORCE (k : Nat) : Nat := 0x252400 + k
/-- 0x2525.c (R352). -/
abbrev SENSE_OFFSET_IN_FORCE (k : Nat) : Nat := 0x252500 + k
/-- 0x2526.c (R352). -/
abbrev CAL_RESID_LAST (k : Nat) : Nat := 0x252600 + k
/-- 0x2527.c (R352). -/
abbrev CAL_DONE (k : Nat) : Nat := 0x252700 + k
/-- 0x2528.c (R352). -/
abbrev CAL_REJECTED (k : Nat) : Nat := 0x252800 + k
/-- 0x2529.c (R352). -/
abbrev CAL_REQUEST (k : Nat) : Nat := 0x252900 + k
/-- 0x4500+s.00 (R354). -/
abbrev CAL_SETS (s : Nat) : Nat := 0x450000 + 256 * s
/-- 0x2600.00 (R371). -/
abbrev SCAN_COUNT : Nat := 0x260000
/-- 0x2600.01 (R371). -/
abbrev DEV_LIMIT : Nat := 0x260001
/-- 0x2600.02 (R371). -/
abbrev DEV_SCANS : Nat := 0x260002
/-- 0x2600.03 (R371). -/
abbrev RECOVER_SCANS : Nat := 0x260003
/-- 0x2600.04 (R371). -/
abbrev DT_ENABLE : Nat := 0x260004
/-- 0x2600.05–0x2600.08 (R371). -/
abbrev DT_IDEALITY (k : Nat) : Nat := 0x260005 + k
/-- 0x2600.09 (R371). -/
abbrev DIE_TEMP : Nat := 0x260009
/-- 0x2600.0A (R371). -/
abbrev DIE_WARN : Nat := 0x26000a
/-- 0x2600.0B (R371). -/
abbrev DIE_HARD : Nat := 0x26000b
/-- 0x2600.0C (R371). -/
abbrev DRIVE_HARD : Nat := 0x26000c
/-- 0x2600.0D (R371). -/
abbrev HEAT_PERIOD : Nat := 0x26000d
/-- 0x2600.0E (R371). -/
abbrev HEAT_DIV : Nat := 0x26000e
/-- 0x2610.00–0x2610.4F (R371). -/
abbrev SENSOR_TEMP (k : Nat) : Nat := 0x261000 + k
/-- 0x2611.00–0x2611.4F (R371). -/
abbrev SENSOR_STATE (k : Nat) : Nat := 0x261100 + k
/-- 0x2612.00–0x2612.4F (R371). -/
abbrev BROKEN_COUNT (k : Nat) : Nat := 0x261200 + k
/-- 0x2613.00–0x2613.4F (R371). -/
abbrev RECOVER_COUNT (k : Nat) : Nat := 0x261300 + k
/-- 0x2614.00–0x2614.4F (R371). -/
abbrev SENSOR_OFS (k : Nat) : Nat := 0x261400 + k
/-- 0x3009+0x10·p.00 (R372). -/
abbrev THERM_MASK (p : Nat) : Nat := 0x300900 + 4096 * p
/-- 0x3009+0x10·p.01 (R372). -/
abbrev HEAD_TEMP (p : Nat) : Nat := 0x300901 + 4096 * p
/-- 0x3009+0x10·p.02 (R372). -/
abbrev HEAD_TEMP_MAX (p : Nat) : Nat := 0x300902 + 4096 * p
/-- 0x3009+0x10·p.03 (R372). -/
abbrev LIMIT_WARN (p : Nat) : Nat := 0x300903 + 4096 * p
/-- 0x3009+0x10·p.04 (R372). -/
abbrev LIMIT_SOFT (p : Nat) : Nat := 0x300904 + 4096 * p
/-- 0x3009+0x10·p.05 (R372). -/
abbrev LIMIT_HARD (p : Nat) : Nat := 0x300905 + 4096 * p
/-- 0x3009+0x10·p.06 (R372). -/
abbrev LIMIT_HYST (p : Nat) : Nat := 0x300906 + 4096 * p
/-- 0x3009+0x10·p.07 (R372). -/
abbrev LIMIT_STATE (p : Nat) : Nat := 0x300907 + 4096 * p
/-- 0x3009+0x10·p.08 (R372). -/
abbrev HEAT_MODE (p : Nat) : Nat := 0x300908 + 4096 * p
/-- 0x3009+0x10·p.09 (R372). -/
abbrev HEAT_SETPOINT (p : Nat) : Nat := 0x300909 + 4096 * p
/-- 0x3009+0x10·p.0A (R372). -/
abbrev HEAT_KP (p : Nat) : Nat := 0x30090a + 4096 * p
/-- 0x3009+0x10·p.0B (R372). -/
abbrev HEAT_KI (p : Nat) : Nat := 0x30090b + 4096 * p
/-- 0x3009+0x10·p.0C (R372). -/
abbrev HEAT_DUTY_MAX (p : Nat) : Nat := 0x30090c + 4096 * p
/-- 0x3009+0x10·p.0D (R372). -/
abbrev HEAT_FIXED (p : Nat) : Nat := 0x30090d + 4096 * p
/-- 0x3009+0x10·p.0E (R372). -/
abbrev HEAT_DUTY (p : Nat) : Nat := 0x30090e + 4096 * p
/-- 0x4010+0x40·p.00 (R373). -/
abbrev THERM_CURVE (p : Nat) : Nat := 0x401000 + 16384 * p
/-- 0x2700.00 (R407). -/
abbrev SHARE_MODE : Nat := 0x270000
/-- 0x2700.01 (R407). -/
abbrev OUT_RATE : Nat := 0x270001
/-- 0x2700.02 (R407). -/
abbrev PIPE_UNITS : Nat := 0x270002
/-- 0x2700.03 (R407). -/
abbrev CTX_SWITCHES : Nat := 0x270003
/-- 0x2700.04 (R407). -/
abbrev PIPE_BUSY_CT : Nat := 0x270004
/-- 0x2700.05 (R407). -/
abbrev PIPE_TABLE_ERRORS : Nat := 0x270005
/-- 0x2710+c.00 (R408). -/
abbrev CAM_ENABLE (c : Nat) : Nat := 0x271000 + 256 * c
/-- 0x2710+c.01 (R408). -/
abbrev CAM_LANES (c : Nat) : Nat := 0x271001 + 256 * c
/-- 0x2710+c.02 (R408). -/
abbrev LANE_MAP (c : Nat) : Nat := 0x271002 + 256 * c
/-- 0x2710+c.03 (R408). -/
abbrev HS_SETTLE (c : Nat) : Nat := 0x271003 + 256 * c
/-- 0x2710+c.04 (R408). -/
abbrev DATA_TYPE (c : Nat) : Nat := 0x271004 + 256 * c
/-- 0x2710+c.05 (R408). -/
abbrev CAM_VC (c : Nat) : Nat := 0x271005 + 256 * c
/-- 0x2710+c.06 (R408). -/
abbrev EXPOSURES (c : Nat) : Nat := 0x271006 + 256 * c
/-- 0x2710+c.07 (R408). -/
abbrev CAM_WIDTH (c : Nat) : Nat := 0x271007 + 256 * c
/-- 0x2710+c.08 (R408). -/
abbrev CAM_HEIGHT (c : Nat) : Nat := 0x271008 + 256 * c
/-- 0x2710+c.09 (R408). -/
abbrev FILL_VALUE (c : Nat) : Nat := 0x271009 + 256 * c
/-- 0x2710+c.0A (R408). -/
abbrev FRAME_TIMEOUT (c : Nat) : Nat := 0x27100a + 256 * c
/-- 0x2710+c.0B (R408). -/
abbrev TRIG_WINDOW (c : Nat) : Nat := 0x27100b + 256 * c
/-- 0x2710+c.0C (R408). -/
abbrev CAM_SILENT (c : Nat) : Nat := 0x27100c + 256 * c
/-- 0x2710+c.0D (R408). -/
abbrev CAP_BASE (c : Nat) : Nat := 0x27100d + 256 * c
/-- 0x2710+c.0E (R408). -/
abbrev CAP_SLOTS (c : Nat) : Nat := 0x27100e + 256 * c
/-- 0x2710+c.0F (R408). -/
abbrev OUT_BASE (c : Nat) : Nat := 0x27100f + 256 * c
/-- 0x2710+c.10 (R408). -/
abbrev OUT_SLOTS (c : Nat) : Nat := 0x271010 + 256 * c
/-- 0x2710+c.11 (R408). -/
abbrev OUT_DECIM (c : Nat) : Nat := 0x271011 + 256 * c
/-- 0x2710+c.12 (R408). -/
abbrev RES_BASE (c : Nat) : Nat := 0x271012 + 256 * c
/-- 0x2710+c.13 (R408). -/
abbrev RES_WORDS (c : Nat) : Nat := 0x271013 + 256 * c
/-- 0x2710+c.14 (R408). -/
abbrev CAM_RESET (c : Nat) : Nat := 0x271014 + 256 * c
/-- 0x2710+c.15 (R408). -/
abbrev I2C_SPEED (c : Nat) : Nat := 0x271015 + 256 * c
/-- 0x2710+c.16 (R408). -/
abbrev I2C_CMD (c : Nat) : Nat := 0x271016 + 256 * c
/-- 0x2710+c.17 (R408). -/
abbrev I2C_STATUS (c : Nat) : Nat := 0x271017 + 256 * c
/-- 0x2710+c.18 (R408). -/
abbrev I2C_DATA (c : Nat) : Nat := 0x271018 + 256 * c
/-- 0x2720+c.00 (R408). -/
abbrev CAM_STATE (c : Nat) : Nat := 0x272000 + 256 * c
/-- 0x2720+c.01 (R408). -/
abbrev FRAMES (c : Nat) : Nat := 0x272001 + 256 * c
/-- 0x2720+c.02 (R408). -/
abbrev FRAMES_USABLE (c : Nat) : Nat := 0x272002 + 256 * c
/-- 0x2720+c.03 (R408). -/
abbrev FRAMES_SHORT (c : Nat) : Nat := 0x272003 + 256 * c
/-- 0x2720+c.04 (R408). -/
abbrev FRAMES_LONG (c : Nat) : Nat := 0x272004 + 256 * c
/-- 0x2720+c.05 (R408). -/
abbrev LINES_DROPPED (c : Nat) : Nat := 0x272005 + 256 * c
/-- 0x2720+c.06 (R408). -/
abbrev HDR_ECC_CORRECTED (c : Nat) : Nat := 0x272006 + 256 * c
/-- 0x2720+c.07 (R408). -/
abbrev HDR_ECC_ERRORS (c : Nat) : Nat := 0x272007 + 256 * c
/-- 0x2720+c.08 (R408). -/
abbrev PAYLOAD_CRC (c : Nat) : Nat := 0x272008 + 256 * c
/-- 0x2720+c.09 (R408). -/
abbrev TYPE_DISCARDED (c : Nat) : Nat := 0x272009 + 256 * c
/-- 0x2720+c.0A (R408). -/
abbrev VC_DISCARDED (c : Nat) : Nat := 0x27200a + 256 * c
/-- 0x2720+c.0B (R408). -/
abbrev OUT_OF_FRAME (c : Nat) : Nat := 0x27200b + 256 * c
/-- 0x2720+c.0C (R408). -/
abbrev TRIG_ORPHAN (c : Nat) : Nat := 0x27200c + 256 * c
/-- 0x2720+c.0D (R408). -/
abbrev OUT_LINES_LOST (c : Nat) : Nat := 0x27200d + 256 * c
/-- 0x2720+c.0E (R408). -/
abbrev BUF_PEAK (c : Nat) : Nat := 0x27200e + 256 * c
/-- 0x2720+c.0F (R408). -/
abbrev CONFIG_SEQ (c : Nat) : Nat := 0x27200f + 256 * c
/-- 0x2720+c.10 (R408). -/
abbrev RES_WRITE (c : Nat) : Nat := 0x272010 + 256 * c
/-- 0x2720+c.11 (R408). -/
abbrev FRAME_SEQ (c : Nat) : Nat := 0x272011 + 256 * c
/-- 0x2730+c.00 (R408). -/
abbrev CFA (c : Nat) : Nat := 0x273000 + 256 * c
/-- 0x2730+c.01–.02 (R408). -/
abbrev EXP_GAIN (c : Nat) (k : Nat) : Nat := 0x273001 + 256 * c + k
/-- 0x2730+c.03 (R408). -/
abbrev KNEE_LO (c : Nat) : Nat := 0x273003 + 256 * c
/-- 0x2730+c.04 (R408). -/
abbrev KNEE_HI (c : Nat) : Nat := 0x273004 + 256 * c
/-- 0x2730+c.05 (R408). -/
abbrev MERGE_SHIFT (c : Nat) : Nat := 0x273005 + 256 * c
/-- 0x2730+c.06–.09 (R408). -/
abbrev BLACK (c : Nat) (k : Nat) : Nat := 0x273006 + 256 * c + k
/-- 0x2730+c.0A–.0D (R408). -/
abbrev BLACK_GAIN (c : Nat) (k : Nat) : Nat := 0x27300a + 256 * c + k
/-- 0x2730+c.0E (R408). -/
abbrev DYN_THRESH (c : Nat) : Nat := 0x27300e + 256 * c
/-- 0x2730+c.0F–.17 (R408). -/
abbrev CCM (c : Nat) (k : Nat) : Nat := 0x27300f + 256 * c + k
/-- 0x2730+c.18–.1A (R408). -/
abbrev CCM_OFS (c : Nat) (k : Nat) : Nat := 0x273018 + 256 * c + k
/-- 0x2740+c.00–.07 (R408). -/
abbrev REGION (c : Nat) (k : Nat) : Nat := 0x274000 + 256 * c + k
/-- 0x2742+c.00–.03 (R408). -/
abbrev FINDER (c : Nat) (k : Nat) : Nat := 0x274200 + 256 * c + k
/-- 0x2742+c.04–.07 (R408). -/
abbrev FINDER_T (c : Nat) (k : Nat) : Nat := 0x274204 + 256 * c + k
/-- 0x2742+c.08–.0B (R408). -/
abbrev FINDER_MIN (c : Nat) (k : Nat) : Nat := 0x274208 + 256 * c + k
/-- 0x4600+c.00 (R409). -/
abbrev LIN_TABLE (c : Nat) : Nat := 0x460000 + 256 * c
/-- 0x4602+c.00 (R409). -/
abbrev DEFECT_TABLE (c : Nat) : Nat := 0x460200 + 256 * c
/-- 0x4604+c.00 (R409). -/
abbrev DENSITY_LUT (c : Nat) : Nat := 0x460400 + 256 * c
/-- 0x4610+8c+r.00 (R409). -/
abbrev PROFILE_LAST (c : Nat) (r : Nat) : Nat := 0x461000 + 2048 * c + 256 * r
/-- 0x4620+c.00 (R409). -/
abbrev MARKS_LAST (c : Nat) : Nat := 0x462000 + 256 * c
/-- 0x4622+c.00 (R409). -/
abbrev FRAME_LAST (c : Nat) : Nat := 0x462200 + 256 * c
/-- 0x2800.00 (R432). -/
abbrev LOOP_ENABLE : Nat := 0x280000
/-- 0x2800.01 (R432). -/
abbrev MARGIN_PERIOD : Nat := 0x280001
/-- 0x2800.02 (R432). -/
abbrev MARGIN_PHASE : Nat := 0x280002
/-- 0x2800.03 (R432). -/
abbrev MARGIN_LINES : Nat := 0x280003
/-- 0x2800.04 (R432). -/
abbrev STRIP_LINES : Nat := 0x280004
/-- 0x2800.05 (R432). -/
abbrev STRIP_PITCH : Nat := 0x280005
/-- 0x2800.06 (R432). -/
abbrev STRIP_CODE : Nat := 0x280006
/-- 0x2800.07 (R432). -/
abbrev BAR_LINES : Nat := 0x280007
/-- 0x2800.08 (R432). -/
abbrev BAR_VALUE : Nat := 0x280008
/-- 0x2800.09 (R432). -/
abbrev GAP_LINES : Nat := 0x280009
/-- 0x2800.0A (R432). -/
abbrev MARK_LINES : Nat := 0x28000a
/-- 0x2800.0B (R432). -/
abbrev MARK_COLS : Nat := 0x28000b
/-- 0x2800.0C (R432). -/
abbrev MARK_CODE : Nat := 0x28000c
/-- 0x2800.0D (R432). -/
abbrev YGUARD : Nat := 0x28000d
/-- 0x2800.0E (R432). -/
abbrev MARK_SEARCH : Nat := 0x28000e
/-- 0x2800.0F (R432). -/
abbrev CONFIRM : Nat := 0x28000f
/-- 0x2800.10 (R432). -/
abbrev RECOVER : Nat := 0x280010
/-- 0x2800.11 (R432). -/
abbrev MISS_FRAC : Nat := 0x280011
/-- 0x2800.12 (R432). -/
abbrev WEAK_FRAC : Nat := 0x280012
/-- 0x2800.13 (R432). -/
abbrev MIN_RESPONSE : Nat := 0x280013
/-- 0x2800.14 (R432). -/
abbrev DEAD_LIMIT : Nat := 0x280014
/-- 0x2800.15 (R432). -/
abbrev TRIM_GAIN : Nat := 0x280015
/-- 0x2800.16 (R432). -/
abbrev TRIM_STEP_MAX : Nat := 0x280016
/-- 0x2800.17 (R432). -/
abbrev TRIM_LIMIT : Nat := 0x280017
/-- 0x2800.18 (R432). -/
abbrev TRIM_DEADBAND : Nat := 0x280018
/-- 0x2800.19 (R432). -/
abbrev REG_GAIN : Nat := 0x280019
/-- 0x2800.1A (R432). -/
abbrev STITCH_GAIN : Nat := 0x28001a
/-- 0x2800.1B (R432). -/
abbrev REG_STEP_MAX : Nat := 0x28001b
/-- 0x2800.1C (R432). -/
abbrev REG_LIMIT : Nat := 0x28001c
/-- 0x2800.1D (R432). -/
abbrev REG_DEADBAND : Nat := 0x28001d
/-- 0x2800.1E (R432). -/
abbrev BLOCKS_DONE : Nat := 0x28001e
/-- 0x2800.1F (R432). -/
abbrev BLOCKS_SKIPPED : Nat := 0x28001f
/-- 0x2800.20 (R432). -/
abbrev CHECKS_VOID : Nat := 0x280020
/-- 0x2800.21 (R432). -/
abbrev STALE_MEASURE : Nat := 0x280021
/-- 0x2810+c.00 (R433). -/
abbrev CAM_DIST (c : Nat) : Nat := 0x281000 + 256 * c
/-- 0x2810+c.01 (R433). -/
abbrev CAM_LPG (c : Nat) : Nat := 0x281001 + 256 * c
/-- 0x2810+c.02 (R433). -/
abbrev BLOCK_LAST (c : Nat) : Nat := 0x281002 + 256 * c
/-- 0x2810+c.03 (R433). -/
abbrev PORT_LAST (c : Nat) : Nat := 0x281003 + 256 * c
/-- 0x300A+0x10·p.00 (R434). -/
abbrev MAP_CAM (p : Nat) : Nat := 0x300a00 + 4096 * p
/-- 0x300A+0x10·p.01 (R434). -/
abbrev MAP_X0 (p : Nat) : Nat := 0x300a01 + 4096 * p
/-- 0x300A+0x10·p.02 (R434). -/
abbrev MAP_PITCH (p : Nat) : Nat := 0x300a02 + 4096 * p
/-- 0x300A+0x10·p.03 (R434). -/
abbrev MARK_COL (p : Nat) : Nat := 0x300a03 + 4096 * p
/-- 0x300A+0x10·p.04 (R434). -/
abbrev CHECK_CHANNEL (p : Nat) : Nat := 0x300a04 + 4096 * p
/-- 0x300A+0x10·p.05 (R434). -/
abbrev REG_REF (p : Nat) : Nat := 0x300a05 + 4096 * p
/-- 0x300A+0x10·p.06 (R434). -/
abbrev REG_TARGET (p : Nat) : Nat := 0x300a06 + 4096 * p
/-- 0x300A+0x10·p.07 (R434). -/
abbrev LOOP_APPLY (p : Nat) : Nat := 0x300a07 + 4096 * p
/-- 0x300A+0x10·p.08 (R434). -/
abbrev LOOP_CLEAR (p : Nat) : Nat := 0x300a08 + 4096 * p
/-- 0x300A+0x10·p.09 (R434). -/
abbrev DEAD_LOOP (p : Nat) : Nat := 0x300a09 + 4096 * p
/-- 0x300A+0x10·p.0A (R434). -/
abbrev WEAK_COUNT (p : Nat) : Nat := 0x300a0a + 4096 * p
/-- 0x300A+0x10·p.0B (R434). -/
abbrev RESP_MEDIAN (p : Nat) : Nat := 0x300a0b + 4096 * p
/-- 0x300A+0x10·p.0C (R434). -/
abbrev BAR_MEDIAN (p : Nat) : Nat := 0x300a0c + 4096 * p
/-- 0x300A+0x10·p.0D (R434). -/
abbrev REG_ERROR (p : Nat) : Nat := 0x300a0d + 4096 * p
/-- 0x300A+0x10·p.0E (R434). -/
abbrev XTRACK_ERROR (p : Nat) : Nat := 0x300a0e + 4096 * p
/-- 0x300A+0x10·p.0F (R434). -/
abbrev CHECKS (p : Nat) : Nat := 0x300a0f + 4096 * p
/-- 0x300A+0x10·p.10 (R434). -/
abbrev TRIM_SAT (p : Nat) : Nat := 0x300a10 + 4096 * p
/-- 0x2900.00 (R453). -/
abbrev SCRUB_INTERVAL : Nat := 0x290000
/-- 0x2900.01 (R453). -/
abbrev SCRATCH_CE : Nat := 0x290001
/-- 0x2900.02 (R453). -/
abbrev SCRATCH_UE : Nat := 0x290002
/-- 0x2900.03 (R453). -/
abbrev SCRATCH_LAST_ERR : Nat := 0x290003
/-- 0x2900.04 (R453). -/
abbrev SCRATCH_COLLISIONS : Nat := 0x290004
/-- 0x2901.00 (R453). -/
abbrev BM_STATE : Nat := 0x290100
/-- 0x2901.01 (R453). -/
abbrev BM_CONTROL : Nat := 0x290101
/-- 0x2901.02 (R453). -/
abbrev BM_SPEED : Nat := 0x290102
/-- 0x2901.03 (R453). -/
abbrev BM_DENSITY : Nat := 0x290103
/-- 0x2901.04 (R453). -/
abbrev BM_TIMING : Nat := 0x290104
/-- 0x2901.05 (R453). -/
abbrev BM_REFRESH : Nat := 0x290105
/-- 0x2901.06 (R453). -/
abbrev BM_SCRUB_INTERVAL : Nat := 0x290106
/-- 0x2901.07 (R453). -/
abbrev BM_CAPACITY : Nat := 0x290107
/-- 0x2901.08 (R453). -/
abbrev BM_CE : Nat := 0x290108
/-- 0x2901.09 (R453). -/
abbrev BM_UE : Nat := 0x290109
/-- 0x2901.0A (R453). -/
abbrev BM_LAST_ERR : Nat := 0x29010a
/-- 0x2901.0B (R453). -/
abbrev BM_OUT_OF_RANGE : Nat := 0x29010b
/-- 0x2901.0C (R453). -/
abbrev BM_PAR_RETRY : Nat := 0x29010c
/-- 0x2901.0D (R453). -/
abbrev BM_TRAIN_FAIL : Nat := 0x29010d
/-- 0x2901.0E (R453). -/
abbrev BM_TRACK_ADJ : Nat := 0x29010e
/-- 0x2902.00 (R472). -/
abbrev DMA_BUS_ERRORS : Nat := 0x290200
/-- 0x2902.01 (R472). -/
abbrev DMA_HOST_FLAGS : Nat := 0x290201
/-- 0x2902.02 (R472). -/
abbrev WORD_ADDR : Nat := 0x290202
/-- 0x2902.03 (R472). -/
abbrev WORD_DATA : Nat := 0x290203
/-- 0x2902.04 (R472). -/
abbrev WORD_STATUS : Nat := 0x290204
/-- 0x2902.05 (R472). -/
abbrev DMA_RETRIES : Nat := 0x290205
/-- 0x2902.06 (R472). -/
abbrev DMA_COMPLETION : Nat := 0x290206
/-- 0x2903.00–0x2903.03 (R472). -/
abbrev MOVER_CHANNEL (k : Nat) : Nat := 0x290300 + k
/-- 0x2910+c.00 (R473). -/
abbrev CH_MODE (c : Nat) : Nat := 0x291000 + 256 * c
/-- 0x2910+c.01 (R473). -/
abbrev CH_SRC (c : Nat) : Nat := 0x291001 + 256 * c
/-- 0x2910+c.02 (R473). -/
abbrev CH_DST (c : Nat) : Nat := 0x291002 + 256 * c
/-- 0x2910+c.03 (R473). -/
abbrev CH_COUNT (c : Nat) : Nat := 0x291003 + 256 * c
/-- 0x2910+c.04 (R473). -/
abbrev CH_FLAGS (c : Nat) : Nat := 0x291004 + 256 * c
/-- 0x2910+c.05 (R473). -/
abbrev CH_TABLE (c : Nat) : Nat := 0x291005 + 256 * c
/-- 0x2910+c.06 (R473). -/
abbrev CH_HEAD (c : Nat) : Nat := 0x291006 + 256 * c
/-- 0x2910+c.07 (R473). -/
abbrev CH_CMD (c : Nat) : Nat := 0x291007 + 256 * c
/-- 0x2910+c.08 (R473). -/
abbrev CH_RATE (c : Nat) : Nat := 0x291008 + 256 * c
/-- 0x2910+c.09 (R473). -/
abbrev CH_STATUS (c : Nat) : Nat := 0x291009 + 256 * c
/-- 0x2910+c.0A (R473). -/
abbrev CH_CUR (c : Nat) : Nat := 0x29100a + 256 * c
/-- 0x2910+c.0B (R473). -/
abbrev CH_DONE (c : Nat) : Nat := 0x29100b + 256 * c
/-- 0x2910+c.0C (R473). -/
abbrev CH_DESC_DONE (c : Nat) : Nat := 0x29100c + 256 * c
/-- 0x2910+c.0D (R473). -/
abbrev CH_BAD (c : Nat) : Nat := 0x29100d + 256 * c
/-- 0x2910+c.0E (R473). -/
abbrev CH_BELL_BUSY (c : Nat) : Nat := 0x29100e + 256 * c
/-- 0x2910+c.0F (R473). -/
abbrev CH_WORDS (c : Nat) : Nat := 0x29100f + 256 * c
/-- 0x2A00.00 (R500). -/
abbrev FAULT_SUMMARY : Nat := 0x2a0000
/-- 0x2A00.01 (R500). -/
abbrev ERR_N_STATE : Nat := 0x2a0001
/-- 0x2A00.02 (R500). -/
abbrev HIST_COUNT : Nat := 0x2a0002
/-- 0x2A00.03 (R500). -/
abbrev HIST_LOST : Nat := 0x2a0003
/-- 0x2A00.04 (R500). -/
abbrev FAULT_CLEAR : Nat := 0x2a0004
/-- 0x2A00.05 (R500). -/
abbrev FIRST_CLEAR : Nat := 0x2a0005
/-- 0x2A00.06 (R500). -/
abbrev HIST_CLEAR : Nat := 0x2a0006
/-- 0x2A00.07 (R500). -/
abbrev EVENT_FLOOR : Nat := 0x2a0007
/-- 0x2A00.08 (R500). -/
abbrev GRAVE_PRIOR : Nat := 0x2a0008
/-- 0x2A00.09 (R500). -/
abbrev INJ_COUNT : Nat := 0x2a0009
/-- 0x2A00.0A (R500). -/
abbrev INJ_EXPIRED : Nat := 0x2a000a
/-- 0x2A01.00–0x2A01.03 (R500). -/
abbrev CLASS_REACT (k : Nat) : Nat := 0x2a0100 + k
/-- 0x2A02.00–0x2A02.03 (R500). -/
abbrev STATUS_MAP (k : Nat) : Nat := 0x2a0200 + k
/-- 0x2A03.00–0x2A03.01 (R500). -/
abbrev FIRST_FAULT (k : Nat) : Nat := 0x2a0300 + k
/-- 0x2A03.02 (R500). -/
abbrev FIRST_VALID : Nat := 0x2a0302
/-- 0x2A04.00 (R500). -/
abbrev INJECT : Nat := 0x2a0400
/-- 0x2A04.01 (R500). -/
abbrev INJ_PENDING : Nat := 0x2a0401
/-- 0x2A05.00–0x2A05.1F (R500). -/
abbrev HISTORY (k : Nat) : Nat := 0x2a0500 + k
/-- 0x2A10.s (R501). -/
abbrev SRC_CONFIG (k : Nat) : Nat := 0x2a1000 + k
/-- 0x2A11.s (R501). -/
abbrev SRC_STATE (k : Nat) : Nat := 0x2a1100 + k
/-- 0x2A12.s (R501). -/
abbrev SRC_COUNT (k : Nat) : Nat := 0x2a1200 + k
/-- 0x2B00.00 (R527). -/
abbrev CALDERA_STATE : Nat := 0x2b0000
/-- 0x2B00.01 (R527). -/
abbrev CALDERA_RESTARTS : Nat := 0x2b0001
/-- 0x2B00.02 (R527). -/
abbrev RESTART_CAUSE : Nat := 0x2b0002
/-- 0x2B00.03 (R527). -/
abbrev FW_VERSION : Nat := 0x2b0003
/-- 0x2B00.04 (R527). -/
abbrev FW_BANK : Nat := 0x2b0004
/-- 0x2B00.05 (R527). -/
abbrev CALDERA_RESTART : Nat := 0x2b0005
/-- 0x2B00.06 (R527). -/
abbrev WDT_PERIOD : Nat := 0x2b0006
/-- 0x2B00.07 (R527). -/
abbrev RAIL_STATUS : Nat := 0x2b0007
/-- 0x2B00.08 (R527). -/
abbrev CLOCK_STATUS : Nat := 0x2b0008
/-- 0x2B01.00 (R527). -/
abbrev UPDATE_STATE : Nat := 0x2b0100
/-- 0x2B01.01 (R527). -/
abbrev UPDATE_COMMAND : Nat := 0x2b0101
/-- 0x2B01.02 (R527). -/
abbrev UPDATE_RESULT : Nat := 0x2b0102
/-- 0x2B01.03 (R527). -/
abbrev ROLLBACK_FLOOR : Nat := 0x2b0103
/-- 0x2B01.04–.05 (R527). -/
abbrev BANK_SVN (k : Nat) : Nat := 0x2b0104 + k
/-- 0x2B01.06–.07 (R527). -/
abbrev BANK_VERSION (k : Nat) : Nat := 0x2b0106 + k
/-- 0x2B01.08 (R527). -/
abbrev TRIAL_TIMEOUT : Nat := 0x2b0108
/-- 0x2B02.00 (R527). -/
abbrev LOG_NEXT_SEQ : Nat := 0x2b0200
/-- 0x2B02.01 (R527). -/
abbrev LOG_FIRST_SEQ : Nat := 0x2b0201
/-- 0x2B02.02 (R527). -/
abbrev LOG_LOST : Nat := 0x2b0202
/-- 0x2B02.03 (R527). -/
abbrev LOG_PENDING : Nat := 0x2b0203
/-- 0x2B02.04 (R527). -/
abbrev LOG_ANCHOR_EVERY : Nat := 0x2b0204
/-- 0x2B02.05 (R527). -/
abbrev LOG_WINDOW_SEQ : Nat := 0x2b0205
/-- 0x5000.00 (R527). -/
abbrev FW_IMAGE : Nat := 0x500000
/-- 0x5D00.00 (R527). -/
abbrev LOG_WINDOW : Nat := 0x5d0000
/-- 0x2C00.00 (R553). -/
abbrev LIFECYCLE : Nat := 0x2c0000
/-- 0x2C00.01 (R553). -/
abbrev LIFECYCLE_CMD : Nat := 0x2c0001
/-- 0x2C00.02 (R553). -/
abbrev KEY_STATE : Nat := 0x2c0002
/-- 0x2C00.03 (R553). -/
abbrev KEY_COMMIT : Nat := 0x2c0003
/-- 0x2C00.04 (R553). -/
abbrev JTAG_REFUSED : Nat := 0x2c0004
/-- 0x2C00.05 (R553). -/
abbrev IDCODE : Nat := 0x2c0005
/-- 0x2C10.00 (R553). -/
abbrev KEY_WRAP : Nat := 0x2c1000
/-- 0x2C11.00 (R553). -/
abbrev LOG_PUBKEY : Nat := 0x2c1100
/-- 0x2D00.00 (R553). -/
abbrev POWER_REQ : Nat := 0x2d0000
/-- 0x2D00.01 (R553). -/
abbrev POWER_AT : Nat := 0x2d0001
/-- 0x2D00.02 (R553). -/
abbrev POWER_STATE : Nat := 0x2d0002
/-- 0x2D00.03 (R553). -/
abbrev POWER_RESULT : Nat := 0x2d0003
/-- 0x2D00.04 (R553). -/
abbrev WAKE_CAUSE : Nat := 0x2d0004
/-- 0x2D00.05 (R553). -/
abbrev WAKE_ENABLE : Nat := 0x2d0005
/-- 0x2D00.06 (R553). -/
abbrev AON_TIME : Nat := 0x2d0006
/-- 0x2D00.07 (R553). -/
abbrev SHELF_COUNT : Nat := 0x2d0007
/-- 0x2E00.00 (R553). -/
abbrev TRACE_MODE : Nat := 0x2e0000
/-- 0x2E00.01 (R553). -/
abbrev TRACE_FILTER : Nat := 0x2e0001
/-- 0x2E00.02 (R553). -/
abbrev TRACE_CLOCK : Nat := 0x2e0002
/-- 0x2E00.03 (R553). -/
abbrev TRACE_SAMPLE : Nat := 0x2e0003
/-- 0x2E00.04 (R553). -/
abbrev TRACE_PORTS : Nat := 0x2e0004
/-- 0x2E00.05 (R553). -/
abbrev TRACE_RECORDS : Nat := 0x2e0005
/-- 0x2E00.06 (R553). -/
abbrev TRACE_LOST : Nat := 0x2e0006
/-- 0x2E00.07 (R553). -/
abbrev TRACE_NONCE : Nat := 0x2e0007
/-- 0x2E00.08 (R553). -/
abbrev TRACE_RESTART : Nat := 0x2e0008
/-- 0x2E00.09 (R553). -/
abbrev COUNTER_COUNT : Nat := 0x2e0009
/-- 0x2E01.00–0x2E01.0F (R553). -/
abbrev PMC_SEL (k : Nat) : Nat := 0x2e0100 + k
/-- 0x2E02.00–0x2E02.0F (R553). -/
abbrev PMC (k : Nat) : Nat := 0x2e0200 + k
/-- 0x2E10.00 (R553). -/
abbrev COUNTER_LIST : Nat := 0x2e1000

end Sys2Proof.Machine.Key
end

