-- ==== Sys2Proof/Machine/Map.lean ====
section
/-! DEFINITION. Sparse arrays as plain data: a list of (key, value) pairs in one canonical form, keys strictly rising
and no entry equal to the value an unlisted key reads as. Registers, DOMAIN tables, Scratch words and bulk memory are
held so, so that equal contents are equal data. -/

namespace Sys2Proof.Machine

/-- A sparse array of `α`. -/
abbrev Map (α : Type) := List (Nat × α)

/-- The value at `k`; an unlisted key reads as `d k`. -/
def Map.get {α : Type} (d : Nat → α) : Map α → Nat → α
  | [], k => d k
  | (j, a) :: m, k => if j = k then a else Map.get d m k

/-- Removes the entry of `k`. -/
def Map.del {α : Type} : Map α → Nat → Map α
  | [], _ => []
  | (j, a) :: m, k => if j = k then Map.del m k else (j, a) :: Map.del m k

/-- Puts `(k, v)` before the first larger key of an array without an entry of `k`. -/
def Map.ins {α : Type} : Map α → Nat → α → Map α
  | [], k, v => [(k, v)]
  | (j, a) :: m, k, v => if k < j then (k, v) :: (j, a) :: m else (j, a) :: Map.ins m k v

/-- Writes `v` at `k`; writing what an unlisted key reads as removes the entry. -/
def Map.put {α : Type} [DecidableEq α] (d : Nat → α) (m : Map α) (k : Nat) (v : α) : Map α :=
  if v = d k then Map.del m k else Map.ins (Map.del m k) k v

/-- Changes the value at `k` by `f`. -/
def Map.upd {α : Type} [DecidableEq α] (d : Nat → α) (m : Map α) (k : Nat) (f : α → α) : Map α :=
  Map.put d m k (f (Map.get d m k))

/-- Keys strictly rising from above `lo`. -/
def Map.rising {α : Type} : Option Nat → Map α → Bool
  | _, [] => true
  | none, (j, _) :: m => Map.rising (some j) m
  | some l, (j, _) :: m => decide (l < j) && Map.rising (some j) m

/-- The canonical form: strictly rising keys, no entry equal to the unlisted value. -/
def Map.wf {α : Type} [DecidableEq α] (d : Nat → α) (m : Map α) : Bool :=
  Map.rising none m && m.all (fun p => decide (p.2 ≠ d p.1))

end Sys2Proof.Machine
end

