-- ==== Sys2Proof/Machine/Types.lean ====
section
/-! DEFINITION. The records of which the state is made, block by block: plain data, each field named after what the spec
calls it. A number that the spec gives no bit layout is a `Nat`; an instant is in core clocks since power-on (`clk`) or in
chain time (`ct`), as its comment says. -/

namespace Sys2Proof.Machine

/-! ## Ifezin Link (R43–R99) -/

/-- Bring-up states of a lane (R47), in the order of the STATE codes of R102. -/
inductive LaneSt where
  | down | signal | lock | train | deskew | up | idle
deriving DecidableEq, Repr

/-- One lane: I0–I3, U0, U1, D0, D1 in the order of LANE_STATUS (R101). `since` is the clock of entry to `st`; `run` and
`ready` count TRAIN blocks (R47); `bad` holds the clocks of invalid sync headers (R50); `retryAt` is the end of the wait of
R51. `acount` counts the ALIGN pairs sent (R57) and `alignFrom` is the clock from which they are paced (R47). -/
structure Lane where
  st : LaneSt := .down
  polInv : Bool := false
  swap : Bool := false
  peerLane : Nat := 0
  peerKind : Nat := 0
  miswired : Bool := false
  skew : Nat := 0
  fails : Nat := 0
  since : Nat := 0
  run : Nat := 0
  ready : Nat := 0
  lastSkew : Option Nat := none
  bad : List Nat := []
  retryAt : Option Nat := none
  acount : Nat := 0
  alignFrom : Nat := 0
deriving DecidableEq, Repr

/-- Chain states (R101). -/
inductive ChainSt where
  | down | attached | enumerated | active | wrapped | detached
deriving DecidableEq, Repr

/-- An outstanding PROBE (R69): its PSEQ, departure stamp in 1/8 ct, and the clock it was sent. -/
structure Probe where
  pseq : Nat
  t1 : Nat
  sent : Nat
deriving DecidableEq, Repr

/-- A frame that waits for its port (R64): its priority, 0 POS, 1 TIME, GEYSER, RING and ENUM, 2 EVENT, 3 DREQ, DRSP and unlisted kinds;
whether it is forwarded; its KIND and itself. -/
structure TxEnt where
  prio : Nat
  fwd : Bool
  kind : Nat
  frame : Frame
deriving DecidableEq, Repr

/-- What one chain port keeps: whether it was last seen UP, whether it has been UP since reset, the probes in flight, newest first, the delay
samples (T4 − T1 − RES, newest first, R70), the chain cycle last probed, the frames that wait to be sent, and the clock until which the port
is busy with a frame (R64). -/
structure PortLink where
  up : Bool := false
  was : Bool := false
  probes : List Probe := []
  pseq : Nat := 0
  samples : List Int := []
  probedIn : Option Nat := none
  txq : List TxEnt := []
  busyTo : Nat := 0
deriving DecidableEq, Repr

/-- An own event (R79–R81). -/
structure Event where
  seq : Nat
  stamp : Nat
  pos : Nat
  cls : Nat
  code : Nat
  arg : Nat
deriving DecidableEq, Repr

/-- The chain side of the unit. `ct8` is the chain-time counter in 1/8 ct; `hold8` how much of a backward step is still
held (R72); `slew` what the next clock adds (R72); `timeN` the cycle number of a TIME frame not yet used (R68); `seqSeen` the
SEQs accepted below `seqHi` (R63); `tok16` the event allowance in 1/16 event (R81). -/
structure Link where
  lanes : Map Lane := []
  u : PortLink := {}
  d : PortLink := {}
  st : ChainSt := .down
  ct8 : Nat := 0
  ctValid : Bool := false
  hold8 : Nat := 0
  slew : Int := 0
  timeN : Option Nat := none
  errs : List Int := []
  aligned : Nat := 0
  misaligned : Nat := 0
  seqHi : Option Nat := none
  seqSeen : List Nat := []
  posSeq : Map (Option Nat) := []
  txSeq : Nat := 0
  events : List Event := []
  eventsLost : Bool := false
  tok16 : Nat := 128
  enumerating : Bool := false
  reportDue : Bool := false
  sticky : Option Nat := none
  lastFwd : Option Nat := none
  lastRev : Option Nat := none
  wrapArmed : Bool := false
  wrapDue : Bool := false
  switchCt : Option Nat := none
  posDue : Option Nat := none
deriving DecidableEq, Repr

/-- Bank states (R96, R97), in the order of the codes of R101. -/
inductive BankSt where
  | empty | armed | taken | missed
deriving DecidableEq, Repr

/-- A Geyser bank (R95–R99): its words as latched; `prev` is the derived position on the clock before, in st, while it is armed. -/
structure Bank where
  st : BankSt := .empty
  byPos : Bool := false
  prev : Nat := 0
  words : List Nat := []
deriving DecidableEq, Repr

/-! ## Position broadcast (R75–R77) -/

/-- A broadcast: POSITION and SAMPLE_CT, SPEED, DIR, SOURCE, REF_OK (R75). -/
structure Bcast where
  pos : Nat
  sample : Nat
  speed : Nat
  rev : Bool
  src : Nat
  refOk : Bool
deriving DecidableEq, Repr

/-- The broadcast in force with its apply time `a` in ct and the take-up `d` of R77 in st × 2^−16. -/
structure InForce where
  b : Bcast
  a : Nat
  d : Int
deriving DecidableEq, Repr

/-- Reception of the broadcast: in force, those in force in the last 1 ms with the chain time at which each ended (newest first, for the
stamp of R185), accepted and waiting for their apply time, sources seen per sampling instant (R169),
whether loss is judged (R29), the run of missed cycles, and whether the present cycle has an accepted POS. -/
structure Recv where
  now : Option InForce := none
  past : List (Nat × InForce) := []
  queue : List Bcast := []
  seen : List (Nat × Nat) := []
  judging : Bool := false
  missed : Nat := 0
  accepted : Bool := false
  lost : Bool := false
  dualAt : Option Nat := none
deriving DecidableEq, Repr

/-! ## Position Base (R145–R173) -/

/-- REF_STATE (R153). -/
inductive RefSt where
  | off | seeking | locked | lost
deriving DecidableEq, Repr

/-- The uses of an SSI read (R163). -/
inductive SsiUse where
  | start | test | recovery
deriving DecidableEq, Repr

/-- Values frozen at the first falling edge of a read (R159), and the position read with them. -/
structure SsiShot where
  p0 : Int
  ph : Nat
  pos : Nat
deriving DecidableEq, Repr

/-- The SSI reader (R159–R164): uses served, attempts made, whether a read is in progress, the clock at which its wait for SSI_DATA ends and
whether with data high, the frozen values, the first read of a checked pair, the clock of the next retry, and the clock before which no
read starts. -/
structure Ssi where
  uses : List SsiUse := []
  tries : Nat := 0
  busy : Bool := false
  wait : Option (Nat × Bool) := none
  shot : SsiShot := ⟨0, 0, 0⟩
  first : Option SsiShot := none
  retryAt : Option Nat := none
  freeAt : Nat := 0
deriving DecidableEq, Repr

/-- The Position Base of the unit. `raw` is the input level after the glitch filter and before ENC_INVERT. A direction has its
present value, the value before, and the clock from which the present one applies (R155, R157); `rev` is the direction
last used. `pos` is the local position at the last counted edge and `ph` the revolution phase (R162); `n`, `q`, `rm` the slew of
R152; `reg4`, `regN`, `regSum`, `tValid` the regular intervals of R151; `held` a short interval with its uncounted edges;
`ivals` the tick intervals of R165 with 16 fraction bits; `gapTicks` ticks added by a gap since the last count; `hist` counted
edges and positions (R167), newest first; `steps`, `stepTicks` the slip window of R158; `ssiReady` how many clocks from the start
of a read SSI_DATA has been high for SSI_MONOFLOP, as last told (none: not in time); `tickNow` the signed ticks counted on the clock
`tickClk` (R172); `recoverDue` a recovery read that loss of the reference has asked for (R153). -/
structure Pos where
  raw : Bool := false
  lineBad : Bool := false
  dirPin : Bool := false
  dirPrev : Bool := false
  dirAt : Nat := 0
  hall : Option Nat := none
  hallRev : Bool := false
  hallPrev : Bool := false
  hallAt : Nat := 0
  rev : Bool := false
  pos : Nat := 0
  ph : Nat := 0
  pending : Int := 0
  n : Nat := 0
  q : Int := 0
  rm : Nat := 0
  ref : RefSt := .off
  base : Nat := 0
  haveBase : Bool := false
  rejects : Nat := 0
  stopped : Bool := true
  tLast : Option Nat := none
  lastRise : Option Nat := none
  reg4 : List Nat := []
  regN : Nat := 0
  regSum : Nat := 0
  tValid : Bool := false
  held : Option (Nat × List Nat) := none
  ivals : List Nat := []
  gapTicks : Nat := 0
  fresh : Bool := true
  hist : List (Nat × Nat) := []
  steps : Nat := 0
  stepTicks : Nat := 0
  stepRev : Option Bool := none
  ssi : Ssi := {}
  ssiReady : Option Nat := some 0
  tickClk : Nat := 0
  tickNow : Int := 0
  recoverDue : Bool := false
  newRole : Option (Nat × Nat) := none
  sampled : Option Bcast := none
  encOut : Bool := false
deriving DecidableEq, Repr

/-! ## The Object Dictionary (R103–R141) -/

/-- Group states (R144), in the order of their codes. -/
inductive GroupSt where
  | free | opened | poisoned | closed | applied | discarded
deriving DecidableEq, Repr

/-- An entry of a group: a write, or a committed DOMAIN session. -/
inductive Entry where
  | write (key val : Nat)
  | session (k : Nat)
deriving DecidableEq, Repr

/-- A group (R121–R124). `since` is the chain time of its first entry; `order` its place among acceptances (R110); `skip` says
that its class was already frozen at the close, so that the next boundary of the class passes it (R108, R189); `acc` the clock of that acceptance. -/
structure Group where
  st : GroupSt := .free
  forced : Bool := false
  cls : Commit := .imm
  entries : List Entry := []
  since : Nat := 0
  order : Nat := 0
  skip : Bool := false
  acc : Nat := 0
deriving DecidableEq, Repr

/-- Session states (R144), in the order of their codes. -/
inductive SessSt where
  | free | opened | complete | pending | applied | aborted | failed
deriving DecidableEq, Repr

/-- A DOMAIN session (R125–R130): `words` the staged words written, `last` the chain time of its last request. -/
structure Session where
  st : SessSt := .free
  forced : Bool := false
  index : Nat := 0
  length : Nat := 0
  crc : Nat := 0
  words : Map (Option Word) := []
  group : Nat := 0
  last : Nat := 0
  order : Nat := 0
  skip : Bool := false
  acc : Nat := 0
  cls : Commit := .imm
deriving DecidableEq, Repr

/-- An ungrouped shadowed write (R107–R110). -/
structure Shadow where
  key : Nat
  val : Nat
  cls : Commit
  order : Nat
  skip : Bool
  acc : Nat := 0
deriving DecidableEq, Repr

/-- The operations of R113, and an OP that it does not list. -/
inductive Op where
  | read | write | groupClose | groupAbort | domOpen | domWrite | domCommit | domAbort | domRead | commitNow
  | unlisted (code : Nat)
deriving DecidableEq, Repr

/-- A firmware-backed request that Caldera holds (R118, R140, R141): `since` the clock and `acc` the chain time of its acceptance. -/
structure FwReq where
  r : Dreq
  op : Op
  index : Nat
  sub : Nat
  since : Nat
  acc : Nat
deriving DecidableEq, Repr

/-- The last sealed request, whole, and its result (R135). -/
structure SealRec where
  seq : Nat
  d0 : Block
  data : List Block
  status : Nat
  late : Bool := false
deriving DecidableEq, Repr

/-- The Dictionary Server; `floorWrite` is a seal floor being written to NOR flash (R136), `wordWait` accesses of WORD_DATA that wait
for bulk memory (R449). -/
structure Dict where
  groups : Map Group := []
  sessions : Map Session := []
  shadows : List Shadow := []
  order : Nat := 0
  fw : List FwReq := []
  lastSealed : Option SealRec := none
  floorWrite : Option Nat := none
  wordWait : List FwReq := []
deriving DecidableEq, Repr

/-- A DOMAIN table in force (R127): the LENGTH last committed, or `none` while the table is the default, and its words; `bad` the words of a
screening table whose stored code is uncorrectable (R272). -/
structure Tab where
  len : Option Nat := none
  words : Map Word := []
  bad : List Nat := []
deriving DecidableEq, Repr

/-! ## Fault Collector (R475–R503) -/

/-- A raise on its way to the Collector (R478). -/
structure Raise where
  src : Nat
  detail : Nat
  inj : Bool
deriving DecidableEq, Repr

/-- What the Collector keeps of a source: STATUS, the instances whose cause is present (CAUSE, R476), how far the class in force is above the base class, the escalation
window (R486), the latch of a Grave source (R493), and the clock of the last arrival with whether it counted toward escalation. -/
structure Src where
  status : Bool := false
  causes : List Nat := []
  up : Nat := 0
  winOpen : Bool := false
  winStart : Nat := 0
  winCount : Nat := 0
  latched : Bool := false
  lastArr : Option (Nat × Bool) := none
deriving DecidableEq, Repr

/-- A history batch (R482): the clock `c` of its arrivals, its entries, word 0 and word 1, and whether they have been written. -/
structure Batch where
  clk : Nat
  entries : List (Nat × Nat)
  written : Bool := false
deriving DecidableEq, Repr

/-- A reset asked for by a reaction (R488). -/
inductive ResetReq where
  | block (src : Nat)
  | chip
deriving DecidableEq, Repr

/-- The Fault Collector: raises of the present clock, sources, the batch in progress, whether an entry was lost since the last
one written, a HIST_CLEAR that waits, the chain time an injection was armed, interrupts and traps held for Caldera, and resets
that wait for their record; `now` the arrivals of this clock, with whether they are real, whose reactions are issued when it ends, and
`firstNow` the first arrival of a clock with that clock and its two words (R481, R499). -/
structure Faults where
  raised : List Raise := []
  srcs : Map Src := []
  batch : Option Batch := none
  lostMark : Bool := false
  clearWait : Bool := false
  injAt : Option Nat := none
  irq : List Nat := []
  nmi : List Nat := []
  resets : List ResetReq := []
  lastGrave : Option Nat := none
  now : List (Nat × Bool) := []
  firstNow : Option (Nat × Nat × Nat) := none
deriving DecidableEq, Repr

/-! ## Line Scheduler (R176–R211) -/

/-- The line grid. `next` and `gn` are NEXT and GN (R176); `passRev` the direction at the last set-up (R179); `count` the band
count (R183); `queue` the sheet positions in st (R186); `since` the line events since the last sheet boundary; `first` and
`passFirst` say that none has come since enabling or since the last set-up (R184); `lastSheet` and `lastPos` the grid positions of
the last sheet boundary and line event, in st × 2^−16; the frozen flags say that the next boundary of a class has reached its
freeze point (R188); `evClk` the clock of the last line event; `burst` whether the next line was passed together with the last
(R180); `fast`, `slow` the runs of line events of R202, per port; `cueWait` sheet positions that wait for the line event of their clock
(R187). -/
structure Grid where
  next : Nat := 0
  gn : Nat := 0
  passRev : Bool := false
  count : Nat := 1
  queue : List Nat := []
  since : Nat := 0
  first : Bool := true
  passFirst : Bool := true
  lastSheet : Option Nat := none
  lastPos : Option Nat := none
  frozenLine : Bool := false
  frozenBand : Bool := false
  frozenSheet : Bool := false
  evClk : Option Nat := none
  burst : Bool := false
  fast : Map Nat := []
  slow : Map Nat := []
  cueWait : List Nat := []
deriving DecidableEq, Repr

/-- A compare unit (R204–R210): the evaluated position of the previous clock in st × 2^−16, whether it is armed, the clock on which it fires
without passing TARGET (R206 for KIND 1, R208), the fraction of TARGET carried (R209), and the pulses it has begun: the output (GPO 0–7,
8 CAM0_TRIG, 9 CAM1_TRIG) and the chain time at which each ends. -/
structure Cmp where
  prev : Nat := 0
  armed : Bool := false
  fireAt : Option Nat := none
  frac : Nat := 0
  pulses : List (Nat × Nat) := []
deriving DecidableEq, Repr

/-! ## Raster Ingress (R216–R234) -/

/-- A packet standing in an ingress buffer because its bank is being cleared (R234). -/
structure Packet where
  hdr : RasterHdr
  words : List Word
deriving DecidableEq, Repr

/-- One image lane's ingress: buffers freed since the lane came UP, the PSEQ expected, the plane its last CREDIT block reported, packets that
keep their buffers, and the buffers freed as last told with the clock of that CREDIT (R221, R222, R234). -/
structure ImgLane where
  freed : Nat := 0
  pseq : Option Nat := none
  plane : Nat := 15
  waiting : List Packet := []
  told : Nat := 0
  toldAt : Option Nat := none
deriving DecidableEq, Repr

/-- An in-progress entry (R228): the next expected offset of each slice, and the lane that last wrote it. -/
structure InProg where
  plane : Nat
  line : Nat
  pass : Nat
  offs : List Nat
  lanes : List (Option Nat)
  broken : Bool
deriving DecidableEq, Repr

/-- One plane's window and reference pair (R226, R230); `picked` says that a port selects it; `clearing` that its released
bank's tags are still being cleared (R234). -/
structure Plane where
  bottom : Nat := 0
  top : Nat := 0
  nRef : Nat := 0
  slotRef : Nat := 0
  picked : Bool := false
  clearing : Bool := false
deriving DecidableEq, Repr

/-- The ingress side: lanes, entries, planes, the planes whose tags are to be rewritten (R229), lines completed on this clock or the last, each
with its clock, plane, line and pass (R243), and packets of this clock that wait for its line event, with lane and CRC (R243). -/
structure Ingress where
  lanes : Map ImgLane := []
  entries : List InProg := []
  planes : Map Plane := []
  rewrite : List Nat := []
  fresh : List (Nat × Nat × Nat × Nat) := []
  held : List (Fin 4 × Packet × BitVec 32) := []
deriving DecidableEq, Repr

/-! ## Ports: assembly, screening, shipping, firing (R235–R316) -/

/-- PORT_STATE (R320), in the order of its codes. -/
inductive PortSt where
  | disarmed | filling | firing | held | stopping | cut
deriving DecidableEq, Repr

/-- What a nozzle carries besides raster (R250). -/
inductive NozKind where
  | none | strip | bar
deriving DecidableEq, Repr

/-- One nozzle of an assembled line (R238, R250): geometry, plane column, raster line, value, absent mark and kind. -/
structure Noz where
  unused : Bool
  col : Nat
  row : Nat
  pc : Int
  line : Nat
  val : Nat
  absent : Bool
  kind : NozKind
deriving DecidableEq, Repr

/-- An assembled line for the slot of grid line `g`; `pass` the slot's pass, `late` the LATE_POLICY in force at its start,
`missing` whether a used nozzle is absent (R238–R241). -/
structure AsmLine where
  g : Nat
  pass : Nat
  policy : Nat
  missing : Bool
  noz : List Noz
deriving DecidableEq, Repr

/-- Screened codes for a slot, and the chain time in 1/8 ct at which screening ends. -/
structure CodeLine where
  g : Nat
  done8 : Nat
  missing : Bool
  policy : Nat
  codes : List Nat
deriving DecidableEq, Repr

/-- What a shipment takes from its port when it begins, the latch that ends it included (R25, R280, R281): its first instant in 1/8 ct,
LINK_PROFILE and LINK_TIMING. -/
structure ShipLink where
  at8 : Nat := 0
  profile : Nat := 0
  timing : Nat := 0
deriving DecidableEq, Repr

/-- A shipment (R283): its slot, codes, the instant in 1/8 ct at which it is complete, and its link. -/
structure Shipment where
  g : Nat
  codes : List Nat
  done8 : Nat
  missing : Bool
  policy : Nat
  link : ShipLink
deriving DecidableEq, Repr

/-- A waveform being drawn (R285–R297): the drive channel that draws it, its first sample's instant in 1/8 ct, its table of 33
words, and everything that makes its samples. `flat` draws the rest level (R293). -/
structure Draw where
  ch : Nat
  start8 : Nat
  table : List Nat
  flat : Bool
  ka : Nat
  rest : Nat
  lo : Nat
  hi : Nat
  gain : Nat
  offset : Int
deriving DecidableEq, Repr

/-- A safe ramp (R309): the drive channel, the instant in 1/8 ct of its first sample, the DAC code of the last sample before it, the rest
code, and SAFE_SLEW. -/
structure Ramp where
  ch : Nat
  start8 : Nat
  code : Nat
  rest : Nat
  slew : Nat
deriving DecidableEq, Repr

/-- A sense check to come (R298–R300): drive channel, instant in 1/8 ct, m − e, whether it fails, and whether it is the last
check of its channel in this fire. -/
structure SenseChk where
  ch : Nat
  at8 : Nat
  err : Int
  fail : Bool
  last : Bool
deriving DecidableEq, Repr

/-- A slot fired or deferred: grid line, raster line, target position in st, its fire instant t_g and, once fired, the latch
instant, both in 1/8 ct. -/
structure SlotRec where
  g : Nat
  line : Nat
  pos : Nat
  tg8 : Nat
  fired8 : Nat
deriving DecidableEq, Repr

/-- One head port. `slot` is the next slot, `since8` the instant of the last decision on a slot, `asmNext` the next slot to assemble,
`fill` the fill slots left (R303); `asmDue` and `scrDue` are slots whose stage begins, with the clock, or the instant and whether the slot has been found late (R22, R239); `lines`
the raster lines of assembled slots, as at their assembly (R25, R193); `scrEnds` the instants at which screenings in progress end (R275);
`clearLink` the shipment before the clear latch; `ramps` the safe ramps in progress; `release8` the head register's release (R283); `last8` the last fire (R198); `deferred` a slot waiting under R199; `lastSlot` the last fire
(R310); `stopAt` that a stop at a line boundary is pending (R314); `held` that the port was cut by a gate in MODE HOLD (R312);
`rampEnd8` the end of a safe ramp in progress and `clear8` the instant of a clear latch to come (R304, R309); `ending` that a disarm of this
clock still lets the slot of this clock complete (R288); `armedAt` the clock of the last arming (R305), `rest8` the instant in 1/8 ct of the last fire plus W_p (R286, R333) and `idRead` that of the last read of the head's EEPROM (R317); `fireNow`, `deferNow`, `tickleNow` and
`scrNow` fire instants, decisions on a deferred slot (each with its phase and the sense readings), an idle tickle and a start of screening
(whether assembly is done, the table words that fail) that came on this clock and are judged when it ends (R26, R203, R288, R313); `failed` the channels
with a failed check in the fire in progress; `tickled` the chain time of the last idle tickle; `marks` slots that carry
marks of the Nozzle Health Loop, with the first line of their block (R425); `carry` the carries of R264. -/
structure Port where
  st : PortSt := .disarmed
  slot : Nat := 0
  since8 : Nat := 0
  asmNext : Nat := 0
  fill : Nat := 0
  asmDue : List (Nat × Nat) := []
  scrDue : List (Nat × Nat × Bool) := []
  lines : List (Nat × Nat) := []
  scrEnds : List Nat := []
  asm : List AsmLine := []
  scr : List CodeLine := []
  ship : Option Shipment := none
  release8 : Nat := 0
  last8 : Option Nat := none
  deferred : Option SlotRec := none
  draws : List Draw := []
  checks : List SenseChk := []
  failed : List Nat := []
  lastSlot : Option SlotRec := none
  stopAt : Bool := false
  held : Bool := false
  ramps : List Ramp := []
  rampEnd8 : Option Nat := none
  clear8 : Option Nat := none
  clearLink : ShipLink := {}
  ending : Bool := false
  armedAt : Option Nat := none
  rest8 : Option Nat := none
  idRead : Option Nat := none
  fireNow : List (Nat × List Nat) := []
  deferNow : List (Nat × List Nat) := []
  tickleNow : Option (List Nat) := none
  scrNow : List (Bool × List (Nat × Nat)) := []
  tickled : Option Nat := none
  marks : List (Nat × Nat) := []
  carry : Map Int := []
deriving DecidableEq, Repr

/-! ## Drive Calibration (R322–R354) -/

/-- Phases of a group's calibration: none; waiting for or making the hand-over; the swap verified; measuring; handing back. -/
inductive CalPhase where
  | idle | handOver | ready | measure | handBack
deriving DecidableEq, Repr

/-- A HOV command frame: OP, CHANNEL, SENSE_SEL (R329). -/
structure HovCmd where
  op : Nat
  slot : Nat
  sense : Nat
deriving DecidableEq, Repr

/-- The results of a round (R339, R340): CAL_GAIN, CAL_OFFSET, SENSE_GAIN, SENSE_OFFSET, RESID; `ok` whether the round is plausible
(R343). -/
structure CalFit where
  gain : Int
  offset : Int
  sgain : Int
  soffset : Int
  resid : Int
  ok : Bool
deriving DecidableEq, Repr

/-- One drive group (R322–R349). `ch` is the channel in calibration and `phase` where it stands; `chDraws` and `spDraws` whether the
channel and the spare draw its table; `frames` the command frames due, `sent` one that the board holds pending, `status` one that was
strobed and awaits its STATUS reply, `statusOut` that the STATUS frame has been sent; `dueAt` the clock at which the frame that comes next fell
due, `frameEnd` that at which the last frame has been shifted, `busTo` that at which the clock has then idled for four periods (R328); `dwellTo`
the clock at which the next SENSE frame falls due (R339), `sweepAt` that at which the sweep of the round begins and `rest` the rest code from
which it starts (R338); `fseq` the last FSEQ, `cmdSeq` that of the command frame last sent; `swapped` the slot whose head line the spare drives and `sense` the sense selection, as strobed; `restored`
that RESTORE has been verified since the last reset (R348); `unverified` a failed verification that only a verified RESTORE ends, and
`retryAt` the clock of its next repeat (R332); `moveAt8` the line event from which HOV_LEAD runs (R333); `temp` T_d at the
start of the measurement; `fits` the rounds done; `roundNow` the sums and references of a round that ends on this clock; `setDue` an accepted set to be written at the hand-back (R336) and
`setDone` that one was written; `outcome` OUTCOME and DETAIL to be reported (R346); `finalAt` the clock of the last final status
write and `commitAt` that of the last replacement of the sets by the host (R349); `selDue` that a scan has completed since the last selection
(R326); `refused` the reason of the last deferral (R327);
`copies` the first words in CAL_SETS of the sets that wait to be copied to NOR flash (R348). -/
structure CalGroup where
  ch : Option Nat := none
  phase : CalPhase := .idle
  chDraws : Bool := true
  spDraws : Bool := false
  frames : List HovCmd := [⟨2, 31, 0⟩]
  sent : Option HovCmd := none
  status : Option HovCmd := none
  statusOut : Bool := false
  dueAt : Nat := 0
  frameEnd : Nat := 0
  busTo : Nat := 0
  dwellTo : Nat := 0
  sweepAt : Option Nat := none
  rest : Nat := 0
  fseq : Nat := 0
  cmdSeq : Nat := 0
  swapped : Option Nat := none
  sense : Nat := 0
  restored : Bool := false
  unverified : Bool := false
  retryAt : Option Nat := none
  moveAt8 : Option Nat := none
  temp : Int := 0
  fits : List CalFit := []
  roundNow : Option (List Nat × List Nat) := none
  setDue : Option CalFit := none
  setDone : Bool := false
  outcome : Nat := 0
  finalAt : Option Nat := none
  commitAt : Option Nat := none
  selDue : Bool := false
  refused : Option Nat := none
  copies : List Nat := []
deriving DecidableEq, Repr

/-- What Drive Calibration keeps of a channel beside its objects: that it stays due after a rejection (R325), that CAL_TEMP_REF has been passed by
more than CAL_DELTA_T since the last rejection, the chain times of its last acceptance and rejection, REJECT_RUN with whether it has been reported to have reached CAL_REJECT_LIMIT (R325, R344), and the consecutive failed fires of R300 with whether their run has been reported. -/
structure CalChan where
  stays : Bool := false
  passed : Bool := false
  acceptedAt : Option Nat := none
  rejectedAt : Option Nat := none
  rejects : Nat := 0
  limitTold : Bool := false
  failRun : Nat := 0
  failTold : Bool := false
deriving DecidableEq, Repr

/-! ## Thermal Monitor (R355–R373) -/

/-- Counts of a sensor (R360): consecutive OPEN or SHORT scans, deviating scans, recovering scans. -/
structure Sensor where
  bad : Nat := 0
  dev : Nat := 0
  rec_ : Nat := 0
deriving DecidableEq, Repr

/-- A port's temperatures and heater: whether T_h exists (R363), T_h before the last scan, for a consumer of the scan's own clock (R355), the
integrator and the duty that the mode asks for (R368, R369), the clock on which the present PWM period began (R368). -/
structure HeatPort where
  hasTh : Bool := false
  prevTh : Option Int := none
  integ : Nat := 0
  want : Nat := 0
  start : Option Nat := none
deriving DecidableEq, Repr

/-- The Thermal Monitor: sensors, ports, whether a die temperature has been formed (R365), scans since the last heater step, the chain time and
the clock from which the next scan's 100 µs run (the last scan, or a block reset), the clock of the last completed scan, and the value that each channel holds after it and held before it, none while it is not valid (R355, R362). -/
structure Therm where
  sensors : Map Sensor := []
  ports : Map HeatPort := []
  dieFormed : Bool := false
  div : Nat := 0
  lastScan : Option (Nat × Nat) := none
  scanClk : Option Nat := none
  held : List (Option Int) := []
  heldPrev : List (Option Int) := []
deriving DecidableEq, Repr

/-! ## Inspection (R374–R409) -/

/-- A trigger: an assertion of CAMc_TRIG, by which compare unit, with its CMP_FIRED_CT and CMP_FIRED_POS (R380). -/
structure Trig where
  unit : Nat
  ct : Nat
  pos : Nat
deriving DecidableEq, Repr

/-- The pipeline and analysis settings of a camera as latched at a frame's first grant (R388); `bad` the words of its tables, table and word, whose
stored code is uncorrectable (R404). -/
structure PipeCfg where
  cfa : Nat
  gains : List Nat
  kneeLo : Nat
  kneeHi : Nat
  shift : Nat
  black : List Nat
  blackGain : List Nat
  dyn : Nat
  ccm : List Int
  ofs : List Int
  regions : List Nat
  finders : List Nat
  finderT : List Nat
  finderMin : List Nat
  seq : Nat
  lin : List Nat
  defects : List (Nat × Nat)
  lut : List Nat
  bad : List (Nat × Nat)
deriving DecidableEq, Repr

/-- A frame in an ingress buffer (R378–R404): ingress settings as latched at the Frame Start, capture among them, with its clock; per exposure the lines received, none
where one was dropped, and how many arrived; the exposures whose Frame End came; its flags; lines dropped; its latched settings; the
input lines processed. -/
structure CamFrame where
  seq : Nat
  csi : Nat
  fsCt : Nat
  trig : Option Trig
  width : Nat
  height : Nat
  expo : Nat
  depth : Nat
  fill : Nat
  capBase : Nat
  capSlots : Nat
  fsClk : Nat
  limit : Nat := 50000000
  lines : List (List (Option (List Nat)))
  rx : List Nat
  ends : List Nat := []
  ended : Bool := false
  short : Bool := false
  long : Bool := false
  dropped : Bool := false
  crc : Bool := false
  timeout : Bool := false
  tableErr : Bool := false
  outTrunc : Bool := false
  lost : Nat := 0
  cfg : Option PipeCfg := none
  done : Nat := 0
deriving DecidableEq, Repr

/-- One camera: frames in its buffer, oldest first; frames begun; the latest trigger no frame has taken (R380); the chain time from which
silence is judged (R381); the clock at which CAM_ENABLE was last cleared (R403); lines that found no free slot on this clock, which are judged when it
ends (R403): exposure, pixels, checksum; the slots that finished frames hold because their capture waits for bulk memory (R382, R384); output words in its FIFO with their addresses (R395). -/
structure Cam where
  frames : List CamFrame := []
  begun : Nat := 0
  trig : Option Trig := none
  quietFrom : Nat := 0
  offAt : Option Nat := none
  late : List (Nat × List Nat × Bool) := []
  capHeld : Nat := 0
  fifo : List (Nat × Word) := []
deriving DecidableEq, Repr

/-- The pipeline: the camera granted, the one granted last, the number of input lines at which the present unit ends, the chain time of
the grant, the clock from which it is free for the next input line and that at which the present line has been processed (R387), and the output limiter's credit in 1/500 word (R385–R387, R395). -/
structure Pipe where
  cur : Option Nat := none
  last : Option Nat := none
  unitEnd : Nat := 0
  since : Nat := 0
  freeAt : Nat := 0
  lineEnd : Option Nat := none
  credit : Nat := 0
deriving DecidableEq, Repr

/-! ## Nozzle Health and Registration Loop (R410–R435) -/

/-- The test of port `u` by camera `cam` in a latched block, with its reference port (R412–R425). `phase` 0 waits to be armed, 1 armed, 2
done; `beyond` that its lines exceed the frame; `barAt` the clock of the first bar slot's screening, `barSet` the printers whose trims may
be updated and `barRecv` the receivers left out (R422); `due` and `hit` the mark slots assembled and fired, `hitAt` the clock of the
first (R425). -/
structure LoopTest where
  cam : Nat
  u : Nat
  ref : Option Nat
  phase : Nat := 0
  beyond : Bool := false
  barAt : Option Nat := none
  barSet : List Nat := []
  barRecv : List Nat := []
  due : Nat := 0
  hit : Nat := 0
  hitAt : Option Nat := none
deriving DecidableEq, Repr

/-- A block that an assembly has met: its first raster line, length, number; whether it was latched; its latched settings; its tests
(R410–R413). -/
structure LoopBlock where
  n0 : Nat
  period : Nat
  b : Nat
  latched : Bool
  sl : Nat
  pitch : Nat
  code : Nat
  bl : Nat
  bar : Nat
  gl : Nat
  ml : Nat
  cols : Nat
  mark : Nat
  mapCam : List Nat
  markCol : List Nat
  tests : List LoopTest
deriving DecidableEq, Repr

/-- What the loop keeps of a nozzle (R420, R421, R435). -/
structure NozSt where
  st : Nat := 0
  miss : Nat := 0
  ok : Nat := 0
  receiver : Bool := false
  unseen : Bool := true
  resp : Nat := 0
deriving DecidableEq, Repr

/-- What the loop keeps of a port (R426): nozzles, the pending LOOP_MAP image, whether it has changed, the clock of the change and whether
the next band boundary passes it; likewise for LOOP_OFFSET; the clocks of the last hand-overs; checks failing MIN_RESPONSE in a row;
LOOP_CLEAR requests. -/
structure LoopPort where
  noz : Map NozSt := []
  pend : Map Nat := []
  dirty : Bool := false
  acc : Nat := 0
  skip : Bool := false
  off : Option Int := none
  offAcc : Nat := 0
  offSkip : Bool := false
  mapAt : Option Nat := none
  offAt : Option Nat := none
  silent : Nat := 0
deriving DecidableEq, Repr

/-- The loop: blocks met, newest first; ports; whether it holds its compare units, regions and finders (R428). -/
structure Loop where
  blocks : List LoopBlock := []
  ports : Map LoopPort := []
  owns : Bool := false
deriving DecidableEq, Repr

/-! ## Scratch Banks and bulk memory (R436–R451) -/

/-- What a memory access answers (R440, R441, R443). -/
inductive BusResp where
  | word (w : Word)
  | done
  | uncorrectable
  | collided
  | busError
deriving DecidableEq, Repr

/-- The memories. `scratch` holds the words of the plain window; an unlisted word of bulk memory has not been written since its
contents were last undefined, at the time `gen`. `scratchErr` and `bulkErr` mark words whose stored code is bad: 1 correctable, 2 not.
`waiting` holds the writes of the device's own blocks that wait for training or for the check after a rest, oldest first (R449, R542), `checkDue`
says that this tracking check has not been made; `portB` the clocks and words of the writes of port B of this clock (R440); `density` is that of the last training, `refresh` the rate in force, `alerts` the clocks of recent alerts (R446). -/
structure Mem where
  scratch : Map Word := []
  scratchErr : Map Nat := []
  scrubAddr : Nat := 0
  bulk : Map (Option Word) := []
  bulkErr : Map Nat := []
  waiting : List (Nat × Word) := []
  checkDue : Bool := false
  portB : List (Nat × Nat) := []
  gen : Nat := 0
  density : Nat := 0
  refresh : Nat := 0
  scrubBurst : Nat := 0
  alerts : List Nat := []
deriving DecidableEq, Repr

/-! ## DMA movers (R454–R474) -/

/-- States of a channel (R474), in the order of the codes. -/
inductive DmaSt where
  | idle | waiting | running | pausing | paused | held
deriving DecidableEq, Repr

/-- Where the work of a channel stands (R457–R464): none; a descriptor to fetch; a link to read; a transfer in progress; its last word to be
read back; its final status write begun. -/
inductive DmaAt where
  | none
  | fetch (d : Nat)
  | link (d : Nat)
  | run
  | readback
  | status
deriving DecidableEq, Repr

/-- A channel: CH_STATUS field by field (R474), the place of its work, the present transfer's INDEXED, IRQ, LAST, ELEM and index table,
whether table word 0 has been read, the table word held and its number, the words moved of the present element, whether the transfer has
issued a read, the last destination word, the outcome to be written with its ERR_KIND, an abort that stops the chain after it, the
reads issued in the window `win` (R462), and the words whose writes have collided with port B, with their addresses, the attempts made and the clock of the last
(R440); the clocks of the last doorbell that met it busy and of its last start (R469). -/
structure DmaCh where
  st : DmaSt := .idle
  outcome : Nat := 0
  abortLate : Bool := false
  errKind : Nat := 0
  after : Bool := false
  fresh : Bool := true
  pauseReq : Bool := false
  chainErr : Bool := false
  latch : Bool := false
  pos : DmaAt := .none
  indexed : Bool := false
  irq : Bool := false
  last : Bool := false
  elem : Nat := 0
  table : Nat := 0
  haveDst : Bool := false
  entry : Option (Nat × Nat) := none
  part : Nat := 0
  begun : Bool := false
  lastDst : Option Nat := none
  ending : Nat := 0
  endErr : Nat := 0
  late : Bool := false
  stop : Bool := false
  win : Nat := 0
  used : Nat := 0
  retry : List (Nat × Nat) := []
  tries : Nat := 0
  triedAt : Nat := 0
  bellAt : Option Nat := none
  startAt : Option Nat := none
deriving DecidableEq, Repr

/-- A mover: the channel it ran last and the slot it used last (R461, R462). -/
structure Mover where
  last : Nat := 7
  slot : Option Nat := none
deriving DecidableEq, Repr

/-- The movers. -/
structure Dma where
  chs : Map DmaCh := []
  movers : Map Mover := []
deriving DecidableEq, Repr

/-! ## Fumarole (R546–R551) -/

/-- A trace record that waits: its record number, the NONCE of its session, whether it is sealed, and its 128 bits (R549, R550). -/
structure TraceEnt where
  no : Nat
  nonce : Nat
  sealed : Bool
  rec_ : Nat
deriving DecidableEq, Repr

/-- A happening of this clock to be traced: its kind, its chain time and its DATA (R549, R551). -/
structure TraceNew where
  kind : Nat
  ct : Nat
  data : Nat
deriving DecidableEq, Repr

/-- The trace session: the happenings of this clock, the number of the next record, records queued, records lost that no loss record tells yet, and the multiple of
TRACE_SAMPLE last sampled. -/
structure Trace where
  now : List TraceNew := []
  recNo : Nat := 0
  queue : List TraceEnt := []
  lossOwed : Nat := 0
  sampled : Nat := 0
deriving DecidableEq, Repr

/-! ## OTP, NOR flash and Caldera (R504–R535) -/

/-- The OTP (R529, R532): the 8-bit lifecycle field, the vendor key hash, the K_cmd slots with their VALID bits, K_trace, K_log, and
ROLLBACK_FLOOR (R519). A key is `none` while it is not present. -/
structure Otp where
  pairs : Nat := 0
  vendor : Option Nat := none
  kcmd : List (Option Nat) := [none, none, none, none]
  ktrace : Option Nat := none
  klog : Option Nat := none
  floor : Nat := 0
deriving DecidableEq, Repr

/-- A firmware bank (R510, R522): its words where something has been programmed, the LENGTH staged into it, and whether an update has
erased its header sector and not yet ended. -/
structure FwBank where
  words : Map (Option Word) := []
  len : Nat := 0
  staging : Bool := false
deriving DecidableEq, Repr

/-- A commit record (R520): `hash` is HDR_HASH. -/
structure CommitRec where
  cseq : Nat
  bank : Nat
  trial : Bool
  other : Bool
  state : Nat
  hash : Nat
deriving DecidableEq, Repr

/-- A log record (R511) without its number and chain fields: CT, KIND, CODE and the bytes of PAYLOAD that are used; `mark` the
HIST_COUNT up to which the history is in the log once it is programmed (R513). -/
structure LogReq where
  ct : Nat
  kind : Nat
  code : Nat
  payload : List Nat
  mark : Option Nat := none
deriving DecidableEq, Repr

/-- The NOR flash (R510): whether it can be read and written; log sectors of 4 KiB; the banks A and B; the valid commit records, newest
first; the configuration records in force (sticky address with the serial number of the unit that stored it, R84; SEAL_FLOOR; copies of CAL_SETS by word 1,024·group + word); the log records
by slot of the ring as 128 bytes, LOG_NEXT_SEQ and LOG_FIRST_SEQ; the number of the history entries logged (R513). -/
structure Nor where
  ok : Bool := true
  sectors : Nat := 2816
  banks : Map FwBank := []
  commits : List CommitRec := []
  sticky : Option (Nat × Nat) := none
  floor : Option Nat := none
  sets : Map (Option Word) := []
  log : Map (List Nat) := []
  next : Nat := 0
  first : Nat := 0
  hist : Nat := 0
deriving DecidableEq, Repr

/-- Caldera. `restartDue` is the cause of a restart that is to begin; `queue`, `lost`, `owed` the log queue, LOG_LOST and losses not yet
told (R514); `hist` the history entries queued for the log; `since`, `anchorDue` the anchors (R515); `actPending` ACTIVATE_PENDING, a bit
of the island (R521); `image` the image that RECOVER verified (R539); `trialAt` and `confirmAt` the clocks at which a trial began and a
final commit record was written (R523, R524); `wdtFrom` the clock from which firmware has run (R506); `wdtAt`, `hostAt` the clocks of the last watchdog expiry and sealed restart (R506). -/
structure Mgmt where
  restartDue : Option Nat := some 0
  queue : List LogReq := []
  lost : Nat := 0
  owed : Nat := 0
  hist : Nat := 0
  since : Nat := 0
  anchorDue : Bool := false
  actPending : Bool := false
  image : Option (List Nat) := none
  trialAt : Option Nat := none
  confirmAt : Option Nat := none
  wdtFrom : Nat := 0
  wdtAt : Option Nat := none
  hostAt : Option Nat := none
deriving DecidableEq, Repr

/-! ## Test access port, power and start-up (R536–R568) -/

/-- The TAP: the instruction in force and whether the last one was refused (R536, R538). -/
structure Tap where
  ir : Nat := 0xFF
  refused : Bool := false
deriving DecidableEq, Repr

/-- Power (R541–R544): the request accepted and not yet in effect with the chain time from which it takes effect (none: at once); whether
frames and calibrations have been ended and the change waits for RESTORED; that a change of this clock is judged when it ends, and that WAKE_N was
asserted during an entry to SHELF (R545); the clock until which the checks of R29 and R73 are suspended;
the level of PWR_EN; the clock at which VAON was applied. -/
structure Power where
  req : Option (Nat × Option Nat) := none
  leaving : Bool := false
  now : Bool := false
  woken : Bool := false
  quietTo : Nat := 0
  pwrEn : Bool := true
  vaonAt : Nat := 0
deriving DecidableEq, Repr

/-- Where the unit stands in its life: in start-up, running, held in a chip reset, or in SHELF (R557, R560, R567). -/
inductive BootPhase where
  | starting | running | held | shelf
deriving DecidableEq, Repr

/-- `cutting` says that a chip reset waits for the clear latches (R561); `blocks` are block resets, by source, that wait for theirs
(R562). -/
structure Boot where
  phase : BootPhase := .starting
  cutting : Bool := false
  blocks : List Nat := []
deriving DecidableEq, Repr

end Sys2Proof.Machine
end

