-- ==== Sys2Proof/Machine/State.lean ====
section
/-! DEFINITION. The state of the unit and the reasons a step can stop. -/

namespace Sys2Proof.Machine

/-- The parts of the family (R1). -/
inductive Part where
  | px7216 | px7208 | px7204
deriving DecidableEq, Repr

/-- Who the unit is: part, temperature grade, serial number, die stepping and boot ROM version (R1, R2, R6, R144). -/
structure Ident where
  part : Part := .px7216
  industrial : Bool := false
  serial : Nat := 0
  dieStep : Nat := 0
  romVersion : Nat := 0
deriving DecidableEq, Repr

/-- Faults of the model. Each stands for a resource that the spec says the part does not have (R1, R4), named by a command
from outside; no hardware can receive it. Raised by the meanings of commands on ports and groups. Safe: the model
stops where there is nothing to act on. -/
inductive Fault where
  | noSuchPort (p : Nat)
  | noSuchGroup (g : Nat)
deriving DecidableEq, Repr

/-- Refusals of the model. `notModelled`: an arm of exec without a meaning. Safe: nothing is done. -/
inductive Refusal where
  | notModelled (mnemonic : String)
deriving DecidableEq, Repr

/-- The clock pair of a head link during a shipment (R280): the bit period in ct, on which edge data changes or DDR (CLK_MODE), and whether the
clock runs on after it. -/
structure ClockForm where
  bit : Nat
  mode : Nat
  runs : Bool
deriving DecidableEq, Repr

/-- What the unit has put on its balls and lanes: the model's own record, newest first (log 4). -/
inductive Out where
  /-- A frame sent or forwarded out of a chain port (R58–R65). -/
  | frame (p : ChainPort) (kind : Nat) (f : Frame)
  /-- A CYCLE, PROBE or PRET block (R66, R69). -/
  | block (p : ChainPort) (blk : Block)
  /-- A forwarded frame ended at once with STOMP 1 and CRC 0 (R58). -/
  | stompEnd (p : ChainPort)
  /-- A CREDIT block on an image lane (R221). -/
  | credit (lane : Nat) (blk : Block)
  /-- A shipment on the data pairs of a port from an instant in 1/8 ct, one bit stream per pair, with the form of the clock beside it (R280,
  R282). -/
  | ship (port : Nat) (g : Nat) (at8 : Nat) (clock : ClockForm) (pairs : List (List Bool))
  /-- A latch pulse (R284): its edge in 1/8 ct, its width in ct, and whether it is low (R280, R281). -/
  | latch (port : Nat) (at8 : Nat) (width : Nat) (low : Bool)
  /-- A shift of the HOV bus of a group, and its strobe (R328, R333). -/
  | hov (group : Nat) (frame : Nat)
  | hovStrobe (group : Nat)
  /-- An I²C transaction on a camera bus (R377). -/
  | i2c (cam : Nat) (speed : Nat) (cmd : Nat)
  /-- A trace frame on the Fumarole port (R549). -/
  | trace (f : List Nat)
  /-- 4 EIDLE blocks on each lane of a link before electrical idle (R52). -/
  | eidle (p : LinkSel)
  /-- A fast-exit burst on a lane: 127 times its TRAIN block, then its ALIGN block (R53, R56, R57). -/
  | fastExit (lane : Nat) (train align : Block)
  /-- An ALIGN block of a lane (R47, R57). -/
  | align (lane : Nat) (blk : Block)
  /-- An interrupt of Caldera for a fault source, non-maskable or not (R488), and for a completed DMA channel (R463). -/
  | trap (nmi : Bool) (source : Nat)
  | dmaDone (ch : Nat)
  /-- The answer of a port of the Scratch Banks: port B when true (R438–R441). -/
  | scratch (portB : Bool) (r : BusResp)
deriving DecidableEq, Repr

/-- The unit. `pending` is the queue of commands waiting, first in first out; `clk` counts core clocks since power-on; `free`
counts the free values drawn, and `freeT` those drawn for Fumarole, so that the trace mode changes no other value (R42; the model's own
fields, log 3); `out` is the model's record of its outputs (log 4). The other
fields are the blocks of the spec. -/
structure State where
  pending : List Instr := []
  ident : Ident := {}
  clk : Nat := 0
  free : Nat := 0
  freeT : Nat := 0
  out : List Out := []
  regs : Map Word := []
  tabs : Map Tab := []
  link : Link := {}
  banks : Map Bank := []
  recv : Recv := {}
  pos : Pos := {}
  dict : Dict := {}
  faults : Faults := {}
  grid : Grid := {}
  cmps : Map Cmp := []
  gpo : Nat := 0
  camTrig : Nat := 0
  ingress : Ingress := {}
  ports : Map Port := []
  cals : Map CalGroup := []
  chans : Map CalChan := []
  therm : Therm := {}
  cams : Map Cam := []
  pipe : Pipe := {}
  loop : Loop := {}
  mem : Mem := {}
  dma : Dma := {}
  trace : Trace := {}
  otp : Otp := {}
  otp2 : Otp := {}
  nor : Nor := {}
  mgmt : Mgmt := {}
  tap : Tap := {}
  power : Power := {}
  boot : Boot := {}
deriving DecidableEq, Repr

/-- What a command answers. -/
abbrev Res := Host.Outcome State Fault Refusal

/-- The machine right after a power-on reset: every object at its Default, every table at its default, nothing listed in
any memory, every queue empty (R555, R559, R565). -/
def State.reset : State := {}

end Sys2Proof.Machine
end

