-- ==== Sys2Proof/Machine/Ops.lean ====
section
/-! DEFINITION. The named operations over the state that every block uses: objects, tables, chain time, the derived
position, own events, fault raises, trace records and programmable counters. -/

namespace Sys2Proof.Machine

/-! ## What the part has (R1, R4) -/

/-- Bonded ports (R1). -/
def Part.ports : Part → Nat
  | .px7216 => 16 | .px7208 => 8 | .px7204 => 4

/-- PART code (R144). -/
def Part.code : Part → Nat
  | .px7216 => 0x16 | .px7208 => 0x08 | .px7204 => 0x04

/-- Bonded ports of this unit. -/
def State.nPorts (s : State) : Nat := s.ident.part.ports

/-- Groups of 16 waveform channels, one spare each (R1). -/
def State.nGroups (s : State) : Nat := s.nPorts / 4

/-- Does drive channel `c` exist: a bonded port's channel, or the spare of an existing group (R1, R277)? -/
def State.hasChannel (s : State) (c : Nat) : Bool :=
  if c < 64 then decide (c / 4 < s.nPorts) else decide (c - 64 < s.nGroups)

/-- The command acts on a bonded port; there is no other (R4). -/
def onPort (p : Nat) (s : State) (k : State) : Res :=
  if p < s.nPorts then .next k else .fault (.noSuchPort p)

/-- The command acts on a group of drive channels that exists. -/
def onGroup (g : Nat) (s : State) (k : State) : Res :=
  if g < s.nGroups then .next k else .fault (.noSuchGroup g)

/-! ## Resets and power (R540, R556, R560) -/

/-- The die is supplied and out of reset. -/
def State.on (s : State) : Bool := s.boot.phase == .starting || s.boot.phase == .running

/-- What the command does while the die is supplied and out of reset; otherwise nothing is there to act (R556, R560). -/
def whenOn (s : State) (r : Res) : Res := if s.on then r else .next s

/-! ## Objects (R103–R105) -/

/-- Width of the object's value. -/
def keyWidth (k : Nat) : Nat := ((objOf k).map (fun o => o.ty.width)).getD 72

/-- Is the object's value two's complement? -/
def keySigned (k : Nat) : Bool := ((objOf k).map (fun o => o.ty.signed)).getD false

/-- The number an object holds. -/
def State.reg (s : State) (k : Nat) : Nat := (Map.get regDefault s.regs k).toNat

/-- The number an object holds, read by its type. -/
def State.regI (s : State) (k : Nat) : Int := sgn (keyWidth k) (s.reg k)

/-- A flag object. -/
def State.flag (s : State) (k : Nat) : Bool := s.reg k != 0

/-- Puts a number into an object, cut to its type's width (counters wrap). -/
def State.setReg (s : State) (k v : Nat) : State :=
  { s with regs := Map.put regDefault s.regs k (BitVec.ofNat 72 (v % 2 ^ keyWidth k)) }

/-- Puts an integer into an object. -/
def State.setRegI (s : State) (k : Nat) (v : Int) : State := s.setReg k (unsgn (keyWidth k) v)

/-- Counter + n. -/
def State.addReg (s : State) (k n : Nat) : State := s.setReg k (s.reg k + n)

/-- Counter + 1. -/
def State.inc (s : State) (k : Nat) : State := s.addReg k 1

/-- Bit `i` of an object set to `b`. -/
def State.setRegBit (s : State) (k i : Nat) (b : Bool) : State := s.setReg k (setBit (s.reg k) i b)

/-- One more entry of the output record. -/
def State.emit (s : State) (o : Out) : State := { s with out := o :: s.out }

/-- The blocks that DOZE and SLEEP stop are clocked (R540). -/
def State.clocked (s : State) : Bool := s.on && decide (s.reg Key.POWER_STATE < 2)

/-- What the command does while its block is clocked (R540). -/
def whenClocked (s : State) (r : Res) : Res := if s.clocked then r else .next s

/-! ## Records per lane, port, group, … -/

/-- Port record `p`. -/
def State.port (s : State) (p : Nat) : Port := Map.get (fun _ => {}) s.ports p

/-- Changes port record `p`. -/
def State.updPort (s : State) (p : Nat) (f : Port → Port) : State :=
  { s with ports := Map.upd (fun _ => {}) s.ports p f }

/-- Calibration record of group `g`. -/
def State.cal (s : State) (g : Nat) : CalGroup := Map.get (fun _ => {}) s.cals g

/-- Changes the calibration record of group `g`. -/
def State.updCal (s : State) (g : Nat) (f : CalGroup → CalGroup) : State :=
  { s with cals := Map.upd (fun _ => {}) s.cals g f }

/-- Calibration record of drive channel `c`. -/
def State.chan (s : State) (c : Nat) : CalChan := Map.get (fun _ => {}) s.chans c

/-- Changes the calibration record of drive channel `c`. -/
def State.updChan (s : State) (c : Nat) (f : CalChan → CalChan) : State :=
  { s with chans := Map.upd (fun _ => {}) s.chans c f }

/-- Heater record of port `p`. -/
def State.heat (s : State) (p : Nat) : HeatPort := Map.get (fun _ => {}) s.therm.ports p

/-- Changes the heater record of port `p`. -/
def State.updHeat (s : State) (p : Nat) (f : HeatPort → HeatPort) : State :=
  { s with therm := { s.therm with ports := Map.upd (fun _ => {}) s.therm.ports p f } }

/-- Camera `c`. -/
def State.cam (s : State) (c : Nat) : Cam := Map.get (fun _ => {}) s.cams c

/-- Changes camera `c`. -/
def State.updCam (s : State) (c : Nat) (f : Cam → Cam) : State :=
  { s with cams := Map.upd (fun _ => {}) s.cams c f }

/-- What the loop keeps of port `p`. -/
def State.lport (s : State) (p : Nat) : LoopPort := Map.get (fun _ => {}) s.loop.ports p

/-- Changes what the loop keeps of port `p`. -/
def State.updLport (s : State) (p : Nat) (f : LoopPort → LoopPort) : State :=
  { s with loop := { s.loop with ports := Map.upd (fun _ => {}) s.loop.ports p f } }

/-- Changes the tests of a latched block from first line `n0` that satisfy `c`. -/
def State.updTests (s : State) (n0 : Nat) (c : LoopTest → Bool) (f : LoopTest → LoopTest) : State :=
  { s with loop := { s.loop with blocks := s.loop.blocks.map (fun b =>
      if b.n0 = n0 ∧ b.latched then { b with tests := b.tests.map (fun t => if c t then f t else t) } else b) } }

/-- DMA channel `c`. -/
def State.dch (s : State) (c : Nat) : DmaCh := Map.get (fun _ => {}) s.dma.chs c

/-- Changes DMA channel `c`. -/
def State.updDch (s : State) (c : Nat) (f : DmaCh → DmaCh) : State :=
  { s with dma := { s.dma with chs := Map.upd (fun _ => {}) s.dma.chs c f } }

/-- Mover `m`. -/
def State.mover (s : State) (m : Nat) : Mover := Map.get (fun _ => {}) s.dma.movers m

/-- Changes mover `m`. -/
def State.updMover (s : State) (m : Nat) (f : Mover → Mover) : State :=
  { s with dma := { s.dma with movers := Map.upd (fun _ => {}) s.dma.movers m f } }

/-- Counts of sensor `k`. -/
def State.sensor (s : State) (k : Nat) : Sensor := Map.get (fun _ => {}) s.therm.sensors k

/-- Changes the counts of sensor `k`. -/
def State.updSensor (s : State) (k : Nat) (f : Sensor → Sensor) : State :=
  { s with therm := { s.therm with sensors := Map.upd (fun _ => {}) s.therm.sensors k f } }

/-- Lane `i` in the order of LANE_STATUS. -/
def State.lane (s : State) (i : Nat) : Lane := Map.get (fun _ => {}) s.link.lanes i

/-- Changes lane `i`. -/
def State.updLane (s : State) (i : Nat) (f : Lane → Lane) : State :=
  { s with link := { s.link with lanes := Map.upd (fun _ => {}) s.link.lanes i f } }

/-- What the Collector keeps of source `k`. -/
def State.src (s : State) (k : Nat) : Src := Map.get (fun _ => {}) s.faults.srcs k

/-- Changes source `k`. -/
def State.updSrc (s : State) (k : Nat) (f : Src → Src) : State :=
  { s with faults := { s.faults with srcs := Map.upd (fun _ => {}) s.faults.srcs k f } }

/-- Geyser bank `b`. -/
def State.bank (s : State) (b : Nat) : Bank := Map.get (fun _ => {}) s.banks b

/-- Changes Geyser bank `b`. -/
def State.updBank (s : State) (b : Nat) (f : Bank → Bank) : State :=
  { s with banks := Map.upd (fun _ => {}) s.banks b f }

/-- Compare unit `c`. -/
def State.cmp (s : State) (c : Nat) : Cmp := Map.get (fun _ => {}) s.cmps c

/-- Changes compare unit `c`. -/
def State.updCmp (s : State) (c : Nat) (f : Cmp → Cmp) : State :=
  { s with cmps := Map.upd (fun _ => {}) s.cmps c f }

/-- Chain port record. -/
def State.cport (s : State) : ChainPort → PortLink
  | .u => s.link.u
  | .d => s.link.d

/-- Changes a chain port record. -/
def State.updCport (s : State) (p : ChainPort) (f : PortLink → PortLink) : State :=
  match p with
  | .u => { s with link := { s.link with u := f s.link.u } }
  | .d => { s with link := { s.link with d := f s.link.d } }

/-- Group record `g`. -/
def State.group (s : State) (g : Nat) : Group := Map.get (fun _ => {}) s.dict.groups g

/-- Changes group record `g`. -/
def State.updGroup (s : State) (g : Nat) (f : Group → Group) : State :=
  { s with dict := { s.dict with groups := Map.upd (fun _ => {}) s.dict.groups g f } }

/-- Session record `k`. -/
def State.sess (s : State) (k : Nat) : Session := Map.get (fun _ => {}) s.dict.sessions k

/-- Changes session record `k`. -/
def State.updSess (s : State) (k : Nat) (f : Session → Session) : State :=
  { s with dict := { s.dict with sessions := Map.upd (fun _ => {}) s.dict.sessions k f } }

/-- Image lane `i`'s ingress. -/
def State.ilane (s : State) (i : Nat) : ImgLane := Map.get (fun _ => {}) s.ingress.lanes i

/-- Changes image lane `i`'s ingress. -/
def State.updIlane (s : State) (i : Nat) (f : ImgLane → ImgLane) : State :=
  { s with ingress := { s.ingress with lanes := Map.upd (fun _ => {}) s.ingress.lanes i f } }

/-- Plane record `q`. -/
def State.plane (s : State) (q : Nat) : Plane := Map.get (fun _ => {}) s.ingress.planes q

/-- Changes plane record `q`. -/
def State.updPlane (s : State) (q : Nat) (f : Plane → Plane) : State :=
  { s with ingress := { s.ingress with planes := Map.upd (fun _ => {}) s.ingress.planes q f } }

/-- Apply `f` for each number of a list in turn. -/
def State.forEach (s : State) (l : List Nat) (f : Nat → State → State) : State :=
  l.foldl (fun s i => f i s) s

/-! ## Chain time (R9, R13, R72) -/

/-- Chain time in ct. -/
def State.ct (s : State) : Nat := s.link.ct8 / 8

/-- Chain time in 1/8 ct at phase `ph` of the present core clock (R30). -/
def State.at8 (s : State) (ph : Nat) : Nat := s.link.ct8 + ph

/-! ## Firing armed (R301) -/

/-- Ports that are not DISARMED. -/
def State.armedList (s : State) : List Nat :=
  (List.range s.nPorts).filter (fun p => (s.port p).st ≠ .disarmed)

/-- ARMED_PORTS (R301). -/
def State.armedMask (s : State) : Nat := nsum (s.armedList.map (2 ^ ·))

/-- Firing is armed while at least one port is (R301). -/
def State.armed (s : State) : Bool := !s.armedList.isEmpty

/-! ## Derived position (R28, R76, R77, R194) -/

/-- x_new of a broadcast at `t8` in 1/8 ct, in st × 2^−16 modulo 2^64 (R76, R194). -/
def Bcast.at8 (b : Bcast) (t8 : Int) : Nat :=
  let adv : Int := ((b.speed : Int) * (t8 - 8 * (b.sample : Int))).tdiv 4000
  unsgn 64 (if b.rev then (b.pos : Int) * 65536 - adv else (b.pos : Int) * 65536 + adv)

/-- The derived position of an in-force broadcast, take-up of R77 included. -/
def InForce.at8 (f : InForce) (t8 : Int) : Nat :=
  let e8 : Int := 8 * ((f.a : Int) + 500)
  if f.d = 0 ∨ e8 ≤ t8 then f.b.at8 t8
  else unsgn 64 ((f.b.at8 t8 : Int) - (f.d * (e8 - t8)).tdiv 4000)

/-- Derived position at `t8` in st × 2^−16; 0 before the first broadcast is in force (log 20). -/
def State.x64 (s : State) (t8 : Nat) : Nat :=
  match s.recv.now with
  | none => 0
  | some f => f.at8 t8

/-- Derived position now, in st (R76). -/
def State.derived (s : State) : Nat := s.x64 (8 * s.ct) / 65536 % 2 ^ 48

/-- Derived position at a past chain time, at most 1 ms ago, of the broadcast then in force, in st (R76, R185). -/
def State.derivedAt (s : State) (ct : Nat) : Nat :=
  match (s.recv.now.toList ++ s.recv.past.map (fun e => e.2)).find? (fun f => decide (f.a ≤ ct)) with
  | none => 0
  | some f => f.at8 (8 * ct) / 65536 % 2 ^ 48

/-- Direction in force: DIR of the broadcast in force (R178). -/
def State.revNow (s : State) : Bool := (s.recv.now.map (fun f => f.b.rev)).getD false

/-- SPEED of the broadcast in force. -/
def State.speedNow (s : State) : Nat := (s.recv.now.map (fun f => f.b.speed)).getD 0

/-! ## Fumarole hooks (R548, R549, R551) -/

/-- A programmable counter event with qualifier `q` (a mask; 0 where the event takes none), `n` times; in DOZE and SLEEP the counters hold (R548). -/
def State.pmc (s : State) (ev q n : Nat) : State :=
  if s.reg Key.TRACE_MODE = 0 ∨ ¬ s.clocked then s
  else s.forEach (List.range 16) (fun k s =>
    let sel := s.reg (Key.PMC_SEL k)
    if bits sel 7 0 = ev ∧ (q = 0 ∨ Nat.land (bits sel 31 16) q ≠ 0) then s.addReg (Key.PMC k) n else s)

/-- Puts a record of 128 bits at the end of the trace queue, with the next number of the session (R549, R550). -/
def State.tracePut (s : State) (sealed : Bool) (v : Nat) : State :=
  { s with trace := { s.trace with
      recNo := s.trace.recNo + 1, queue := s.trace.queue ++ [⟨s.trace.recNo, s.reg Key.TRACE_NONCE, sealed, v⟩] } }

/-- A happening is traced with the present chain time, but not in DOZE or SLEEP; the records of a clock are queued when it ends (R549, R551, R552). -/
def State.traceRec (s : State) (kind data : Nat) : State :=
  let m := s.reg Key.TRACE_MODE
  if (m = 2 ∨ m = 3) ∧ s.clocked ∧ bit (s.reg Key.TRACE_FILTER) kind then
    { s with trace := { s.trace with now := s.trace.now ++ [⟨kind, s.ct, data⟩] } }
  else s

/-- The order of the records of one clock: by KIND, then by port, source, channel, class or counter, the field at the top of DATA (R551). -/
def TraceNew.rank (e : TraceNew) : Nat :=
  e.kind * 256 + (match e.kind with
    | 2 => bits e.data 55 52
    | 3 => bits e.data 55 54
    | 4 => bits e.data 55 48
    | 6 => bits e.data 55 51
    | 8 => bits e.data 55 52
    | _ => 0)

/-- A record as 128 bits (R549). -/
def TraceNew.bits128 (e : TraceNew) : Nat := fld e.ct 64 64 + fld e.kind 8 56 + fld e.data 56 0

/-- The records of a clock are queued when it ends, after them the loss that a queue with room again tells; a record that finds 1,024 waiting is
lost and counted (R551). -/
def State.traceEnd (s : State) : State :=
  let t := s.trace
  let room := 1024 - t.queue.length
  let tell := decide (0 < t.lossOwed) && decide (0 < room)
  let l := t.now.insertionSort (fun a b => a.rank ≤ b.rank)
  let n := l.length - (room - b2n tell)
  let sealed := s.reg Key.TRACE_MODE == 3
  if t.now.isEmpty ∧ tell = false then s
  else
    let s1 := { s with trace := { t with now := [], lossOwed := (if tell then 0 else t.lossOwed) + n } }
    let s2 := (l.take (room - b2n tell)).foldl (fun s e => s.tracePut sealed e.bits128) (s1.addReg Key.TRACE_LOST n)
    if tell then s2.tracePut sealed (TraceNew.bits128 ⟨0x3F, s.ct, fld t.lossOwed 32 0⟩) else s2

/-! ## Own events (R79–R81) -/

/-- Queues an own event stamped now; lost and counted when 64 already wait (R81). -/
def State.event (s : State) (cls code arg : Nat) : State :=
  if s.link.events.length < 64 then
    let seq := s.link.txSeq
    { s with link := { s.link with
        txSeq := (seq + 1) % 2 ^ 16
        events := s.link.events ++ [⟨seq, s.ct, s.derived, cls % 256, code % 65536, arg % 2 ^ 32⟩] } }
  else { s.inc Key.EVENT_LOST with link := { s.link with eventsLost := true } }

/-! ## Raising faults (R476, R478) -/

/-- Class code in force of a source (R486). -/
def State.srcClass (s : State) (k : Nat) : Nat := srcBase k + (s.src k).up

/-- Raises a source: the raise reaches the Collector on the next collector cycle. -/
def State.raise (s : State) (k detail : Nat) : State :=
  if srcExists s.nPorts k then
    { s with faults := { s.faults with raised := s.faults.raised ++ [⟨k, detail % 65536, false⟩] } }
  else s

/-- Instance `i` of a condition begins or ends; it is raised when it begins (R476). -/
def State.cause (s : State) (k i : Nat) (on : Bool) (detail : Nat) : State :=
  if on then
    if (s.src k).causes.contains i then s
    else (s.updSrc k (fun r => { r with causes := i :: r.causes })).raise k detail
  else s.updSrc k (fun r => { r with causes := r.causes.filter (· ≠ i) })

/-! ## Tables in force (R127, R261, R266) -/

/-- Is the table at `index` a MATRIX, or a MASK? -/
def isMatrix (index : Nat) : Bool := decide (0x4400 ≤ index) && decide (index ≤ 0x440F)
def isMask (index : Nat) : Bool := decide (0x4420 ≤ index) && decide (index ≤ 0x4427)

/-- Three 24-bit entries of a nozzle table word. -/
def pack24 (a b c : Nat) : Nat := fld a 24 0 + fld b 24 24 + fld c 24 48

/-- Six 12-bit cells of a MATRIX word. -/
def pack12 (f : Nat → Nat) : Nat := nsum ((List.range 6).map (fun j => fld (f j) 12 (12 * j)))

/-- Four 16-bit entries of a word. -/
def pack16 (f : Nat → Nat) : Nat := nsum ((List.range 4).map (fun j => fld (f j) 16 (16 * j)))

/-- Cell of the default matrix, 16 × 16 ordered (R261). -/
def orderedCell (i : Nat) : Nat :=
  let x := i % 16; let y := i / 16; let u := Nat.xor x y
  16 * nsum ((List.range 4).map (fun k => b2n (bit u k) * 2 ^ (7 - 2 * k) + b2n (bit y k) * 2 ^ (6 - 2 * k))) + 8

/-- Optical density of the default DENSITY_LUT (R396), by the exact decimal exponent of 256^2048 / k^2048. -/
def densityEntry (k : Nat) : Nat :=
  if k = 0 then 4095 else min 4095 ((Nat.log 10 (256 ^ 2048 / k ^ 2048) + 1) / 2)

/-- Entries 1 to 63 of the default THERM_CURVE in 1/16 °C, rounded down: entry i is the temperature at which a 10 kΩ NTC of B = 3,435 K under a
10 kΩ pull-up gives the code 64i, that is R = 10 kΩ · i / (64 − i) and 1 / T = 1 / T0 + ln (R / 10 kΩ) / B (R358). T0 = 25 °C is PRESUMED (log 14). -/
def thermFloor : List Int :=
  [3078, 2425, 2088, 1865, 1700, 1569, 1461, 1369, 1289, 1218, 1153, 1095, 1042, 992, 946, 902,
    861, 822, 785, 750, 716, 683, 652, 621, 591, 562, 534, 506, 479, 452, 426, 400,
    374, 348, 323, 298, 273, 247, 222, 197, 172, 146, 120, 94, 67, 40, 13, -16,
    -45, -75, -106, -139, -173, -210, -248, -290, -335, -385, -442, -508, -589, -696, -862]

/-- Entry `i` of the default THERM_CURVE (R358): entry 32 is T0 itself; the rounding of the others is free, and entries 0 and 64, where the formula
gives nothing, are free (log 14). -/
def thermEntry (i : Nat) : Nat :=
  if i = 32 then 400
  else if 1 ≤ i ∧ i ≤ 63 then unsgn 16 (thermFloor.getD (i - 1) 0 + b2n (Config.thermUp i))
  else if i ≤ 64 then (Config.thermEnd i).toNat
  else 0

/-- Word `w` of the default of the DOMAIN table at `index`. -/
def tabDefault (index w : Nat) : Nat :=
  if 0x4000 ≤ index ∧ index < 0x4400 then
    match index % 0x40 with
    | 0x00 => pack24 ((3 * w) * 256) ((3 * w + 1) * 256) ((3 * w + 2) * 256)
    | 0x01 => pack24 (1024 * 1024) (1024 * 1024) (1024 * 1024)
    | 0x02 => if w < 256 then fld (16 * w) 16 0 + fld (16 * w + 4) 16 16 + fld (16 * w + 8) 16 32 + fld (16 * w + 12) 16 48
              else 4096
    | 0x10 => pack16 (fun j => thermEntry (4 * w + j))
    | n => if 0x08 ≤ n ∧ n ≤ 0x0B then
             (if w % 33 = 0 then fld 1 8 64 + fld 2048 12 48 + fld 2048 12 36 + fld 2048 12 24 + fld 2048 12 12 + fld 2048 12 0
              else fld (2 ^ 34 + 1) 36 36 + fld (2 ^ 34 + 1) 36 0)
           else 0
  else if isMatrix index then
    (if w = 0 then fld 15 8 8 + fld 15 8 0 else pack12 (fun j => if 6 * (w - 1) + j < 256 then orderedCell (6 * (w - 1) + j) else 2048))
  else if 0x4410 ≤ index ∧ index ≤ 0x4417 then fld 7 8 64 + fld 3 8 40 + fld 5 8 32 + fld 1 8 24 + fld 4 4 12
  else if isMask index then
    (if w = 0 then fld 1 4 16 else fld (0xFFFFFFFFFFFFFFFFF) 68 4)
  else if 0x4500 ≤ index ∧ index ≤ 0x4503 then (if w % 2 = 0 then fld 32768 16 40 + fld 1048576 24 0 else 0)
  else if index = 0x4600 ∨ index = 0x4601 then pack16 (fun j => if 4 * w + j ≤ 512 then min 65535 (128 * (4 * w + j)) else 0)
  else if index = 0x4604 ∨ index = 0x4605 then pack16 (fun j => if 4 * (w % 65) + j ≤ 256 then densityEntry (4 * (w % 65) + j) else 0)
  else 0

/-- What word `w` of a table committed with LENGTH `n` reads as beyond the image (R127, R261, R266). -/
def tabFill (index w : Nat) : Nat :=
  if isMatrix index then (if w = 0 then 0 else pack12 (fun _ => 2048))
  else if isMask index then (if w = 0 then 0 else 2 ^ 72 - 1)
  else tabDefault index w

/-- The table record at `index`. -/
def State.tab (s : State) (index : Nat) : Tab := Map.get (fun _ => {}) s.tabs index

/-- Word `w` of the table in force at `index`. -/
def State.tabWord (s : State) (index w : Nat) : Nat :=
  let t := s.tab index
  match t.len with
  | none => tabDefault index w
  | some n => if w < n then (Map.get (fun _ => 0) t.words w).toNat else tabFill index w

/-- Replaces the table at `index` by an image. -/
def State.setTab (s : State) (index : Nat) (t : Tab) : State := { s with tabs := Map.put (fun _ => {}) s.tabs index t }

/-- An image of words as a table. -/
def tabOf (ws : List Nat) : Tab :=
  { len := some ws.length, words := (ws.zipIdx).foldl (fun m p => Map.put (fun _ => 0) m p.2 (BitVec.ofNat 72 p.1)) [] }

end Sys2Proof.Machine
end

