-- ==== Sys2Proof/Machine/Lanes.lean ====
section
/-! DEFINITION. Lane bring-up, loss, electrical idle and fast exit (R44-R57, R102, R216, R217). Lanes are numbered as
LANE_STATUS numbers them: I0–I3, U0, U1, D0, D1. -/

namespace Sys2Proof.Machine

/-- The lanes of a link (R44, R46). -/
def linkLanes : LinkSel → List Nat
  | .chain .u => [4, 5]
  | .chain .d => [6, 7]
  | .image i => [i.val]

/-- Index of a lane within its port (R56). -/
def laneIndex (i : Nat) : Nat := if i < 4 then i else i % 2

/-- The lanes of the port of lane `i`. -/
def portLanes (i : Nat) : List Nat := if i < 4 then [i] else if i < 6 then [4, 5] else [6, 7]

/-- Is PORT_KIND `k` permitted to face lane `i` (R48, R216)? -/
def kindPermitted (i k : Nat) : Bool :=
  if i < 4 then k == 3 else if i < 6 then k == 1 || k == 3 else k == 0 || k == 3

/-- Is lane `i` held in DOWN by LANE_ENABLE (R216)? -/
def State.laneHeld (s : State) (i : Nat) : Bool := decide (i < 4) && !bit (s.reg Key.LANE_ENABLE) i

/-- A chain port is UP when both its lanes are (R47). -/
def State.linkUp (s : State) (p : ChainPort) : Bool :=
  (linkLanes (.chain p)).all (fun i => decide ((s.lane i).st = .up))

/-- A lane in DOWN keeps no correction (R48). -/
def Lane.toDown (l : Lane) : Lane :=
  { l with st := .down, polInv := false, swap := false, peerLane := 0, skew := 0, run := 0, ready := 0, lastSkew := none, bad := [] }

/-- An image lane leaves UP: its buffered packets are discarded, its counts start again, and the lines whose slices it last wrote
are BROKEN (R222). -/
def State.dropImage (s : State) (i : Nat) : State :=
  let s1 := s.updIlane i (fun _ => {})
  { s1 with ingress := { s1.ingress with
      entries := s1.ingress.entries.map (fun e => if e.lanes.contains (some i) then { e with broken := true } else e) } }

/-- Lane `i` leaves UP or IDLE for DOWN: an image lane drops what it buffers (R222), a chain lane that was UP counts the loss (R50, R101). -/
def State.loseLane (s : State) (i : Nat) : State :=
  let s1 := s.updLane i Lane.toDown
  if i < 4 then s1.dropImage i
  else if (s.lane i).st = .up then s1.inc (if i < 6 then Key.LOCK_LOSS_U else Key.LOCK_LOSS_D)
  else s1

/-- Lane `i` is taken to DOWN from whatever state it is in. -/
def State.downLane (s : State) (i : Nat) : State :=
  if (s.lane i).st = .up ∨ (s.lane i).st = .idle then s.loseLane i else s.updLane i Lane.toDown

/-- Lane `i` is taken to DOWN, and its failures and its wait are forgotten. -/
def State.restartLane (s : State) (i : Nat) : State := (s.downLane i).updLane i (fun l => { l with fails := 0, retryAt := none })

/-! ## What the transmitters send (R47, R53, R56, R57) -/

/-- PORT_KIND that a lane of the unit sends (R56). -/
def ownKindOf (i : Nat) : Nat := if i < 4 then 2 else if i < 6 then 0 else 1

/-- The TRAIN block that lane `i` sends (R56); RX_READY says that its receiver has reached TRAIN or beyond. -/
def State.trainBlock (s : State) (i : Nat) (fast : Bool) : Block :=
  let ready : Bool := match (s.lane i).st with
    | .down | .signal | .lock => false
    | .train | .deskew | .up | .idle => true
  BitVec.ofNat 64 (fld 0x96C35A0F 32 32 + fld (ownKindOf i) 2 26 + fld (laneIndex i) 2 24 + fld (b2n ready) 1 23 + fld (b2n fast) 1 22
    + fld 0x01 8 8 + 0x78)

/-- The ALIGN block that lane `i` sends next (R57). -/
def State.alignBlock (s : State) (i : Nat) : Block :=
  BitVec.ofNat 64 (fld (s.lane i).acount 8 16 + fld (laneIndex i) 2 8 + 0x2D)

/-- What the transmitter of a lane sends (R47). -/
inductive LaneTx where
  | train (blk : Block)
  | trainAndAlign (blk : Block)
  | traffic
  | nothing
deriving DecidableEq, Repr

/-- What the transmitter of lane `i` sends now, by the state of the lane (R47); an image lane that is held in DOWN sends nothing (R216). -/
def State.laneSends (s : State) (i : Nat) : LaneTx :=
  if s.laneHeld i then .nothing
  else match (s.lane i).st with
  | .down | .signal | .lock | .train => .train (s.trainBlock i false)
  | .deskew => .trainAndAlign (s.trainBlock i false)
  | .up => .traffic
  | .idle => .nothing

/-- Blocks sent by a lane in `n` core clocks: one lasts 5.28 ns, which is 66/25 clocks (R45). -/
def blocksIn (n : Nat) : Nat := 25 * n / 66

/-- Does an ALIGN pair of lane `i` fall on this clock: after every 64 blocks in DESKEW, after every 4,096 while UP (R47)? -/
def State.alignDue (s : State) (i : Nat) : Bool :=
  let l := s.lane i
  let n : Nat := if l.st = .deskew then 64 else 4096
  (l.st == .deskew || l.st == .up) && decide (l.alignFrom < s.clk)
    && blocksIn (s.clk - l.alignFrom) / n != blocksIn (s.clk - 1 - l.alignFrom) / n

/-- Sends an ALIGN block on lane `i` and counts it (R57). -/
def State.sendAlign (s : State) (i : Nat) : State :=
  (s.emit (.align i (s.alignBlock i))).updLane i (fun l => { l with acount := (l.acount + 1) % 256 })

/-- The ALIGN pairs of this clock, in the order of the lanes (R47). -/
def State.alignTick (s : State) : State :=
  s.forEach (List.range 8) (fun i s => if s.alignDue i then s.sendAlign i else s)

/-- A fast-exit burst on the lanes of a link: 127 TRAIN blocks with FAST = 1, then one ALIGN block (R53). -/
def State.sendBurst (s : State) (l : LinkSel) : State :=
  s.forEach (linkLanes l) (fun i s =>
    (s.emit (.fastExit i (s.trainBlock i true) (s.alignBlock i))).updLane i (fun l => { l with acount := (l.acount + 1) % 256 }))

/-- Signal for 1 µs on a lane in DOWN that is not waiting under R51 (R47). -/
def execLaneSignalDetect (lane : Fin 8) (s : State) : Res :=
  let l := s.lane lane
  whenOn s <| .next (if l.st = .down ∧ l.retryAt = none ∧ ¬ s.laneHeld lane then
    s.updLane lane (fun l => { l with st := .signal, since := s.clk })
  else s)

/-- 64 consecutive valid sync headers (R47). -/
def execBlockLock (lane : Fin 8) (s : State) : Res :=
  whenOn s <| .next (if (s.lane lane).st = .signal then
    s.updLane lane (fun l => { l with st := .lock, since := s.clk, run := 0 })
  else s)

/-- The Timeout column of R47 in core clocks: how long a lane may stay in a state of bring-up. -/
def laneTimeout : LaneSt → Option Nat
  | .signal => some 25000
  | .lock => some 10000
  | .train => some 100000
  | .deskew => some 25000
  | .down | .up | .idle => none

/-- Has a lane been in its state of bring-up for the timeout of that state (R47)? -/
def Lane.timedOut (l : Lane) (clk : Nat) : Bool := (laneTimeout l.st).any (fun n => decide (l.since + n ≤ clk))

/-- The timeout of SIGNAL, LOCK, TRAIN or DESKEW (R47), and the wait after it (R51). The wait is in core clocks. -/
def execLaneBringupTimeout (lane : Fin 8) (s : State) : Res :=
  let l := s.lane lane
  whenOn s <| .next (if l.timedOut s.clk then
    let n := l.fails + 1
    let s1 := (s.updLane lane (fun l => { l.toDown with
      fails := n, retryAt := some (s.clk + if 8 ≤ n then 5000000 else 500000) })).inc Key.BRINGUP_FAIL
    if n = 8 then s1.raise 0x18 lane else s1
  else s)

/-- The wait of R51 is over: the lane starts again from DOWN. -/
def execLaneRetry (lane : Fin 8) (s : State) : Res :=
  whenOn s <| .next (if (s.lane lane).retryAt.any (fun t => decide (t ≤ s.clk)) then
    s.updLane lane (fun l => { l with retryAt := none })
  else s)

/-- TRAIN as the receiver reads it (R48, R56): the block after polarity correction, and whether polarity has to be
inverted; none where it is no TRAIN of version 0x01. -/
def readTrain (inv : Bool) (hdr : BitVec 2) (blk : Block) : Option (Bool × Nat) :=
  let h := if inv then ~~~hdr else hdr
  let b := if inv then ~~~blk else blk
  if h = 2 ∧ b.toNat / 2 ^ 32 = 0x96C35A0F ∧ bits b.toNat 15 0 = 0x0178 then some (inv, b.toNat)
  else if h = 1 ∧ (~~~b).toNat / 2 ^ 32 = 0x96C35A0F ∧ bits (~~~b).toNat 15 0 = 0x0178 then some (!inv, (~~~b).toNat)
  else none

/-- PORT_KIND of a TRAIN block as received, whatever the state of the lane beyond block lock (R48, R102). -/
def Lane.seeKind (i b : Nat) (l : Lane) : Lane :=
  { l with peerKind := bits b 27 26, miswired := !kindPermitted i (bits b 27 26) }

/-- A lane in LOCK that takes a TRAIN: polarity, lane order and PORT_KIND (R48), and the run of R47. -/
def Lane.lockTrain (i clk : Nat) (inv : Bool) (b : Nat) (l : Lane) : Lane :=
  let ln := bits b 25 24
  if ¬ kindPermitted i (bits b 27 26) then { l.seeKind i b with run := 0 }
  else
    let n := if 0 < l.run ∧ inv = l.polInv ∧ ln = l.peerLane then l.run + 1 else 1
    let l1 := { l.seeKind i b with polInv := inv, peerLane := ln, swap := ln != laneIndex i, run := n }
    if n = 16 then { l1 with st := .train, since := clk, ready := 0 } else l1

/-- A lane that has left TRAIN: an image lane is UP, a chain lane waits for its partner (R47). -/
def State.trained (s : State) (i : Nat) : State :=
  if (s.lane i).ready < 8 then s
  else if i < 4 then s.updLane i (fun l => { l with st := .up, fails := 0, alignFrom := s.clk })
  else if (portLanes i).all (fun j => decide ((s.lane j).st = .train) && decide (8 ≤ (s.lane j).ready)) then
    s.forEach (portLanes i) (fun j s => s.updLane j (fun l => { l with
      st := .deskew, since := s.clk, lastSkew := none, alignFrom := s.clk }))
  else s

/-- A TRAIN block on a lane, as its wires carry it (R47, R48, R56). A block that is no acceptable TRAIN breaks the run. -/
def execTrain (lane : Fin 8) (hdr : BitVec 2) (blk : Block) (s : State) : Res :=
  let l := s.lane lane
  whenOn s <| .next (match l.st, readTrain l.polInv hdr blk with
    | .lock, some (inv, b) => s.updLane lane (Lane.lockTrain lane s.clk inv b)
    | .lock, none => s.updLane lane (fun l => { l with run := 0 })
    | .train, some (_, b) =>
      let s1 := s.updLane lane (Lane.seeKind lane b)
      if bit b 23 then (s1.updLane lane (fun l => { l with ready := l.ready + 1 })).trained lane else s1
    | .deskew, some (_, b) | .up, some (_, b) | .idle, some (_, b) => s.updLane lane (Lane.seeKind lane b)
    | _, _ => s)

/-- An ALIGN pair on a chain port shows a skew in blocks (R47, R49, R50); an image lane uses ALIGN for no check (R216). -/
def execAlign (link : LinkSel) (skew : Nat) (s : State) : Res :=
  whenOn s <| .next (match link with
    | .image _ => s
    | .chain p =>
      let ls := linkLanes (.chain p)
      s.forEach ls (fun i t =>
        let l := s.lane i
        if l.st = .deskew then
          if l.lastSkew = some skew ∧ skew ≤ 16 then t.updLane i (fun l => { l with
            st := .up, skew := skew, fails := 0, alignFrom := s.clk })
          else t.updLane i (fun l => { l with lastSkew := some skew })
        else if l.st = .up ∧ l.skew ≠ skew then t.loseLane i
        else t))

/-- An EIDLE block: the lane idles and keeps its corrections (R52). -/
def execEidle (lane : Fin 8) (s : State) : Res :=
  whenOn s <| .next (if (s.lane lane).st = .up then s.updLane lane (fun l => { l with st := .idle }) else s)

/-- A fast-exit burst on a link whose lanes are idle (R53, R54): UP again where block lock came within 64 blocks, the ALIGN
shows the retained skew and REFCLK ran on; otherwise DOWN. -/
def execFastExit (link : LinkSel) (lockBlock : Nat) (skew : Nat) (refclkOk : Bool) (s : State) : Res :=
  let ls := linkLanes link
  whenOn s <| .next (if ls.all (fun i => decide ((s.lane i).st = .idle)) then
    s.forEach ls (fun i t =>
      let keeps : Bool := match link with
        | .image _ => true
        | .chain _ => decide ((s.lane i).skew = skew)
      if refclkOk ∧ lockBlock ≤ 64 ∧ keeps then t.updLane i (fun l => { l with st := .up, alignFrom := s.clk })
      else t.loseLane i)
  else s)

/-- Signal lost for 1 µs on an UP lane (R50). -/
def execLaneLossOfSignal (lane : Fin 8) (s : State) : Res :=
  whenOn s <| .next (if (s.lane lane).st = .up then s.loseLane lane else s)

/-- Control block types valid on a chain port (R55). -/
def chainTypes : List Nat := [0x1E, 0x2D, 0x33, 0x3C, 0x4B, 0x55, 0x5A, 0x66, 0x78]

/-- Control block types that an image lane may receive (R217). -/
def imageTypes : List Nat := [0x1E, 0x2D, 0x33, 0x78, 0x87, 0x99]

/-- A block with a sync header of its own: an invalid header counts toward the 16 within 125 µs (62,500 clocks) that bring an
UP lane DOWN (R50); a control block of an unlisted type is discarded and counted (R55, R217). -/
def execInvalidSyncHeader (lane : Fin 8) (hdr : BitVec 2) (ty : BitVec 8) (s : State) : Res :=
  let l := s.lane lane
  whenOn s <| .next (if l.st ≠ .up then s
    else if hdr = 0 ∨ hdr = 3 then
      let bad := s.clk :: l.bad.filter (fun t => decide (s.clk < t + 62500))
      if 16 ≤ bad.length then s.loseLane lane else s.updLane lane (fun l => { l with bad := bad })
    else if hdr = 2 then
      if lane.val < 4 then (if imageTypes.contains ty.toNat then s else s.inc Key.PACKET_FORMAT)
      else (if chainTypes.contains ty.toNat then s else s.inc Key.KIND_UNKNOWN)
    else s)

/-- Code of a lane state (R102). -/
def LaneSt.code : LaneSt → Nat
  | .down => 0 | .signal => 1 | .lock => 2 | .train => 3 | .deskew => 4 | .up => 5 | .idle => 6

/-- LANE_STATUS (R102). -/
def State.laneStatus (s : State) (i : Nat) : Nat :=
  let l := s.lane i
  fld l.st.code 3 13 + fld (b2n l.polInv) 1 12 + fld (b2n l.swap) 1 11 + fld l.peerKind 2 9 + fld (b2n l.miswired) 1 8 + fld l.skew 5 0

end Sys2Proof.Machine
end

