-- ==== Sys2Proof/WellFormed.lean ====
section
/-! DEFINITION. Which operands spell a command of a row: what the row's own name and the spec's block types fix. Anything
else about the operands (a damaged frame, a wrong serial, a value out of range) is the world's and is judged by the
meaning. -/

namespace Sys2Proof

/-- Block `i` of a frame's payload as a number. -/
def Frame.payload (f : Frame) (i : Nat) : Nat := (f.data.getD i 0).toNat

/-- Frame kinds that a row of their own acts on (R61): POS, TIME, GEYSER, the ENUM kinds but the report, RING, DREQ. -/
def ownKind (k : Nat) : Bool := [0x01, 0x03, 0x04, 0x05, 0x07, 0x08, 0x09, 0x0A].contains k

/-- OP of a RING frame (R90). -/
def ringOp (f : Frame) : Nat := f.payload 0 / 2 ^ 56

/-- CANCEL of a GEYSER frame (R95). -/
def geyserCancelBit (f : Frame) : Bool := f.payload 1 / 2 ^ 60 % 2 == 1

/-- The first block after D0 of a request: the value of a WRITE (R113). -/
def Dreq.val (r : Dreq) : Nat := (r.frame.data.headD 0).toNat

/-- The settings whose write is ENC_CONFIG_WRITE: ENC_INPUT, ENC_INVERT, ENC_EDGE, TEETH, REF_KIND, REF_GAP (R150, R175). -/
def encConfigObject (index sub : Nat) : Bool :=
  (index == 0x2000 && decide (1 ≤ sub) && decide (sub ≤ 3)) || (index == 0x2001 && decide (sub ≤ 2))

/-- The layout objects of the Delay Store (R229). -/
def layoutObject (index sub : Nat) : Bool :=
  (index == 0x2200 && (sub == 0 || sub == 4 || sub == 5 || sub == 7)) || (decide (0x2210 ≤ index) && decide (index ≤ 0x221F) && decide (sub ≤ 2))

/-- The command's operands spell a command of its row. -/
def Instr.wf : Instr → Bool
  | .frameForward k _ => !ownKind k.toNat
  | .probe _ b _ => b.toNat % 256 == 0x3C
  | .pret _ b _ => b.toNat % 256 == 0x5A
  | .cycle p b _ _ => b.toNat % 256 == 0x4B && (b.toNat / 2 ^ 16 % 2 == (match p with | .u => 0 | .d => 1))
  | .geyserArm f => !geyserCancelBit f
  | .geyserCancel f => geyserCancelBit f
  | .ringEnable f => ringOp f == 1
  | .ringDisable f => ringOp f == 2
  | .ringRestore f => ringOp f == 3
  | .encConfigWrite _ i j => encConfigObject i.toNat j.toNat
  | .layoutWrite _ i j => layoutObject i.toNat j.toNat
  | .ssiTestRead r _ => r.val == 1
  | .ssiRecoveryRead r _ => r.all (fun q => q.val == 2)
  | .dmaStart r _ => r.all (fun q => q.val == 1)
  | .dmaPause r _ => r.val == 2
  | .dmaResume r _ => r.val == 3
  | .dmaAbort r _ => r.val == 4
  | .updateInstall r => r.val == 1
  | .updateActivate r => r.val == 2
  | .updateConfirm r => r.val == 3
  | .updateAbort r => r.val == 4
  | .lifecycleAdvance r => r.val == 1
  | .lifecycleRetire r => r.val == 2
  | _ => true

end Sys2Proof
end

