-- ==== Sys2Proof/Machine/Chain.lean ====
section
/-! DEFINITION. Frames on the chain, the chain cycle and chain time, link delay, events, enumeration, ring and Geyser arming
(R58-R99). -/

namespace Sys2Proof.Machine

/-! ## Frames (R58–R63) -/

/-- The other chain port. -/
def otherPort : ChainPort → ChainPort
  | .u => .d
  | .d => .u

/-- Own address (0 when unassigned). -/
def State.addr (s : State) : Nat := s.reg Key.CHAIN_ADDR

/-- The active upstream port (R83). -/
def State.activeUp (s : State) : ChainPort := if s.link.st = .wrapped then .d else .u

/-- SOF bits 63..16 as 6 bytes, then the data blocks, each least significant byte first (R59). -/
def frameBytes (kind : Nat) (f : Frame) : List Nat :=
  leBytes 6 (fld f.seq.toNat 16 32 + fld f.dest.toNat 8 24 + fld f.src.toNat 8 16 + fld kind 5 11
    + fld (b2n f.origin) 1 10 + fld (b2n f.hopmode) 1 9 + fld f.len.toNat 6 3)
  ++ f.data.flatMap (fun b => leBytes 8 b.toNat)

/-- The CRC a frame should carry (R18, R59). -/
def frameCrc (kind : Nat) (f : Frame) : Nat := crc32c (frameBytes kind f)

/-- A frame is damaged when its length is out of range, differs from its data blocks, or its CRC fails (R58, R60). -/
def frameDamaged (kind : Nat) (f : Frame) : Bool :=
  f.len = 0 || decide (32 < f.len.toNat) || decide (f.data.length ≠ f.len.toNat) || decide (f.crc.toNat ≠ frameCrc kind f)

/-- Changes the chain side. -/
def State.updLink (s : State) (f : Link → Link) : State := { s with link := f s.link }

/-- Priority of a frame by its KIND, 0 first (R64). A kind that R64 does not name goes last (log 34). -/
def txPrio (kind : Nat) : Nat :=
  if kind = 0x01 then 0
  else if kind = 0x03 ∨ kind = 0x04 ∨ kind = 0x09 ∨ (0x05 ≤ kind ∧ kind ≤ 0x08) then 1
  else if kind = 0x02 then 2
  else 3

/-- Core clocks that a frame of LEN `n` keeps its port: `n` + 2 blocks of 2.64 ns, which is 33/25 clocks (R46, R58). -/
def frameClocks (n : Nat) : Nat := ceilDiv (33 * (n + 2)) 25

/-- Puts a frame on port `p`. -/
def State.putFrame (s : State) (p : ChainPort) (kind : Nat) (f : Frame) : State :=
  (s.updCport p (fun c => { c with busyTo := s.clk + frameClocks f.len.toNat })).emit (.frame p kind f)

/-- Sends a frame out of port `p`: at once where the port is free and nothing waits, or else when its turn comes (R64, R65). -/
def State.transmit (s : State) (p : ChainPort) (fwd : Bool) (kind : Nat) (f : Frame) : State :=
  if (s.cport p).busyTo ≤ s.clk ∧ (s.cport p).txq = [] then s.putFrame p kind f
  else s.updCport p (fun c => { c with txq := c.txq ++ [⟨txPrio kind, fwd, kind, f⟩] })

/-- Rank of a waiting frame: by priority, and forwarded before own within one (R64). -/
def TxEnt.rank (e : TxEnt) : Nat := 2 * e.prio + b2n (!e.fwd)

/-- The frame of a queue that goes next: the oldest of the lowest rank (R64). -/
def txNext : List TxEnt → Option TxEnt
  | [] => none
  | e :: l => match txNext l with
    | none => some e
    | some x => if x.rank < e.rank then some x else some e

/-- A free port sends the frame whose turn it is (R64). -/
def State.txTick (s : State) (p : ChainPort) : State :=
  if s.linkUp p ∧ (s.cport p).busyTo ≤ s.clk then
    match txNext (s.cport p).txq with
    | none => s
    | some e => (s.updCport p (fun c => { c with txq := c.txq.erase e })).putFrame p e.kind e.frame
  else s

/-- Forwards a frame out of the port it did not arrive on, if that port is UP (R58, R62); PMC event 0x07 (R548). -/
def State.forward (s : State) (kind : Nat) (f : Frame) (stomp : Bool) : State :=
  if s.linkUp (otherPort f.port) then
    (s.pmc 0x07 (match f.port with | .u => 1 | .d => 2) 1).transmit (otherPort f.port) true kind { f with
      port := otherPort f.port, hops := (if f.hops.toNat < 255 then f.hops + 1 else f.hops), stomp := f.stomp || stomp }
  else s

/-- LEN of the listed kinds (R61). -/
def kindLen (kind len : Nat) : Bool :=
  match kind with
  | 0x01 => len == 3 | 0x02 => len == 3 | 0x03 => len == 1 | 0x04 => len == 2 | 0x05 => len == 1
  | 0x06 => len == 2 | 0x07 => len == 2 | 0x08 => len == 1 | 0x09 => len == 2
  | 0x0A => true | 0x0B => true | _ => false

/-- Is a Summit SEQ new (R63)? -/
def Link.seqNew (l : Link) (q : Nat) : Bool :=
  match l.seqHi with
  | none => true
  | some h => let d := diff 16 q h; decide (0 < d) || (decide (-64 ≤ d) && decide (d < 0) && !l.seqSeen.contains q)

/-- Records an accepted Summit SEQ (R63). -/
def Link.seqTake (l : Link) (q : Nat) : Link :=
  match l.seqHi with
  | none => { l with seqHi := some q, seqSeen := [] }
  | some h =>
    if 0 < diff 16 q h then
      { l with seqHi := some q, seqSeen := (h :: l.seqSeen).filter (fun x => decide (-64 ≤ diff 16 x q)) }
    else { l with seqSeen := q :: l.seqSeen }

/-- Empties the SEQ records (R63). -/
def Link.seqClear (l : Link) : Link := { l with seqHi := none, seqSeen := [], posSeq := [] }

/-- What reception of a frame comes to. -/
inductive Rx where
  /-- Discarded or only forwarded. -/
  | pass
  /-- Intact, of a listed kind, and not yet judged by R63: it is neither forwarded nor acted on so far. -/
  | intact
deriving DecidableEq, Repr

/-- Framing, CRC, STOMP, HOPMODE and LEN of an arriving frame (R58, R60, R61). DESIGN CHOICE (log 34): a frame that R58 discards because
HOPMODE stands with another KIND is still forwarded under R62, and no counter counts it. -/
def State.recvCheck (s : State) (kind : Nat) (f : Frame) : State × Rx :=
  if ¬ s.linkUp f.port then (s, .pass)
  else if f.stomp then (s.forward kind f true, .pass)
  else if frameDamaged kind f then
    ((s.inc (match f.port with | .u => Key.CRC_ERR_U | .d => Key.CRC_ERR_D)).forward kind f true, .pass)
  else if f.hopmode ∧ kind ≠ 0x07 then (s.forward kind f false, .pass)
  else if ¬ kindLen kind f.len.toNat then ((s.inc Key.KIND_UNKNOWN).forward kind f false, .pass)
  else (s, .intact)

/-- A frame from the Summit for `mine` (this unit alone) or for every unit: taken once per SEQ (R62, R63). The Bool says whether
the unit acts on it. -/
def State.recvSummit (s : State) (kind : Nat) (f : Frame) (mine all : Bool) : State × Bool :=
  match s.recvCheck kind f with
  | (s1, .pass) => (s1, false)
  | (s1, .intact) =>
    if ¬ f.origin ∨ ¬ (mine ∨ all) then (s1.forward kind f false, false)
    else if ¬ s1.link.seqNew f.seq.toNat then ((s1.inc Key.DUP_DISCARD).forward kind f false, false)
    else
      let s2 := { s1 with link := s1.link.seqTake f.seq.toNat }
      (if mine then s2 else s2.forward kind f false, true)

/-- A kind that every unit acts on, sent by broadcast or to this unit (R61, R62). -/
def State.recvAll (s : State) (kind : Nat) (f : Frame) : State × Bool :=
  let mine : Bool := f.dest.toNat == s.addr && decide (s.addr ≠ 0)
  s.recvSummit kind f mine (f.dest == 255)

/-- A frame of the unit's own, out of port `p` if it is UP (R58, R61). -/
def State.sendFrame (s : State) (p : ChainPort) (kind seq dest : Nat) (data : List Block) : State :=
  if s.linkUp p then
    let f : Frame := ⟨p, BitVec.ofNat 16 seq, BitVec.ofNat 8 dest, BitVec.ofNat 8 s.addr, false, false,
      BitVec.ofNat 6 data.length, 0, data, 0, false⟩
    s.transmit p false kind { f with crc := BitVec.ofNat 32 (frameCrc kind f) }
  else s

/-- Takes the next SEQ of the unit. -/
def State.nextSeq (s : State) : State × Nat :=
  ({ s with link := { s.link with txSeq := (s.link.txSeq + 1) % 2 ^ 16 } }, s.link.txSeq)

/-- A frame of a kind the unit does not act on: EVENT, ENUM_REPORT, DRSP or an unknown kind, forwarded, checked and counted
(R58–R62). -/
def State.passFrame (s : State) (kind : Nat) (f : Frame) : State :=
  match s.recvCheck kind f with
  | (s1, .pass) => s1
  | (s1, .intact) => s1.forward kind f false

/-- The EOF of a frame has not come within 64 port blocks, or a block that may not stand in a frame came first: the unit ends
the forwarded frame with STOMP 1 and CRC 0 and counts it (R58). -/
def execFrameEofTimeout (p : ChainPort) (s : State) : Res :=
  whenClocked s <| .next (if s.linkUp p then
    let s1 := s.inc (match p with | .u => Key.CRC_ERR_U | .d => Key.CRC_ERR_D)
    if s1.linkUp (otherPort p) then s1.emit (.stompEnd (otherPort p)) else s1
  else s)

/-! ## Chain ports (R63, R88–R94) -/

/-- Are reverse CYCLE copies arriving: has one arrived within the last 1,600 ct (R88, R91)? -/
def State.revArriving (s : State) : Bool :=
  match s.link.lastRev with
  | none => false
  | some t => decide (s.ct < t + 1600)

/-- A lane of a chain port is neither UP nor IDLE: an idle lane keeps its link (R52, R53). -/
def State.linkLost (s : State) (p : ChainPort) : Bool :=
  (linkLanes (.chain p)).any (fun i => decide ((s.lane i).st ≠ .up) && decide ((s.lane i).st ≠ .idle))

/-- DETACHED: waiting DRSP frames are discarded, events are kept (R88). -/
def State.detach (s : State) : State :=
  let drop := fun (c : PortLink) => { c with txq := c.txq.filter (fun e => e.kind != 0x0B) }
  ((s.updCport .u drop).updCport .d drop).updLink (fun l => { l with st := .detached, wrapArmed := false, wrapDue := false })

/-- The unit is cut off from the Summit: its U port is DOWN and no reverse copies arrive in a ring (R88, R94). -/
def State.cutOff (s : State) : Bool :=
  !(s.cport .u).up && s.linkLost .u && !(s.flag Key.RING_MODE && s.revArriving)
    && s.link.st != .down && s.link.st != .detached

/-- A chain port goes DOWN (R88, R91, R92, R94); what waited to be sent on it is lost. For a U port that is DOWN already, the command is the
instant at which the last reverse copy is 1,600 ct old: the unit is isolated from both sides (R94). -/
def execChainPortDown (p : ChainPort) (s : State) : Res :=
  whenOn s <| .next (if (s.cport p).up ∧ s.linkLost p then
    let s1 := s.updCport p (fun c => { c with up := false, probes := [], txq := [] })
    match p with
    | .d =>
      let s2 := s1.event 0x30 0 0
      if s2.link.st = .wrapped ∧ ¬ s2.linkUp .u then s2.detach else s2
    | .u =>
      if s1.cutOff ∧ s1.link.st ≠ .wrapped then s1.detach
      else if s1.link.st = .wrapped ∨ s1.link.st = .down ∨ s1.link.st = .detached then s1
      else s1.updLink (fun l => { l with wrapArmed := true })
  else if p = .u ∧ s.cutOff then s.detach
  else s)

/-- A chain port comes UP (R47, R63, R88, R89, R92). A first UP of the U port is entry to ATTACHED, code 4. -/
def execChainPortUp (p : ChainPort) (s : State) : Res :=
  whenOn s <| .next (if ¬ (s.cport p).up ∧ s.linkUp p then
    let again := (s.cport p).was
    let s1 := s.updCport p (fun c => { c with up := true, was := true, probedIn := none })
    match p with
    | .d => if again then s1.event 0x30 1 0 else s1
    | .u =>
      let s2 := if s1.addr = 0 then s1.updLink (fun l => { l with reportDue := true }) else s1
      match s2.link.st with
      | .down => (s2.updLink (fun l => { l.seqClear with st := .attached })).event 0x30 4 0
      | .detached =>
        (s2.updLink (fun l => { l.seqClear with
          st := if s2.addr = 0 then .attached else .enumerated, errs := [], aligned := 0, wrapArmed := false })).event 0x30 1 0
      | _ => (s2.updLink (fun l => { l with wrapArmed := false })).event 0x30 1 0
  else s)

/-! ## Link delay (R69, R70) -/

/-- L of a port: the mean of the last 64 samples halved, with the asymmetry trim, which is in ps (R70). The rounding is not
stated (log 10). -/
def linkDelay (up : Bool) (samples : List Int) (asym : Int) : Int :=
  let n : Int := samples.length
  if samples.isEmpty then 0
  else
    let a := 250 * isum samples + n * asym
    let b := 500 * n
    let q := a.fdiv b
    if q * b = a then q else if up then q + 1 else q

/-- Puts L of port `p` into its object. -/
def State.setDelay (s : State) (p : ChainPort) : State :=
  let key := match p with | .u => Key.LINK_DELAY_U | .d => Key.LINK_DELAY_D
  let asym := match p with | .u => s.regI Key.ASYM_U | .d => s.regI Key.ASYM_D
  s.setRegI key (linkDelay (Config.roundUp (s.cport p).samples asym) (s.cport p).samples asym)

/-- L of the port. -/
def State.delayOf (s : State) (p : ChainPort) : Nat :=
  s.reg (match p with | .u => Key.LINK_DELAY_U | .d => Key.LINK_DELAY_D)

/-- Sends the PROBE of a chain cycle on an UP port; on D only in a ring (R69). -/
def execProbeSend (p : ChainPort) (phase : Fin 8) (s : State) : Res :=
  whenClocked s <| .next (if s.linkUp p ∧ (p = .u ∨ s.flag Key.RING_MODE) ∧ (s.cport p).probedIn ≠ some (s.ct / 500) then
    let q := (s.cport p).pseq
    (s.updCport p (fun c => { c with
      probes := (⟨q, s.at8 phase, s.clk⟩ :: c.probes).take 256, pseq := (q + 1) % 256, probedIn := some (s.ct / 500) })).emit
      (.block p (BitVec.ofNat 64 (fld q 8 8 + 0x3C)))
  else s)

/-- A PROBE arrives: the unit answers with its PSEQ and the residence in 1/8 ct (R57, R69). -/
def execProbe (p : ChainPort) (blk : Block) (residence : Nat) (s : State) : Res :=
  whenClocked s <| .next (if s.linkUp p then
    s.emit (.block p (BitVec.ofNat 64 (fld residence 24 40 + fld (bits blk.toNat 15 8) 8 8 + 0x5A)))
  else s)

/-- A PRET arrives (R69, R70); after 2 µs it is ignored. -/
def execPret (p : ChainPort) (blk : Block) (phase : Fin 8) (s : State) : Res :=
  whenClocked s <| .next (match (s.cport p).probes.find? (fun r => r.pseq == bits blk.toNat 15 8) with
    | none => s
    | some r =>
      if s.linkUp p ∧ s.clk ≤ r.sent + 1000 then
        let x : Int := (s.at8 phase : Int) - (r.t1 : Int) - (bits blk.toNat 63 40 : Int)
        (s.updCport p (fun c => { c with probes := c.probes.erase r, samples := (x :: c.samples).take 64 })).setDelay p
      else s)

/-- Probes 2 µs old whose PRET has not come: it will be ignored (R69). -/
def execPretTimeout (p : ChainPort) (s : State) : Res :=
  whenClocked s <| .next (s.updCport p (fun c => { c with probes := c.probes.filter (fun r => decide (s.clk ≤ r.sent + 1000)) }))

/-! ## The chain cycle (R66–R73) -/

/-- n in full: congruent to CYC modulo 2^20 and nearest to `ref` (R68). -/
def resolveCycle (cyc ref : Nat) : Nat :=
  let d := diff 20 cyc ref
  let n : Int := (ref : Int) + d
  (if n < 0 then n + 2 ^ 20 else n).toNat

/-- The chain time is stepped or slewed by error `e` of this CYCLE, with the 16-cycle mean `errs` that includes it (R71–R73). The
slew is taken by the next core clock. DESIGN CHOICE (log 34): while fewer than 16 cycles have been measured since the start or since a step,
the mean is that of the cycles there are, and the unit already steps and slews on it. -/
def State.steer (s : State) (e : Int) : State :=
  let errs := (e :: s.link.errs).take 16
  let n : Int := errs.length
  let sum := isum errs
  let m := imean errs
  let big := 32 * n < (iabs sum : Int)
  let aligned := if (iabs sum : Int) ≤ 2 * n then s.link.aligned + 1 else 0
  let mis := if 16 * n < (iabs sum : Int) then s.link.misaligned + 1 else 0
  let s1 := (s.setRegI Key.CT_ERROR m).updLink (fun l => { l with errs := errs, aligned := aligned, misaligned := mis })
  let s2 := if mis = 0 then s1.cause 0x19 0 false 0 else s1
  if big ∧ ¬ s.armed then
    if 0 < m then s2.updLink (fun l => { l with ct8 := l.ct8 + e.toNat, errs := [] })
    else s2.updLink (fun l => { l with hold8 := l.hold8 + iabs m, errs := [] })
  else if 0 < m ∧ 0 < e then s2.updLink (fun l => { l with slew := l.slew + 1 })
  else if m < 0 ∧ e < 0 then s2.updLink (fun l => { l with slew := l.slew - 1 })
  else s2

/-- Time from a CYCLE block on the active upstream port (R68, R71, R72). While a backward step still holds the counter, the error is not
measured: the 16-cycle mean starts again after the step (R72). -/
def State.takeTime (s : State) (acc cyc phase : Nat) (l : Nat) : State :=
  let ref := s.link.timeN.getD (s.ct / 500)
  let true8 : Nat := 4000 * resolveCycle cyc ref + acc + l
  if s.link.ctValid ∧ 0 < s.link.hold8 then s.updLink (fun k => { k with timeN := none })
  else if s.link.ctValid then
    (s.updLink (fun k => { k with timeN := none })).steer ((true8 : Int) - (s.at8 phase : Int))
  else
    match s.link.timeN with
    | none => s
    | some _ => s.updLink (fun k => { k with
        ct8 := true8 - phase, ctValid := true, timeN := none, errs := [], aligned := 0, misaligned := 0, hold8 := 0, slew := 0 })

/-- GVALID for a bank in EMPTY: its arming was lost (R98). -/
def State.geyserCheck (s : State) (valid : Bool) (b : Nat) : State :=
  if valid ∧ (s.bank b).st = .empty then (s.updBank b (fun k => { k with st := .missed })).inc Key.GEYSER_MISSED else s

/-- A CYCLE block arrives at a port at `phase` of the clock and leaves the other port `residence` 1/8 ct later
(R66–R73, R91, R98). A copy with REV = 0 travels from U to D and one with REV = 1 from D to U; a copy that arrives against its direction of
travel is not forwarded and is no copy of either path. DESIGN CHOICE (log 34): HOPS of a forwarded CYCLE saturates at 255. -/
def execCycle (p : ChainPort) (blk : Block) (phase : Fin 8) (residence : Nat) (s : State) : Res :=
  let b := blk.toNat
  let acc := bits b 63 40
  let l := s.delayOf p
  let q := otherPort p
  let hops := bits b 15 8
  whenClocked s <| .next (if ¬ s.linkUp p ∨ bit b 16 ≠ decide (p = .d) then s else
    let s1 := if s.linkUp q then
        s.emit (.block q (BitVec.ofNat 64 (fld (acc + l + residence) 24 40 + bits b 39 16 * 2 ^ 16
          + fld (min 255 (hops + 1)) 8 8 + 0x4B)))
      else s
    let s2 := s1.geyserCheck (bit b 19) (bits b 18 17)
    let s3 : State := match p with
      | .u => s2.updLink (fun k => { k with lastFwd := some s.ct, wrapArmed := false })
      | .d =>
        let arm : Bool := s.flag Key.RING_MODE && s.link.st == .detached
        s2.updLink (fun k => { k with
          lastRev := some s.ct, wrapDue := k.wrapDue || k.wrapArmed, wrapArmed := k.wrapArmed || arm })
    let s4 : State := match p with
      | .u => if s.activeUp = ChainPort.u then s3.setReg Key.ACC_DELAY_F (acc + l) else s3
      | .d => if s.activeUp = ChainPort.d ∨ s.flag Key.RING_MODE then s3.setReg Key.ACC_DELAY_R (acc + l) else s3
    if s.activeUp = p then
      (s4.takeTime acc (bits b 39 20) phase l).updLink (fun k => { k with
        posDue := some (resolveCycle (bits b 39 20) (s.link.timeN.getD (s.ct / 500))) })
    else s4)

/-- ENUMERATED with an address and 16 aligned cycles: ACTIVE (R73). -/
def execChainActive (s : State) : Res :=
  whenClocked s <| .next (if s.link.st = .enumerated ∧ s.addr ≠ 0 ∧ 16 ≤ s.link.aligned then
    s.updLink (fun l => { l with st := .active })
  else s)

/-- |mean e| above 2 ct for 64 consecutive cycles: chain-time-misaligned (R73); suspended after a wake (R542). -/
def execChainTimeMisaligned (s : State) : Res :=
  whenClocked s <| .next (if 64 ≤ s.link.misaligned ∧ s.power.quietTo ≤ s.clk then s.cause 0x19 0 true 0 else s)

/-- TIME: 500·n in ct, for the next CYCLE (R68, R72). -/
def execTime (f : Frame) (s : State) : Res :=
  whenClocked s <| .next (match s.recvAll 0x03 f with
    | (s1, false) => s1
    | (s1, true) => s1.updLink (fun l => { l with timeN := some (f.payload 0 / 500) }))

/-! ## Geyser (R95–R99) -/

/-- Has the target of bank `b` been reached, when it is `tgt` (R96)? -/
def State.geyserReached (s : State) (byPos : Bool) (tgt : Nat) : Bool :=
  if byPos then atOrAhead 48 s.derived tgt s.revNow else decide (tgt ≤ s.ct)

/-- Does the ARMED bank `b` latch on this clock: chain time is at or after TARGET, or the derived position has reached or passed it since
the clock before in the direction of travel (R97)? -/
def State.latchDue (s : State) (b : Nat) : Bool :=
  let k := s.bank b
  let tgt := s.reg (Key.GEYSER_TARGET b)
  let old := diff 48 k.prev tgt
  let now := diff 48 s.derived tgt
  k.st == .armed && (if k.byPos then
      decide (now = 0) || (if s.revNow then decide (0 < old ∧ now < 0) else decide (old < 0 ∧ 0 < now))
    else decide (tgt ≤ s.ct))

/-- The derived position of this clock becomes that of the clock before, for every bank (R97). -/
def State.geyserTick (s : State) : State :=
  { s with banks := s.banks.map (fun e => (e.1, if e.2.st = .armed then { e.2 with prev := s.derived } else e.2)) }

/-- What a GEYSER frame does (R95, R96, R99). With CANCEL an ARMED bank returns to EMPTY, unless it latches on this clock: then the latch
wins. Otherwise the bank is armed, or MISSED when the target has been reached. DESIGN CHOICE (log 34): an arming that finds its target
reached leaves the words, GEYSER_TARGET and GEYSER_TAKEN_CT of the bank as they are, and one that arms keeps GEYSER_TAKEN_CT. -/
def State.geyser (s : State) (d0 d1 : Nat) : State :=
  let b := bits d1 63 62
  if bit d1 60 then
    if (s.bank b).st = .armed ∧ ¬ s.latchDue b then s.updBank b (fun k => { k with st := .empty }) else s
  else
    let byPos := bit d1 61
    let tgt := if byPos then d0 % 2 ^ 48 else d0
    if s.geyserReached byPos tgt then s.updBank b (fun k => { k with st := .missed })
    else (s.updBank b (fun _ => { st := .armed, byPos := byPos, prev := s.derived, words := [] })).setReg (Key.GEYSER_TARGET b) tgt

/-- A GEYSER frame arrives (R61, R96). -/
def State.recvGeyser (s : State) (f : Frame) : State :=
  match s.recvAll 0x04 f with
  | (s1, false) => s1
  | (s1, true) => s1.geyser (f.payload 0) (f.payload 1)

/-- GEYSER without CANCEL (R96, R99); CANCEL is a bit of the frame. -/
def execGeyserArm (f : Frame) (s : State) : Res := whenClocked s <| .next (s.recvGeyser f)

/-- GEYSER with CANCEL (R96, R99). -/
def execGeyserCancel (f : Frame) (s : State) : Res := whenClocked s <| .next (s.recvGeyser f)

/-! ## Enumeration (R84–R89) -/

/-- D0 and D1 of ENUM_REPORT (R86). -/
def State.enumReport (s : State) (unsolicited : Bool) : List Block :=
  let dSummit : Bool := s.linkUp .d && decide ((s.lane 6).peerKind = 3)
  let tail : Bool := !s.linkUp .d || dSummit
  [BitVec.ofNat 64 s.ident.serial,
   BitVec.ofNat 64 (fld (s.reg Key.CHAIN_HOP) 8 56 + fld (s.reg Key.STICKY_ADDR) 8 48 + fld s.addr 8 40
     + fld s.ident.part.code 8 32 + fld (b2n tail) 1 31 + fld (b2n dSummit) 1 30 + fld (b2n s.armed) 1 29
     + fld (b2n unsolicited) 1 28)]

/-- Sends ENUM_REPORT on the active upstream port (R61, R83, R85), once start-up is complete (R558). -/
def State.sendReport (s : State) (unsolicited : Bool) : State :=
  if s.boot.phase ≠ .running then s
  else
    let d := s.enumReport unsolicited
    let (s1, q) := s.nextSeq
    s1.sendFrame s1.activeUp 0x06 q 0 d

/-- ENUM_DISCOVER received at U: the hop is taken and reported (R85); at hop 255 the unit has no address (R87). A copy that comes at D in a
ring is only forwarded and takes no SEQ, since the unit does not act on it (R63, R85). DESIGN CHOICE (log 34): an enumeration counts as in
progress (R89) from an ENUM_DISCOVER that this unit has received at U. -/
def execEnumDiscover (f : Frame) (s : State) : Res :=
  whenClocked s <| .next (if f.port = .d then s.passFrame 0x05 f else
    match s.recvAll 0x05 f with
    | (s1, false) => s1
    | (s1, true) =>
      let hop := min 255 (f.hops.toNat + 1)
      let s2 := (s1.setReg Key.CHAIN_HOP hop).updLink (fun l => { l with enumerating := true })
      (if hop = 255 then s2.setReg Key.CHAIN_ADDR 0 else s2).sendReport false)

/-- ENUM_ASSIGN for this hop and serial: the address is taken at once, unless firing is armed and it would change
(R85–R87). DESIGN CHOICE (log 34): with ADDR 0 or 255, which R86 does not allow, the frame is consumed, nothing changes and no report is
sent. -/
def execEnumAssign (f : Frame) (s : State) : Res :=
  let hop := s.reg Key.CHAIN_HOP
  let mine : Bool := f.hopmode && f.dest.toNat == hop && decide (hop ≠ 0) && decide (hop ≠ 255)
  whenClocked s <| .next (match s.recvSummit 0x07 f mine false with
    | (s1, false) => s1
    | (s1, true) =>
      let a := bits (f.payload 1) 63 56
      if f.payload 0 ≠ s1.ident.serial ∨ a = 0 ∨ a = 255 then s1
      else if s1.armed ∧ a ≠ s1.addr then s1.sendReport false
      else
        let s2 := s1.setReg Key.CHAIN_ADDR a
        let s3 := if bit (f.payload 1) 55 then s2.updLink (fun l => { l with sticky := some a }) else s2
        s3.sendReport false)

/-- ENUM_DONE: an addressed unit is ENUMERATED (R85, R89). -/
def execEnumDone (f : Frame) (s : State) : Res :=
  whenClocked s <| .next (match s.recvAll 0x08 f with
    | (s1, false) => s1
    | (s1, true) => s1.updLink (fun l => { l with
        enumerating := false
        st := if s1.addr ≠ 0 ∧ (l.st = .attached ∨ l.st = .active) then .enumerated else l.st }))

/-- A unit without address, aligned, and no enumeration in progress: one unsolicited report (R89). -/
def execUnsolicitedEnumReport (s : State) : Res :=
  whenClocked s <| .next (if s.link.reportDue ∧ s.addr = 0 ∧ s.link.ctValid ∧ ¬ s.link.enumerating ∧ s.boot.phase = .running then
    (s.updLink (fun l => { l with reportDue := false })).sendReport true
  else s)

/-! ## Ring (R90–R93) -/

/-- What a RING frame does: 1 ENABLE, 2 DISABLE, 3 RESTORE at SWITCH_CT (R90, R93). No rule gives another OP an effect (log 34). -/
def State.ring (s : State) (op switchCt : Nat) : State :=
  match op with
  | 1 => s.setReg Key.RING_MODE 1
  | 2 => (s.setReg Key.RING_MODE 0).updLink (fun l => { l with wrapArmed := false, wrapDue := false })
  | 3 => s.updLink (fun l => { l with switchCt := some switchCt })
  | _ => s

/-- A RING frame arrives (R61, R90). -/
def State.recvRing (s : State) (f : Frame) : State :=
  match s.recvAll 0x09 f with
  | (s1, false) => s1
  | (s1, true) => s1.ring (ringOp f) (f.payload 1)

/-- RING with OP = 1 (R90); OP is a field of the frame. -/
def execRingEnable (f : Frame) (s : State) : Res := whenClocked s <| .next (s.recvRing f)

/-- RING with OP = 2 (R90). -/
def execRingDisable (f : Frame) (s : State) : Res := whenClocked s <| .next (s.recvRing f)

/-- RING with OP = 3 and SWITCH_CT (R93). -/
def execRingRestore (f : Frame) (s : State) : Res := whenClocked s <| .next (s.recvRing f)

/-- SWITCH_CT is reached: a wrapped unit whose U port is UP returns to it (R93). DESIGN CHOICE (log 34): its chain state is then ACTIVE, or
ATTACHED where it has no address. -/
def execRestoreSwitch (s : State) : Res :=
  whenOn s <| .next (match s.link.switchCt with
    | none => s
    | some t =>
      if s.ct < t then s
      else
        let s1 := s.updLink (fun l => { l with switchCt := none })
        if s1.link.st = .wrapped ∧ s1.linkUp .u then
          (s1.updLink (fun l => { l with st := if s1.addr = 0 then .attached else .active })).event 0x30 3 0
        else s1)

/-- No forward CYCLE copy for 1,600 ct in a ring whose reverse copies arrive: the unit will wrap (R91). -/
def execForwardCycleTimeout (s : State) : Res :=
  let late : Bool := match s.link.lastFwd with
    | none => true
    | some t => decide (t + 1600 ≤ s.ct)
  whenClocked s <| .next (if s.flag Key.RING_MODE ∧ s.link.st ≠ .wrapped ∧ s.link.st ≠ .down ∧ late ∧ s.revArriving then
    s.updLink (fun l => { l with wrapArmed := true })
  else s)

/-- The reverse copy after the wrap condition has come: the unit is WRAPPED (R91). -/
def execWrap (s : State) : Res :=
  whenClocked s <| .next (if s.link.wrapDue ∧ s.flag Key.RING_MODE ∧ s.link.st ≠ .wrapped then
    ((s.updLink (fun l => { (if l.st = .detached then l.seqClear else l) with
      st := .wrapped, wrapDue := false, wrapArmed := false })).event 0x30 2 0).inc Key.WRAP_COUNT
  else s.updLink (fun l => { l with wrapDue := false }))

/-! ## Own events (R64, R79–R81) -/

/-- The three blocks of an EVENT (R79). -/
def eventBlocks (e : Event) : List Block :=
  [BitVec.ofNat 64 e.stamp, BitVec.ofNat 64 (fld e.pos 48 16),
   BitVec.ofNat 64 (fld e.cls 8 56 + fld e.code 16 40 + fld e.arg 32 8)]

/-- The allowance of R81 permits an event, and the chain is there to take it. -/
def State.eventReady (s : State) : Bool :=
  !s.link.events.isEmpty && decide (16 ≤ s.link.tok16) && decide (s.link.st ≠ .down) && decide (s.link.st ≠ .detached)

/-- Sends the oldest own event on both ports with its one SEQ (R81, R88). -/
def execEventSend (s : State) : Res :=
  whenClocked s <| .next (if s.eventReady then
    match s.link.events with
    | [] => s
    | e :: es =>
      let s1 := s.updLink (fun l => { l with events := es, tok16 := l.tok16 - 16 })
      (s1.sendFrame .u 0x02 e.seq 0 (eventBlocks e)).sendFrame .d 0x02 e.seq 0 (eventBlocks e)
  else s)

/-- Room has returned after events were lost: class 0x30 code 5 (R81). -/
def execEventLostNotice (s : State) : Res :=
  whenClocked s <| .next (if s.link.eventsLost ∧ s.link.events.length < 64 then
    (s.updLink (fun l => { l with eventsLost := false })).event 0x30 5 0
  else s)

/-- CHAIN_STATE (R101). -/
def ChainSt.code : ChainSt → Nat
  | .down => 0 | .attached => 1 | .enumerated => 2 | .active => 3 | .wrapped => 4 | .detached => 5

/-- GEYSER_STATE (R101). -/
def BankSt.code : BankSt → Nat
  | .empty => 0 | .armed => 1 | .taken => 2 | .missed => 3

end Sys2Proof.Machine
end

