-- ==== Sys2Proof/Machine/Answer.lean ====
section
/-! DEFINITION. Requests as they stand on the wire and the answers to them: status codes, the DREQ and DRSP frames, the counters of
answers, broadcasts, the record of the last sealed request (R112-R119, R135, R144). -/

namespace Sys2Proof.Machine

/-! ## Status codes (R119) -/

namespace St
abbrev OK : Nat := 0x00
abbrev OK_PENDING : Nat := 0x01
abbrev NO_OBJECT : Nat := 0x10
abbrev NO_SUBINDEX : Nat := 0x11
abbrev READ_ONLY : Nat := 0x12
abbrev WRITE_ONLY : Nat := 0x13
abbrev TYPE_MISMATCH : Nat := 0x14
abbrev RANGE : Nat := 0x15
abbrev STATE : Nat := 0x16
abbrev SEAL_REQUIRED : Nat := 0x17
abbrev SEAL_UNEXPECTED : Nat := 0x18
abbrev SEAL_BAD_TAG : Nat := 0x19
abbrev SEAL_REPLAY : Nat := 0x1A
abbrev SEAL_HOLD : Nat := 0x1B
abbrev SEAL_EXHAUSTED : Nat := 0x1C
abbrev LIFECYCLE : Nat := 0x1D
abbrev GROUP_FULL : Nat := 0x20
abbrev GROUP_CLASS : Nat := 0x21
abbrev GROUP_FAILED : Nat := 0x22
abbrev GROUP_NOT_OPEN : Nat := 0x23
abbrev DOMAIN_NOT_OPEN : Nat := 0x30
abbrev DOMAIN_OFFSET : Nat := 0x31
abbrev DOMAIN_CHECK : Nat := 0x32
abbrev DOMAIN_BUSY : Nat := 0x33
abbrev BUSY : Nat := 0x40
abbrev CALDERA_DOWN : Nat := 0x41
abbrev TIMEOUT : Nat := 0x42
abbrev BAD_REQUEST : Nat := 0x50
abbrev LEN_ERROR : Nat := 0x51
end St

/-- OP codes (R113). -/
def Op.code : Op → Nat
  | .read => 1 | .write => 2 | .groupClose => 3 | .groupAbort => 4 | .domOpen => 5 | .domWrite => 6 | .domCommit => 7 | .domAbort => 8
  | .domRead => 9 | .commitNow => 10 | .unlisted n => n

/-- The operation of an OP field (R113). -/
def opOf : Nat → Op
  | 1 => .read | 2 => .write | 3 => .groupClose | 4 => .groupAbort | 5 => .domOpen | 6 => .domWrite | 7 => .domCommit | 8 => .domAbort
  | 9 => .domRead | 10 => .commitNow | n => .unlisted n

/-- What R113 says of each operation. -/
def Op.sealable : Op → Bool
  | .write | .domOpen | .domWrite | .domCommit | .domAbort => true
  | _ => false
def Op.grouped : Op → Bool
  | .write | .domCommit => true
  | _ => false
def Op.namesGroup : Op → Bool
  | .groupClose | .groupAbort => true
  | _ => false
def Op.noObject : Op → Bool
  | .groupClose | .groupAbort | .commitNow => true
  | _ => false
def Op.domain : Op → Bool
  | .domOpen | .domWrite | .domCommit | .domAbort | .domRead => true
  | _ => false
def Op.reads : Op → Bool
  | .read | .domRead => true
  | _ => false
def Op.listed : Op → Bool
  | .unlisted _ => false
  | _ => true
def Op.broadcasts : Op → Bool
  | .write | .groupClose | .groupAbort | .commitNow => true
  | _ => false

/-- A request with what its row says of it: OP, INDEX, SUB. -/
structure Req where
  r : Dreq
  op : Op
  index : Nat
  sub : Nat
deriving DecidableEq, Repr

/-- Key of the object that a request names. -/
def Req.key (q : Req) : Nat := q.index * 256 + q.sub

/-- D0 of the request (R112). -/
def Req.d0 (q : Req) : Nat :=
  fld q.op.code 4 60 + fld q.r.tag.toNat 8 52 + fld q.index 16 36 + fld q.sub 8 28 + fld q.r.group.toNat 4 24 + fld q.r.ty.toNat 4 20
    + b2n q.r.sealed * 2 ^ 19 + b2n q.r.shadow * 2 ^ 18 + fld q.r.count.toNat 5 13 + fld q.r.rsv.toNat 13 0

/-- The whole DREQ frame. -/
def Req.frame (q : Req) : Frame := { q.r.frame with data := BitVec.ofNat 64 q.d0 :: q.r.frame.data }

/-- A broadcast (R117). -/
def Req.bcast (q : Req) : Bool := q.r.frame.dest == 255

/-- Blocks after D0 without the seal blocks (R113, R114). -/
def Req.blocks (q : Req) : List Nat :=
  let l := q.r.frame.data.map BitVec.toNat
  if q.r.sealed then l.take (l.length - 2) else l

/-- S0 and S1 (R114). -/
def Req.seal (q : Req) : Nat × Nat :=
  let l := (q.r.frame.data.map BitVec.toNat).reverse
  (l.getD 1 0, l.getD 0 0)

/-- Sequence number (R114). -/
def Req.seqNo (q : Req) : Nat := bits q.seal.1 63 32

/-- LENGTH and IMAGE_CRC of DOM_OPEN; OFFSET and NWORDS of DOM_WRITE and DOM_READ (R113). -/
def Req.d1 (q : Req) : Nat := q.blocks.headD 0
def Req.d1Hi (q : Req) : Nat := bits q.d1 63 32
def Req.d1Lo (q : Req) : Nat := bits q.d1 31 0
def Req.nwords (q : Req) : Nat := bits q.d1 31 27

/-- What a request is answered with (R116). -/
structure Reply where
  status : Nat
  again : Bool := false
  late : Bool := false
  data : List Block := []
deriving DecidableEq, Repr

/-- OK and OK_PENDING. -/
def stGood (st : Nat) : Bool := st == St.OK || st == St.OK_PENDING

/-- D0 of DRSP (R116). -/
def drspD0 (q : Req) (p : Reply) : Nat :=
  fld q.op.code 4 60 + fld q.r.tag.toNat 8 52 + fld q.index 16 36 + fld q.sub 8 28 + fld p.status 8 20 + b2n p.again * 2 ^ 19 + b2n p.late * 2 ^ 18

/-- Counts an answer (R144, R548, R549). -/
def State.countAnswer (s : State) (q : Req) (st : Nat) : State :=
  let s1 := s.inc Key.REQ_COUNT
  let s2 := if stGood st then s1 else s1.inc Key.REQ_ERRORS
  let s3 := if st = St.BUSY then s2.inc Key.BUSY_COUNT else s2
  (s3.pmc 0x06 0 1).traceRec 0x05 (fld q.op.code 4 52 + fld st 8 44 + fld q.index 16 24 + fld q.sub 8 16)

/-- A DRSP on the active upstream port, with ACCEPT_CT `acc` (R116, R118). -/
def State.answer (s : State) (q : Req) (p : Reply) (acc : Nat) : State :=
  let s1 := s.countAnswer q p.status
  let n := s1.nextSeq
  n.1.sendFrame n.1.activeUp 0x0B n.2 0 (BitVec.ofNat 64 (drspD0 q p) :: BitVec.ofNat 64 acc :: p.data)

/-- A broadcast that the unit refuses or ignores is counted (R117). -/
def State.bcastDone (s : State) (st : Nat) : State :=
  if stGood st then s else (s.inc Key.BCAST_REFUSED).setReg Key.BCAST_LAST_STATUS st

/-- The end of a request: a sealed one whose number was consumed, and is still the last one accepted, is remembered with its result (R135);
a broadcast is not answered (R117). -/
def State.finish (s : State) (q : Req) (took : Bool) (p : Reply) (acc : Nat) : State :=
  let s1 := if took ∧ q.seqNo = s.reg Key.SEAL_LAST then { s with dict := { s.dict with
      lastSealed := some ⟨q.seqNo, BitVec.ofNat 64 q.d0, q.r.frame.data, p.status, p.late⟩ } } else s
  if q.bcast then s1.bcastDone p.status else s1.answer q p acc

/-- A refused entry poisons an OPEN group and opens a FREE one POISONED (R122). -/
def State.poison (s : State) (g : Nat) : State :=
  match (s.group g).st with
  | .opened => s.updGroup g (fun r => { r with st := .poisoned })
  | .poisoned => s
  | .closed => s
  | _ => s.updGroup g (fun _ => { st := .poisoned, since := s.ct })

/-- The end of a request: a refused grouped WRITE or DOM_COMMIT poisons its group (R122). -/
def State.conclude (s : State) (q : Req) (took : Bool) (p : Reply) (acc : Nat) : State :=
  let g := q.r.group.toNat
  let s1 := if q.op.grouped ∧ g ≠ 0 ∧ ¬ stGood p.status ∧ p.status ≠ St.BUSY ∧ ¬ p.again then s.poison g else s
  s1.finish q took p acc

/-- The request that Caldera holds. -/
def FwReq.req (f : FwReq) : Req := ⟨f.r, f.op, f.index, f.sub⟩

/-- Is the table at `index` firmware-backed (R139)? -/
def fwTable (index : Nat) : Bool := (objOf (index * 256)).any Obj.fw

/-- Caldera stops: every request that it had taken and not answered receives CALDERA_DOWN, with no effect, and the open sessions on
firmware-backed tables fail (R140, R504; log 67). -/
def State.fwDown (s : State) : State :=
  let s1 := s.forEach (List.range 4) (fun k s =>
    if (s.sess k).st = .opened ∧ fwTable (s.sess k).index then s.updSess k (fun x => { x with st := .failed }) else s)
  s1.dict.fw.foldl (fun s f => s.conclude f.req f.r.sealed ⟨St.CALDERA_DOWN, false, false, []⟩ f.acc)
    { s1 with dict := { s1.dict with fw := [] } }

end Sys2Proof.Machine
end

