-- ==== Sys2Proof/Machine/Crypto.lean ====
section
/-! DEFINITION. The published algorithms that the unit uses (R17): AES-128 (FIPS 197), CMAC (NIST SP 800-38B) cut to 64 bits, CTR,
SHA-256 (FIPS 180-4) and ECDSA over P-256 (FIPS 186-4). Pure arithmetic on numbers and byte lists, most significant byte first. -/

namespace Sys2Proof.Machine

/-! ## AES-128 (FIPS 197) -/

/-- Multiplication by x in GF(2^8). -/
def xtime (a : Nat) : Nat := if a < 128 then 2 * a else Nat.xor (2 * a) 0x11B

/-- Product in GF(2^8), `k` bits of `b` left. -/
def gmulN : Nat → Nat → Nat → Nat
  | 0, _, _ => 0
  | k + 1, a, b => Nat.xor (if b % 2 = 1 then a else 0) (gmulN k (xtime a) (b / 2))

/-- Product in GF(2^8), of a byte and a coefficient below 16. -/
def gmul (a b : Nat) : Nat := gmulN 4 a b

/-- The S-box as one number, the byte of 0 lowest. -/
def sboxTab : Nat :=
  0x16BB54B00F2D99416842E6BF0D89A18CDF2855CEE9871E9B948ED9691198F8E19E1DC186B95735610EF6034866B53E708A8BBD4B1F74DDE8C6B4A61C2E2578BA08AE7A65EAF4566CA94ED58D6D37C8E779E4959162ACD3C25C2406490A3A32E0DB0B5EDE14B8EE4688902A22DC4F816073195D643D7EA7C41744975FEC130CCDD2F3FF1021DAB6BCF5389D928F40A351A89F3C507F02F94585334D43FBAAEFD0CF584C4A39BECB6A5BB1FC20ED00D153842FE329B3D63B52A05A6E1B1A2C830975B227EBE28012079A059618C323C7041531D871F1E5A534CCF73F362693FDB7C072A49CAFA2D4ADF04759FA7DC982CA76ABD7FE2B670130C56F6BF27B777C63

/-- The inverse S-box, likewise. -/
def sboxInvTab : Nat :=
  0x7D0C2155631469E126D677BA7E042B17619953833CBBEBC8B0F52AAE4D3BE0A0EF9CC9939F7AE52D0D4AB519A97F51605FEC8027591012B131C7078833A8DD1FF45ACD78FEC0DB9A2079D2C64B3E56FC1BBE18AA0E62B76F89C5291D711AF1476EDF751CE837F9E28535ADE72274AC9673E6B4F0CECFF297EADC674F4111913A6B8A130103BDAFC1020F3FCA8F1E2CD00645B3B80558E4F70AD3BC8C00ABD890849D8DA75746155EDAB9EDFD5048706C92B6655DCC5CA4D41698688664F6F87225D18B6D49A25B76B224D92866A12E084EC3FA420B954CEE3D23C2A632947B54CBE9DEC444438E3487FF2F9B8239E37CFBD7F3819EA340BF38A53630D56A0952

/-- The S-box. -/
def sbox (a : Nat) : Nat := sboxTab / 256 ^ a % 256

/-- The inverse S-box. -/
def sboxInv (a : Nat) : Nat := sboxInvTab / 256 ^ a % 256

/-- Bytewise exclusive-OR. -/
def xorBytes (a b : List Nat) : List Nat := (a.zip b).map (fun p => Nat.xor p.1 p.2)

/-- The round keys after `k`, with round constant `rc`, `n` of them, each 16 bytes. -/
def aesKeys : Nat → Nat → List Nat → List (List Nat)
  | 0, _, k => [k]
  | n + 1, rc, k =>
    let t := [Nat.xor (sbox (k.getD 13 0)) rc, sbox (k.getD 14 0), sbox (k.getD 15 0), sbox (k.getD 12 0)]
    let w0 := xorBytes (k.take 4) t
    let w1 := xorBytes ((k.drop 4).take 4) w0
    let w2 := xorBytes ((k.drop 8).take 4) w1
    let w3 := xorBytes ((k.drop 12).take 4) w2
    k :: aesKeys n (xtime rc) (w0 ++ w1 ++ w2 ++ w3)

/-- ShiftRows by `d` columns per row (1, or 3 for the inverse). -/
def shiftRows (d : Nat) (s : List Nat) : List Nat :=
  (List.range 16).map (fun i => s.getD ((i + 4 * d * (i % 4)) % 16) 0)

/-- MixColumns with the first row `m` of its matrix. -/
def mixColumns (m : List Nat) (s : List Nat) : List Nat :=
  (List.range 16).map (fun i =>
    (List.range 4).foldl (fun a j => Nat.xor a (gmul (s.getD (i / 4 * 4 + j) 0) (m.getD ((j + 4 - i % 4) % 4) 0))) 0)

/-- AES-128 of a 16-byte block. -/
def aesEnc (key blk : List Nat) : List Nat :=
  let ks := aesKeys 10 1 key
  let s0 := xorBytes blk (ks.getD 0 [])
  let s1 := (List.range 9).foldl (fun s r => xorBytes (mixColumns [2, 3, 1, 1] (shiftRows 1 (s.map sbox))) (ks.getD (r + 1) [])) s0
  xorBytes (shiftRows 1 (s1.map sbox)) (ks.getD 10 [])

/-- The inverse of `aesEnc`. -/
def aesDec (key blk : List Nat) : List Nat :=
  let ks := aesKeys 10 1 key
  let s0 := (shiftRows 3 (xorBytes blk (ks.getD 10 []))).map sboxInv
  let s1 := (List.range 9).foldl (fun s r => (shiftRows 3 (mixColumns [14, 11, 13, 9] (xorBytes s (ks.getD (9 - r) [])))).map sboxInv) s0
  xorBytes s1 (ks.getD 0 [])

/-- AES-128 of a 128-bit number under a 128-bit key. -/
def aes128 (key v : Nat) : Nat := ofBytes (aesEnc (beBytes 16 key) (beBytes 16 v))

/-- The inverse of `aes128`. -/
def aes128Inv (key v : Nat) : Nat := ofBytes (aesDec (beBytes 16 key) (beBytes 16 v))

/-! ## CMAC (SP 800-38B) -/

/-- A subkey from the one before. -/
def cmacDouble (l : Nat) : Nat := Nat.xor (2 * l % 2 ^ 128) (if l < 2 ^ 127 then 0 else 0x87)

/-- A message cut into blocks of 16 bytes, `n` of them. -/
def blocks16 : Nat → List Nat → List (List Nat)
  | 0, _ => []
  | n + 1, l => l.take 16 :: blocks16 n (l.drop 16)

/-- The first 64 bits of AES-128-CMAC of a byte string (R132). -/
def cmac64 (key : Nat) (msg : List Nat) : Nat :=
  let k1 := cmacDouble (aes128 key 0)
  let n := max 1 (ceilDiv msg.length 16)
  let bs := blocks16 n msg
  let last := bs.getLastD []
  let m := if last.length = 16 then Nat.xor (ofBytes last) k1
    else Nat.xor (ofBytes (last ++ [0x80] ++ List.replicate (15 - last.length) 0)) (cmacDouble k1)
  aes128 key (Nat.xor ((bs.dropLast).foldl (fun c b => aes128 key (Nat.xor c (ofBytes b))) 0) m) / 2 ^ 64

/-! ## SHA-256 (FIPS 180-4) -/

/-- A 32-bit word rotated right. -/
def rotr32 (a k : Nat) : Nat := a / 2 ^ k + a * 2 ^ (32 - k) % 2 ^ 32

/-- The round constants. -/
def shaK : List Nat :=
  [0x428a2f98, 0x71374491, 0xb5c0fbcf, 0xe9b5dba5, 0x3956c25b, 0x59f111f1, 0x923f82a4, 0xab1c5ed5] ++
  [0xd807aa98, 0x12835b01, 0x243185be, 0x550c7dc3, 0x72be5d74, 0x80deb1fe, 0x9bdc06a7, 0xc19bf174] ++
  [0xe49b69c1, 0xefbe4786, 0x0fc19dc6, 0x240ca1cc, 0x2de92c6f, 0x4a7484aa, 0x5cb0a9dc, 0x76f988da] ++
  [0x983e5152, 0xa831c66d, 0xb00327c8, 0xbf597fc7, 0xc6e00bf3, 0xd5a79147, 0x06ca6351, 0x14292967] ++
  [0x27b70a85, 0x2e1b2138, 0x4d2c6dfc, 0x53380d13, 0x650a7354, 0x766a0abb, 0x81c2c92e, 0x92722c85] ++
  [0xa2bfe8a1, 0xa81a664b, 0xc24b8b70, 0xc76c51a3, 0xd192e819, 0xd6990624, 0xf40e3585, 0x106aa070] ++
  [0x19a4c116, 0x1e376c08, 0x2748774c, 0x34b0bcb5, 0x391c0cb3, 0x4ed8aa4a, 0x5b9cca4f, 0x682e6ff3] ++
  [0x748f82ee, 0x78a5636f, 0x84c87814, 0x8cc70208, 0x90befffa, 0xa4506ceb, 0xbef9a3f7, 0xc67178f2]

/-- The message schedule: `n` more words, `w` the last 16 with the newest first. -/
def shaSched : Nat → List Nat → List Nat
  | 0, _ => []
  | n + 1, w =>
    let a := w.getD 14 0
    let b := w.getD 1 0
    let s0 := Nat.xor (Nat.xor (rotr32 a 7) (rotr32 a 18)) (a / 8)
    let s1 := Nat.xor (Nat.xor (rotr32 b 17) (rotr32 b 19)) (b / 1024)
    let x := (w.getD 15 0 + s0 + w.getD 6 0 + s1) % 2 ^ 32
    x :: shaSched n (x :: w.take 15)

/-- One round. -/
def shaRound (h : List Nat) (kw : Nat × Nat) : List Nat :=
  match h with
  | [a, b, c, d, e, f, g, i] =>
    let s1 := Nat.xor (Nat.xor (rotr32 e 6) (rotr32 e 11)) (rotr32 e 25)
    let ch := Nat.xor (Nat.land e f) (Nat.land (0xFFFFFFFF - e) g)
    let t1 := i + s1 + ch + kw.1 + kw.2
    let s0 := Nat.xor (Nat.xor (rotr32 a 2) (rotr32 a 13)) (rotr32 a 22)
    let mj := Nat.xor (Nat.xor (Nat.land a b) (Nat.land a c)) (Nat.land b c)
    [(t1 + s0 + mj) % 2 ^ 32, a, b, c, (d + t1) % 2 ^ 32, e, f, g]
  | _ => h

/-- A byte string as 32-bit words, `n` of them. -/
def words32 : Nat → List Nat → List Nat
  | 0, _ => []
  | n + 1, l => ofBytes (l.take 4) :: words32 n (l.drop 4)

/-- One block of 64 bytes. -/
def shaBlock (h : List Nat) (b : List Nat) : List Nat :=
  let w := words32 16 b
  let r := (shaK.zip (w ++ shaSched 48 w.reverse)).foldl shaRound h
  (h.zip r).map (fun p => (p.1 + p.2) % 2 ^ 32)

/-- The blocks of a padded message, `n` of them. -/
def shaBlocks : Nat → List Nat → List Nat → List Nat
  | 0, h, _ => h
  | n + 1, h, l => shaBlocks n (shaBlock h (l.take 64)) (l.drop 64)

/-- SHA-256 of a byte string, as a 256-bit number. -/
def sha256 (msg : List Nat) : Nat :=
  let n := (msg.length + 9 + 63) / 64
  let pad := msg ++ [0x80] ++ List.replicate (64 * n - 9 - msg.length) 0 ++ beBytes 8 (8 * msg.length)
  let h0 := [0x6a09e667, 0xbb67ae85, 0x3c6ef372, 0xa54ff53a, 0x510e527f, 0x9b05688c, 0x1f83d9ab, 0x5be0cd19]
  (shaBlocks n h0 pad).foldl (fun a w => a * 2 ^ 32 + w) 0

/-! ## P-256 (FIPS 186-4) -/

/-- The prime, the order and the constant b of the curve, and its base point. -/
def ecP : Nat := 2 ^ 256 - 2 ^ 224 + 2 ^ 192 + 2 ^ 96 - 1
def ecN : Nat := 0xffffffff00000000ffffffffffffffffbce6faada7179e84f3b9cac2fc632551
def ecB : Nat := 0x5ac635d8aa3a93e7b3ebbd55769886bc651d06b0cc53b0f63bce3c3e27d2604b
def ecG : Nat × Nat := (0x6b17d1f2e12c4247f8bce6e563a440f277037d812deb33a0f4a13945d898c296,
  0x4fe342e2fe1a7f9b8ee7eb4a7c0f9e162bce33576b315ececbb6406837bf51f5)

/-- A power modulo `m`, over the low `k` bits of the exponent. -/
def powMod (m : Nat) : Nat → Nat → Nat → Nat
  | 0, _, _ => 1
  | k + 1, a, e => (if e % 2 = 1 then a else 1) * powMod m k (a * a % m) (e / 2) % m

/-- The inverse modulo the prime `m`. -/
def invMod (m a : Nat) : Nat := powMod m 256 (a % m) (m - 2)

/-- Difference modulo the prime. -/
def ecSub (a b : Nat) : Nat := (a + ecP - b % ecP) % ecP

/-- A point in Jacobian coordinates; z = 0 is the point at infinity. -/
abbrev EcPt := Nat × Nat × Nat

/-- Twice a point. -/
def ecDouble (q : EcPt) : EcPt :=
  let x := q.1; let y := q.2.1; let z := q.2.2
  if z = 0 ∨ y = 0 then (1, 1, 0)
  else
    let d := z * z % ecP
    let g := y * y % ecP
    let b := x * g % ecP
    let a := 3 * (ecSub x d * ((x + d) % ecP)) % ecP
    let x3 := ecSub (a * a) (8 * b)
    (x3, ecSub (a * ecSub (4 * b) x3) (8 * (g * g)), ecSub (ecSub ((y + z) * (y + z)) g) d)

/-- The sum of two points. -/
def ecAdd (q r : EcPt) : EcPt :=
  let x1 := q.1; let y1 := q.2.1; let z1 := q.2.2
  let x2 := r.1; let y2 := r.2.1; let z2 := r.2.2
  if z1 = 0 then r else if z2 = 0 then q
  else
    let a := z1 * z1 % ecP
    let b := z2 * z2 % ecP
    let u1 := x1 * b % ecP
    let u2 := x2 * a % ecP
    let s1 := y1 * (z2 * b % ecP) % ecP
    let s2 := y2 * (z1 * a % ecP) % ecP
    let h := ecSub u2 u1
    let k := ecSub s2 s1
    if h = 0 then (if k = 0 then ecDouble q else (1, 1, 0))
    else
      let hh := h * h % ecP
      let j := h * hh % ecP
      let v := u1 * hh % ecP
      let x3 := ecSub (ecSub (k * k) j) (2 * v)
      (x3, ecSub (k * ecSub v x3) (s1 * j), h * (z1 * z2 % ecP) % ecP)

/-- `e` times a point, over the low `k` bits of `e`. -/
def ecMulN : Nat → Nat → EcPt → EcPt
  | 0, _, _ => (1, 1, 0)
  | k + 1, e, q => if e % 2 = 1 then ecAdd q (ecMulN k (e / 2) (ecDouble q)) else ecMulN k (e / 2) (ecDouble q)

/-- Affine coordinates; none at infinity. -/
def ecAffine (q : EcPt) : Option (Nat × Nat) :=
  if q.2.2 = 0 then none
  else
    let i := invMod ecP q.2.2
    some (q.1 * (i * i % ecP) % ecP, q.2.1 * (i * i % ecP * i % ecP) % ecP)

/-- The public key of a private key (R532). -/
def ecPublic (d : Nat) : Nat × Nat := (ecAffine (ecMulN 256 d (ecG.1, ecG.2, 1))).getD (0, 0)

/-- The signature (r, s) of the hash `e` under the private key `d` with the random number `k` (R515). -/
def ecdsaSign (d e k : Nat) : Nat × Nat :=
  let r := (ecPublic k).1 % ecN
  (r, invMod ecN k * (e + r * d) % ecN)

/-- Does signature (r, s) of the hash `e` verify under the public key (x, y)? -/
def ecdsaVerify (x y e r s : Nat) : Bool :=
  let onCurve := decide (x < ecP) && decide (y < ecP) && y * y % ecP == ecSub (x * x * x + ecB) (3 * x)
  let inRange := decide (0 < r) && decide (r < ecN) && decide (0 < s) && decide (s < ecN)
  let w := invMod ecN s
  let pt := ecAdd (ecMulN 256 (e * w % ecN) (ecG.1, ecG.2, 1)) (ecMulN 256 (r * w % ecN) (x, y, 1))
  onCurve && inRange && (match ecAffine pt with
    | some (px, _) => px % ecN == r
    | none => false)

end Sys2Proof.Machine
end

