-- ==== Sys2Proof/Machine/Position.lean ====
section
/-! DEFINITION. The Position Base: ticks, references, slew, interpolation, speed, direction, slip, SSI, roles, and the
reception of the position broadcast (R29, R63, R75-R77, R145-R173). -/

namespace Sys2Proof.Machine

/-- Changes the Position Base. -/
def State.updPos (s : State) (f : Pos → Pos) : State := { s with pos := f s.pos }

/-- Ticks per tooth position: 2 with both edges, else 1 (R147). -/
def State.tickK (s : State) : Nat := if s.reg Key.ENC_EDGE = 2 then 2 else 1

/-- TPR (R151). -/
def State.tpr (s : State) : Nat := s.reg Key.TEETH * s.tickK

/-- REF_KIND, 0 also where there is no wheel (R153). -/
def State.refKind (s : State) : Nat := if s.reg Key.TEETH = 0 then 0 else s.reg Key.REF_KIND

/-- Direction that DIR_SOURCE gives on this clock (R155–R157). -/
def State.dirNow (s : State) : Bool :=
  match s.reg Key.DIR_SOURCE with
  | 0 => if s.pos.hallAt ≤ s.clk then s.pos.hallRev else s.pos.hallPrev
  | 1 => (if s.pos.dirAt ≤ s.clk then s.pos.dirPin else s.pos.dirPrev) != s.flag Key.DIR_PIN_INVERT
  | 2 => false
  | _ => true

/-! ## Slew (R152) and the position -/

/-- st that the next counted tick moves, PENDING's share included (R152). -/
def Pos.tickMove (p : Pos) : Int :=
  (if p.rev then -256 else 256)
    + (if p.n = 0 then 0 else p.q + (if p.rm = 0 then 0 else if 0 < p.pending then 1 else -1))

/-- PENDING's share of the next counted tick. -/
def Pos.tickShare (p : Pos) : Int := p.tickMove - (if p.rev then -256 else 256)

/-- Moves the local position and the revolution phase by `d` st (R162). -/
def Pos.move (modulus : Nat) (d : Int) (p : Pos) : Pos :=
  { p with
    pos := unsgn 48 ((p.pos : Int) + d)
    ph := if modulus = 0 then 0 else (((p.ph : Int) + d) % (modulus : Int)).toNat }

/-- PENDING set to `v`: N, q and rm (R152). -/
def Pos.setPending (v : Int) (p : Pos) : Pos :=
  if v = 0 then { p with pending := 0, n := 0, q := 0, rm := 0 }
  else
    let n := max 64 (ceilDiv v.natAbs 32)
    let q := v.tdiv (n : Int)
    { p with pending := v, n := n, q := q, rm := v.natAbs - q.natAbs * n }

/-- One counted tick (R147, R152). -/
def Pos.tick (modulus : Nat) (p : Pos) : Pos :=
  let sh := p.tickShare
  let p1 := p.move modulus p.tickMove
  if p.n = 0 then p1
  else { p1 with pending := p.pending - sh, n := p.n - 1, rm := p.rm - 1 }

/-! ## Interpolation and speed (R154, R165–R167) -/

/-- Ticks of the span to the next counted edge: g·k + 1 where the predicted reference lies in it (R154). The count at the reference edge
holds the g·k ticks of the gap, and the edge's own tick where rising edges are counted; with falling edges alone the reference stands within
the span, and `gapTicks` of it are in the position already. DESIGN CHOICE (log 35): a position off the base's tick grid, as after an SSI
correction, takes the edge nearest to the prediction. -/
def State.spanTicks (s : State) : Nat :=
  let p := s.pos
  let gk := s.reg Key.REF_GAP * s.tickK
  let own := if s.reg Key.ENC_EDGE = 1 then 0 else 1
  let tprSt : Int := (s.tpr : Int) * 256
  let d : Int := diff 48 (unsgn 48 ((p.pos : Int) + p.pending)) p.base
  let off := (d + (if p.rev then -1 else 1) * (((gk : Int) - p.gapTicks + own) * 256)) % tprSt
  if p.ref = .locked ∧ p.haveBase ∧ s.refKind = 1 ∧ s.tpr ≠ 0 ∧ (off < 128 ∨ tprSt - 128 ≤ off) then gk + 1 else 1

/-- st covered since the last counted edge at chain time `t`, signed by the direction (R165, R166). -/
def State.subticks (s : State) (t : Nat) : Int :=
  let p := s.pos
  let k := 2 ^ s.reg Key.INTERP_AVG
  match p.tLast with
  | none => 0
  | some tl =>
    if p.stopped ∨ ¬ p.tValid ∨ p.ivals.length < k ∨ t ≤ tl then 0
    else
      let nt := s.spanTicks
      let per := nsum (p.ivals.take k) / k * nt
      let span := p.tickMove.natAbs + 256 * (nt - 1)
      if per = 0 then 0
      else
        let m : Int := (min (span - 1) (span * (t - tl) * 65536 / per) : Nat) - (if nt = 1 then 0 else 256 * p.gapTicks : Nat)
        if p.rev then -m else m

/-- Local position at chain time `t` (R165). -/
def State.localAt (s : State) (t : Nat) : Nat := unsgn 48 ((s.pos.pos : Int) + s.subticks t)

/-- Revolution phase at chain time `t` (R162). -/
def State.phaseAt (s : State) (t : Nat) : Nat :=
  let m := s.reg Key.SSI_MODULUS
  if m = 0 then 0 else (((s.pos.ph : Int) + s.subticks t) % (m : Int)).toNat

/-- Speed estimate at chain time `t`, Q16.16 st per µs (R167). -/
def State.speedAt (s : State) (t : Nat) : Nat :=
  let p := s.pos
  let h := p.hist.take (2 ^ s.reg Key.SPEED_AVG + 1)
  match h.head?, h.getLast? with
  | some (tl, pl), some (tf, pf) =>
    if p.stopped ∨ h.length < 2 ∨ tl ≤ tf then 0
    else
      let avg := (diff 48 pl pf).natAbs * (500 * 65536) / (tl - tf)
      let v := if tl < t then min avg (256 * 500 * 65536 / (t - tl)) else avg
      min v (2 ^ 32 - 1)
  | _, _ => 0

/-! ## Restart of validation (R151, R155, R166, R167) -/

/-- Intervals, interpolation and the speed average start again. -/
def Pos.restart (p : Pos) : Pos :=
  { p with lastRise := none, reg4 := [], regN := 0, regSum := 0, tValid := false, held := none, ivals := [], fresh := true, hist := [] }

/-- Signed ticks counted so far on this clock (R172). -/
def State.ticksNow (s : State) : Int := if s.pos.tickClk = s.clk then s.pos.tickNow else 0

/-- `n` ticks in the direction last used. -/
def Pos.ticks (p : Pos) (n : Nat) : Int := if p.rev then -(n : Int) else n

/-- One counted edge at stamp `t` (R147, R148, R152, R165, R167). -/
def State.countEdge (s : State) (t : Nat) : State :=
  let m := s.reg Key.SSI_MODULUS
  let s1 := match s.pos.tLast with
    | some tl => if t < tl + 20 then (s.inc Key.TICK_OVERRATE).raise 0x21 0 else s
    | none => s
  s1.updPos (fun p =>
    let iv := match p.fresh, p.tLast with
      | false, some tl => ((t - tl) * 65536 / (p.gapTicks + 1) :: p.ivals).take 8
      | _, _ => p.ivals
    let p1 := p.tick m
    { p1 with ivals := iv, gapTicks := 0, fresh := false, tLast := some t, stopped := false
              hist := ((t, p1.pos) :: p.hist).take 257, stepTicks := p.stepTicks + 1
              tickClk := s.clk, tickNow := s.ticksNow + p.ticks 1 })

/-- Held edges are counted, then validation restarts: no edge is lost (R151). -/
def State.restartTicks (s : State) : State :=
  let held := match s.pos.held with
    | none => []
    | some (_, l) => l
  (held.foldl (fun s t => s.countEdge t) (s.updPos (fun p => { p with held := none }))).updPos Pos.restart

/-- The direction in force on this clock; a change restarts validation and the speed average (R155). Every clock judges it. -/
def State.syncDir (s : State) : State :=
  let d := s.dirNow
  if d = s.pos.rev then s else (s.restartTicks).updPos (fun p => { p with rev := d })

/-! ## References (R151, R153) -/

/-- REF_STATE of a wheel just configured (R150, R153). -/
def State.seekRef (s : State) : State :=
  s.updPos (fun p => { p with ref := if s.refKind = 0 then .off else .seeking, haveBase := false, rejects := 0 })

/-- A recognised reference is checked (R153). -/
def State.reference (s : State) : State :=
  if s.pos.ref = .off then s else
  let p := s.pos
  let c : Nat := unsgn 48 ((p.pos : Int) + p.pending)
  let tprSt : Nat := s.tpr * 256
  let d : Int := diff 48 c p.base
  let m : Nat := max 1 ((d.natAbs + tprSt / 2) / tprSt)
  let err : Int := if p.haveBase then d - d.sign * ((m * tprSt : Nat) : Int) else 0
  let tol : Nat := s.reg Key.REF_TOL * 256
  let s1 := if p.haveBase then s.setRegI Key.REF_ERROR (clampI (-32768) 32767 (err.tdiv 256)) else s
  if p.ref = .locked then
    let s2 := s1.addReg Key.REF_SKIPPED (m - 1)
    if err.natAbs ≤ tol then
      let base : Nat := unsgn 48 ((c : Int) - err)
      let s3 := (s2.inc Key.REF_ACCEPTED).updPos (fun p => { p with rejects := 0, base := base })
      let s4 := if err = 0 then s3
        else (s3.updPos (fun p => p.setPending (p.pending - err))).inc Key.REF_CORRECTED
      s4.setReg Key.REF_POS base
    else
      let n := p.rejects + 1
      let s3 := ((s2.inc Key.REF_REJECTED).updPos (fun p => { p with rejects := n })).raise 0x22 0
      if n = 3 then
        ((s3.updPos (fun p => { p with ref := .lost, haveBase := false, recoverDue := s.flag Key.SSI_ENABLE })).inc Key.REF_LOST).cause
          0x23 0 true 0
      else s3
  else
    let s2 := s1.updPos (fun p => { p with base := c, haveBase := true })
    if p.haveBase ∧ err.natAbs ≤ tol then
      (s2.updPos (fun p => { p with ref := .locked, rejects := 0 })).cause 0x23 0 false 0
    else s2

/-- A regular interval `i` enters T, or M while T is invalid (R151). -/
def Pos.regular (i : Nat) (p : Pos) : Pos :=
  { p with reg4 := (i :: p.reg4).take 4, regN := p.regN + 1, regSum := p.regSum + i, tValid := p.tValid || decide (8 ≤ p.regN + 1) }

/-- The g·k ticks of the missing teeth are added (R151): the teeth make no counted edge, so they take no share of a slew. -/
def State.addGap (s : State) (n : Nat) : State :=
  s.updPos (fun p => { p.move (s.reg Key.SSI_MODULUS) ((if p.rev then -1 else 1) * ((n * 256 : Nat) : Int)) with
    gapTicks := p.gapTicks + n, stepTicks := p.stepTicks + n, tickClk := s.clk, tickNow := s.ticksNow + p.ticks n })

/-- An interval `i` that ends at a rising edge stamped `t` once T is valid, and then that edge (R151). -/
def State.classify (s : State) (i t : Nat) (counted : Bool) : State :=
  let p := s.pos
  let n := p.reg4.length
  let sum := nsum p.reg4
  let g := s.reg Key.REF_GAP
  let edge := fun (s : State) => if counted then s.countEdge t else s
  if sum < 2 * n * i ∧ 2 * n * i < 3 * sum then edge (s.updPos (Pos.regular i))
  else if s.refKind = 1 ∧ (2 * g + 1) * sum ≤ 2 * n * i ∧ 2 * n * i ≤ (2 * g + 3) * sum then
    (edge (s.addGap (g * s.tickK))).reference
  else if s.refKind = 2 ∧ 2 * n * i ≤ sum then
    s.updPos (fun p => { p with held := some (i, if counted then [t] else []) })
  else edge (s.inc Key.INTERVAL_IRREG)

/-- An accepted rising edge stamped `t` (R151). -/
def State.risingEdge (s : State) (t : Nat) (counted : Bool) : State :=
  let edge := fun (s : State) => if counted then s.countEdge t else s
  match s.pos.lastRise with
  | none => edge (s.updPos (fun p => { p with lastRise := some t }))
  | some t0 =>
    let i := t - t0
    let s1 := s.updPos (fun p => { p with lastRise := some t })
    let p := s.pos
    if ¬ p.tValid then
      if p.regN = 0 ∨ (p.regSum < 2 * p.regN * i ∧ 2 * p.regN * i < 3 * p.regSum) then edge (s1.updPos (Pos.regular i))
      else edge (s1.updPos (fun p => { p with regN := 0, regSum := 0, reg4 := [] }))
    else
      match p.held with
      | none => s1.classify i t counted
      | some (i0, held) =>
        let n := p.reg4.length
        let sum := nsum p.reg4
        let s2 := s1.updPos (fun p => { p with held := none })
        if 3 * sum ≤ 4 * n * (i0 + i) ∧ 4 * n * (i0 + i) ≤ 5 * sum then
          (edge (s2.updPos (Pos.regular (i0 + i)))).reference
        else
          ((held.foldl (fun s t => s.countEdge t) s2).inc Key.INTERVAL_IRREG).classify i t counted

/-- An accepted edge of the input, inversion included, stamped `t` (R145–R149). -/
def State.acceptEdge (s : State) (rising : Bool) (t : Nat) : State :=
  if ¬ s.flag Key.ENC_ENABLE ∨ s.pos.lineBad then s
  else
    let e := s.reg Key.ENC_EDGE
    let s1 := s.syncDir
    if rising then s1.risingEdge t (e != 1)
    else if e = 0 then s1
    else match s1.pos.held with
      | some (i, l) => s1.updPos (fun p => { p with held := some (i, l ++ [t]) })
      | none => s1.countEdge t

/-- ENC_OUT (R173). In mode 1 it is the filtered level as it stands, which is ENC_GLITCH × 2 ns behind the input: of the further 20 ns that
R173 allows, none is taken (DESIGN CHOICE, log 35). -/
def State.syncEncOut (s : State) : State :=
  let v : Bool := match s.reg Key.ENC_OUT_MODE with
    | 1 => s.pos.raw
    | 2 =>
      let per := s.reg Key.ENC_OUT_DIV * 256
      decide (s.derived % per < per / 2)
    | _ => false
  s.updPos (fun p => { p with encOut := v })

/-- The glitch filter has judged a change of the encoder input to `level`: it has held for ENC_GLITCH × 2 ns and is accepted, or `reverted`
says that it changed back sooner (R145). The edge's stamp is its first sample (R146). -/
def execEncEdge (level : Bool) (reverted : Bool) (s : State) : Res :=
  whenOn s <| .next (if level = s.pos.raw then s
    else if ¬ s.clocked then (if reverted then s else s.updPos (fun p => { p with raw := level }))
    else if reverted ∧ s.reg Key.ENC_GLITCH ≠ 0 then s.inc Key.TICK_GLITCH
    else
      ((s.updPos (fun p => { p with raw := level })).acceptEdge (level != s.flag Key.ENC_INVERT)
        (s.ct - s.reg Key.ENC_GLITCH)).syncEncOut)

/-- The receiver judges the pair: differential and enabled (R149). -/
def State.lineJudged (s : State) : Bool := s.flag Key.ENC_ENABLE && s.reg Key.ENC_INPUT == 0

/-- An open or shorted pair for 1 µs (R149). -/
def execEncLineFault (s : State) : Res :=
  whenClocked s <| .next (if s.lineJudged then (s.updPos (fun p => { p with lineBad := true })).cause 0x20 0 true 0 else s)

/-- The condition has been absent for 1 µs (R149). -/
def execEncLineClear (s : State) : Res :=
  whenOn s <| .next ((s.updPos (fun p => { p with lineBad := false })).cause 0x20 0 false 0)

/-- An accepted edge of ENC_DIR, in force 20 ns later (R155). -/
def execEncDirEdge (level : Bool) (s : State) : Res :=
  whenOn s <| .next (s.updPos (fun p => { p with
      dirPrev := if p.dirAt ≤ s.clk then p.dirPin else p.dirPrev, dirPin := level, dirAt := s.clk + 10 }))

/-! ## Commutation switches and slip (R156–R158) -/

/-- The code after `c` in the forward sequence (R156). -/
def hallNext (c : Nat) : Nat :=
  match c with
  | 1 => 3 | 3 => 2 | 2 => 6 | 6 => 4 | 4 => 5 | 5 => 1 | _ => 0

/-- Is the slip check on (R158)? -/
def State.slipOn (s : State) : Bool := s.reg Key.DIR_SOURCE == 0 && s.reg Key.SLIP_STEP_TICKS != 0

/-- The slip window starts again with the next step: the check was switched, or its window changed (R158). -/
def State.slipRestart (s : State) : State := s.updPos (fun p => { p with stepRev := none, steps := 0, stepTicks := 0 })

/-- One valid commutation step in direction `rev` (R156–R158). A tick of the same clock is counted in the direction before (R157). -/
def State.hallStep (s : State) (code : Nat) (rev : Bool) : State :=
  s.updPos (fun p =>
    let same : Bool := p.stepRev == some rev && s.slipOn
    { p with
      hall := some code
      hallPrev := if p.hallAt ≤ s.clk then p.hallRev else p.hallPrev
      hallRev := rev
      hallAt := s.clk + 1
      stepRev := if s.slipOn then some rev else none
      steps := if same then p.steps + 1 else 0
      stepTicks := if same then p.stepTicks else 0 })

/-- The filtered commutation code changes (R156). -/
def execHallEdge (code : BitVec 3) (s : State) : Res :=
  let c := code.toNat
  let bad := ((s.inc Key.HALL_INVALID).updPos (fun p => { p with stepRev := none, steps := 0, stepTicks := 0 })).raise 0x24 0
  whenOn s <| .next (if ¬ s.clocked then (if c = 0 ∨ c = 7 then s else s.updPos (fun p => { p with hall := some c }))
    else if c = 0 ∨ c = 7 then bad
    else match s.pos.hall with
      | none => s.updPos (fun p => { p with hall := some c })
      | some h =>
        if c = h then s
        else if hallNext h = c then s.hallStep c (s.flag Key.HALL_INVERT)
        else if hallNext c = h then s.hallStep c (!s.flag Key.HALL_INVERT)
        else bad)

/-- SLIP_WINDOW steps in one direction: the ticks counted are judged (R158). Both sides are scaled by 65,536. -/
def execSlipWindowEnd (s : State) : Res :=
  let w := s.reg Key.SLIP_WINDOW
  let sst := s.reg Key.SLIP_STEP_TICKS
  let n := s.pos.stepTicks
  let want := w * sst
  let off := ((n * 65536 : Nat) : Int) - (want : Int)
  let s1 := s.updPos (fun p => { p with steps := 0, stepTicks := 0 })
  whenClocked s <| .next (if ¬ s.slipOn ∨ s.pos.steps < w then s
    else if s.reg Key.SLIP_TOL * want < off.natAbs * 100 then
      (s1.inc Key.SLIP_EVENTS).raise (if n = 0 then 0x26 else 0x25) 0
    else s1)

/-- No edge counted for STOP_TIMEOUT (R151, R158, R167). -/
def execSpeedStop (s : State) : Res :=
  whenClocked s <| .next (if s.pos.stopped then s
    else (s.restartTicks).updPos (fun p => { p with stopped := true, stepRev := none, steps := 0, stepTicks := 0 }))

/-! ## SSI (R159–R164) -/

/-- Sets the local position to `x`, PENDING to 0; BASE, PH and the counted edges move with it (R172). -/
def State.setLocal (s : State) (x : Nat) : State :=
  let d : Int := diff 48 x (s.localAt s.ct)
  let m := s.reg Key.SSI_MODULUS
  let sub0 := s.subticks s.ct
  let s1 := s.updPos (Pos.setPending 0)
  let sub1 := s1.subticks s.ct
  s1.updPos (fun p => { p.move m (d + sub0 - sub1) with
    base := unsgn 48 ((p.base : Int) + d)
    hist := p.hist.map (fun e => (e.1, unsgn 48 ((e.2 : Int) + d + sub0 - sub1))) })

/-- Result codes of SSI_RESULT (R175). -/
inductive SsiRes where
  | ok | notReady | frameError | sensorError | disagree
deriving DecidableEq, Repr

/-- Code of a result. -/
def SsiRes.code : SsiRes → Nat
  | .ok => 1 | .notReady => 2 | .frameError => 3 | .sensorError => 4 | .disagree => 5

/-- An attempt has ended with OK: what each use does (R163). -/
def State.ssiUse (s : State) (diffSt : Int) : SsiUse → State
  | .test => s
  | .start =>
    let x := s.reg Key.SSI_POS
    let m := s.reg Key.SSI_MODULUS
    let s1 := s.setLocal x
    (s1.updPos (fun p => { p with
      ph := if m = 0 then 0 else (((x : Int) - s1.subticks s.ct) % (m : Int)).toNat })).setReg Key.POS_LOCAL_VALID 1
  | .recovery =>
    if diffSt.natAbs < 128 then s
    else if diffSt.natAbs ≤ s.reg Key.SSI_MAX_CORR * 256 then
      (s.updPos (fun p => p.setPending (p.pending + diffSt))).inc Key.SSI_CORRECTIONS
    else (s.setReg Key.SSI_RESULT 6).raise 0x28 0

/-- A read ends with result `r`; the uses are served, or the read is retried, at most 3 times (R161, R163). The retry is 1 ms
later, in core clocks. -/
def State.ssiEnd (s : State) (r : SsiRes) (diffSt : Int) : State :=
  let g := s.pos.ssi
  let free := s.clk + 500 * s.reg Key.SSI_MONOFLOP
  let idle := fun (s : State) => s.updPos (fun p => { p with ssi := { p.ssi with
    uses := [], tries := 0, busy := false, wait := none, first := none, retryAt := none, freeAt := free } })
  if r = .ok then
    idle (g.uses.foldl (fun s u => s.ssiUse diffSt u) (s.setReg Key.SSI_RESULT 1))
  else if g.tries < 3 then
    s.updPos (fun p => { p with ssi := { p.ssi with
      busy := false, wait := none, first := none, retryAt := some (s.clk + 500000), freeAt := free } })
  else
    let s1 := ((s.setReg Key.SSI_RESULT r.code).inc Key.SSI_FAILED).raise 0x27 0
    idle (if g.uses.contains .start then s1.setReg Key.POS_LOCAL_VALID 1 else s1)

/-- The values frozen at the first falling edge (R159, R162). -/
def State.ssiShot (s : State) : SsiShot :=
  ⟨(s.localAt s.ct : Int) + s.pos.pending, s.phaseAt s.ct, 0⟩

/-- A read starts, no sooner than SSI_MONOFLOP µs after the end of the one before, and waits for SSI_DATA to have been high for that time, at
most for twice that time (R159). -/
def State.ssiBegin (s : State) (first : Option SsiShot) : State :=
  let from_ := max s.clk s.pos.ssi.freeAt
  let most := 1000 * s.reg Key.SSI_MONOFLOP
  let wait : Nat × Bool := match s.pos.ssiReady with
    | some w => if w ≤ most then (from_ + w, true) else (from_ + most, false)
    | none => (from_ + most, false)
  (s.inc Key.SSI_READS).updPos (fun p => { p with ssi := { p.ssi with busy := true, wait := some wait, first := first, retryAt := none } })

/-- At the end of a clock, all that happens on it having happened, the wait of a read ends: the position is frozen at the first falling edge,
or the result is NOT_READY (R159). A reference recognised on this clock is in P0 with the PENDING that it set (R164). -/
def State.ssiTick (s : State) : State :=
  match s.pos.ssi.wait with
  | none => s
  | some (t, high) =>
    if s.clk < t then s
    else if high then
      (s.updPos (fun p => { p with ssi := { p.ssi with wait := none, shot := s.ssiShot } })).setReg Key.SSI_FREEZE_CT s.ct
    else s.ssiEnd .notReady 0

/-- A use asks for a read; a read in progress serves it too (R163, R164). -/
def State.ssiStart (s : State) (u : SsiUse) : State :=
  let g := s.pos.ssi
  let s1 := s.updPos (fun p => { p with ssi := { p.ssi with uses := if p.ssi.uses.contains u then p.ssi.uses else p.ssi.uses ++ [u] } })
  if g.busy ∨ g.retryAt ≠ none then s1
  else (s1.updPos (fun p => { p with ssi := { p.ssi with tries := 0 } })).ssiBegin none

/-- Gray code to binary, on at most 32 bits (R160). -/
def grayToBin (v : Nat) : Nat :=
  (List.range 32).foldl (fun a k => Nat.xor a (v / 2 ^ (k + 1))) v

/-- Result of the word and its position (R160). -/
def State.ssiConvert (s : State) (w : Nat) : Bool × Nat :=
  let sb := s.reg Key.SSI_STATUS_BITS
  let v0 := w / 2 ^ sb
  let v := if s.flag Key.SSI_GRAY then grayToBin v0 else v0
  (Nat.land (w % 2 ^ sb) (s.reg Key.SSI_ERR_MASK) == 0,
   (s.reg Key.SSI_OFFSET + v * s.reg Key.SSI_SCALE / 65536) % 2 ^ 48)

/-- `x − y` reduced modulo SSI_MODULUS to the nearest, or as signed 48-bit difference (R161, R162). -/
def ssiDelta (m x y : Nat) : Int :=
  if m = 0 then diff 48 x y
  else
    let d : Int := ((x : Int) - (y : Int)) % (m : Int)
    if ((m / 2 : Nat) : Int) ≤ d then d - (m : Int) else d

/-- Do the two reads of a checked pair agree (R161)? P0 is a position, so its difference is taken modulo 2^48 (R11). -/
def ssiAgree (m scale : Nat) (a b : SsiShot) : Bool :=
  let dp := ssiDelta m b.pos a.pos
  let d0 : Int := diff 48 (unsgn 48 b.p0) (unsgn 48 a.p0)
  let e := if m = 0 then sgn 48 (unsgn 48 (dp - d0)) else ssiDelta m (((dp - d0) % (m : Int)).toNat) 0
  decide (e.natAbs * 65536 ≤ 256 * 65536 + scale)

/-- The word has been shifted in: `w.word` holds the bits as sampled, `w.stopLow` the level half a period later; `ready` is when SSI_DATA will
have been high for the second read of a checked pair (R159–R162). -/
def execSsiReadDone (w : SsiWire) (ready : Option Nat) (s : State) : Res :=
  whenClocked s <| .next (if ¬ s.pos.ssi.busy ∨ s.pos.ssi.wait ≠ none then s else
    let word := w.word.toNat % 2 ^ s.reg Key.SSI_BITS
    let s1 := (s.setReg Key.SSI_RAW word).updPos (fun p => { p with
      ssiReady := ready, ssi := { p.ssi with freeAt := s.clk + 500 * s.reg Key.SSI_MONOFLOP } })
    if ¬ w.stopLow then s1.ssiEnd .frameError 0
    else
      let c := s.ssiConvert word
      let m := s.reg Key.SSI_MODULUS
      let shot := { s.pos.ssi.shot with pos := c.2 }
      let d := if m = 0 then diff 48 c.2 (unsgn 48 shot.p0) else ssiDelta m (c.2 % m) shot.ph
      let s2 := (s1.setReg Key.SSI_POS c.2).setRegI Key.SSI_DIFF (clampI (-(2 ^ 31)) (2 ^ 31 - 1) d)
      if ¬ c.1 then s2.ssiEnd .sensorError d
      else if s.reg Key.SSI_CHECK = 0 then s2.ssiEnd .ok d
      else match s.pos.ssi.first with
        | none => s2.ssiBegin (some shot)
        | some a => if ssiAgree m (s.reg Key.SSI_SCALE) a shot then s2.ssiEnd .ok d else s2.ssiEnd .disagree d)

/-- The wait before a retry is over (R161). -/
def execSsiRetry (ready : Option Nat) (s : State) : Res :=
  whenClocked s <| .next (if s.pos.ssi.retryAt.any (fun t => decide (t ≤ s.clk)) then
    (s.updPos (fun p => { p with ssiReady := ready, ssi := { p.ssi with tries := p.ssi.tries + 1 } })).ssiBegin none
  else s)

/-- SSI_COMMAND reads the command in progress (R163). -/
def State.ssiCommand (s : State) : Nat :=
  let u := s.pos.ssi.uses
  if u.contains .recovery then 2 else if u.contains .test then 1 else 0

/-! ## Effects of the Position Base's own objects -/

/-- ENC_ENABLE, ENC_INPUT, ENC_INVERT, ENC_EDGE, TEETH, REF_KIND, REF_GAP: the reference is sought anew and the local position stays, so a
changed inversion is no edge and edges still held are dropped when counting is enabled anew (R149–R151, R163). -/
def State.encConfig (s : State) (key old : Nat) : State :=
  let new := s.reg key
  if old = new then s else
  let s1 := if key = Key.ENC_ENABLE ∧ new = 1 then
      let s0 := s.updPos Pos.restart
      if s0.flag Key.SSI_ENABLE ∧ s0.flag Key.SSI_AT_START then s0.ssiStart .start else s0.setReg Key.POS_LOCAL_VALID 1
    else s
  let s2 := if s1.lineJudged then s1 else (s1.updPos (fun p => { p with lineBad := false })).cause 0x20 0 false 0
  s2.seekRef

/-- SSI_COMMAND (R163). -/
def State.ssiCommandWrite (s : State) : State :=
  match s.reg Key.SSI_COMMAND with
  | 1 => s.ssiStart .test
  | 2 => s.ssiStart .recovery
  | _ => s

/-- DIR_SOURCE and DIR_PIN_INVERT, SLIP_STEP_TICKS and SLIP_WINDOW (R155, R158). -/
def State.dirConfig (s : State) (key old : Nat) : State :=
  if old = s.reg key then s else (if key = Key.DIR_PIN_INVERT then s else s.slipRestart).syncDir

/-- SSI_MODULUS: PH is the local position reduced by it (R162). -/
def State.ssiModulusWrite (s : State) : State :=
  let m := s.reg Key.SSI_MODULUS
  s.updPos (fun p => { p with ph := if m = 0 then 0 else p.pos % m })

/-- A value put into the local position, onto which the ticks of this clock are counted (R172). -/
def State.presetLocal (s : State) (x : Nat) : State := s.setLocal (unsgn 48 ((x : Int) + 256 * s.ticksNow))

/-- The role in force becomes `v`; a new source takes the derived position (R170–R172). -/
def State.setRole (s : State) (v : Nat) : State :=
  let s1 := if v = 1 ∧ s.reg Key.ROLE_IN_FORCE = 0 ∧ s.recv.now ≠ none then s.presetLocal s.derived else s
  (s1.setReg Key.ROLE_IN_FORCE v).updPos (fun p => { p with newRole := none })

/-- Does POS_SWITCH_CT lie at least 50,000 ct ahead (R170)? -/
def State.roleLater (s : State) : Bool := decide (s.ct + 50000 ≤ s.reg Key.POS_SWITCH_CT)

/-- POS_ROLE (R170). -/
def State.posRoleWrite (s : State) : State :=
  let v := s.reg Key.POS_ROLE
  if s.roleLater then s.updPos (fun p => { p with newRole := some (s.reg Key.POS_SWITCH_CT, v) })
  else
    let s1 := if v = 1 ∧ s.recv.now ≠ none then s.presetLocal s.derived else s
    (s1.setReg Key.ROLE_IN_FORCE v).updPos (fun p => { p with newRole := none })

/-- POS_PRESET (R163, R172). -/
def State.posPresetWrite (s : State) : State := (s.presetLocal (s.reg Key.POS_PRESET)).setReg Key.POS_LOCAL_VALID 1

/-- POS_SWITCH_CT, as held at the acceptance of POS_ROLE, is reached (R170, R171). -/
def execRoleSwitch (s : State) : Res :=
  whenClocked s <| .next (match s.pos.newRole with
    | none => s
    | some (t, v) => if t ≤ s.ct then s.setRole v else s)

/-! ## The broadcast (R29, R63, R75–R77, R168, R169) -/

/-- Changes the reception of the broadcast. -/
def State.updRecv (s : State) (f : Recv → Recv) : State := { s with recv := f s.recv }

/-- Two sources seen: the fault of R169, until 16 cycles with one. -/
def State.dualSource (s : State) : State :=
  (s.cause 0x29 0 true 0).updRecv (fun r => { r with dualAt := some (s.ct / 500) })

/-- A broadcast offered: taken under R169 and by its apply time (R63, R77). The Bool says that it is accepted. A source's own POS that comes
back to it in a ring (R90) is no other source's. -/
def State.offerPos (s : State) (b : Bcast) (own : Bool) : State × Bool :=
  let cyc := b.sample / 500
  let other : Bool := s.recv.seen.any (fun e => e.1 == cyc && e.2 != b.src)
  let source : Bool := s.reg Key.ROLE_IN_FORCE == 1 && !own && b.src != s.addr
  let s1 := s.updRecv (fun r => { r with seen := ((cyc, b.src) :: r.seen.filter (fun e => e ≠ (cyc, b.src))).take 32 })
  let s2 := if other ∨ source then s1.dualSource else s1
  let want := s.reg Key.POS_SOURCE_ADDR
  let lower : Bool := s.recv.queue.any (fun c => c.sample / 500 == cyc && decide (c.src < b.src)) && !own
  if source ∨ (¬ own ∧ want ≠ 0 ∧ b.src ≠ want) ∨ b.sample + s.reg Key.POS_APPLY_DELAY < s.ct ∨ (want = 0 ∧ lower) then (s2, false)
  else
    ((s2.updRecv (fun r => { r with
        queue := r.queue.filter (fun c => c.sample / 500 ≠ cyc) ++ [b], judging := true, accepted := true })).setReg
      Key.POS_SOURCE_SEEN b.src, true)

/-- The fields of a POS payload (R75). -/
def bcastOf (f : Frame) : Bcast :=
  ⟨bits (f.payload 0) 63 16, f.payload 1, bits (f.payload 2) 63 32, bit (f.payload 0) 7, bits (f.payload 0) 15 8, bit (f.payload 0) 6⟩

/-- The payload of POS (R75). -/
def bcastBlocks (b : Bcast) : List Block :=
  [BitVec.ofNat 64 (fld b.pos 48 16 + fld b.src 8 8 + fld (b2n b.rev) 1 7 + fld (b2n b.refOk) 1 6),
   BitVec.ofNat 64 b.sample, BitVec.ofNat 64 (fld b.speed 32 32)]

/-- POS: accepted once per SEQ and source, under R169 and in time; always forwarded (R62, R63, R77, R169). -/
def execPos (f : Frame) (s : State) : Res :=
  whenClocked s <| .next (match s.recvCheck 0x01 f with
    | (s1, .pass) => s1
    | (s1, .intact) =>
      let b := bcastOf f
      let q := f.seq.toNat
      let old : Bool := match Map.get (fun _ => none) s1.link.posSeq b.src with
        | none => false
        | some h => decide (diff 16 q h ≤ 0)
      if old then (s1.inc Key.DUP_DISCARD).forward 0x01 f false
      else
        let r := s1.offerPos b false
        let s2 := if r.2 then r.1.updLink (fun l => { l with posSeq := Map.put (fun _ => none) l.posSeq b.src (some q) }) else r.1
        if r.2 ∧ f.dest.toNat = s.addr ∧ s.addr ≠ 0 then s2 else s2.forward 0x01 f false)

/-- The source's POS of this cycle, on both ports, after the CYCLE block; it takes it as every unit does (R75, R76, R168). The role at the
sample decides, so a role handed over since then takes no cycle away (R171). Its SEQ counts as accepted of this source (R63). -/
def execPosSend (s : State) : Res :=
  whenClocked s <| .next (match s.link.posDue, s.pos.sampled with
    | some n, some b =>
      let s0 := s.updLink (fun l => { l with posDue := none })
      if b.sample / 500 = n then
        let (s1, q) := s0.nextSeq
        let s1 := s1.updLink (fun l => { l with posSeq := Map.put (fun _ => none) l.posSeq b.src (some q) })
        let s2 := (s1.sendFrame .u 0x01 q 255 (bcastBlocks b)).sendFrame .d 0x01 q 255 (bcastBlocks b)
        (s2.offerPos b true).1
      else s0
    | _, _ => s.updLink (fun l => { l with posDue := none }))

/-- The sample of the position source at the start of a chain cycle (R75, R168). -/
def State.samplePos (s : State) : State :=
  let t := s.ct / 500 * 500
  if s.reg Key.ROLE_IN_FORCE = 1 ∧ s.flag Key.POS_LOCAL_VALID then
    let s1 := s.syncDir
    s1.updPos (fun p => { p with
      sampled := some ⟨s1.localAt t, t, s1.speedAt t, p.rev, s1.addr, p.ref == RefSt.locked⟩ })
  else s.updPos (fun p => { p with sampled := none })

/-- A chain cycle ends: a cycle without accepted POS is counted once loss is judged (not in the 1 ms after a wake, R542), SEQ records end after 16, the second-source
condition ends after 16, the event allowance grows, and the source samples (R29, R63, R77, R81, R168, R169). -/
def execChainCycleEnd (s : State) : Res :=
  let r := s.recv
  let judging := r.judging && decide (s.power.quietTo ≤ s.clk)
  let missed := if r.accepted then 0 else if judging then r.missed + 1 else 0
  let s1 := if judging ∧ ¬ r.accepted then s.inc Key.POS_MISSED else s
  let s2 := s1.updRecv (fun r => { r with missed := missed, accepted := false, lost := r.lost && !r.accepted })
  let s3 := if r.accepted then s2.cause 0x1A 0 false 0 else s2
  let s4 := if 16 ≤ missed then s3.updLink (fun l => { l with posSeq := [] }) else s3
  let s5 := match r.dualAt with
    | some c => if c + 16 ≤ s.ct / 500 then (s4.cause 0x29 0 false 0).updRecv (fun r => { r with dualAt := none }) else s4
    | none => s4
  let s6 := s5.updLink (fun l => { l with tok16 := min 128 (l.tok16 + s.reg Key.EVENT_RATE) })
  whenClocked s <| .next (s6.samplePos)

/-- Has the oldest accepted broadcast reached its apply time (R77)? -/
def State.posApplyDue (s : State) : Bool :=
  match s.recv.queue with
  | [] => false
  | b :: _ => decide (b.sample + s.reg Key.POS_APPLY_DELAY ≤ s.ct)

/-- The oldest accepted broadcast comes into force at its apply time, with the take-up or step of R77. -/
def State.applyPos (s : State) : State :=
  match s.recv.queue with
  | [] => s
  | b :: rest =>
    let a := b.sample + s.reg Key.POS_APPLY_DELAY
    let d : Int := match s.recv.now with
      | none => 0
      | some f => diff 64 (b.at8 (8 * a)) (f.at8 (8 * a))
    let step : Bool := decide (256 * 65536 < d.natAbs)
    let s1 := s.updRecv (fun r => { r with
      queue := rest, now := some ⟨b, a, if step then 0 else d⟩
      past := (r.now.toList.map (fun f => (a, f)) ++ r.past).filter (fun e => decide (s.ct < e.1 + 500000)) })
    if step then s1.inc Key.POS_STEP else s1

end Sys2Proof.Machine
end

