-- ==== Sys2Proof/Machine/Grid.lean ====
section
/-! DEFINITION. The line grid, its boundaries and freeze points, the sheet queue, overspeed, and the compare units
(R176-R192, R202, R204-R210). -/

namespace Sys2Proof.Machine

/-- Changes the grid. -/
def State.updGrid (s : State) (f : Grid → Grid) : State := { s with grid := f s.grid }

/-- Is a direction a printing direction (R178)? -/
def printingDir (gridDir : Nat) (rev : Bool) : Bool :=
  match gridDir with
  | 0 => !rev
  | 1 => rev
  | _ => true

/-- Does the transport travel in a printing direction: a broadcast is in force and its DIR prints (R178)? -/
def State.printing (s : State) : Bool := s.recv.now.isSome && printingDir (s.reg Key.GRID_DIR) s.revNow

/-- The printing direction d_p: reverse (R183). -/
def State.dirPrint (s : State) : Bool :=
  match s.reg Key.GRID_DIR with
  | 0 => false
  | 1 => true
  | _ => s.revNow

/-- Sets up NEXT, GN and the band count from the present derived position (R177, R179, R183). -/
def State.setupGrid (s : State) : State :=
  let o : Nat := s.reg Key.LINE_ORIGIN * 65536
  let p : Int := s.reg Key.LINE_PITCH
  let d : Int := diff 64 (s.x64 (8 * s.ct)) o
  let rev := s.dirPrint
  let g : Int := if rev then d.fdiv p else -((-d).fdiv p)
  let next := unsgn 32 g
  let b := s.reg Key.BAND_LEN
  let ph := s.reg Key.BAND_PHASE
  let k := if rev then (next + 2 ^ 32 - ph) % 2 ^ 32 else (ph + 2 ^ 32 - next) % 2 ^ 32
  s.updGrid (fun r => { r with
    next := next, gn := unsgn 64 ((o : Int) + g * p), passRev := s.revNow, count := 1 + k % b, burst := false, passFirst := true })

/-! ## What is pending (R107–R110, R188, R189) -/

/-- Changes the skip marks of the dictionary's pending items of class `c` (ungrouped writes, closed groups, committed sessions): `f acc skip`
is the new mark. -/
def State.markDict (s : State) (c : Commit) (f : Nat → Bool → Bool) : State :=
  { s with dict := { s.dict with
      shadows := s.dict.shadows.map (fun h => if h.cls = c then { h with skip := f h.acc h.skip } else h)
      groups := (s.dict.groups.map (fun e =>
        if e.2.st = .closed ∧ e.2.cls = c then (e.1, { e.2 with skip := f e.2.acc e.2.skip }) else e))
      sessions := (s.dict.sessions.map (fun e =>
        if e.2.st = .pending ∧ e.2.cls = c then (e.1, { e.2 with skip := f e.2.acc e.2.skip }) else e)) } }

/-- Changes the marks of everything pending of class `c`, the loop's outputs included. -/
def State.markPending (s : State) (c : Commit) (f : Nat → Bool → Bool) : State :=
  let s1 := s.markDict c f
  { s1 with loop := { s1.loop with ports := s1.loop.ports.map (fun e =>
      if c = .band then (e.1, { e.2 with skip := f e.2.acc e.2.skip })
      else if c = .sheet then (e.1, { e.2 with offSkip := f e.2.offAcc e.2.offSkip }) else e) } }

/-- Changes the marks of every boundary class. -/
def State.markAll (s : State) (f : Nat → Bool → Bool) : State :=
  ((s.markPending .line f).markPending .band f).markPending .sheet f

/-- Everything pending, the loop's outputs included, counts as accepted now, behind any freeze point of this clock (R181). -/
def State.reacceptAll (s : State) : State :=
  let loop := s.loop.ports.map (fun e => (e.1, { e.2 with acc := s.clk, skip := false, offAcc := s.clk, offSkip := false }))
  { s with loop := { s.loop with ports := loop }, dict := { s.dict with
      shadows := s.dict.shadows.map (fun h => { h with acc := s.clk, skip := false })
      groups := s.dict.groups.map (fun e =>
        if e.2.st = .closed then (e.1, { e.2 with acc := s.clk, skip := false }) else e)
      sessions := s.dict.sessions.map (fun e =>
        if e.2.st = .pending then (e.1, { e.2 with acc := s.clk, skip := false }) else e) } }

/-- Freeze points reached are dropped (R181). -/
def State.dropFreeze (s : State) : State :=
  (s.markAll (fun _ _ => false)).updGrid (fun g => { g with frozenLine := false, frozenBand := false, frozenSheet := false })

/-- Has the next boundary of a class reached its freeze point (R188)? -/
def State.frozen (s : State) : Commit → Bool
  | .line => s.grid.frozenLine
  | .band => s.grid.frozenBand
  | .sheet => s.grid.frozenSheet
  | _ => false

/-- GRID_ENABLE (R177, R181, R183). -/
def State.gridEnableWrite (s : State) (old : Nat) : State :=
  let new := s.reg Key.GRID_ENABLE
  if new = old then s
  else if new = 1 then
    (((s.setupGrid).setReg Key.PASS_COUNT 0).updGrid (fun g => { g with
      since := 0, first := true, lastPos := none, evClk := none,
      frozenLine := false, frozenBand := false, frozenSheet := false })).reacceptAll
  else s.dropFreeze

/-! ## Boundaries (R182–R187) -/

/-- Is a sheet boundary each band boundary (R182, R184)? -/
def State.sheetIsBand (s : State) : Bool :=
  s.reg Key.SHEET_SOURCE == 0 || (s.reg Key.SHEET_SOURCE == 3 && s.reg Key.SHEET_LINES == 0)

/-- Does the queue's head lie at or behind grid position `gn` in the direction of travel (R187)? -/
def State.queueReached (s : State) (gn : Nat) : Bool :=
  match s.grid.queue with
  | [] => false
  | q :: _ => atOrAhead 64 gn (q * 65536) s.dirPrint

/-- Is the line NEXT a sheet boundary of a source that does not follow the bands (R184)? -/
def State.nextSheetOwn (s : State) : Bool :=
  match s.reg Key.SHEET_SOURCE with
  | 1 => s.queueReached s.grid.gn
  | 2 => s.queueReached s.grid.gn
  | 3 => s.grid.first || decide (s.reg Key.SHEET_LINES ≤ s.grid.since + 1)
  | 4 => s.grid.passFirst
  | _ => false

/-- Is the line NEXT a sheet boundary (R184, R187)? -/
def State.nextIsSheet (s : State) : Bool :=
  if s.sheetIsBand then s.grid.count == 1 else s.nextSheetOwn

/-- Is the line NEXT a band boundary (R182, R183)? -/
def State.nextIsBand (s : State) : Bool := s.grid.count == 1 || s.nextIsSheet

/-- Does the line event of NEXT occur on this clock (R178)? One a clock (R180). -/
def State.lineDue (s : State) : Bool :=
  s.flag Key.GRID_ENABLE && s.printing && s.grid.evClk != some s.clk
    && atOrAhead 64 (s.x64 (8 * s.ct)) s.grid.gn s.revNow

/-- Does the freeze condition of NEXT hold at chain time `t` (R188)? -/
def State.freezeAt (s : State) (t : Nat) : Bool :=
  match s.recv.now with
  | none => false
  | some f => s.flag Key.GRID_ENABLE && s.printing && atOrAhead 64 (f.at8 (8 * (t + 1000))) s.grid.gn s.revNow

/-- Does the freeze point of the next boundary of class `c` fall on this clock (R188)? Only that of NEXT can: F_m never falls before
the line event of m − 1. -/
def State.freezeDue (s : State) (c : Commit) : Bool :=
  !s.frozen c && s.freezeAt s.ct &&
    (match c with
     | .line => true
     | .band => s.nextIsBand
     | .sheet => s.nextIsSheet
     | _ => false)

/-- The class of FREEZE_POINT's operand. -/
def freezeClass : Fin 3 → Commit
  | 0 => .line
  | 1 => .band
  | 2 => .sheet

/-- The freeze point of the next boundary of class `c`, if it falls on this clock: what was accepted on this very clock goes to the boundary
after (R188, R189, R191). A freeze point moved to the line event before it is counted once (R188). -/
def State.freezeNow (s : State) (c : Commit) : State :=
  if s.freezeDue c then
    let s1 := s.markPending c (fun acc skip => skip || decide (s.clk ≤ acc))
    let s2 := s1.updGrid (fun g => match c with
      | .line => { g with frozenLine := true }
      | .band => { g with frozenBand := true }
      | .sheet => { g with frozenSheet := true }
      | _ => g)
    if c = .line ∧ s.grid.evClk = some s.clk ∧ s.freezeAt (s.ct - 1) then s2.inc Key.FREEZE_SHORT else s2
  else s

/-- The freeze points that fall on this clock, of whatever class: a boundary that becomes known late has its freeze point at once (R188). -/
def State.freezeAll (s : State) : State := ((s.freezeNow .line).freezeNow .band).freezeNow .sheet

/-- A freeze point (R188). -/
def execFreezePoint (cls : Fin 3) (s : State) : Res := whenClocked s <| .next (s.freezeNow (freezeClass cls))

/-- A sheet position `q` in st is queued (R186, R187); a boundary that it makes known past its freeze point freezes now (R188). -/
def State.queueSheetNow (s : State) (q : Nat) : State :=
  let rev := s.dirPrint
  let ref : Option Nat := match s.grid.queue.getLast? with
    | some l => some (l * 65536)
    | none => s.grid.lastSheet
  let near : Bool := match ref with
    | none => false
    | some r =>
      let d := diff 64 (q * 65536) r
      decide ((if rev then -d else d) < (s.reg Key.SHEET_MIN * s.reg Key.LINE_PITCH : Nat))
  let late : Bool := match s.grid.lastPos with
    | none => false
    | some l => !atOrAhead 64 (q * 65536) l rev
  if near then s.inc Key.CUE_IGNORED
  else if 16 ≤ s.grid.queue.length then (s.inc Key.SHEET_QUEUE_FULL).raise 0x2E 0
  else
    let s1 := s.updGrid (fun g => { g with queue := g.queue ++ [q] })
    (if late then s1.inc Key.SHEET_LATE else s1).freezeAll

/-- Sheet positions that waited for the line event of their clock are queued (R187). -/
def State.queueWaiting (s : State) : State :=
  s.grid.cueWait.foldl State.queueSheetNow (s.updGrid (fun g => { g with cueWait := [] }))

/-- A sheet position: one of the clock of a line event is queued after that event (R187). -/
def State.queueSheet (s : State) (q : Nat) : State :=
  if s.lineDue then s.updGrid (fun g => { g with cueWait := g.cueWait ++ [q] }) else s.queueSheetNow q

/-- An edge of a cue input is accepted, CUE_FILTER after its first sample at the new level, which is its stamp (R185). -/
def execCueEdge (input : Fin 2) (level : Bool) (s : State) : Res :=
  whenClocked s <| .next (if s.reg Key.SHEET_SOURCE ≠ 1 ∨ s.reg Key.CUE_SELECT ≠ input.val ∨ (s.reg Key.CUE_EDGE = 0) ≠ (level = true) then s
    else if s.revNow then s.inc Key.CUE_IGNORED
    else s.queueSheet (unsgn 48 ((s.derivedAt (s.ct - s.reg Key.CUE_FILTER * 500) : Int) + s.regI Key.CUE_OFFSET)))

/-- Lines from NEXT to the next sheet boundary, if one is known (R184, R187). -/
def State.sheetDistance (s : State) : Option Nat :=
  if ¬ s.flag Key.GRID_ENABLE then none
  else if s.sheetIsBand then some (s.grid.count - 1)
  else match s.reg Key.SHEET_SOURCE with
    | 3 => some (if s.grid.first then 0 else s.reg Key.SHEET_LINES - (s.grid.since + 1))
    | 4 => if s.grid.passFirst then some 0 else none
    | _ =>
      match s.grid.queue with
      | [] => none
      | q :: _ =>
        let d := diff 64 (q * 65536) s.grid.gn
        let a := if s.dirPrint then -d else d
        some (if a ≤ 0 then 0 else ceilDiv a.toNat (s.reg Key.LINE_PITCH))

/-- Line `k` lines from NEXT in the printing direction. -/
def State.lineAhead (s : State) (k : Nat) : Nat :=
  unsgn 32 (if s.dirPrint then (s.grid.next : Int) - k else (s.grid.next : Int) + k)

/-- NEXT_BAND_LINE (R213). -/
def State.nextBandLine (s : State) : Nat :=
  s.lineAhead (match s.sheetDistance with
    | some k => min k (s.grid.count - 1)
    | none => s.grid.count - 1)

/-- NEXT_SHEET_LINE (R213). -/
def State.nextSheetLine (s : State) : Nat :=
  match s.sheetDistance with
  | none => 0xFFFFFFFF
  | some k => s.lineAhead k

/-- NEXT_LINE_CT: the first whole ct from now at which the derived position in force, extrapolated with what is left of its take-up, lies at or
ahead of GN (R76, R77, R191). -/
def State.nextLineCt (s : State) : Nat :=
  match s.recv.now with
  | none => 0
  | some f =>
    let d := diff 64 s.grid.gn (f.b.pos * 65536)
    let a := if f.b.rev then -d else d
    let taken := f.a + 500
    if ¬ s.flag Key.GRID_ENABLE ∨ ¬ s.printing then 0
    else match (List.range (taken - s.ct)).find? (fun i => atOrAhead 64 (f.at8 (8 * (s.ct + i : Nat))) s.grid.gn s.revNow) with
      | some i => s.ct + i
      | none =>
        if f.b.speed = 0 then 0
        else max (max s.ct taken) ((f.b.sample : Int) - (-(a * 500)).fdiv (f.b.speed : Int)).toNat

/-- FREEZE_STATE (R191). -/
def State.freezeState (s : State) : Nat :=
  b2n s.grid.frozenLine + 2 * b2n s.grid.frozenBand + 4 * b2n s.grid.frozenSheet

/-! ## Overspeed (R202) -/

/-- The overspeed indications of port `p` at a line event (R202): pitch × 4,000 against T_min × speed. -/
def State.overspeedPort (p : Nat) (s : State) : State :=
  let per := s.reg Key.LINE_PITCH * 4000
  let lim := s.reg (Key.MIN_FIRE_PERIOD p) * s.speedNow
  let fast := if per * 95 < 100 * lim then Map.get (fun _ => 0) s.grid.fast p + 1 else 0
  let slow := if 100 * lim ≤ per * 93 then Map.get (fun _ => 0) s.grid.slow p + 1 else 0
  let was := bit (s.reg Key.OVERSPEED_WARN_PORTS) p
  let s1 := (s.setRegBit Key.OVERSPEED_PORTS p (decide (per < lim))).updGrid (fun g => { g with
    fast := Map.put (fun _ => 0) g.fast p fast, slow := Map.put (fun _ => 0) g.slow p slow })
  if ¬ was ∧ 16 ≤ fast then (s1.setRegBit Key.OVERSPEED_WARN_PORTS p true).cause 0x2D p true p
  else if was ∧ 16 ≤ slow then (s1.setRegBit Key.OVERSPEED_WARN_PORTS p false).cause 0x2D p false p
  else s1

/-- Overspeed of every port. -/
def State.overspeed (s : State) : State := s.forEach (List.range s.nPorts) State.overspeedPort

/-! ## Passes (R179) and the broadcast coming into force -/

/-- A change of the direction in force under GRID_DIR 2 starts a new pass (R179). Freeze points reached stay in force (R188). -/
def State.passStart (s : State) : State :=
  if s.flag Key.GRID_ENABLE ∧ s.reg Key.GRID_DIR = 2 ∧ s.revNow ≠ s.grid.passRev then
    (s.inc Key.PASS_COUNT).setupGrid
  else s

/-! ## Compare units (R204–R210) -/

/-- Fields of CMP_CTRL (R205). -/
def State.cmpCtrl (s : State) (c : Nat) : Nat := s.reg (Key.CMP_CTRL c)

/-- ACTION, ARG, KIND of unit `c`. -/
def State.cmpAction (s : State) (c : Nat) : Nat := bits (s.cmpCtrl c) 15 12
def State.cmpArg (s : State) (c : Nat) : Nat := bits (s.cmpCtrl c) 23 16
def State.cmpLine (s : State) (c : Nat) : Bool := bit (s.cmpCtrl c) 9

/-- The evaluated position of unit `c` with its 16 fraction bits (R76, R206). -/
def State.cmpPos (s : State) (c : Nat) : Nat := s.x64 (8 * (s.ct + s.reg (Key.CMP_ADVANCE c)))

/-- TARGET of a unit of KIND 0 with the fraction carried (R209), in st × 2^−16. -/
def State.cmpTgt (s : State) (c : Nat) : Nat := s.reg (Key.CMP_TARGET c) * 65536 + (s.cmp c).frac

/-- TARGET against the present place, or against the last line event for KIND 1, in the direction in force: positive ahead, 0 at,
negative behind (R208). -/
def State.cmpAhead (s : State) (c : Nat) : Int :=
  let d := if s.cmpLine c then diff 32 (s.reg (Key.CMP_TARGET c)) (s.reg Key.LINE_NOW) else diff 64 (s.cmpTgt c) (s.cmpPos c)
  if s.revNow then -d else d

/-- Sets and clears bits of CMP_STATUS: SKIPPED 3, STALE 2, DONE 1, FIRED 0 (R214). -/
def State.cmpFlag (s : State) (c i : Nat) (b : Bool) : State := s.setRegBit (Key.CMP_STATUS c) i b

/-- Unit `c` is armed: fires on the next clock, is armed, or is stale (R208). -/
def State.cmpArm (s : State) (c : Nat) : State :=
  let a := s.cmpAhead c
  let s1 := s.setReg (Key.CMP_STATUS c) (Nat.land (s.reg (Key.CMP_STATUS c)) 8)
  if a = 0 ∨ (a < 0 ∧ bit (s.cmpCtrl c) 7) then
    s1.updCmp c (fun r => { r with armed := true, fireAt := some (s.clk + 1), prev := s.cmpPos c })
  else if 0 < a then s1.updCmp c (fun r => { r with armed := true, fireAt := none, prev := s.cmpPos c })
  else (s1.updCmp c (fun r => { r with armed := false, fireAt := none })).cmpFlag c 2 true

/-- CMP_CTRL written: ENABLE from 0 to 1 arms, ENABLE 0 disarms (R205, R208). -/
def State.cmpCtrlWrite (s : State) (c old : Nat) : State :=
  if bit (s.cmpCtrl c) 0 then (if bit old 0 then s else s.cmpArm c)
  else s.updCmp c (fun r => { r with armed := false, fireAt := none })

/-- CMP_TARGET written: arms while ENABLE is 1 (R208, R210). -/
def State.cmpTargetWrite (s : State) (c : Nat) : State :=
  let s1 := s.updCmp c (fun r => { r with frac := 0 })
  if bit (s1.cmpCtrl c) 0 then s1.cmpArm c else s1

/-- Would arming unit `c` with CMP_CTRL `ctrl` meet a period that does not move TARGET (R209, R214)? -/
def State.cmpBadPeriod (s : State) (c ctrl : Nat) : Bool :=
  let per := s.reg (Key.CMP_PERIOD c)
  bit ctrl 8 && (if bit ctrl 9 then per / 65536 == 0 else per == 0)

/-- Is CMP_CTRL `v` in range (R205, R207, R209)? -/
def State.cmpCtrlRange (s : State) (c v : Nat) : Bool :=
  let act := bits v 15 12
  let arg := bits v 23 16
  let argOk : Bool :=
    if act = 3 ∨ act = 4 ∨ act = 5 ∨ act = 6 then decide (arg ≤ 7)
    else if act = 7 then decide (arg ≤ 31) else if act = 8 then decide (arg ≤ 3) else arg == 0
  decide (act ≤ 8) && argOk && decide (bits v 11 10 ≠ 3)
    && !(bit v 0 && !bit (s.cmpCtrl c) 0 && s.cmpBadPeriod c v)

/-- Does the evaluated position pass TARGET on this clock in a permitted direction (R206)? -/
def State.cmpPasses (s : State) (c : Nat) : Bool :=
  let tgt := s.cmpTgt c
  let a := diff 64 tgt (s.cmp c).prev
  let b := diff 64 (s.cmpPos c) tgt
  let dir := bits (s.cmpCtrl c) 11 10
  (decide (dir ≠ 1) && decide (0 < a) && decide (0 ≤ b)) || (decide (dir ≠ 0) && decide (a < 0) && decide (b ≤ 0))

/-- Does unit `c` fire on this clock (R206, R208)? -/
def State.cmpDue (s : State) (c : Nat) : Bool :=
  (s.cmp c).armed &&
    ((match (s.cmp c).fireAt with
      | some t => decide (t ≤ s.clk)
      | none => false) || (!s.cmpLine c && s.cmpPasses c))

/-- The evaluated positions of this clock become those of the previous clock (R206). -/
def State.cmpTick (s : State) : State :=
  { s with cmps := s.cmps.map (fun e => if e.2.armed then (e.1, { e.2 with prev := s.cmpPos e.1 }) else e) }

/-- TARGET of a periodic unit after a firing (R209): whole and fraction, moved `k` periods, until ahead. -/
def State.cmpAdvance (s : State) (c : Nat) : State :=
  let line := s.cmpLine c
  let rev := s.revNow
  let per0 := s.reg (Key.CMP_PERIOD c)
  let per : Nat := if line then per0 / 65536 * 65536 else per0
  let t0 : Nat := s.reg (Key.CMP_TARGET c) * 65536 + (if line then 0 else (s.cmp c).frac)
  let here : Nat := if line then s.reg Key.LINE_NOW * 65536 else s.cmpPos c
  let w := if line then 48 else 64
  let gap : Int := (if rev then -1 else 1) * diff w here t0
  let k : Nat := if per = 0 then 1 else (max 1 (gap.fdiv (per : Int) + 1)).toNat
  let t1 : Nat := unsgn w ((t0 : Int) + (if rev then -1 else 1) * ((k * per : Nat) : Int))
  let s1 := (s.setReg (Key.CMP_TARGET c) (t1 / 65536)).updCmp c (fun r => { r with frac := t1 % 65536 })
  if 1 < k then (s1.addReg (Key.CMP_SKIPPED c) (k - 1)).cmpFlag c 3 true else s1

/-- The unit is done: ENABLE cleared, DONE set (R209). -/
def State.cmpDone (s : State) (c : Nat) : State :=
  ((s.setRegBit (Key.CMP_CTRL c) 0 false).updCmp c (fun r => { r with armed := false, fireAt := none })).cmpFlag c 1 true

/-- What follows a firing (R209). -/
def State.cmpAfter (s : State) (c : Nat) : State :=
  if ¬ bit (s.cmpCtrl c) 8 then s.cmpDone c
  else
    let s1 := (s.cmpAdvance c).updCmp c (fun r => { r with fireAt := none, prev := s.cmpPos c })
    let n := s1.reg (Key.CMP_REPEAT c)
    if n = 0 then s1
    else
      let s2 := s1.setReg (Key.CMP_REPEAT c) (n - 1)
      if n = 1 then s2.cmpDone c else s2

/-- Ends every pulse of output `k`, whichever unit began it: a clear falls within it (R210). -/
def State.endPulses (s : State) (k : Nat) : State :=
  s.forEach (List.range 32) (fun c s =>
    if (s.cmp c).pulses.any (fun e => e.1 == k) then s.updCmp c (fun r => { r with pulses := r.pulses.filter (fun e => e.1 ≠ k) }) else s)

/-- Sets the level of GPO `k` that the compare units drive. -/
def State.setGpo (s : State) (k : Nat) (b : Bool) : State := { s with gpo := setBit s.gpo k b }

/-- Sets a camera trigger output. -/
def State.setTrig (s : State) (cam : Nat) (b : Bool) : State := { s with camTrig := setBit s.camTrig cam b }

/-- GPO and camera trigger actions of unit `c`: ACTION 0–6 (R207, R210). -/
def State.cmpPinAction (s : State) (c : Nat) : State :=
  let arg := s.cmpArg c
  let w := s.ct + s.reg (Key.CMP_WIDTH c)
  match s.cmpAction c with
  | 0 => s
  | 3 => s.setGpo arg true
  | 4 => (s.endPulses arg).setGpo arg false
  | 5 => (if bit s.gpo arg then s.endPulses arg else s).setGpo arg (!bit s.gpo arg)
  | 6 => (s.setGpo arg true).updCmp c (fun r => { r with pulses := r.pulses ++ [(arg, w)] })
  | a =>
    if a = 1 ∨ a = 2 then
      if bit s.camTrig (a - 1) then (s.inc (Key.CMP_SKIPPED c)).cmpFlag c 3 true
      else (s.setTrig (a - 1) true).updCmp c (fun r => { r with pulses := r.pulses ++ [(a + 7, w)] })
    else s

/-- The end of a unit's pulse or camera trigger is reached (R207). -/
def State.cmpPulseDue (s : State) (c : Nat) : Bool := (s.cmp c).pulses.any (fun e => decide (e.2 ≤ s.ct))

/-- Output `o` is cleared: its pulses end with it (R207, R210). -/
def State.clearOutput (s : State) (o : Nat) : State :=
  if o < 8 then (s.endPulses o).setGpo o false else (s.endPulses o).setTrig (o - 8) false

/-- The pulses of a unit that have reached their end (R207, R210). -/
def execCmpPulseEnd (c : Fin 32) (s : State) : Res :=
  whenClocked s <| .next (((s.cmp c).pulses.filter (fun e => decide (e.2 ≤ s.ct))).foldl (fun s e => s.clearOutput e.1) s)

/-- GPO_LEVEL: after GPO_FORCE and before GPO_INVERT (R210, R213). -/
def State.gpoLevel (s : State) : Nat :=
  let f := s.reg Key.GPO_FORCE
  nsum ((List.range 8).map (fun k => b2n (if bit f (8 + k) then bit f k else bit s.gpo k) * 2 ^ k))

/-- The levels of the GPO balls: GPO_LEVEL, inverted where GPO_INVERT says so (R213). -/
def State.gpoBalls (s : State) : Nat := Nat.xor s.gpoLevel (s.reg Key.GPO_INVERT)

/-- The levels of the CAM1_TRIG and CAM0_TRIG balls: low while asserted where CAM_TRIG_INVERT says so (R213). -/
def State.camTrigBalls (s : State) : Nat := Nat.xor (s.camTrig % 4) (s.reg Key.CAM_TRIG_INVERT % 4)

end Sys2Proof.Machine
end

