-- ==== Sys2Proof/Machine/Memory.lean ====
section
/-! DEFINITION. The Scratch Banks and bulk memory (R436-R451). -/

namespace Sys2Proof.Machine

/-- Changes the memories. -/
def State.updMem (s : State) (f : Mem → Mem) : State := { s with mem := f s.mem }

/-! ## The loop's state in banks 14 and 15 (R426, R438, R441) -/

/-- An entry of LOOP_MAP (R255). -/
def loopEnt (dead : Bool) (trim : Int) : Nat := b2n dead * 2 ^ 23 + unsgn 10 trim

/-- The pending LOOP_MAP entry of a nozzle (R426). -/
def LoopPort.ent (r : LoopPort) (i : Nat) : Nat := Map.get (fun _ => 0) r.pend i
def LoopPort.dead (r : LoopPort) (i : Nat) : Bool := bit (r.ent i) 23
def LoopPort.trim (r : LoopPort) (i : Nat) : Int := sgn 10 (r.ent i)

/-- What the loop keeps of a nozzle. -/
def LoopPort.nozzle (r : LoopPort) (i : Nat) : NozSt := Map.get (fun _ => {}) r.noz i

/-- Changes a pending entry; the image is ready at clock `clk`, behind the freeze point when `skip` (R34, R426). -/
def LoopPort.setEnt (r : LoopPort) (clk : Nat) (skip : Bool) (i v : Nat) : LoopPort :=
  if r.ent i = v then r
  else { r with pend := Map.put (fun _ => 0) r.pend i v, dirty := true, acc := clk, skip := skip }

/-- Nozzle `i` of port `p` after word `x` stands as `w` for it: 0 stands for state OK with zero runs and no LOOP_DEAD (R441). Which word holds which
nozzle, and how, is free (log 49). -/
def LoopPort.take (clk : Nat) (skip : Bool) (x : Nat) (w : Word) (p : Nat) (r : LoopPort) (i : Nat) : LoopPort :=
  if Config.loopHolds x p i then
    let c := (Config.loopCell x w p i).toNat
    let live := w != 0
    let n := { r.nozzle i with st := b2n live * bits c 1 0, miss := b2n live * bits c 5 2, ok := b2n live * bits c 9 6 }
    { r with noz := Map.put (fun _ => {}) r.noz i n }.setEnt clk skip i (loopEnt (live && bit c 10) (sgn 10 (bits c 20 11)))
  else r

/-- Word `x` of the plain window stands as `w` for the loop, where it is one of banks 14 and 15 (R438, R441). -/
def State.loopWord (s : State) (x : Nat) (w : Word) : State :=
  if x < 0xE0000 then s
  else s.forEach (List.range s.nPorts) (fun p t => t.updLport p (fun r =>
    (List.range 2304).foldl (LoopPort.take s.clk s.grid.frozenBand x w p) r))

/-! ## Scratch Banks (R438–R442) -/

/-- Word `x` of the plain window. -/
def State.scratchWord (s : State) (x : Nat) : Word := Map.get (fun _ => 0) s.mem.scratch x

/-- Puts word `x`, with fresh check bits (R441). -/
def State.putScratch (s : State) (x : Nat) (w : Word) : State :=
  s.updMem (fun m => { m with
    scratch := Map.put (fun _ => 0) m.scratch x w, scratchErr := Map.put (fun _ => 0) m.scratchErr x 0 })

/-- 0 clean, 1 correctable, 2 uncorrectable. -/
def State.scratchBad (s : State) (x : Nat) : Nat := Map.get (fun _ => 0) s.mem.scratchErr x

/-- Is the on-chip address in a window of the Scratch Banks (R436)? -/
def inScratch (a : Nat) : Bool := decide (a < 0x300000)

/-- A read of word `x` at a port, its errors counted (R441). -/
def State.readScratch (s : State) (portB : Bool) (x : Nat) : State × BusResp :=
  match s.scratchBad x with
  | 0 => (s, .word (s.scratchWord x))
  | 1 => ((s.inc Key.SCRATCH_CE).raise 0x5C 0, .word (s.scratchWord x))
  | _ =>
    let t := ((s.inc Key.SCRATCH_UE).setReg Key.SCRATCH_LAST_ERR x).raise 0x5D 0
    if portB then (t.loopWord x 0, .word 0) else (t, .uncorrectable)

/-- A write through window 0 (plain), 1 (bit set) or 2 (bit clear) (R439, R441). One of port A to banks 14 and 15 changes the loop's working state
(R438). -/
def State.writeScratch (s : State) (portB : Bool) (a : Nat) (v : Word) : State × BusResp :=
  let x := a % 0x100000
  let put := fun (s : State) (w : Word) => if portB then s.putScratch x w else (s.putScratch x w).loopWord x w
  if a / 0x100000 = 0 then (put s v, .done)
  else
    let r := s.readScratch portB x
    if s.scratchBad x = 2 then r
    else (put r.1 (if a / 0x100000 = 1 then s.scratchWord x ||| v else s.scratchWord x &&& ~~~v), .done)

/-- An access of port A at address `a` is counted by the programmable counters of its bank (R548). -/
def State.portA (s : State) (a : Nat) : State := s.pmc 0x0C (2 ^ (a / 65536 % 16)) 1

/-- One access at a port (R438, R439). -/
def State.accessScratch (s : State) (portB : Bool) (a : ScratchAcc) : State × BusResp :=
  if ¬ inScratch a.addr then (s, .busError)
  else
    let s1 := if portB then s else s.portA a.addr
    if a.write then s1.writeScratch portB a.addr a.data else s1.readScratch portB (a.addr % 0x100000)

/-- Do two accesses write the same word (R440)? -/
def scratchCollide (a b : ScratchAcc) : Bool :=
  a.write && b.write && inScratch a.addr && inScratch b.addr && a.addr % 0x100000 == b.addr % 0x100000

/-- Has port B written word `x` on this clock, or is it about to (R440)? -/
def State.portBHits (s : State) (x : Nat) : Bool :=
  s.mem.portB.contains (s.clk, x) || s.pending.any (fun c => match c with
    | .scratchAccess _ (some b) => b.write && inScratch b.addr && b.addr % 0x100000 == x
    | _ => false)

/-- A write of port B is remembered for its clock (R440). -/
def State.markB (s : State) (b : Option ScratchAcc) : State :=
  match b.filter (fun y => y.write && inScratch y.addr) with
  | none => s
  | some y => s.updMem (fun m => { m with portB := (s.clk, y.addr % 0x100000) :: m.portB.filter (fun e => e.1 = s.clk) })

/-- Accesses of the two ports on one clock: reads see the words before the clock, and port B wins two writes (R440). -/
def State.scratchPorts (s : State) (a b : Option ScratchAcc) : State :=
  match a, b with
    | none, none => s
    | some x, none => let r := s.accessScratch false x; r.1.emit (.scratch false r.2)
    | none, some y => let r := s.accessScratch true y; r.1.emit (.scratch true r.2)
    | some x, some y =>
      if scratchCollide x y then
        let r := (s.portA x.addr).accessScratch true y
        ((r.1.inc Key.SCRATCH_COLLISIONS).emit (.scratch false .collided)).emit (.scratch true r.2)
      else if x.write then
        let r := s.accessScratch true y
        let q := r.1.accessScratch false x
        (q.1.emit (.scratch false q.2)).emit (.scratch true r.2)
      else
        let q := s.accessScratch false x
        let r := q.1.accessScratch true y
        (r.1.emit (.scratch false q.2)).emit (.scratch true r.2)

/-- One access of each port of the Scratch Banks (R438–R441). -/
def execScratchAccess (a : Option ScratchAcc) (b : Option ScratchAcc) (s : State) : Res :=
  whenClocked s <| .next ((s.scratchPorts a b).markB b)

/-- The scrubber visits one word: a correctable error is corrected, an uncorrectable one counted and left (R441, R442). -/
def execScrubVisit (s : State) : Res :=
  let x := s.mem.scrubAddr
  let r := (s.readScratch false x).1
  let r1 := if s.scratchBad x = 1 then r.putScratch x (s.scratchWord x) else r
  whenClocked s <| .next (r1.updMem (fun m => { m with scrubAddr := (x + 1) % 0x100000 }))

/-! ## Bulk memory (R437, R443–R450) -/

/-- BM_STATE READY. -/
def State.bmReady (s : State) : Bool := s.reg Key.BM_STATE == 2

/-- Training of start-up has not begun, or a training is running (R449, R557). -/
def State.bmTraining (s : State) : Bool := decide (s.reg Key.BM_STATE ≤ 1)

/-- Does every access wait: for training, or for the tracking check after a rest (R449, R542)? -/
def State.bmHolds (s : State) : Bool := s.bmTraining || s.mem.checkDue

/-- Word at offset `a`; free where nothing has been written since the contents were last undefined (R449, R565; log 5). -/
def State.bulkWord (s : State) (a : Nat) : Word :=
  match Map.get (fun _ => none) s.mem.bulk a with
  | some w => w
  | none => Config.bulkWord s.mem.gen a

/-- 0 clean, 1 correctable, 2 uncorrectable. -/
def State.bulkBad (s : State) (a : Nat) : Nat := Map.get (fun _ => 0) s.mem.bulkErr a

/-- An access at or beyond BM_CAPACITY (R437). -/
def State.bmOutOfRange (s : State) : State := (s.inc Key.BM_OUT_OF_RANGE).raise 0x60 0

/-- Reads the word at offset `a`; none where it is marked uncorrectable or the window answers with a bus error (R437, R443, R449). -/
def State.readBulk (s : State) (a : Nat) : State × Option Word :=
  if ¬ s.bmReady then (s, none)
  else if s.reg Key.BM_CAPACITY ≤ a then (s.bmOutOfRange, none)
  else match s.bulkBad a with
    | 0 => (s, some (s.bulkWord a))
    | 1 => ((s.inc Key.BM_CE).raise 0x5E 0, some (s.bulkWord a))
    | _ => (((s.inc Key.BM_UE).setReg Key.BM_LAST_ERR a).raise 0x5F 0, none)

/-- Puts a word at offset `a`, with fresh check bits. -/
def State.putBulk (s : State) (a : Nat) (w : Word) : State :=
  s.updMem (fun m => { m with
    bulk := Map.put (fun _ => none) m.bulk a (some w), bulkErr := Map.put (fun _ => 0) m.bulkErr a 0 })

/-- Writes the word at offset `a`; it waits while training runs, and is discarded where the memory does not back it (R437, R449). -/
def State.writeBulk (s : State) (a : Nat) (w : Word) : State :=
  if s.bmHolds then s.updMem (fun m => { m with waiting := m.waiting ++ [(a, w)] })
  else if ¬ s.bmReady then s
  else if s.reg Key.BM_CAPACITY ≤ a then s.bmOutOfRange
  else s.putBulk a w

/-- Writes words at successive offsets. -/
def State.writeBulks (s : State) (a : Nat) (ws : List Word) : State :=
  (ws.zipIdx).foldl (fun s p => s.writeBulk (a + p.2) p.1) s

/-- Bursts of 8 words that the words `a … a + n − 1` lie in (R443). -/
def burstsOf (a n : Nat) : Nat := if n = 0 then 0 else (a + n - 1) / 8 - a / 8 + 1

/-- Programmable counters: `n` words at `a` read (or written) for consumer `who` in the order of R36 (R548). -/
def State.pmcBulk (s : State) (write : Bool) (who a n : Nat) : State :=
  s.pmc (if write then 9 else 8) (2 ^ who) (burstsOf a n)

/-- Where an offset lies in the SDRAM devices (R444). -/
structure SdramAddr where
  beat : Nat
  group : Nat
  column : Nat
  bank : Nat
  row : Nat
deriving DecidableEq, Repr

/-- The address decode of a density; `column` counts the beat (R444). -/
def bmDecode (density a : Nat) : SdramAddr :=
  { beat := bits a 2 0, group := bits a 4 3, column := bits a 11 5 * 8 + bits a 2 0, bank := bits a 13 12
    row := if density = 0 then bits a 29 14 else bits a 30 14 }

/-- Capacity of a density (R444). -/
def bmCapacityOf (density : Nat) : Nat := if density = 0 then 0x40000000 else 0x80000000

/-- Training begins: BM_STATE TRAINING, contents undefined (R449). -/
def State.bmTrainBegin (s : State) : State :=
  let s1 := (((s.setReg Key.BM_STATE 1).setReg Key.BM_CAPACITY 0).setReg Key.BM_TRAIN_FAIL 0).cause 0x62 0 false 0
  { s1.updMem (fun m => { m with
      bulk := [], bulkErr := [], waiting := [], checkDue := false, gen := s.free, density := s.reg Key.BM_DENSITY, scrubBurst := 0, alerts := [] }) with
    free := s.free + 1 }

/-- Bulk memory serves again, or is known to have failed: the writes that waited are made in order (R445, R449, R451). -/
def State.bmServe (s : State) : State :=
  s.mem.waiting.foldl (fun s e => s.writeBulk e.1 e.2)
    ((s.updMem (fun m => { m with waiting := [], checkDue := false })).forEach [0, 1] (fun c s => s.updCam c (fun r => { r with capHeld := 0 })))

/-- Training ends: READY, or FAILED with the lanes of `failMask`; BM_CONTROL reads 0 (R449, R453). -/
def execBmTrainingDone (failMask : BitVec 10) (s : State) : Res :=
  let s0 := s.setReg Key.BM_CONTROL 0
  whenClocked s <| .next (if ¬ s.bmTraining then s
    else if failMask = 0 then
      ((((s0.setReg Key.BM_STATE 2).setReg Key.BM_TRAIN_FAIL 0).setReg Key.BM_CAPACITY (bmCapacityOf s.mem.density)).bmServe).cause 0x62 0 false 0
    else (((s0.setReg Key.BM_STATE 3).setReg Key.BM_TRAIN_FAIL failMask.toNat).bmServe).cause 0x62 0 true 0)

/-- ALERT_n: counted; four within 1 ms, 500,000 clocks, raise bulk-memory-link (R446). -/
def execBmAlert (s : State) : Res :=
  let l := s.clk :: s.mem.alerts.filter (fun t => decide (s.clk < t + 500000))
  let s1 := s.inc Key.BM_PAR_RETRY
  whenClocked s <| .next (if 4 ≤ l.length then (s1.updMem (fun m => { m with alerts := [] })).raise 0x61 0
    else s1.updMem (fun m => { m with alerts := l }))

/-- A refresh is issued; a change of BM_REFRESH takes effect (R448). -/
def execBmRefresh (s : State) : Res :=
  whenClocked s <| .next (if s.bmReady then s.updMem (fun m => { m with refresh := s.reg Key.BM_REFRESH }) else s)

/-- One word of a scrubbed burst: a correctable error is written back corrected (R443, R448). -/
def State.scrubWord (a : Nat) (s : State) : State :=
  let r := (s.readBulk a).1
  if s.bulkBad a = 1 then r.putBulk a (s.bulkWord a) else r

/-- The bulk memory scrubber reads one burst of 8 words (R448). -/
def execBmScrubRead (s : State) : Res :=
  let a := s.mem.scrubBurst
  whenClocked s <| .next (if s.bmReady ∧ s.reg Key.BM_SCRUB_INTERVAL ≠ 0 then
    (s.forEach ((List.range 8).map (a + ·)) State.scrubWord).updMem (fun m => { m with
      scrubBurst := if s.reg Key.BM_CAPACITY ≤ a + 8 then 0 else a + 8 })
  else s)

/-- Does a write of BM_CONTROL that starts a training wait on this clock (R451)? -/
def State.trainsNow (s : State) : Bool :=
  !s.armed && s.pending.any (fun c => match c with
    | .bmControl r => bit ((r.frame.data.headD 0).toNat) 0
    | _ => false)

/-- A read centring check: an eye moved by more than a quarter is corrected by one step, and bulk memory serves after a rest (R450, R542). It is
abandoned where training runs or begins on its clock (R451). -/
def execBmTrackCheck (moved : Bool) (s : State) : Res :=
  whenClocked s <| .next (if s.bmReady ∧ ¬ s.trainsNow then
    let s1 := if moved then s.inc Key.BM_TRACK_ADJ else s
    if s1.mem.checkDue then s1.bmServe else s1
  else s)

/-- A ZQ short calibration changes nothing in the array (R450). -/
def execBmZqShort (s : State) : Res := .next s

end Sys2Proof.Machine
end

