-- ==== Sys2Proof/Machine/Ingress.lean ====
section
/-! DEFINITION. Raster ingress, the Delay Store, the acceptance window, and the gather of the Line Assembler (R216-R247). -/

namespace Sys2Proof

/-- Fields of a packet (R218). -/
def RasterHdr.line (h : RasterHdr) : Nat := Machine.bits h.rsop.toNat 63 32
def RasterHdr.plane (h : RasterHdr) : Nat := Machine.bits h.rsop.toNat 31 28
def RasterHdr.pass (h : RasterHdr) : Nat := Machine.bits h.rsop.toNat 27 24
def RasterHdr.pseq (h : RasterHdr) : Nat := Machine.bits h.rsop.toNat 23 16
def RasterHdr.offset (h : RasterHdr) : Nat := Machine.bits h.first.toNat 63 44
def RasterHdr.slice (h : RasterHdr) : Nat := Machine.bits h.first.toNat 43 41
def RasterHdr.nwords (h : RasterHdr) : Nat := Machine.bits h.first.toNat 40 35

end Sys2Proof

namespace Sys2Proof.Machine

/-- Changes the ingress side. -/
def State.updIngress (s : State) (f : Ingress → Ingress) : State := { s with ingress := f s.ingress }

/-! ## Layout (R223–R227) -/

/-- Samples per word, bits from sample to sample, bits of a value (R224). -/
def State.spw (s : State) : Nat := match s.reg Key.INGRESS_MODE with | 0 => 9 | 1 => 6 | _ => 36
def State.sampleStep (s : State) : Nat := match s.reg Key.INGRESS_MODE with | 0 => 8 | 1 => 12 | _ => 2
def State.sampleBits (s : State) : Nat := match s.reg Key.INGRESS_MODE with | 0 => 8 | 1 => 10 | _ => 2

/-- CI_q, L_s, LW_q of a plane (R223, R225). -/
def State.planeCi (s : State) (q : Nat) : Nat := s.reg (Key.PLANE_INTERLEAVE q)
def State.sliceWords (s : State) (q : Nat) : Nat := ceilDiv (ceilDiv (s.reg (Key.PLANE_WIDTH q)) (s.planeCi q)) s.spw
def State.lineWords (s : State) (q : Nat) : Nat := s.planeCi q * s.sliceWords q + 1

/-- Is plane `q` enabled? -/
def State.planeOn (s : State) (q : Nat) : Bool := bit (s.reg Key.PLANE_ENABLE) q

/-- Banks of a plane (R225). -/
def State.planeBanks (s : State) : Nat := if s.reg Key.GRID_DIR = 2 then 2 else 1

/-- Words of plane `q` in the Delay Store; none when it is not enabled (R225). -/
def State.planeSize (s : State) (q : Nat) : Nat :=
  if s.planeOn q then s.planeBanks * s.reg (Key.PLANE_DEPTH q) * s.lineWords q else 0

/-- DS_USED (R225). -/
def State.dsUsed (s : State) : Nat := nsum ((List.range 16).map s.planeSize)

/-- PLANE_START_q (R225). -/
def State.planeStart (s : State) (q : Nat) : Nat := s.reg Key.DS_BASE + nsum ((List.range q).map s.planeSize)

/-- `n − m` modulo 2^32. -/
def diff32 (n m : Nat) : Nat := (n + 2 ^ 32 - m % 2 ^ 32) % 2 ^ 32

/-- Slot of line `n` of pass `pass` in plane `q` (R226, R234). -/
def State.slotOf (s : State) (q n pass : Nat) : Nat :=
  let d := s.reg (Key.PLANE_DEPTH q)
  if s.reg Key.GRID_DIR = 2 then pass % 2 * d + diff32 n (s.reg (Key.PLANE_FIRST_LINE q))
  else
    let p := s.plane q
    (((p.slotRef : Int) + diff 32 n p.nRef) % (d : Int)).toNat

/-- Address of the tag of a slot. -/
def State.tagAddr (s : State) (q slot : Nat) : Nat := s.planeStart q + slot * s.lineWords q

/-- A tag (R227). -/
def tagWord (line pass : Nat) (complete : Bool) : Word :=
  BitVec.ofNat 72 (fld line 32 40 + fld pass 4 36 + fld (b2n complete) 1 35)

/-- Writes every tag of slots `lo … lo + n − 1` of plane `q` with COMPLETE = 0 (R229, R234). -/
def State.clearTags (s : State) (q lo n : Nat) : State :=
  s.forEach (List.range n) (fun k s => s.writeBulk (s.tagAddr q (lo + k)) (tagWord 0 0 false))

/-! ## Pending values (R230) -/

/-- The last of a list of values with their places in the order of acceptance; of equal places the later in the list. -/
def lastTaken {α : Type} : List (Nat × α) → Option (Nat × α)
  | [] => none
  | e :: l => match lastTaken l with
    | none => some e
    | some x => if x.1 < e.1 then some e else some x

/-- The pending value of object `key`, if it has one: that of the last write accepted, ungrouped or in a closed group (R109). -/
def State.pendingVals (s : State) (key : Nat) : List Nat :=
  (lastTaken ((s.dict.shadows.filter (fun h => h.key = key)).map (fun h => (h.order, h.val))
    ++ (s.dict.groups.filter (fun e => e.2.st = .closed)).flatMap (fun e =>
      e.2.entries.filterMap (fun x => match x with
        | .write k v => if k = key then some (e.2.order, v) else none
        | .session _ => none)))).toList.map (fun e => e.2)

/-- The pending image of table `index`, if it has one: that of the last session committed, ungrouped or in a closed group. -/
def State.pendingTabs (s : State) (index : Nat) : List Session :=
  (lastTaken ((s.dict.sessions.filter (fun e => e.2.index = index ∧
    (e.2.st = .pending ∨ (e.2.st = .complete ∧ (s.group e.2.group).st = .closed)))).map (fun e =>
      (if e.2.st = .pending then e.2.order else (s.group e.2.group).order, e.2)))).toList.map (fun e => e.2)

/-! ## Geometry (R236, R237) -/

/-- ROWMAX of the nozzle entries listed in words below `len` (R236); unlisted entries have ROW 0. -/
def rowMax (len : Nat) (ws : List (Nat × Nat)) : Nat :=
  ws.foldl (fun m p =>
    if p.1 < len ∧ p.1 < 768 then
      [0, 24, 48].foldl (fun m lo => if bit p.2 (lo + 23) then m else max m (bits p.2 (lo + 7) lo)) m
    else m) 0

/-- ROWMAX_p in force. -/
def State.rowMaxOf (s : State) (p : Nat) : Nat :=
  let t := s.tab (0x4000 + 0x40 * p)
  rowMax (t.len.getD 0) (t.words.map (fun e => (e.1, e.2.toNat)))

/-- ROWMAX of a staged image. -/
def Session.rowMax (k : Session) : Nat :=
  Machine.rowMax k.length (k.words.map (fun e => (e.1, (e.2.getD 0).toNat)))

/-! ## Acceptance window (R230–R234) -/

/-- The grid line of the next slot whose assembly port `p` will begin, for as long as it is armed (R230). -/
def State.nextAsm (s : State) (p : Nat) : Nat :=
  let r := s.port p
  if r.st = .disarmed then s.grid.next else r.asmNext

/-- Does port `p` select plane `q`, in force or pending? -/
def State.selects (s : State) (p q : Nat) : Bool :=
  s.reg (Key.PLANE_SEL p) == q || (s.pendingVals (Key.PLANE_SEL p)).contains q

/-- The triples (A_p, stagger, rowmax) of the ports of plane `q`, each stagger and rowmax in force or pending (R230). -/
def State.planePairs (s : State) (q : Nat) : List (Nat × Nat × Nat) :=
  ((List.range s.nPorts).filter (fun p => s.selects p q)).flatMap (fun p =>
    let st := s.reg (Key.STAGGER p) :: s.pendingVals (Key.STAGGER p)
    let rm := s.rowMaxOf p :: (s.pendingTabs (0x4000 + 0x40 * p)).map Session.rowMax
    st.flatMap (fun a => rm.map (fun b => (s.nextAsm p, a, b))))

/-- DEPTH_NEEDED (R231). -/
def State.depthNeeded (s : State) (q : Nat) : Nat :=
  match s.planePairs q with
  | [] => 0
  | x :: xs =>
    let l := x :: xs
    l.foldl (fun m e => max m (e.2.1 + e.2.2)) 0 - l.foldl (fun m e => min m e.2.1) x.2.1 + s.reg Key.RASTER_LEAD + 4

/-- Earliest (`lo`) and latest (`hi`) line of a plane's pairs in ascending numbering (R230). -/
def windowEnds (l : List (Nat × Nat × Nat)) (ref : Nat) : Nat × Nat :=
  let los := l.map (fun e => diff 32 (unsgn 32 ((e.1 : Int) - e.2.1 - e.2.2)) ref)
  let his := l.map (fun e => diff 32 (unsgn 32 ((e.1 : Int) - e.2.1)) ref)
  (unsgn 32 ((ref : Int) + los.foldl min (los.headD 0)), unsgn 32 ((ref : Int) + his.foldl max (his.headD 0)))

/-- `b` comes after `a` in printing order: σ × signed32(b − a) (R230). -/
def lineAfter (rev : Bool) (a b : Nat) : Int := if rev then -(diff 32 b a) else diff 32 b a

/-- Entries of plane `q` before line `e` are freed and counted (R228). -/
def State.freeBelow (s : State) (q e : Nat) : State :=
  let gone := fun (x : InProg) => decide (x.plane = q) && decide (lineAfter s.dirPrint e x.line < 0)
  let n := (s.ingress.entries.filter gone).length
  (s.updIngress (fun g => { g with entries := g.entries.filter (fun x => !gone x) })).addReg Key.RASTER_INCOMPLETE n

/-- Sets the bottom of plane `q`; `afresh` sets the reference pair as at the enabling of the grid, otherwise it is advanced (R226,
R230, R233). -/
def State.setBottom (s : State) (q b : Nat) (afresh : Bool) : State :=
  let ref := if afresh then 0 else s.slotOf q b 0
  (s.updPlane q (fun p => { p with bottom := b, nRef := b, slotRef := ref })).freeBelow q b

/-- The window of plane `q` under GRID_DIR 0 and 1 (R229–R233); `start` at the enabling of the grid. -/
def State.windowPlane (start : Bool) (q : Nat) (s : State) : State :=
  let rev := s.dirPrint
  let l := s.planePairs q
  match l with
  | [] =>
    let n := s.grid.next
    let s1 := if start then s.setBottom q n true else (s.updPlane q (fun p => { p with bottom := n })).freeBelow q n
    s1.updPlane q (fun p => { p with top := n, picked := false })
  | _ =>
    let ends := windowEnds l s.grid.next
    let e := if rev then ends.2 else ends.1
    let f := if rev then ends.1 else ends.2
    let p := s.plane q
    let s1 := if start ∨ ¬ p.picked then s.setBottom q e true
      else if 0 < lineAfter rev p.bottom e then s.setBottom q e false else s
    let b := (s1.plane q).bottom
    let depth := s.reg (Key.PLANE_DEPTH q)
    let sg : Int := if rev then -1 else 1
    let lead : Int := lineAfter rev b (unsgn 32 ((f : Int) + sg * s.reg Key.RASTER_LEAD))
    let n : Int := min lead depth
    s1.updPlane q (fun p => { p with
      top := if s.flag Key.INGRESS_READY then unsgn 32 ((b : Int) + sg * n) else b, picked := true })

/-- delay-store-shallow of plane `q`: it begins at a hand-over while firing is armed, and ends when the depth suffices or firing is not
armed (R231). -/
def State.judgeShallow (handed : Bool) (q : Nat) (s : State) : State :=
  let short : Bool := s.armed && s.planeOn q && decide (s.reg (Key.PLANE_DEPTH q) < s.depthNeeded q)
  if short ∧ ¬ handed then s else s.cause 0x34 q short 0

/-- The windows of every plane, at every line event and hand-over (R230–R234). -/
def State.windows (s : State) (start : Bool) : State :=
  let s1 :=
    if ¬ s.flag Key.GRID_ENABLE then
      s.forEach (List.range 16) (fun q s => s.updPlane q (fun p => { p with top := p.bottom }))
    else if s.reg Key.GRID_DIR = 2 then
      s.forEach (List.range 16) (fun q s =>
        let b := s.reg (Key.PLANE_FIRST_LINE q)
        s.updPlane q (fun p => { p with bottom := b, picked := !(s.planePairs q).isEmpty
                                        top := if s.flag Key.INGRESS_READY then (b + s.reg (Key.PLANE_DEPTH q)) % 2 ^ 32 else b }))
    else s.forEach (List.range 16) (State.windowPlane start)
  s1.forEach (List.range 16) (State.judgeShallow false)

/-- The windows after a hand-over, which may leave a plane too shallow (R230, R231). -/
def State.windowsHanded (s : State) : State := (s.windows false).forEach (List.range 16) (State.judgeShallow true)

/-! ## Layout writes (R229) -/

/-- The planes that a layout object affects: from its plane on, or all. -/
def layoutPlanes (key : Nat) : List Nat :=
  if 0x2210 ≤ key / 256 ∧ key / 256 ≤ 0x221F then (List.range 16).filter (fun q => decide (key / 256 - 0x2210 ≤ q)) else List.range 16

/-- A rewrite of the tags of planes `l` begins: entries and buffered packets are discarded and INGRESS_READY clears (R229). -/
def State.relayout (s : State) (l : List Nat) : State :=
  let s1 := s.updIngress (fun g => { g with
    entries := g.entries.filter (fun x => !l.contains x.plane)
    planes := g.planes.map (fun e => if l.contains e.1 then (e.1, { e.2 with clearing := false }) else e)
    rewrite := g.rewrite ++ l.filter (fun q => !g.rewrite.contains q) })
  let s2 := s1.forEach (List.range 4) (fun i s =>
    let w := (s.ilane i).waiting
    let keep := w.filter (fun k => !l.contains (bits k.hdr.rsop.toNat 31 28))
    s.updIlane i (fun r => { r with waiting := keep, freed := r.freed + (w.length - keep.length) }))
  (s2.setReg Key.INGRESS_READY 0).windows false

/-- All tags are written while BM_STATE is READY: INGRESS_READY (R229, R557). -/
def execIngressReady (s : State) : Res :=
  whenClocked s <| .next (if s.bmReady ∧ ¬ s.flag Key.INGRESS_READY then
    let s1 := s.forEach (s.ingress.rewrite.filter s.planeOn) (fun q s =>
      s.clearTags q 0 (s.planeBanks * s.reg (Key.PLANE_DEPTH q)))
    ((s1.updIngress (fun g => { g with rewrite := [] })).setReg Key.INGRESS_READY 1).windows false
  else s)

/-- LANE_ENABLE: a lane whose bit is 0 is held in DOWN (R216). -/
def State.laneEnableWrite (s : State) : State :=
  s.forEach (List.range 4) (fun i s =>
    if s.laneHeld i then
      (s.downLane i).updLane i (fun l => { l with retryAt := none })
    else s)

/-! ## Scanning banks (R234) -/

/-- PASS_COUNT has advanced: the bank of the pass just ended is released; entries of passes no longer accepted are freed. -/
def State.passBanks (s : State) : State :=
  let now := s.reg Key.PASS_COUNT
  let gone := fun (x : InProg) => decide (x.pass ≠ now % 16) && decide (x.pass ≠ (now + 1) % 16)
  let n := (s.ingress.entries.filter gone).length
  let s1 := (s.updIngress (fun g => { g with entries := g.entries.filter (fun x => !gone x) })).addReg Key.RASTER_INCOMPLETE n
  s1.forEach ((List.range 16).filter s.planeOn) (fun q s => s.updPlane q (fun p => { p with clearing := true }))

/-! ## Raster packets (R218–R222, R228) -/

/-- The CRC a packet should carry (R219). -/
def packetCrc (h : RasterHdr) (ws : List Word) : Nat :=
  crc32c (leBytes 7 (h.rsop.toNat / 256) ++ leBytes 8 h.first.toNat
    ++ (packWords (ws.map (fun w => w.toNat))).flatMap (fun b => leBytes 8 b.toNat))

/-- The lane's buffer is freed: its credit returns (R220, R221). -/
def State.freeBuffer (s : State) (lane : Nat) : State := s.updIlane lane (fun r => { r with freed := r.freed + 1 })

/-- The pass of a packet, which GRID_DIR 0 and 1 ignore (R218). -/
def State.packetPass (s : State) (h : RasterHdr) : Nat := if s.reg Key.GRID_DIR = 2 then h.pass else 0

/-- The entry of a line. -/
def State.entryOf (s : State) (q line pass : Nat) : Option InProg :=
  s.ingress.entries.find? (fun e => decide (e.plane = q) && decide (e.line = line) && decide (e.pass = pass))

/-- Replaces the entry of a line. -/
def State.putEntry (s : State) (e : InProg) : State :=
  s.updIngress (fun g => { g with
    entries := e :: g.entries.filter (fun x => !(decide (x.plane = e.plane) && decide (x.line = e.line) && decide (x.pass = e.pass))) })

/-- The words are written and the slice's offset advances (R225, R228). -/
def State.writePacket (s : State) (lane : Nat) (h : RasterHdr) (ws : List Word) (e : InProg) : State :=
  let q := h.plane
  let a := s.tagAddr q (s.slotOf q h.line e.pass) + 1 + h.slice * s.sliceWords q + h.offset
  (((s.writeBulks a ws).pmcBulk true 2 a ws.length).putEntry { e with
    offs := modAt (fun o => o + h.nwords) h.slice e.offs, lanes := modAt (fun _ => some lane) h.slice e.lanes }).inc Key.PACKETS_OK

/-- Checks 2 to 6 of R220 and the write of a packet that passes them; the buffer is freed in every case. -/
def State.takePacket (lane : Nat) (h : RasterHdr) (ws : List Word) (s : State) : State :=
  let q := h.plane
  let ls := s.sliceWords q
  let ci := s.planeCi q
  let pass := s.packetPass h
  let scan : Bool := s.reg Key.GRID_DIR == 2
  let rev := s.dirPrint
  let now := s.reg Key.PASS_COUNT
  let free := fun (s : State) => s.freeBuffer lane
  if ¬ s.planeOn q then free (s.inc Key.PLANE_OFF)
  else if ci ≤ h.slice ∨ h.nwords = 0 ∨ 56 < h.nwords ∨ ls < h.offset + h.nwords then free (s.inc Key.PACKET_FORMAT)
  else if scan ∧ pass ≠ now % 16 ∧ pass ≠ (now + 1) % 16 then free (s.inc Key.RASTER_STALE)
  else if scan ∧ (¬ s.flag Key.GRID_ENABLE ∨ ¬ s.flag Key.INGRESS_READY
      ∨ s.reg (Key.PLANE_DEPTH q) ≤ diff32 h.line (s.reg (Key.PLANE_FIRST_LINE q))) then free (s.inc Key.RASTER_AHEAD)
  else if ¬ scan ∧ lineAfter rev (s.plane q).bottom h.line < 0 then free (s.inc Key.RASTER_STALE)
  else if ¬ scan ∧ 0 ≤ lineAfter rev (s.plane q).top h.line then free (s.inc Key.RASTER_AHEAD)
  else
    match s.entryOf q h.line pass with
    | none =>
      if 256 ≤ s.ingress.entries.length then free ((s.inc Key.TABLE_FULL).raise 0x33 0)
      else if h.offset ≠ 0 then free (s.inc Key.RASTER_ORDER)
      else free (s.writePacket lane h ws ⟨q, h.line, pass, List.replicate ci 0, List.replicate ci none, false⟩)
    | some e =>
      if e.broken ∨ e.offs.getD h.slice 0 ≠ h.offset then free ((s.putEntry { e with broken := true }).inc Key.RASTER_ORDER)
      else free (s.writePacket lane h ws e)
/-- A raster packet taken into the buffer (R218–R222, R234): its CRC, block sequence and length are checked, and it waits in its buffer while
the bank of its pass is being cleared. -/
def State.packetIn (s : State) (lane : Fin 4) (hdr : RasterHdr) (words : List Word) (crc : BitVec 32) : State :=
    let s0 := s.inc (Key.LANE_PACKETS lane)
    if 32 ≤ (s.ilane lane).waiting.length then (s0.inc Key.CREDIT_VIOLATION).raise 0x32 0
    else if hdr.rsop.toNat % 256 ≠ 0x87 ∨ words.length ≠ hdr.nwords ∨ crc.toNat ≠ packetCrc hdr words then
      (s0.inc Key.PACKET_CRC).freeBuffer lane
    else
      let gap : Bool := match (s.ilane lane).pseq with
        | none => false
        | some e => e != hdr.pseq
      let s1 := (if gap then s0.inc (Key.PSEQ_GAP lane) else s0).updIlane lane (fun r => { r with pseq := some ((hdr.pseq + 1) % 256) })
      let next : Bool := s.reg Key.GRID_DIR == 2 && hdr.pass == (s.reg Key.PASS_COUNT + 1) % 16
      if next ∧ s.planeOn hdr.plane ∧ (s.plane hdr.plane).clearing then
        s1.updIlane lane (fun r => { r with waiting := r.waiting ++ [⟨hdr, words⟩] })
      else s1.takePacket lane hdr words

/-- Packets that waited for what the grid does on their clock are taken (R243). -/
def State.packetsHeld (s : State) : State :=
  s.ingress.held.foldl (fun s e => s.packetIn e.1 e.2.1.hdr e.2.1.words e.2.2) (s.updIngress (fun g => { g with held := [] }))

/-- A raster packet arrives whole on an image lane (R218). One that falls on the clock of a line event still to come is judged after what that
event releases (R243). -/
def execRasterPacket (lane : Fin 4) (hdr : RasterHdr) (words : List Word) (crc : BitVec 32) (s : State) : Res :=
  whenClocked s <| .next (if (s.lane lane).st ≠ .up then s
    else if s.lineDue ∨ s.posApplyDue then s.updIngress (fun g => { g with held := g.held ++ [(lane, ⟨hdr, words⟩, crc)] })
    else s.packetIn lane hdr words crc)

/-- No REOP within 80 blocks: the packet is discarded and counted (R218); its credit returns (R220). -/
def execRasterPacketTimeout (lane : Fin 4) (s : State) : Res :=
  whenClocked s <| .next (if (s.lane lane).st ≠ .up then s else (s.inc Key.PACKET_FORMAT).freeBuffer lane)

/-- Has every slice of an entry reached L_s (R228)? -/
def State.entryDone (s : State) (e : InProg) : Bool :=
  !e.broken && e.offs.all (fun o => decide (o = s.sliceWords e.plane))

/-- Every word of a line is written: its tag is written and its entry freed (R228). -/
def execLineComplete (plane : Fin 16) (line : BitVec 32) (pass : BitVec 16) (s : State) : Res :=
  let q := plane.val
  let k := pass.toNat % 16
  whenClocked s <| .next (match s.entryOf q line.toNat k with
    | none => s
    | some e =>
      if ¬ s.entryDone e then s
      else
        let s1 := s.writeBulk (s.tagAddr q (s.slotOf q e.line e.pass)) (tagWord e.line e.pass true)
        let s2 := s1.updIngress (fun g => { g with
          entries := g.entries.filter (fun x => x ≠ e)
          fresh := (s.clk, q, e.line, e.pass) :: g.fresh.filter (fun x => decide (s.clk ≤ x.1 + 1)) })
        (s2.inc (Key.LINES_COMPLETE q)).setReg (Key.LAST_COMPLETE_LINE q) e.line)

/-- The plane after `q` in ascending order of those enabled, coming round (R221). -/
def State.nextPlane (s : State) (q : Nat) : Nat :=
  let on := (List.range 16).filter s.planeOn
  match on.find? (fun k => decide (q < k)) with
  | some k => k
  | none => on.headD 0

/-- Is a CREDIT block due on an image lane: a buffer has been freed and a block time has passed since the last, or 128 blocks have (R221)? A
block lasts 2.64 clocks. -/
def State.creditDue (s : State) (lane : Nat) : Bool :=
  let r := s.ilane lane
  (s.lane lane).st == .up && (match r.toldAt with
    | none => true
    | some t => (r.freed != r.told && decide (t + 3 ≤ s.clk)) || decide (t + 337 ≤ s.clk))

/-- A CREDIT block is sent on an image lane (R221). -/
def execCreditSend (lane : Fin 4) (s : State) : Res :=
  whenClocked s <| .next (if (s.lane lane).st ≠ .up then s else
    let r := s.ilane lane
    let q := s.nextPlane r.plane
    let on := s.planeOn q && s.flag Key.INGRESS_READY
    (s.updIlane lane (fun r => { r with plane := q, told := r.freed, toldAt := some s.clk })).emit (.credit lane (BitVec.ofNat 64
      (fld r.freed 8 56 + fld q 4 52 + fld (s.reg Key.PASS_COUNT) 4 48 + fld (s.plane q).top 32 16 + fld (b2n on) 1 15 + 0xB4))))

/-- The tags of the released bank of a plane are written; the packets that waited for it are taken (R234). -/
def execBankClearDone (plane : Fin 16) (s : State) : Res :=
  let q := plane.val
  whenClocked s <| .next (if ¬ (s.plane q).clearing then s else
    let d := s.reg (Key.PLANE_DEPTH q)
    let s1 := (s.clearTags q ((s.reg Key.PASS_COUNT + 1) % 2 * d) d).updPlane q (fun p => { p with clearing := false })
    s1.forEach (List.range 4) (fun i s =>
      let w := (s.ilane i).waiting
      let go := w.filter (fun k => k.hdr.plane = q)
      let s2 := s.updIlane i (fun r => { r with waiting := w.filter (fun k => k.hdr.plane ≠ q) })
      go.foldl (fun s k => s.takePacket i k.hdr k.words) s2))

/-! ## Assembly (R236–R243) -/

/-- Entry `i` of the geometry of port `p` (R236). -/
def State.geomEntry (s : State) (p i : Nat) : Nat :=
  let w := s.tabWord (0x4000 + 0x40 * p) (i / 3)
  bits w (24 * (i % 3) + 23) (24 * (i % 3))

/-- The nozzles of port `p` in the slot of grid line `g`, not yet gathered (R236, R238). -/
def State.nozzles (s : State) (p g : Nat) : List Noz :=
  (List.range 2304).map (fun i =>
    let e := s.geomEntry p i
    let row := bits e 7 0
    { unused := bit e 23, col := bits e 20 8, row := row
      pc := s.regI (Key.COL_BASE p) + bits e 20 8
      line := unsgn 32 ((g : Int) - s.reg (Key.STAGGER p) - row)
      val := 0, absent := false, kind := .none })

/-- A used nozzle inside the plane. -/
def Noz.inPlane (w : Nat) (n : Noz) : Bool := !n.unused && decide (0 ≤ n.pc) && decide (n.pc < (w : Int))

/-- Maximal sequences of successive nozzles that one run reads (R237); a nozzle outside the plane stands alone. -/
def nozRuns (w ci : Nat) : List Noz → List (List Noz)
  | [] => []
  | n :: ns =>
    match nozRuns w ci ns with
    | (m :: r) :: rs =>
      if n.inPlane w ∧ m.inPlane w ∧ n.row = m.row ∧ m.pc = n.pc + (ci : Int) then (n :: m :: r) :: rs else [n] :: (m :: r) :: rs
    | rs => [n] :: rs

/-- Distinct rows of used nozzles, in order of first use. -/
def nozRows (l : List Noz) : List Nat :=
  (l.foldl (fun a n => if n.unused ∨ a.contains n.row then a else n.row :: a) []).reverse

/-- Sample index of a plane column. -/
def sampleOf (ci : Nat) (n : Noz) : Nat := n.pc.toNat / ci

/-- GEOM_COST (R237). -/
def State.geomCost (s : State) (p : Nat) : Nat :=
  let q := s.reg (Key.PLANE_SEL p)
  let w := s.reg (Key.PLANE_WIDTH q)
  let ci := s.planeCi q
  let l := s.nozzles p 0
  nsum ((nozRuns w ci l).map (fun r => match r.head?, r.getLast? with
    | some a, some b => if a.inPlane w then sampleOf ci b / s.spw - sampleOf ci a / s.spw + 1 else 0
    | _, _ => 0)) + (nozRows l).length

/-- Reads the words `a, a + 1, …` of a run; none where a read is uncorrectable (R238). -/
def State.readRun (s : State) (a n : Nat) : State × Option (List Word) :=
  (List.range n).foldl (fun (r : State × Option (List Word)) k =>
    let x := r.1.readBulk (a + k)
    (x.1, match r.2, x.2 with
      | some l, some w => some (l ++ [w])
      | _, _ => none)) (s.pmcBulk false 0 a n, some [])

/-- The tag of the line `n` that a row needs shows it present (R238). A tag written on clock `t`, on which the assembly began, or after it is
not seen: the read wins (R243). -/
def State.rowPresent (s : State) (t q n pass : Nat) : State × Bool :=
  if ¬ s.planeOn q ∨ ¬ s.flag Key.INGRESS_READY then (s, false)
  else
    let x := s.readBulk (s.tagAddr q (s.slotOf q n pass))
    (x.1, match x.2 with
      | none => false
      | some w => !s.ingress.fresh.any (fun e => decide (t ≤ e.1) && e.2 == (q, n, bits w.toNat 39 36)) && bits w.toNat 71 40 == n && bit w.toNat 35 && (s.reg Key.GRID_DIR != 2 || bits w.toNat 39 36 == pass % 16))

/-- Gathers one run (R238). -/
def State.gatherRun (s : State) (q pass : Nat) (present : List (Nat × Bool)) (r : List Noz) : State × List Noz :=
  let w := s.reg (Key.PLANE_WIDTH q)
  let ci := s.planeCi q
  let spw := s.spw
  match r.head?, r.getLast? with
  | some a, some b =>
    if a.unused then (s, r)
    else if ¬ a.inPlane w then (s, r.map (fun n => { n with val := s.reg (Key.OUT_VALUE q) % 2 ^ s.sampleBits }))
    else if ¬ (present.any (fun e => e.1 == a.row && e.2)) then (s, r.map (fun n => { n with absent := true }))
    else
      let first := sampleOf ci a / spw
      let base := s.tagAddr q (s.slotOf q a.line pass) + 1 + a.pc.toNat % ci * s.sliceWords q
      let x := s.readRun (base + first) (sampleOf ci b / spw - first + 1)
      match x.2 with
      | none => (x.1, r.map (fun n => { n with absent := true }))
      | some ws => (x.1, r.map (fun n =>
          let i := sampleOf ci n
          { n with val := ((ws.getD (i / spw - first) 0).toNat / 2 ^ (s.sampleStep * (i % spw))) % 2 ^ s.sampleBits }))
  | _, _ => (s, r)

/-- The Line Assembler's gather for the slot of grid line `g`, begun on clock `t`: every tag first, then the data words (R238). -/
def State.gather (s : State) (p g pass t : Nat) : State × List Noz :=
  let q := s.reg (Key.PLANE_SEL p)
  let l := s.nozzles p g
  let tags := (nozRows l).foldl (fun (a : State × List (Nat × Bool)) (r : Nat) =>
    let x := a.1.rowPresent t q (unsgn 32 ((g : Int) - (s.reg (Key.STAGGER p) : Int) - (r : Int))) pass
    (x.1, (r, x.2) :: a.2)) (s, [])
  (nozRuns (s.reg (Key.PLANE_WIDTH q)) (s.planeCi q) l).foldl (fun (a : State × List Noz) r =>
    let x := a.1.gatherRun q pass tags.2 r
    (x.1, a.2 ++ x.2)) (tags.1, [])

/-- A slot with `n` absent nozzles (R242). -/
def State.missingRaster (s : State) (p g n : Nat) : State :=
  if n = 0 then s
  else
    ((((s.inc (Key.MISSING_COUNT p)).setReg (Key.LAST_MISSING_LINE p) (unsgn 32 ((g : Int) - s.reg (Key.STAGGER p)))).setReg
      (Key.MISSING_NOZZLES p) n).raise 0x30 p)

/-- Is the ingress side not ready for an arming of the ports of `mask` (R244)? -/
def State.ingressRefuses (s : State) (mask : Nat) : Bool :=
  !s.flag Key.INGRESS_READY || decide (s.reg Key.DS_SIZE < s.dsUsed)
    || ((List.range s.nPorts).filter (bit mask)).any (fun p =>
        (s.reg (Key.PLANE_SEL p) :: s.pendingVals (Key.PLANE_SEL p)).any (fun q => !s.planeOn q))
    || ((List.range 16).filter s.planeOn).any (fun q => decide (s.reg (Key.PLANE_DEPTH q) < s.depthNeeded q))

end Sys2Proof.Machine
end

