-- ==== Sys2Proof/Machine/Screening.lean ====
section
/-! DEFINITION. The Screening Engine: roles, tone, redistribution, gain, levels, threshold matrix, error diffusion, masks, carries and
the dead-nozzle figures (R250-R276). -/

namespace Sys2Proof.Machine

/-- Entry `i` of a table of 24-bit entries, three to a word (R255). -/
def State.entry24 (s : State) (index i : Nat) : Nat :=
  bits (s.tabWord index (i / 3)) (24 * (i % 3) + 23) (24 * (i % 3))

/-- NOZZLE_CORR and LOOP_MAP entries of nozzle `i` (R255). -/
def State.corrEntry (s : State) (p i : Nat) : Nat := s.entry24 (0x4001 + 0x40 * p) i
def State.loopEntry (s : State) (p i : Nat) : Nat := s.entry24 (0x4003 + 0x40 * p) i

/-- The dead flag (R255). -/
def State.nozDead (s : State) (p i : Nat) : Bool :=
  let c := s.corrEntry p i
  bit c 23 || (bit (s.loopEntry p i) 23 && !bit c 22)

/-- What a nozzle is to its slot (R251); `bad` where a table word it needs cannot be read (R272). -/
inductive Role where
  | unused | absent | strip | giver | printer | bad
deriving DecidableEq, Repr

/-- A nozzle on its way through the engine: number, assembled line, role, tone value `t`, ink received, corrected value `y`. -/
structure Scr where
  i : Nat
  n : Noz
  role : Role
  t : Nat
  recv : Nat
  y : Nat
deriving DecidableEq, Repr

/-- Expansion to the internal scale (R252). -/
def State.expandVal (s : State) (v : Nat) : Nat :=
  if s.reg Key.INGRESS_MODE = 0 then v * 16 + v / 16 else v * 4 + v / 256

/-- Entry `i` of the tone curve of port `p` (R254). -/
def State.toneEntry (s : State) (p i : Nat) : Nat :=
  bits (s.tabWord (0x4002 + 0x40 * p) (i / 4)) (16 * (i % 4) + 15) (16 * (i % 4))

/-- The tone curve (R252). -/
def State.tone (s : State) (p x : Nat) : Nat :=
  let k := x / 4
  let f := x % 4
  min 4095 ((s.toneEntry p k * (4 - f) + s.toneEntry p (k + 1) * f + 2) / 4)

/-! ## Table words and their integrity (R272) -/

/-- Column and line of a nozzle for matrix and mask, with the phases of port `p` (R262). -/
def State.cellAt (s : State) (p : Nat) (n : Noz) (w h : Nat) : Nat × Nat :=
  (((n.pc + (s.reg (Key.MATRIX_COL_PHASE p) : Int)) % (w : Int)).toNat, (n.line + s.reg (Key.MATRIX_LINE_PHASE p)) % h)

/-- The number of nozzle `n`'s cell in the MATRIX or MASK at `index` (R261, R262, R266, R267). -/
def State.cellNo (s : State) (p index : Nat) (n : Noz) : Nat :=
  let h := s.tabWord index 0
  let w := bits h 15 8 + 1
  let c := s.cellAt p n w (bits h 7 0 + 1)
  c.2 * w + c.1

/-- The table words that decide the code of a printer: matrix or kernel, and mask (R261–R267). -/
def State.codeWords (s : State) (p : Nat) (n : Noz) : List (Nat × Nat) :=
  let mask := 0x4420 + s.reg (Key.MASK_SEL p)
  let mat := 0x4400 + s.reg (Key.MATRIX_SEL p)
  (if s.reg (Key.SCREEN_MODE p) = 1 then [(0x4410 + s.reg (Key.KERNEL_SEL p), 0)] else [(mat, 0), (mat, 1 + s.cellNo p mat n / 6)])
  ++ (if 7 < s.reg (Key.MASK_SEL p) then [] else [(mask, 0), (mask, 1 + s.cellNo p mask n / 18)])

/-- The table words that the computation of nozzle `i` uses, as table and word (R272). -/
def State.tabWords (s : State) (p i : Nat) (n : Noz) : List (Nat × Nat) :=
  if n.unused ∨ n.absent ∨ n.kind = .strip then []
  else
    let k := s.expandVal n.val / 4
    let t := 0x4000 + 0x40 * p
    [(t + 1, i / 3), (t + 3, i / 3), (t + 2, k / 4), (t + 2, (k + 1) / 4)] ++ (if s.nozDead p i then [] else s.codeWords p n)

/-- Is the stored code of a table word uncorrectable (R272)? -/
def State.wordBad (s : State) (e : Nat × Nat) : Bool := (s.tab e.1).bad.contains e.2

/-- Is a table one of those that the Screening Engine reads (R276)? -/
def screenTab (index : Nat) : Bool :=
  (decide (0x4000 ≤ index ∧ index < 0x4400) && decide (1 ≤ index % 0x40 ∧ index % 0x40 ≤ 3))
    || (decide (0x4400 ≤ index ∧ index < 0x4418)) || (decide (0x4420 ≤ index ∧ index < 0x4428))

/-- Words of screening tables whose stored code has become uncorrectable: each fails again until its table is replaced (R272). -/
def State.failWords (s : State) (l : List (Nat × Nat)) : State :=
  l.foldl (fun s e =>
    if screenTab e.1 ∧ ¬ s.wordBad e then s.setTab e.1 { s.tab e.1 with bad := e.2 :: (s.tab e.1).bad } else s) s

/-- R251, R272. -/
def State.roleOf (s : State) (p i : Nat) (n : Noz) : Role :=
  if n.unused then .unused
  else if n.absent then .absent
  else if n.kind = .strip then .strip
  else if (s.tabWords p i n).any s.wordBad then .bad
  else if s.nozDead p i then .giver
  else .printer

/-- The uncorrectable words that a line reads, each once (R272). -/
def State.badReads (s : State) (p : Nat) (l : List Noz) : List (Nat × Nat) :=
  ((l.zipIdx.flatMap (fun e => (s.tabWords p e.2 e.1).filter s.wordBad))).dedup

/-- The nozzles of an assembled line with their roles and tone values. -/
def State.scrLine (s : State) (p : Nat) (l : List Noz) : List Scr :=
  l.zipIdx.map (fun e =>
    let r := s.roleOf p e.2 e.1
    ⟨e.2, e.1, r, if r = .giver ∨ r = .printer then s.tone p (s.expandVal e.1.val) else 0, 0, 0⟩)

/-! ## Redistribution (R256, R257) -/

/-- Is `j` within reach and scope of `d` (R256)? -/
def inReach (scope reach : Nat) (d j : Noz) : Bool :=
  decide (Int.natAbs ((d.col : Int) - j.col) ≤ reach) && (scope == 0 || j.row == d.row)

/-- The left receiver of `d` among `l`, in ascending nozzle number: the largest COLUMN below, the lowest number on a tie (R256). -/
def leftReceiver (scope reach : Nat) (d : Noz) (l : List (Nat × Noz)) : Option (Nat × Noz) :=
  l.foldl (fun b e =>
    if e.2.col < d.col ∧ inReach scope reach d e.2 then
      match b with
      | none => some e
      | some x => if x.2.col < e.2.col then some e else b
    else b) none

/-- The right receiver: the smallest COLUMN above (R256). -/
def rightReceiver (scope reach : Nat) (d : Noz) (l : List (Nat × Noz)) : Option (Nat × Noz) :=
  l.foldl (fun b e =>
    if d.col < e.2.col ∧ inReach scope reach d e.2 then
      match b with
      | none => some e
      | some x => if e.2.col < x.2.col then some e else b
    else b) none

/-- The shares that a giver of tone `t` gives: nozzle and ink (R257). -/
def sharesOf (t weight solo : Nat) : Option (Nat × Noz) → Option (Nat × Noz) → List (Nat × Nat)
  | some a, some b => let v := (t * weight + 128) / 256; [(a.1, v), (b.1, v)]
  | some a, none => [(a.1, (t * solo + 128) / 256)]
  | none, some b => [(b.1, (t * solo + 128) / 256)]
  | none, none => []

/-- The receivers of a giver of port `p` among printers `l`. -/
def State.receiversOf (s : State) (p : Nat) (d : Noz) (l : List (Nat × Noz)) : Option (Nat × Noz) × Option (Nat × Noz) :=
  let scope := s.reg (Key.REDIST_SCOPE p)
  let reach := s.reg (Key.REDIST_REACH p)
  (leftReceiver scope reach d l, rightReceiver scope reach d l)

/-- Redistribution over a line (R257). -/
def State.redistribute (s : State) (p : Nat) (l : List Scr) : List Scr :=
  let printers := (l.filter (fun e => e.role = .printer)).map (fun e => (e.i, e.n))
  let w := s.reg (Key.REDIST_WEIGHT p)
  let solo := s.reg (Key.REDIST_SOLO p)
  let shares := (l.filter (fun e => e.role = .giver)).flatMap (fun d =>
    let r := s.receiversOf p d.n printers
    sharesOf d.t w solo r.1 r.2)
  l.map (fun e => { e with recv := nsum ((shares.filter (fun x => x.1 = e.i)).map (fun x => x.2)) })

/-! ## Gain and offset (R253) -/

/-- The corrected value of a printer of value `t2 ≤ 4095` (R253). -/
def correctedOf (corr loop t2 : Nat) : Nat :=
  if t2 = 0 then 0
  else
    let g0 : Int := if bit corr 22 then bits corr 21 10 else (bits corr 21 10 : Int) + sgn 10 loop
    let g := clampI 0 4095 g0
    (clampI 0 4095 (((t2 : Int) * g + 512).fdiv 1024 + sgn 10 corr)).toNat

/-- Corrects the printers of a line; REDIST_CLIP counts clamped sums (R253). -/
def State.correct (s : State) (p : Nat) (l : List Scr) : List Scr × Nat :=
  (l.map (fun e => if e.role = .printer then
      { e with y := correctedOf (s.corrEntry p e.i) (s.loopEntry p e.i) (min 4095 (e.t + e.recv)) } else e),
   (l.filter (fun e => e.role = .printer ∧ 4095 < e.t + e.recv)).length)

/-! ## Levels, matrix, mask (R260–R262, R266, R267) -/

/-- The level list: allowed codes with their values, code 0 first (R260). -/
def levelList (codeSet levels : Nat) : List (Nat × Nat) :=
  (0, 0) :: [1, 2, 3].filterMap (fun c => if bit codeSet c then some (c, bits levels (16 * c - 1) (16 * c - 16)) else none)

/-- Level list of port `p`. -/
def State.levels (s : State) (p : Nat) : List (Nat × Nat) := levelList (s.reg (Key.CODE_SET p)) (s.reg (Key.LEVELS p))

/-- Cell number `i` of matrix `m` (R261). -/
def State.matrixCell (s : State) (m i : Nat) : Nat :=
  bits (s.tabWord (0x4400 + m) (1 + i / 6)) (12 * (i % 6) + 11) (12 * (i % 6))

/-- The decision of R262: `tc` the threshold of the cell. -/
def threshCode (y tc : Nat) : List (Nat × Nat) → Nat
  | [] => 0
  | [a] => a.1
  | a :: b :: l =>
    if y < b.2 then (if tc * (b.2 - a.2) < (y - a.2) * 4096 then b.1 else a.1) else threshCode y tc (b :: l)

/-- Code of a printer in threshold mode. -/
def State.threshold (s : State) (p : Nat) (e : Scr) : Nat :=
  let m := s.reg (Key.MATRIX_SEL p)
  threshCode e.y (s.matrixCell m (s.cellNo p (0x4400 + m) e.n)) (s.levels p)

/-- Does the mask let the code of nozzle `n` print in pass `pass` (R266, R267)? -/
def State.maskPrints (s : State) (p pass : Nat) (n : Noz) : Bool :=
  let m := s.reg (Key.MASK_SEL p)
  if 7 < m then true
  else
    let h := s.tabWord (0x4420 + m) 0
    let i := s.cellNo p (0x4420 + m) n
    let v := bits (s.tabWord (0x4420 + m) (1 + i / 18)) (4 * (i % 18) + 3) (4 * (i % 18))
    v == 15 || v == pass % (max 1 (bits h 19 16))

/-! ## Error diffusion (R263, R264) -/

/-- The level that `u` reaches: the last whose midpoint with the one below is at or under `u` (R264). -/
def diffLevel (u : Int) : List (Nat × Nat) → Nat × Nat
  | [] => (0, 0)
  | [a] => a
  | a :: b :: l => if (((a.2 + b.2 + 1) / 2 : Nat) : Int) ≤ u then diffLevel u (b :: l) else a

/-- The shares of an error `e` over the weights in order (R264). -/
def diffShares (e : Int) (dshift : Nat) : List Nat → Nat → Int → List Int
  | [], _, _ => []
  | w :: ws, cum, prev =>
    let half : Int := if dshift = 0 then 0 else 2 ^ (dshift - 1)
    let now := (e * ((cum + w : Nat) : Int) + half).fdiv (2 ^ dshift)
    (now - prev) :: diffShares e dshift ws (cum + w) now

/-- The weights of a kernel in the order of R264. -/
def kernelWeights (k : Nat) : List Nat := [bits k 71 64, bits k 63 56, bits k 55 48, bits k 47 40, bits k 39 32, bits k 31 24, bits k 23 16]

/-- Adds a share to the next line's error of rank `r`, where one of `n` ranks has it. -/
def addNext (n : Nat) (m : Map Int) (r : Int) (v : Int) : Map Int :=
  if 0 ≤ r ∧ r < (n : Int) then Map.upd (fun _ => 0) m r.toNat (· + v) else m

/-- Diffusion over the printers in processing order, each as (rank, nozzle, y + carry); `a1`, `a2` are the in-line errors for the
head and the one after; answers codes and the next line's errors by rank (R264). -/
def diffuse (kern lim : Nat) (lv : List (Nat × Nat)) (delta : Int) (ranks : Nat) :
    List (Nat × Nat × Int) → Int → Int → Map Int → List (Nat × Nat) × Map Int
  | [], _, _, next => ([], next)
  | x :: rest, a1, a2, next =>
    let u := x.2.2 + a1
    let c := diffLevel u lv
    let e := clampI (-(lim : Int)) lim (u - c.2)
    let sh := diffShares e (bits kern 15 12) (kernelWeights kern) 0 0
    let r : Int := x.1
    let n1 := addNext ranks next (r - 2 * delta) (sh.getD 2 0)
    let n2 := addNext ranks n1 (r - delta) (sh.getD 3 0)
    let n3 := addNext ranks n2 r (sh.getD 4 0)
    let n4 := addNext ranks n3 (r + delta) (sh.getD 5 0)
    let n5 := addNext ranks n4 (r + 2 * delta) (sh.getD 6 0)
    let y := diffuse kern lim lv delta ranks rest (a2 + sh.getD 0 0) (sh.getD 1 0) n5
    ((x.2.1, c.1) :: y.1, y.2)

/-- Used nozzles in ascending column rank (R264). -/
def rankOrder (l : List Scr) : List Scr :=
  (l.filter (fun e => e.role ≠ .unused)).insertionSort (fun a b => a.n.col < b.n.col ∨ (a.n.col = b.n.col ∧ a.i ≤ b.i))

/-- Diffuses a line of grid line `g`: codes by nozzle, and the carries by nozzle (R264); a dead nozzle, and one whose table words fail, keeps
none (R271, R272). -/
def State.diffuseLine (s : State) (p g : Nat) (l : List Scr) : List (Nat × Nat) × Map Int :=
  let carry := (s.port p).carry
  let ranked := (rankOrder l).zipIdx
  let items := (ranked.filter (fun e => e.1.role = .printer)).map
    (fun e => (e.2, e.1.i, (e.1.y : Int) + Map.get (fun _ => 0) carry e.1.i))
  let down : Bool := bit (s.reg (Key.DIFF_CTRL p)) 0 && g % 2 == 1
  let r := diffuse (s.tabWord (0x4410 + s.reg (Key.KERNEL_SEL p)) 0) (s.reg (Key.ERR_LIMIT p)) (s.levels p)
    (if down then -1 else 1) ranked.length (if down then items.reverse else items) 0 0 []
  (r.1, ranked.foldl (fun m e => Map.put (fun _ => 0) m e.1.i
    (if s.nozDead p e.1.i ∨ e.1.role = .bad then 0 else Map.get (fun _ => 0) r.2 e.2)) [])

/-! ## A line (R250, R268, R272, R275) -/

/-- Code of a nozzle in DIRECT mode (R268). -/
def directCode (n : Noz) : Nat := if n.unused ∨ n.absent then 0 else n.val % 4

/-- Uncorrectable table reads of a line are counted and raised (R272). -/
def State.tableFails (s : State) (p n : Nat) : State :=
  if n = 0 then s else (((s.addReg Key.SCREEN_TABLE_ERRORS n).addReg (Key.PORT_TABLE_ERRORS p) n).raise 0x36 p)

/-- Screens a line of port `p` for the slot of grid line `g` and pass `pass` (R250–R272). -/
def State.screenLine (s : State) (p g pass : Nat) (l : List Noz) : State × List Nat :=
  if s.reg Key.INGRESS_MODE = 2 then (s, l.map directCode)
  else
    let a := s.redistribute p (s.scrLine p l)
    let b := s.correct p a
    let diff := s.reg (Key.SCREEN_MODE p) == 1
    let d := if diff then s.diffuseLine p g b.1 else ([], [])
    let codes := b.1.map (fun e => match e.role with
      | .strip => e.n.val % 4
      | .printer =>
        if s.maskPrints p pass e.n then
          (if diff then Map.get (fun _ => 0) d.1 e.i else s.threshold p e)
        else 0
      | _ => 0)
    let s1 := s.addReg (Key.REDIST_CLIP p) b.2
    let s2 := if diff then s1.updPort p (fun r => { r with carry := d.2 }) else s1
    (s2.tableFails p (s.badReads p l).length, codes)

/-- Screenings of port `p` that have ended are counted (R275). -/
def State.countScreened (s : State) (p : Nat) : State :=
  let n := ((s.port p).scrEnds.filter (fun t => decide (t ≤ s.at8 0))).length
  if n = 0 then s
  else (s.updPort p (fun r => { r with scrEnds := r.scrEnds.filter (fun t => decide (s.at8 0 < t)) })).addReg (Key.LINES_SCREENED p) n

/-! ## Carries (R265) and figures (R259, R269) -/

/-- Every carry of port `p` is 0. -/
def State.resetCarry (s : State) (p : Nat) : State := s.updPort p (fun r => { r with carry := [] })

/-- Does a hand-over of `key` reset the carries of port `p` (R265): SCREEN_MODE, KERNEL_SEL, CODE_SET, LEVELS? -/
def resetsCarry (p key : Nat) : Bool :=
  [Key.SCREEN_MODE p, Key.KERNEL_SEL p, Key.CODE_SET p, Key.LEVELS p].contains key

/-- SCREEN_CLOCKS (R269). -/
def State.screenClocks (s : State) : Nat := if s.reg Key.INGRESS_MODE = 2 then 576 else 2880

/-- DEAD_IN_FORCE and DEAD_UNCOVERED of port `p` (R259). -/
def State.deadFigures (s : State) (p : Nat) : Nat × Nat :=
  let l := ((s.nozzles p 0).zipIdx.map (fun e => (e.2, e.1))).filter (fun e => !e.2.unused)
  let dead := l.filter (fun e => s.nozDead p e.1)
  let live := l.filter (fun e => !s.nozDead p e.1)
  let open_ := dead.filter (fun e =>
    let r := s.receiversOf p e.2 live
    r.1.isNone && r.2.isNone)
  (dead.length, open_.length)

/-- The figures are recomputed at a hand-over of any of their inputs; a rise of DEAD_UNCOVERED from 0 raises source 0x37 (R259). -/
def State.judgeDead (p : Nat) (s : State) : State :=
  let f := s.deadFigures p
  ((s.setReg (Key.DEAD_IN_FORCE p) f.1).setReg (Key.DEAD_UNCOVERED p) f.2).cause 0x37 p (f.2 != 0) p

end Sys2Proof.Machine
end

