-- ==== Sys2Proof/Machine/Wave.lean ====
section
/-! DEFINITION. Waveform tables, their validity, temperature scaling, samples and DAC codes, sense checks, and the head link's
shipment (R277-R300). -/

namespace Sys2Proof.Machine

/-! ## Channels (R277, R279) -/

/-- Group of a drive channel, and its slot there (R322, R323). -/
def chGroup (c : Nat) : Nat := if c < 64 then c / 16 else c - 64
def chSlot (c : Nat) : Nat := if c < 64 then c % 16 else 16

/-- The drive channels that draw the waveform of channel `w` of port `p`, in ascending order: the channel, or its group's spare while
that stands in, or both while the head line may be driven by either (R279, R332, R333, R336). -/
def State.drawers (s : State) (p w : Nat) : List Nat :=
  let c := 4 * p + w
  let g := s.cal (p / 4)
  if g.ch = some c then (if g.chDraws then [c] else []) ++ (if g.spDraws then [64 + p / 4] else []) else [c]

/-! ## Waveform tables (R289–R291) -/

/-- A segment (R289). -/
structure Seg where
  kind : Nat
  check : Bool
  level : Nat
  dur : Nat
deriving DecidableEq, Repr

/-- The 36-bit value of a segment. -/
def segOf (v : Nat) : Seg := ⟨bits v 35 34, bit v 33, bits v 27 12, bits v 11 0⟩

/-- NSEG, the scale factors, the segments of a table of 33 words (R289). -/
def tabNseg (t : List Nat) : Nat := bits (t.getD 0 0) 71 64
def tabScale (t : List Nat) (i : Nat) : Nat := bits (t.getD 0 0) (12 * i + 11) (12 * i)
def tabSegs (t : List Nat) : List Seg :=
  (List.range (min 64 (tabNseg t))).map (fun j => segOf (bits (t.getD (1 + j / 2) 0) (36 * (j % 2) + 35) (36 * (j % 2))))

/-- N_w: samples of a table (R290). -/
def tabSamples (t : List Nat) : Nat := nsum ((tabSegs t).map Seg.dur)

/-- The level at which a segment that starts at `l0` ends (R290). -/
def Seg.ends (g : Seg) (l0 : Nat) : Nat := if g.kind = 0 then g.level else l0

/-- Level of sample `n` of a segment that starts at `l0` (R290). -/
def Seg.lvl (g : Seg) (l0 n : Nat) : Int :=
  if g.kind = 0 then (l0 : Int) + (((g.level : Int) - l0) * (n + 1)).tdiv g.dur else l0

/-- Level of sample `n` of a list of segments that starts at `l0`; beyond the last, the level at which it ends. -/
def segLevel : List Seg → Nat → Nat → Int
  | [], l0, _ => l0
  | g :: gs, l0, n => if n < g.dur then g.lvl l0 n else segLevel gs (g.ends l0) (n - g.dur)

/-- The segments from start level `l0` obey their limits; answers the end level (R291). -/
def segsOk (lo hi slew smax : Nat) : List Seg → Nat → Option Nat
  | [], l0 => some l0
  | g :: gs, l0 =>
    if g.kind ≤ 1 ∧ 1 ≤ g.dur ∧ (g.kind = 0 →
        lo ≤ g.level ∧ g.level ≤ hi ∧ ((g.level : Int) - l0).natAbs * smax ≤ slew * g.dur * 2048) then
      segsOk lo hi slew smax gs (g.ends l0)
    else none

/-- Strictly ascending. -/
def ascending : List Int → Bool
  | a :: b :: l => decide (a < b) && ascending (b :: l)
  | _ => true

/-- Validity of a table against an envelope and scale temperatures (R291). -/
def tabValid (rest lo hi slew : Nat) (temps : List Int) (t : List Nat) : Bool :=
  let segs := tabSegs t
  let smax := ((List.range 5).map (tabScale t)).foldl max 0
  decide (1 ≤ tabNseg t) && decide (tabNseg t ≤ 64) && (segsOk lo hi slew smax segs rest == some rest)
    && decide (tabSamples t ≤ 16383) && decide ((segs.filter Seg.check).length ≤ 8) && ascending temps

/-- Words of table `n` of channel `w` of port `p` (R289). -/
def State.waveTable (s : State) (p w n : Nat) : List Nat :=
  (List.range 33).map (fun i => s.tabWord (0x4008 + 0x40 * p + w) (33 * n + i))

/-- The table selected on a channel. -/
def State.selTable (s : State) (p w : Nat) : List Nat := s.waveTable p w (s.reg (Key.WAVE_SEL p w) % 16)

/-- SCALE_TEMP0 to SCALE_TEMP4 of a port. -/
def State.scaleTemps (s : State) (p : Nat) : List Int := (List.range 5).map (fun i => s.regI (Key.SCALE_TEMP p i))

/-- Is table `n` valid with what is in force (R291)? -/
def State.tableOk (s : State) (p w n : Nat) : Bool :=
  tabValid (s.reg (Key.REST_LEVEL p w)) (s.reg (Key.LEVEL_MIN p w)) (s.reg (Key.LEVEL_MAX p w)) (s.reg (Key.SLEW_MAX p w))
    (s.scaleTemps p) (s.waveTable p w n)

/-- Is the selected table of a channel valid? -/
def State.selOk (s : State) (p w : Nat) : Bool := s.tableOk p w (s.reg (Key.WAVE_SEL p w) % 16)

/-- Every selected table of a port is valid (R302). -/
def State.portOk (s : State) (p : Nat) : Bool := (List.range 4).all (s.selOk p)

/-- W_p in 1/8 ct (R286). -/
def State.waveSpan (s : State) (p : Nat) : Nat :=
  ((List.range 4).map (fun w => s.reg (Key.CH_SKEW p w) + 32 * tabSamples (s.selTable p w))).foldl max 0

/-- T_min in 1/8 ct (R197): 200 ns are 800 eighths. -/
def State.tMin (s : State) (p : Nat) : Nat := max 33334 (s.waveSpan p + 800)

/-- WAVE_VALID, WAVE_SPAN and MIN_FIRE_PERIOD after a hand-over of one of their inputs (R197, R286, R291). -/
def State.refreshWave (s : State) (p : Nat) : State :=
  let s1 := s.forEach (List.range 4) (fun w s =>
    s.setReg (Key.WAVE_VALID p w) (nsum ((List.range 16).map (fun n => b2n (s.tableOk p w n) * 2 ^ n))))
  (s1.setReg (Key.WAVE_SPAN p) (s.waveSpan p)).setReg (Key.MIN_FIRE_PERIOD p) (s.tMin p)

/-! ## Temperature scaling (R294, R295) -/

/-- The target factor for head temperature `th` (R294). -/
def scaleTarget (th : Int) : List (Int × Int) → Int
  | [] => 2048
  | [a] => a.2
  | a :: b :: l =>
    if th ≤ a.1 then a.2
    else if th < b.1 then a.2 + ((b.2 - a.2) * (th - a.1)).tdiv (b.1 - a.1)
    else scaleTarget th (b :: l)

/-- T_h of a port for what happens on this clock: that of the scan before, where one completes on it (R355, R363). -/
def State.headTemp (s : State) (p : Nat) : Option Int :=
  if s.therm.scanClk = some s.clk then (s.heat p).prevTh
  else if (s.heat p).hasTh then some (s.regI (Key.HEAD_TEMP p)) else none

/-- k of a channel; none while the port has no T_h (R294, R363). -/
def State.scaleK (s : State) (p w : Nat) : Option Nat :=
  (s.headTemp p).map (fun th =>
    (scaleTarget th ((s.scaleTemps p).zip ((List.range 5).map (fun i => (tabScale (s.selTable p w) i : Int))))).toNat)

/-- ka := k at once (R295). -/
def State.snapScale (s : State) (p w : Nat) : State :=
  match s.scaleK p w with
  | some k => s.setReg (Key.SCALE_IN_FORCE p w) k
  | none => s

/-- ka moves towards k by at most SCALE_STEP (R295). -/
def State.stepScale (s : State) (p w : Nat) : State :=
  match s.scaleK p w with
  | some k =>
    let ka : Int := s.reg (Key.SCALE_IN_FORCE p w)
    let st : Int := s.reg Key.SCALE_STEP
    s.setReg (Key.SCALE_IN_FORCE p w) (ka + clampI (-st) st ((k : Int) - ka)).toNat
  | none => s

/-! ## Samples and codes (R296, R297) -/

/-- The DAC code of level `sc` under a gain and an offset (R297). -/
def dacCode (gain : Nat) (offset sc : Int) : Nat := (clampI 0 65535 ((sc * gain + 16384).fdiv 32768 + offset)).toNat

/-- Corrections in force of a drive channel: CAL_GAIN and CAL_OFFSET (R324). -/
def State.calGain (s : State) (c : Nat) : Nat := s.reg (Key.CAL_GAIN_IN_FORCE c)
def State.calOffset (s : State) (c : Nat) : Int := s.regI (Key.CAL_OFFSET_IN_FORCE c)

/-- The level before clamping, scaled about the rest level (R296). -/
def Draw.scaled (d : Draw) (lvl : Int) : Int := (d.rest : Int) + ((lvl - d.rest) * d.ka + 1024).fdiv 2048

/-- The level of a sample (R296). -/
def Draw.level (d : Draw) (lvl : Int) : Int :=
  if d.flat then d.rest else
    let x := d.scaled lvl
    if (d.hi : Int) < x then d.hi else if x < d.lo then d.lo else x

/-- Is a level clamped (R296)? -/
def Draw.clamps (d : Draw) (lvl : Int) : Bool := !d.flat && (decide ((d.hi : Int) < d.scaled lvl) || decide (d.scaled lvl < d.lo))

/-- End of a waveform's last sample. -/
def Draw.end8 (d : Draw) : Nat := d.start8 + 32 * tabSamples d.table

/-- First and last levels of each segment, between which every other lies. -/
def segEnds : List Seg → Nat → List Int
  | [], _ => []
  | g :: gs, l0 => g.lvl l0 0 :: g.lvl l0 (g.dur - 1) :: segEnds gs (g.ends l0)

/-- Does any sample of a waveform clamp (R296)? -/
def Draw.clamped (d : Draw) : Bool := (segEnds (tabSegs d.table) d.rest).any d.clamps

/-- The check points of a table: sample number after the check sample, and its level (R298). -/
def checkPoints : List Seg → Nat → Nat → List (Nat × Nat)
  | [], _, _ => []
  | g :: gs, l0, n =>
    let r := checkPoints gs (g.ends l0) (n + g.dur)
    if g.check ∧ 1 ≤ g.dur then (n + g.dur, g.ends l0) :: r else r

/-- The waveform that drive channel `c` draws for channel `w` of port `p` in a fire at `t8`; `atRest` holds it at rest (R278). -/
def State.drawOf (s : State) (p w c t8 : Nat) (atRest : Bool) : Draw :=
  { ch := c, start8 := t8 + s.reg (Key.CH_SKEW p w), table := s.selTable p w, flat := atRest || !s.selOk p w
    ka := s.reg (Key.SCALE_IN_FORCE p w), rest := s.reg (Key.REST_LEVEL p w), lo := s.reg (Key.LEVEL_MIN p w)
    hi := s.reg (Key.LEVEL_MAX p w), gain := s.calGain c, offset := s.calOffset c }

/-- The check points of a waveform in time order: instant and expected level (R298, R299). -/
def State.drawChecks (s : State) (p : Nat) (d : Draw) : List (Nat × Nat × Int) :=
  (checkPoints (tabSegs d.table) d.rest 0).map (fun e =>
    (d.ch, d.start8 + 32 * e.1 + 32 * s.reg (Key.SENSE_DELAY p), d.level e.2))

/-- A reading in level units (R299). -/
def State.senseLevel (s : State) (c r : Nat) : Int :=
  ((r * s.reg (Key.SENSE_GAIN_IN_FORCE c) / 65536 : Nat) : Int) + s.regI (Key.SENSE_OFFSET_IN_FORCE c)

/-- Is check `i` of the list the last of its channel? -/
def lastOf (c : Nat) : List (Nat × Nat × Int) → Bool
  | [] => true
  | e :: l => e.1 != c && lastOf c l

/-- The checks of a fire with the sense ADC's readings in the same order; a missing reading is 0 (R298–R300). -/
def State.senseChecks (s : State) (p : Nat) : List (Nat × Nat × Int) → List Nat → List SenseChk
  | [], _ => []
  | e :: l, r =>
    let m := s.senseLevel e.1 (r.headD 0 % 4096) - e.2.2
    { ch := e.1, at8 := e.2.1, err := m, fail := decide (s.reg (Key.SENSE_TOL p) < m.natAbs), last := lastOf e.1 l }
      :: s.senseChecks p l r.tail

/-- The outcome of a check (R300): a failed fire is counted at its first failing check; a run that reaches SENSE_CONSEC, or that a lower
SENSE_CONSEC meets, is reported once, and a passing fire restarts it. -/
def State.judgeSense (p : Nat) (s : State) (k : SenseChk) : State :=
  let first := k.fail && !(s.port p).failed.contains k.ch
  let s1 := if first then
      let s2 := (((s.inc (Key.SENSE_FAILS p)).setReg (Key.SENSE_LAST_CH p) k.ch).setRegI (Key.SENSE_LAST_ERR p) k.err).raise 0x38 k.ch
      let n := (s.chan k.ch).failRun + 1
      let told := (s.chan k.ch).failTold
      let full := decide (s.reg Key.SENSE_CONSEC ≤ n)
      let s3 := (s2.updChan k.ch (fun c => { c with failRun := n, failTold := told || full })).updPort p (fun r => { r with
        failed := k.ch :: r.failed })
      if full ∧ ¬ told then s3.raise 0x39 k.ch else s3
    else s
  if k.last then
    if (s1.port p).failed.contains k.ch then s1.updPort p (fun r => { r with failed := r.failed.filter (· ≠ k.ch) })
    else s1.updChan k.ch (fun c => { c with failRun := 0, failTold := false })
  else s1

/-- The sense checks of port `p` that are due by this clock are judged (R298–R300). -/
def State.settleSense (s : State) (p : Nat) : State :=
  let due := (s.port p).checks.filter (fun k => decide (k.at8 < s.at8 8))
  due.foldl (State.judgeSense p) (s.updPort p (fun r => { r with checks := r.checks.filter (fun k => decide (s.at8 8 ≤ k.at8)) }))

/-- Draws a fire of port `p` at `t8` (R278, R284–R300): `w0Only` for fill slots and idle tickles; `sense` the readings of the sense
ADCs in order of channel and check point. -/
def State.draw (s : State) (p t8 : Nat) (w0Only tickle : Bool) (sense : List Nat) : State :=
  let s1 := if tickle then s.stepScale p 0 else s.forEach (List.range 4) (fun w s => s.stepScale p w)
  let ws := if tickle then [0] else List.range 4
  let drawn := fun (w : Nat) => (s1.drawers p w).map (fun c => s1.drawOf p w c t8 (w0Only && w != 0))
  let ds := ws.flatMap drawn
  let pts := if s1.flag Key.SENSE_ENABLE then ds.flatMap (s1.drawChecks p) else []
  let s2 := s1.updPort p (fun r => { r with
    draws := r.draws.filter (fun d => decide (t8 < d.end8)) ++ (if w0Only then drawn 0 else ds)
    checks := r.checks ++ s1.senseChecks p pts sense })
  match (ds.filter Draw.clamped).map Draw.ch with
  | [] => s2
  | c :: cs => (s2.inc (Key.CLAMP_COUNT p)).raise 0x3B (cs.foldl min c)

/-! ## Shipment (R280–R283) -/

/-- Data pairs in use (R280). -/
def State.pairs (s : State) (p : Nat) : Nat := bits (s.reg (Key.LINK_PROFILE p)) 23 22 + 1

/-- Fire words each pair carries, padding included (R282). -/
def State.pairWords (s : State) (p : Nat) : Nat := ceilDiv (s.reg (Key.FIRE_WORDS p)) (s.pairs p)

/-- Time in 1/8 ct from the beginning of a shipment to its completion, LATCH_SETUP included (R282, R283). -/
def State.shipTime (s : State) (p : Nat) : Nat :=
  8 * (s.pairWords p * 72 * bits (s.reg (Key.LINK_PROFILE p)) 28 24 + bits (s.reg (Key.LINK_TIMING p)) 31 24)

/-- The link of port `p` as a shipment from `at8` takes it (R25, R280, R281). -/
def State.linkAt (s : State) (p at8 : Nat) : ShipLink := ⟨at8, s.reg (Key.LINK_PROFILE p), s.reg (Key.LINK_TIMING p)⟩

/-- LATCH_WIDTH, latch pulse and LATCH_HOLD in 1/8 ct, LATCH_POL, the form of the clock (R280, R281). -/
def ShipLink.width (l : ShipLink) : Nat := bits l.timing 23 16
def ShipLink.latchTime (l : ShipLink) : Nat := 8 * (bits l.timing 23 16 + bits l.timing 15 8)
def ShipLink.low (l : ShipLink) : Bool := bit l.profile 14
def ShipLink.clock (l : ShipLink) : ClockForm := ⟨bits l.profile 28 24, bits l.profile 21 20, bit l.profile 19⟩

/-- Outside shipments the clock pair of port `p` runs on, or is held low (R280); the latch pair rests at the level that is no pulse. -/
def State.clockRuns (s : State) (p : Nat) : Bool := bit (s.reg (Key.LINK_PROFILE p)) 19
def State.latchRest (s : State) (p : Nat) : Bool := bit (s.reg (Key.LINK_PROFILE p)) 14

/-- The stream of one fire word (R282). -/
def wordStream (prof : Nat) (codes : List Nat) (f : Nat) : List Bool :=
  let ks := if bit prof 17 then List.range 36 else (List.range 36).reverse
  let c := fun k => codes.getD (36 * f + k) 0
  let hi := fun k => bit (c k) 1
  let lo := fun k => bit (c k) 0
  if bit prof 16 then
    (if bit prof 15 then ks.map lo ++ ks.map hi else ks.map hi ++ ks.map lo)
  else ks.flatMap (fun k => if bit prof 15 then [lo k, hi k] else [hi k, lo k])

/-- The streams of the data pairs under a profile, for `nw` fire words (R282). -/
def shipStreams (prof nw : Nat) (codes : List Nat) : List (List Bool) :=
  let np := bits prof 23 22 + 1
  let per := ceilDiv nw np
  let o := if bit prof 18 then (List.range nw).reverse else List.range nw
  (List.range np).map (fun d =>
    let seq := ((List.range per).map (fun k => d + k * np)).filterMap (fun i => o[i]?)
    let raw := List.replicate (72 * (per - seq.length)) false ++ seq.flatMap (wordStream prof codes)
    if bit prof 13 then raw.map (!·) else raw)

/-- A shipment of port `p` begins on its pairs (R280, R282). -/
def State.shipOut (s : State) (p g : Nat) (l : ShipLink) (codes : List Nat) : State :=
  s.emit (.ship p g l.at8 l.clock (shipStreams l.profile (s.reg (Key.FIRE_WORDS p)) codes))

end Sys2Proof.Machine
end

