-- ==== Sys2Proof/Machine/Fire.lean ====
section
/-! DEFINITION. The Fire Sequencer: fire instants, arming, shipping, firing, lateness, disarming, gates, cuts through the safe ramp, stops
at a line boundary, idle tickles (R193-R203, R283-R288, R301-R317). -/

namespace Sys2Proof.Machine

/-- PORT_STATE (R320). -/
def PortSt.code : PortSt → Nat
  | .disarmed => 0 | .filling => 1 | .firing => 2 | .held => 3 | .stopping => 4 | .cut => 5

/-- The grid line after `g` in the printing direction. -/
def State.lineAfterSlot (s : State) (g : Nat) (k : Nat) : Nat :=
  unsgn 32 (if s.dirPrint then (g : Int) - k else (g : Int) + k)

/-! ## Targets and fire instants (R193, R194) -/

/-- G(g): the grid position of line `g` (R176). -/
def State.gridPos (s : State) (g : Nat) : Nat :=
  unsgn 64 ((s.grid.gn : Int) + diff 32 g s.grid.next * s.reg Key.LINE_PITCH)

/-- P_g of port `p` (R194). -/
def State.slotTarget (s : State) (p g : Nat) : Nat :=
  let f := clampI (-(2 ^ 31)) (2 ^ 31 - 1) (s.regI (Key.FINE_OFFSET p) + s.regI (Key.LOOP_OFFSET p))
  unsgn 64 ((s.gridPos g : Int) + f * 65536)

/-- A_p in 1/8 ct (R194, R196). -/
def State.flightAdv (s : State) (p : Nat) : Nat :=
  match s.reg (Key.FLIGHT_SEL p) with
  | 1 => s.reg (Key.FLIGHT_ADV_S p)
  | 2 => s.reg (Key.FLIGHT_ADV_M p)
  | _ => s.reg (Key.FLIGHT_ADV_L p)

/-- Raster line of the slot of grid line `g` (R193): with the stagger of its assembly once it is assembled (R25). -/
def State.slotLine (s : State) (p g : Nat) : Nat :=
  match (s.port p).lines.find? (fun e => e.1 = g) with
  | some e => e.2
  | none => unsgn 32 ((g : Int) - s.reg (Key.STAGGER p))

/-- The fire condition of slot `g` at instant `t8` (R194). -/
def State.fireCond (s : State) (p g t8 : Nat) : Bool :=
  s.printing && atOrAhead 64 (s.x64 (t8 + s.flightAdv p)) (s.slotTarget p g) s.revNow

/-- The phase of this clock at which the next slot of port `p` reaches its fire instant, not before the port's last decision
(R194, R195). -/
def State.firePhase (s : State) (p : Nat) : Option Nat :=
  (List.range 8).find? (fun ph => decide ((s.port p).since8 ≤ s.at8 ph) && s.fireCond p (s.port p).slot (s.at8 ph))

/-- Does port `p` evaluate its next slot: it fills, fires, is held, stops at a line boundary to come, or is disarmed on this clock? While the
slot before is still deferred the next one is not evaluated: where its position has been reached by then, its t_g is the instant of that
decision, and its stages are paced from there (DESIGN CHOICE, log 43: R195 has only the slot after the last one fired or dropped evaluated). -/
def Port.evaluates (r : Port) : Bool :=
  r.deferred.isNone && (match r.st with
    | .filling => true | .firing => true | .held => true
    | .stopping => r.stopAt || r.ending
    | _ => false)

/-- Does the port issue no shipment and no latch because it was cut under MODE HOLD (R312, R314)? -/
def Port.isHeld (r : Port) : Bool := r.st == .held || (r.st == .stopping && r.held)

/-! ## Shipping (R283) -/

/-- The codes of the port's next slot, with the end of its screening: all 0 for a fill slot (R303). -/
def Port.nextCodes (r : Port) : Option CodeLine :=
  if 0 < r.fill then some ⟨r.slot, 0, false, 0, List.replicate 2304 0⟩ else r.scr.find? (fun c => c.g = r.slot)

/-- The instant in 1/8 ct at which the shipment of the next slot begins, if its codes are known and no shipment of it has begun
(R283). -/
def Port.shipAt (r : Port) : Option Nat :=
  if r.ship.isSome then none
  else r.nextCodes.map (fun c => max c.done8 r.release8)

/-- Is the beginning of a shipment due by this clock? -/
def State.shipDue (s : State) (p : Nat) : Bool :=
  let r := s.port p
  (r.st == .filling || r.st == .firing || (r.st == .stopping && (r.stopAt || r.ending) && !r.held))
    && (match r.shipAt with
        | some t => decide (t < s.at8 8)
        | none => false)

/-- Shipping of the next slot's codes begins (R282, R283). -/
def State.beginShip (s : State) (p : Nat) : State :=
  let r := s.port p
  match r.nextCodes, r.shipAt with
  | some c, some t =>
    let l := s.linkAt p t
    (s.updPort p (fun r => { r with ship := some ⟨c.g, c.codes, t + s.shipTime p, c.missing, c.policy, l⟩ })).shipOut p c.g l c.codes
  | _, _ => s

/-- Shipping of a slot's codes begins (R283). -/
def execShipStart (port : Fin 16) (s : State) : Res :=
  whenClocked s <| onPort port s (if s.shipDue port then s.beginShip port else s)

/-! ## Arming (R303) -/

/-- The first slot of an arming at this clock (R303). -/
def State.firstSlot (s : State) (p : Nat) : Nat :=
  let n := s.grid.next
  let d0 := diff 64 (s.x64 (s.at8 0 + 40000 + s.flightAdv p)) (s.slotTarget p n)
  let rev := s.dirPrint
  let d := if rev then -d0 else d0
  let k := d.fdiv (s.reg Key.LINE_PITCH) + 1
  unsgn 32 (if rev then (n : Int) - k else (n : Int) + k)

/-- Port `p` starts as at arming: fill slots, carries at 0, ka := k (R265, R295, R303). -/
def State.startPort (p : Nat) (s : State) : State :=
  let g := s.firstSlot p
  let s1 := s.updPort p (fun r => { r with
    st := .filling, slot := g, since8 := s.at8 0, asmNext := s.lineAfterSlot g 3, fill := 3, asmDue := [], scrDue := []
    lines := [], scrEnds := [], asm := [], scr := [], ship := none, release8 := s.at8 0, deferred := none, stopAt := false, held := false
    ending := false, fireNow := [], deferNow := [], scrNow := [], marks := [], carry := [] })
  (s1.forEach (List.range 4) (fun w s => s.snapScale p w)).beginShip p

/-! ## Stop records, clear latches, disarming (R304, R310, R314, R315) -/

/-- Is a waveform of port `p` still drawing at `t8` (R310)? -/
def Port.drawing (r : Port) (t8 : Nat) : Bool := r.draws.any (fun d => decide (t8 < d.end8))

/-- The end of the waveforms in progress at `t8`, or `t8`. -/
def Port.wavesEnd (r : Port) (t8 : Nat) : Nat := (r.draws.map Draw.end8).foldl max t8

/-- Records a stop of port `p` (R310, R315). -/
def State.recordStop (s : State) (p cause : Nat) (cut partial_ : Bool) (ct : Nat) : State :=
  let s1 := (s.setReg (Key.STOP_CAUSE p) (b2n partial_ * 128 + b2n cut * 64 + cause)).setReg (Key.STOP_CT p) ct
  match (s.port p).lastSlot with
  | none => s1
  | some l => (s1.setReg (Key.STOP_LINE p) l.line).setReg (Key.STOP_POS p) l.pos

/-- The lines in the earlier stages are discarded (R24). -/
def Port.discard (r : Port) : Port :=
  { r with
    asmDue := [], scrDue := [], lines := [], scrEnds := [], asm := [], scr := [], ship := none, deferred := none, marks := []
    ending := false, fireNow := [], deferNow := [], scrNow := [] }

/-- Ends the cause of source 0x3A that a port in DISARMED no longer has (R293). -/
def State.portDisarmed (s : State) (p : Nat) : State :=
  (((s.updPort p (fun r => { r.discard with st := .disarmed, stopAt := false, held := false, fill := 0 })).cause 0x3A p false p).windows false)

/-- After waveforms or ramp end at `t8`, the all-zero line is shipped; its latch follows (R304). -/
def State.clearAfter (s : State) (p t8 : Nat) : State :=
  s.updPort p (fun r => { r with
    clear8 := some (max t8 r.release8 + s.shipTime p), clearLink := s.linkAt p (max t8 r.release8) })

/-- A disarm whose clock ends: the lines in the earlier stages are discarded, and the clear latch follows the waveforms in progress, those of
a slot latched on this clock included (R288, R304). -/
def State.endPort (p : Nat) (s : State) : State :=
  let r := s.port p
  if r.ending then (s.updPort p (fun r => r.discard)).clearAfter p (r.wavesEnd (s.at8 0)) else s

/-- FIRE_DISARM of port `p` (R304, R313, R316); a latch of this clock is still issued (R288). -/
def State.disarmPort (p : Nat) (s : State) : State :=
  let r := s.port p
  let rec_ := fun (s : State) => s.recordStop p 1 false false s.ct
  match r.st with
  | .disarmed => s
  | .cut => s
  | .stopping =>
    if ¬ r.stopAt then s
    else if r.held then
      if r.clear8.isNone ∧ r.rampEnd8.isNone then (rec_ s).portDisarmed p
      else (rec_ s).updPort p (fun r => { r with stopAt := false, held := false })
    else (rec_ s).updPort p (fun r => { r with stopAt := false, ending := true })
  | .held =>
    if r.clear8.isNone ∧ r.rampEnd8.isNone then (rec_ s).portDisarmed p
    else (rec_ s).updPort p (fun r => { r with st := .stopping, held := false })
  | _ => (rec_ s).updPort p (fun r => { r with st := .stopping, ending := true })

/-- The line event at which a stop takes effect (R314); the record is brought up to the last fire (R310). -/
def State.lineStop (p : Nat) (s : State) : State :=
  let r := s.port p
  if r.st = .stopping ∧ r.stopAt then
    let s1 := match r.lastSlot with
      | some l => s.recordStop p (s.reg (Key.STOP_CAUSE p)) false false (l.fired8 / 8)
      | none => s
    if r.held then
      if r.clear8.isNone ∧ r.rampEnd8.isNone then s1.portDisarmed p
      else s1.updPort p (fun r => { r with stopAt := false, held := false })
    else (s1.updPort p (fun r => { r.discard with stopAt := false })).clearAfter p (r.wavesEnd (s.at8 0))
  else s

/-- A stop of port `p` at a line boundary is triggered (R314, R316); a line event of this very clock is the one it takes effect at. -/
def State.stopAtLine (cause p : Nat) (s : State) : State :=
  let r := s.port p
  match r.st with
  | .disarmed => s
  | .cut => s
  | .stopping => s
  | _ =>
    let s1 := (s.updPort p (fun r => { r with st := .stopping, stopAt := true, held := r.st == .held })).recordStop p cause false false
      (match r.lastSlot with
       | some l => l.fired8 / 8
       | none => s.ct)
    if s.grid.evClk = some s.clk then s1.lineStop p else s1

/-! ## Cuts (R306–R310, R312, R313) -/

/-- The DAC code of a waveform at `t8`, while it is drawn (R290, R296, R297). -/
def Draw.codeAt (d : Draw) (t8 : Nat) : Option Nat :=
  if t8 < d.start8 ∨ d.end8 ≤ t8 then none
  else some (dacCode d.gain d.offset (d.level (segLevel (tabSegs d.table) d.rest ((t8 - d.start8) / 32))))

/-- The channel of port `p` that drive channel `c` draws for: its own, or that for which the spare stands in (R279). -/
def State.drawnFor (s : State) (c : Nat) : Nat := if c < 64 then c else (s.cal (c - 64)).ch.getD c

/-- The rest code of a drive channel with the corrections in force (R297). A spare that draws for no channel has no REST_LEVEL of its own, and no
rule gives its level: it is free (log 10). -/
def State.restCode (s : State) (c : Nat) : Nat :=
  let d := s.drawnFor c
  dacCode (s.calGain c) (s.calOffset c) (if d < 64 then s.reg (Key.REST_LEVEL (d / 4) (d % 4)) else (Config.spareRest (d - 64)).toNat)

/-- The safe ramp of a waveform cut at `t8`, from the next sample boundary on (R309): none where the channel stands at rest. -/
def State.rampOf (s : State) (t8 : Nat) (d : Draw) : Option Ramp :=
  match d.codeAt t8 with
  | none => none
  | some code =>
    let rc := s.restCode d.ch
    if code = rc then none else some ⟨d.ch, d.start8 + 32 * ((t8 - d.start8) / 32 + 1), code, rc, s.reg Key.SAFE_SLEW⟩

/-- A DAC code after `n` ramp samples (R309). -/
def Ramp.after (r : Ramp) (n : Nat) : Nat :=
  if r.code < r.rest then min r.rest (r.code + n * r.slew) else max r.rest (r.code - n * r.slew)

/-- The DAC code of a safe ramp at `t8`: sample 0 is one step from the last code before it (R309). -/
def Ramp.codeAt (r : Ramp) (t8 : Nat) : Nat := if t8 < r.start8 then r.code else r.after ((t8 - r.start8) / 32 + 1)

/-- The instant at which a safe ramp has reached the rest code (R309). -/
def Ramp.end8 (r : Ramp) : Nat := r.start8 + 32 * ceilDiv ((r.code : Int) - r.rest).natAbs r.slew

/-- What drive channel `c` puts out at `t8` outside a measurement: a safe ramp, a waveform, or its rest code (R285, R297, R309). -/
def State.printAt (s : State) (c t8 : Nat) : Nat :=
  let r := s.port (s.drawnFor c / 4)
  match r.ramps.find? (fun x => x.ch = c) with
  | some x => x.codeAt t8
  | none => ((r.draws.filterMap (fun d => if d.ch = c then d.codeAt t8 else none)).head?).getD (s.restCode c)

/-- Every waveform of port `p` leaves onto its safe ramp at `t8`; sense checks are suspended (R309). -/
def State.rampPort (s : State) (p t8 : Nat) : State :=
  let l := (s.port p).draws.filterMap (s.rampOf t8)
  s.updPort p (fun r => { r with
    draws := [], ramps := l, checks := r.checks.filter (fun k => decide (k.at8 < t8)), failed := []
    rampEnd8 := some ((l.map Ramp.end8).foldl max t8), clear8 := none })

/-- A cut of port `p` by `cause` (R307, R309, R310, R313, R316); `hold` under a gate in MODE HOLD. A slot of this clock is not latched: the cut
wins (R313). -/
def State.cutPort (cause : Nat) (hold : Bool) (p : Nat) (s : State) : State :=
  let r := s.port p
  let t8 := s.at8 0
  let busy := r.clear8.isSome || r.rampEnd8.isSome
  let part := r.drawing t8
  match r.st with
  | .disarmed =>
    if r.drawing t8 then (s.rampPort p t8) else s
  | .cut => s
  | .held =>
    if hold then s
    else if busy then s.updPort p (fun r => { r with st := .cut, held := false })
    else s.portDisarmed p
  | .stopping =>
    if r.stopAt ∧ r.held then
      let s1 := s.recordStop p cause true false s.ct
      if hold then s1.updPort p (fun r => { r with st := .held, stopAt := false })
      else if busy then s1.updPort p (fun r => { r with st := .cut, stopAt := false, held := false })
      else s1.portDisarmed p
    else if r.stopAt ∨ part then
      let held := hold && r.stopAt
      ((s.recordStop p cause true part s.ct).rampPort p t8).updPort p (fun r => { r.discard with
        st := if held then .held else .cut, stopAt := false, held := held, fireNow := if held then r.fireNow else [] })
    else s.endPort p
  | _ =>
    ((s.recordStop p cause true part s.ct).rampPort p t8).updPort p (fun r => { r.discard with
      st := if hold then .held else .cut, held := hold, fireNow := if hold then r.fireNow else [] })

/-- The unit's fire inhibit is set and every port is cut (R199, R241, R307). -/
def State.fireInhibit (s : State) : State :=
  (s.setReg Key.FIRE_INHIBIT 1).forEach (List.range s.nPorts) (State.cutPort 6 false)

/-- Fields of GATE_CFG (R311). -/
def State.gateCovers (s : State) (g p : Nat) : Bool :=
  let c := s.reg (Key.GATE_CFG g)
  bit c 11 && bit c (16 + p)

/-- Is an asserted, enabled gate over port `p` (of MODE HOLD when `hold`) (R302, R305, R312)? -/
def State.gated (s : State) (p : Nat) (hold : Bool) : Bool :=
  (List.range 4).any (fun g => bit (s.reg Key.GATE_LEVEL) g && s.gateCovers g p && (!hold || bit (s.reg (Key.GATE_CFG g)) 9))

/-- Is a cause of R307 present for port `p` (R305)? -/
def State.cutCause (s : State) (p : Nat) : Bool :=
  s.flag Key.FIRE_INHIBIT || s.gated p false || bit (s.reg (Key.LIMIT_STATE p)) 2

/-- An asserted gate in MODE DISARM over port `p`: DISARM wins over HOLD (R312). -/
def State.gatedDisarm (s : State) (p : Nat) : Bool :=
  (List.range 4).any (fun g => bit (s.reg Key.GATE_LEVEL) g && s.gateCovers g p && !bit (s.reg (Key.GATE_CFG g)) 9)

/-- Gate `g` asserts: it cuts the ports that it covers (R307–R313). -/
def State.gateRise (s : State) (g : Nat) : State :=
  let s1 := s.setRegBit Key.GATE_LEVEL g true
  let ports := (List.range s.nPorts).filter (fun p => s.gateCovers g p)
  let s2 := if ports.any (fun p => (s.port p).st ≠ .disarmed) then
    (s1.inc (Key.GATE_CUTS g)).cause (0x3C + g) g true g else s1
  s2.forEach ports (fun p s => s.cutPort (2 + g) (bit (s.reg (Key.GATE_CFG g)) 9 && !s.gatedDisarm p) p)

/-- A gate asserts, filtered and polarity-corrected (R307–R313). -/
def execGateAssert (gate : Fin 4) (s : State) : Res :=
  whenOn s <| .next (if bit (s.reg Key.GATE_LEVEL) gate then s else s.gateRise gate)

/-- Restarts a HELD port whose gates have released and whose ramp and clear latch have ended (R312). -/
def State.restartHeld (p : Nat) (s : State) : State :=
  let r := s.port p
  if r.st = .held ∧ ¬ s.gated p true ∧ r.clear8.isNone ∧ r.rampEnd8.isNone then (s.startPort p).windows false else s

/-- Gate `g` releases: ports that it held restart (R310, R312). -/
def State.gateFall (s : State) (g : Nat) : State :=
  let s1 := (s.setRegBit Key.GATE_LEVEL g false).cause (0x3C + g) g false g
  s1.forEach (List.range s1.nPorts) State.restartHeld

/-- A gate releases (R310, R312). -/
def execGateRelease (gate : Fin 4) (s : State) : Res :=
  whenOn s <| .next (if bit (s.reg Key.GATE_LEVEL) gate then s.gateFall gate else s)

/-- GATE_CFG of gate `g` written: a change of POLARITY inverts what GATE_LEVEL reports of the level that stands (R311). -/
def State.gateCfgWrite (s : State) (g old : Nat) : State :=
  if bit (s.reg (Key.GATE_CFG g)) 8 = bit old 8 then s
  else if bit (s.reg Key.GATE_LEVEL) g then s.gateFall g else s.gateRise g

/-- Every affected channel of a port reaches rest and the clear latch follows (R309). -/
def execRampEnd (port : Fin 16) (s : State) : Res :=
  whenClocked s <| onPort port s (match (s.port port).rampEnd8 with
    | none => s
    | some e =>
      if s.at8 8 ≤ e then s
      else
        let s1 := s.updPort port (fun r => { r with rampEnd8 := none, ramps := [] })
        if (s.port port).st = .disarmed then s1 else s1.clearAfter port e)

/-- Does the clear latch of port `p` fall by this clock? -/
def State.clearDue (s : State) (p : Nat) : Bool := (s.port p).clear8.any (fun t => decide (t < s.at8 8))

/-- The clear latch (R304, R309, R312, R314). -/
def execClearLatch (port : Fin 16) (s : State) : Res :=
  let p := port.val
  whenClocked s <| onPort p s (match (s.port p).clear8 with
    | none => s
    | some t =>
      if s.at8 8 ≤ t then s
      else
        let l := (s.port p).clearLink
        let s1 := ((s.shipOut p (s.port p).slot l (List.replicate 2304 0)).emit (.latch p t l.width l.low)).updPort p
          (fun r => { r with clear8 := none, release8 := t + l.latchTime })
        match (s.port p).st with
        | .held => s1.restartHeld p
        | .stopping => if (s.port p).stopAt then s1 else s1.portDisarmed p
        | _ => s1.portDisarmed p)

/-! ## Slots (R198–R203, R284–R288) -/

/-- A report of R201: an event of class 0x20, and the programmable counters and trace. -/
def State.slotReport (s : State) (p line : Nat) (drop : Bool) (late : Nat) : State :=
  let s1 := if drop then (s.inc (Key.DROP_COUNT p)).setReg (Key.LAST_DROP_LINE p) line
    else ((s.inc (Key.DEFER_COUNT p)).setReg (Key.LAST_DEFER_LINE p) line).setReg (Key.MAX_LATENESS p)
      (max (s.reg (Key.MAX_LATENESS p)) late)
  s1.event 0x20 (p + 256 * b2n drop) line

/-- Programmable counters and trace of a slot: 0 fired, 1 deferred, 2 dropped (R548, R549). -/
def State.slotTrace (s : State) (p line kind : Nat) : State :=
  let s1 := s.pmc (match kind with | 0 => 3 | 1 => 5 | _ => 4) (2 ^ p) 1
  if bit (s.reg Key.TRACE_PORTS) p then s1.traceRec 0x02 (fld p 4 52 + fld kind 2 50 + fld line 32 0) else s1

/-- The slot is behind the port: the next one is judged from instant `t8`, with the register released at `rel8` (R195, R283). -/
def State.advanceSlot (s : State) (p t8 rel8 : Nat) : State :=
  let next := s.lineAfterSlot (s.port p).slot 1
  s.updPort p (fun r => { r with
    slot := next, since8 := t8, fill := r.fill - 1, ship := none, deferred := none, release8 := rel8
    scr := r.scr.filter (fun c => c.g ≠ r.slot), scrDue := r.scrDue.filter (fun c => c.1 ≠ r.slot)
    asm := r.asm.filter (fun c => c.g ≠ r.slot), lines := r.lines.filter (fun c => c.1 ≠ r.slot) })

/-- A slot that carries marks of a block has fired (R425). -/
def State.markFired (s : State) (p g : Nat) : State :=
  ((s.port p).marks.filter (fun e => e.1 = g)).foldl (fun s e =>
    s.updTests e.2 (fun t => t.u == p || t.ref == some p) (fun t => { t with hit := t.hit + 1, hitAt := t.hitAt.or (some s.clk) }))
    (s.updPort p (fun r => { r with marks := r.marks.filter (fun e => e.1 ≠ g) }))

/-- The port's next slot is dropped at `t8` (R200, R201, R283). -/
def State.dropSlot (s : State) (p t8 : Nat) : State :=
  let r := s.port p
  let line := s.slotLine p r.slot
  let s1 := if 0 < r.fill then s else (s.slotReport p line true 0).slotTrace p line 2
  s1.advanceSlot p t8 t8

/-- The port's next slot fires at `t8`, of fire instant `tg8` (R284–R287). -/
def State.fireSlot (s : State) (p tg8 t8 : Nat) (sense : List Nat) : State :=
  let r := s.port p
  let fill : Bool := decide (0 < r.fill)
  let codes := (r.ship.map Shipment.codes).getD []
  let link := (r.ship.map Shipment.link).getD (s.linkAt p t8)
  let line := s.slotLine p r.slot
  let s1 := (((s.draw p t8 fill false sense).inc (Key.FIRES p)).emit (.latch p t8 link.width link.low)).markFired p r.slot
  let s2 := s1.updPort p (fun r => { r with
    last8 := some t8, rest8 := some (t8 + s.waveSpan p), lastSlot := some ⟨r.slot, line, s.slotTarget p r.slot / 65536 % 2 ^ 48, tg8, t8⟩ })
  let n := fun c => (codes.filter (fun x => x = c)).length
  let s3 := if fill then s2 else
    ((((s2.setReg (Key.LAST_FIRE_CT p) (t8 / 8)).setReg (Key.LAST_FIRE_LINE p) line).addReg (Key.CODE1_COUNT p) (n 1)).addReg
      (Key.CODE2_COUNT p) (n 2)).addReg (Key.CODE3_COUNT p) (n 3)
  let s4 := if tg8 < t8 ∧ ¬ fill then (s3.slotReport p line false (t8 - tg8)).slotTrace p line 1
    else if fill then s3 else s3.slotTrace p line 0
  s4.advanceSlot p t8 (t8 + link.latchTime)

/-- The first instant at which a late slot may fire under DEFER: T_min after the last fire, with shipping complete (R199); none while its
shipment has not begun. -/
def State.deferAt (s : State) (p tg8 : Nat) : Option Nat :=
  let r := s.port p
  r.ship.map (fun h => max (max tg8 h.done8) (match r.last8 with
    | some l => l + s.tMin p
    | none => 0))

/-- Within DEFER_LIMIT at `t8` (R199). -/
def State.deferOk (s : State) (p t8 : Nat) : Bool :=
  let d0 := diff 64 (s.x64 (t8 + s.flightAdv p)) (s.slotTarget p (s.port p).slot)
  let d := if s.dirPrint then -d0 else d0
  decide (256 * d ≤ (s.reg Key.DEFER_LIMIT * s.reg Key.LINE_PITCH : Nat))

/-- The codes of the port's next slot, where LATE_POLICY drops it for missing raster (R241). -/
def Port.missingDrop (r : Port) : Option CodeLine :=
  if r.fill = 0 then r.nextCodes.filter (fun c => c.missing && c.policy != 0) else none

/-- At the instant `t8` a deferred slot fires or is dropped (R199, R241). -/
def State.deferDecide (s : State) (p tg8 t8 : Nat) (sense : List Nat) : State :=
  match (s.port p).missingDrop with
  | some c => if c.policy = 2 then (s.dropSlot p t8).raise 0x31 p else s.dropSlot p t8
  | none => if s.deferOk p t8 then s.fireSlot p tg8 t8 sense else s.dropSlot p t8

/-- The stages paced by t_g: screening of the slot after next and assembly of the one after that (R22, R303). -/
def State.paceStages (s : State) (p tg8 : Nat) : State :=
  let r := s.port p
  s.updPort p (fun r' => { r' with
    asmDue := r'.asmDue ++ [(s.lineAfterSlot r.slot 3, s.clk)]
    scrDue := if r.fill ≤ 2 then r'.scrDue ++ [(s.lineAfterSlot r.slot 2, tg8, false)] else r'.scrDue })

/-- Is the slot whose fire instant is `t8` late (R198): before the minimum period is over, or before its shipping is complete? -/
def State.slotEarly (s : State) (p t8 : Nat) : Bool := (s.port p).last8.any (fun l => decide (t8 < l + s.tMin p))
def State.slotUnshipped (s : State) (p t8 : Nat) : Bool := !((s.port p).ship.any (fun h => decide (h.done8 ≤ t8)))

/-- Does the slot whose fire instant is `t8` call for the fire inhibit of HALT (R199, R241)? -/
def State.slotHalts (s : State) (p t8 : Nat) : Bool :=
  match (s.port p).missingDrop with
  | some c => c.policy == 2
  | none => (s.slotEarly p t8 || s.slotUnshipped p t8) && decide (2 ≤ s.reg Key.OVERRUN_POLICY)

/-- A slot whose fire instant is `t8` is judged (R198, R199, R241). The fire inhibit of HALT is set by `clockEnd`. -/
def State.judgeSlot (s : State) (p t8 : Nat) (sense : List Nat) : State :=
  match (s.port p).missingDrop with
  | some c => if c.policy = 2 then (s.dropSlot p t8).raise 0x31 p else s.dropSlot p t8
  | none =>
    if ¬ s.slotEarly p t8 ∧ ¬ s.slotUnshipped p t8 then s.fireSlot p t8 t8 sense
    else
      let s1 := if s.slotUnshipped p t8 then s.inc (Key.SHIP_LATE p) else s
      match s.reg Key.OVERRUN_POLICY with
      | 0 => s1.updPort p (fun r => { r with deferred := some ⟨r.slot, s.slotLine p r.slot, 0, t8, 0⟩ })
      | 1 => s1.dropSlot p t8
      | _ => (s1.dropSlot p t8).raise 0x2C p

/-- A fire instant of port `p` is carried out: a held port suppresses its slot, another paces its stages and judges it (R22, R194–R203, R312). -/
def State.fireInstant (s : State) (p t8 : Nat) (sense : List Nat) : State :=
  if (s.port p).isHeld then
    (s.inc (Key.GATE_SUPPRESSED p)).updPort p (fun r => { r with slot := s.lineAfterSlot r.slot 1, since8 := t8 })
  else
    let s1 := if (s.port p).st = .filling ∧ (s.port p).fill = 0 then s.updPort p (fun r => { r with st := .firing }) else s
    (s1.paceStages p t8).judgeSlot p t8 sense

/-- The phase of this clock at which a deferred slot is decided (R199). -/
def State.deferPhase (s : State) (p : Nat) : Option Nat :=
  match (s.port p).deferred with
  | none => none
  | some d =>
    match s.deferAt p d.tg8 with
    | none => none
    | some t => (List.range 8).find? (fun ph => decide (t ≤ s.at8 ph))

/-! ## Idle tickle (R305) -/

/-- The period in ct at which idle tickles of port `p` fall (R305). -/
def State.ticklePeriod (s : State) (p : Nat) : Nat :=
  let n := s.reg (Key.IDLE_TICKLE p)
  n * max 1 (ceilDiv (s.tMin p) (8 * n))

/-- Does an idle tickle of port `p` fall on this clock (R305)? One that falls together with an arming completes. -/
def State.tickleDue (s : State) (p : Nat) : Bool :=
  ((s.port p).st == .disarmed || (s.port p).armedAt == some s.clk) && s.reg (Key.IDLE_TICKLE p) != 0 && s.ct % s.ticklePeriod p == 0 && !s.cutCause p
    && s.reg Key.POWER_STATE == 0 && (s.port p).tickled != some s.ct && (s.port p).rampEnd8.isNone

/-- An idle tickle: W0 alone (R305). -/
def State.tickle (s : State) (p : Nat) (sense : List Nat) : State :=
  if s.tickleDue p then
    ((s.draw p (s.at8 0) true true sense).inc (Key.IDLE_FIRES p)).updPort p (fun r => { r with tickled := some s.ct })
  else s

/-! ## Arming and disarming (R302, R304) -/

/-- Reasons that hold for the whole unit, then for port `p`, as bits of ARM_REFUSE (R302); BUSY also while EXTEST, CLAMP or
HIGHZ has the balls (R576). -/
def State.armReasons (s : State) (inhibited : Bool) (chainOk : Bool) (p : Nat) : Nat :=
  let r := s.port p
  nsum [b2n (!s.flag Key.GRID_ENABLE), 2 * b2n (!chainOk), 4 * b2n (!(s.recv.judging && decide (s.recv.missed < 16))),
    8 * b2n (s.ingressRefuses (2 ^ p)), 16 * b2n inhibited, 32 * b2n (s.gated p false), 64 * b2n (!s.portOk p),
    128 * b2n (Nat.land (s.reg (Key.LIMIT_STATE p)) 6 != 0 || !(s.heat p).hasTh), 256 * b2n (s.reg Key.POWER_STATE != 0),
    512 * b2n (r.clear8.isSome || r.rampEnd8.isSome || [3, 4, 5].contains s.tap.ir), 1024 * b2n ((List.range s.nGroups).any (fun g => !(s.cal g).restored))]

/-- Ports named by a mask that are not yet armed. -/
def State.toArm (s : State) (mask : Nat) : List Nat :=
  (List.range s.nPorts).filter (fun p => bit mask p && (s.port p).st == .disarmed)

/-- Is source `k` uncleared and stopping firing: its reactions in force include FIRE_INHIBIT, or it is a HALT (R302, R491)? `reacts` is
the reaction mask of a source. -/
def State.inhibited (s : State) (reacts : Nat → Nat) : Bool :=
  (List.range 256).any (fun k => (s.src k).status && (bit (reacts k) 0 || k == 0x2C || k == 0x31))

/-- An accepted FIRE_ARM (R302, R303). -/
def State.armPorts (s : State) (mask : Nat) : State :=
  let l := s.toArm mask
  let s1 := (s.inc Key.ARM_COUNT).setReg Key.FIRE_INHIBIT 0
  (s1.forEach l (fun p s => (s.startPort p).updPort p (fun r => { r with armedAt := some s.clk }))).windows false

/-- A FIRE_DISARM of a mask (R304). -/
def State.disarmPorts (s : State) (mask : Nat) : State :=
  s.forEach ((List.range s.nPorts).filter (bit mask)) State.disarmPort

/-- A selected table of an armed port has become invalid, or valid again, at a hand-over (R293). -/
def State.judgeWave (p : Nat) (s : State) : State :=
  let bad := (s.port p).st ≠ .disarmed ∧ ¬ s.portOk p
  let was := (s.src 0x3A).causes.contains p
  let s1 := s.cause 0x3A p (decide bad) p
  if bad ∧ ¬ was then s1.stopAtLine 11 p else s1

/-! ## Head identity (R317) -/

/-- Caldera reads a head's identity EEPROM and reports it: 256 bytes, byte 0 first, or none where it does not answer (R317). -/
def execHeadIdRead (port : Fin 16) (bytes : Option (List (BitVec 8))) (s : State) : Res :=
  whenClocked s <| onPort port s (if s.reg Key.CALDERA_STATE ≠ 2 then s else
    let s1 := s.updPort port (fun r => { r with idRead := some s.clk })
    match bytes with
    | none => s1.setTab (0x400C + 0x40 * port) { len := some 0 }
    | some l =>
      let n := ofBytes (((List.range 256).map (fun i => (l.getD i 0).toNat)).reverse)
      s1.setTab (0x400C + 0x40 * port) (tabOf (streamWords 29 n)))

end Sys2Proof.Machine
end

