-- ==== Sys2Proof/Machine/Thermal.lean ====
section
/-! DEFINITION. The Thermal Monitor: scans, neighbours and substitutes, derived temperatures, head limits, heaters (R355-R373). -/

namespace Sys2Proof.Machine

/-! ## Readings (R355, R357) -/

/-- A reading of a channel: its temperature in 1/16 °C, OPEN, SHORT. -/
structure Reading where
  temp : Int
  isOpen : Bool
  isShort : Bool
deriving DecidableEq, Repr

/-- −40 °C to 150 °C (R357). -/
def clampTemp (t : Int) : Int := clampI (-640) 2400 t

/-- Entry `i` of THERM_CURVE of port `p` (R358). -/
def State.curve (s : State) (p i : Nat) : Int :=
  sgn 16 (bits (s.tabWord (0x4010 + 0x40 * p) (i / 4)) (16 * (i % 4) + 15) (16 * (i % 4)))

/-- Temperature of diode `k` from what the two-current method gives at an ideality factor of 1.000, `raw`, with the factor in DT_IDEALITY (R357). -/
def State.diodeTemp (s : State) (k raw : Nat) : Int :=
  let n := s.reg (Key.DT_IDEALITY k)
  if n = 32768 then sgn 16 raw else Config.diodeTemp (BitVec.ofNat 16 raw) (BitVec.ofNat 16 n)

/-- What the converter delivers for channel `k`, as the command carries it: for a thermistor its 12-bit code in bits 11..0; for a die
sensor or a diode its temperature in bits 15..0, two's complement (a diode's at an ideality factor of 1.000), with bit 30 OPEN and bit 31 SHORT
(R357). -/
def State.reading (s : State) (k raw : Nat) : Reading :=
  if k < 64 then
    let c := raw % 4096
    let i := c / 64
    let a := s.curve (k / 4) i
    ⟨clampTemp (a + ((s.curve (k / 4) (i + 1) - a) * (c % 64 : Nat)).tdiv 64), decide (4064 ≤ c), decide (c ≤ 31)⟩
  else ⟨clampTemp (if k < 76 then sgn 16 raw else s.diodeTemp (k - 76) raw), bit raw 30, bit raw 31⟩

/-- Is channel `k` enabled (R356)? -/
def State.sensorOn (s : State) (k : Nat) : Bool :=
  if k < 64 then decide (k / 4 < s.nPorts) && bit (s.reg (Key.THERM_MASK (k / 4))) (k % 4)
  else if k < 76 then true else bit (s.reg Key.DT_ENABLE) (k - 76)

/-- The other enabled channels of a channel's set (R359). -/
def State.neighbours (s : State) (k : Nat) : List Nat :=
  let l := if k < 64 then (List.range 4).map (4 * (k / 4) + ·) else if k < 76 then (List.range 12).map (64 + ·)
    else (List.range 4).map (76 + ·)
  l.filter (fun j => j != k && s.sensorOn j)

/-- Median; with an even count the mean of the middle two, rounded toward −∞ (R359, R419). -/
def median (l : List Int) : Int :=
  let t := l.insertionSort (· ≤ ·)
  let n := t.length
  if n % 2 = 1 then t.getD (n / 2) 0 else (t.getD (n / 2 - 1) 0 + t.getD (n / 2) 0).fdiv 2

/-! ## Sensor states (R360–R362) -/

/-- The state of a channel: 1 MEASURED, 2 SUBSTITUTED, 3 INVALID; an enabled channel that was disabled begins as MEASURED. -/
def State.sensorCode (s : State) (k : Nat) : Nat :=
  let c := s.reg (Key.SENSOR_STATE k) % 4
  if c = 0 then 1 else c

/-- The value a channel held at the end of the last scan, if it was valid (R362). -/
def State.lastValue (s : State) (k : Nat) : Option Int := s.therm.held.getD k none

/-- The values that the channels hold after a scan with values `vals`: those of the channels that it leaves MEASURED or SUBSTITUTED (R359, R362). -/
def State.heldAfter (s : State) (vals : List (Option Int)) : List (Option Int) :=
  (List.range 80).map (fun k =>
    let c := s.reg (Key.SENSOR_STATE k) % 4
    if c = 1 ∨ c = 2 then vals.getD k none else none)

/-- The value of an enabled channel in the scan with readings `rd` (R361, R362). -/
def State.scanValue (s : State) (rd : List Reading) (k : Nat) : Option Int :=
  if ¬ s.sensorOn k then none
  else match s.sensorCode k with
    | 1 => (rd[k]?).map Reading.temp
    | 2 =>
      match (s.neighbours k).filterMap s.lastValue with
      | [] => none
      | l => some (median l + (s.regI (Key.SENSOR_OFS k)).fdiv 16)
    | _ => none

/-- What a scan makes of channel `k`: `vals` are the values of the scan, by channel (R360, R362). `old` is the state before. -/
def State.scanSensor (old : State) (rd : List Reading) (vals : List (Option Int)) (k : Nat) (s : State) : State :=
  let r := rd.getD k ⟨0, false, false⟩
  let lim := old.reg Key.DEV_LIMIT
  let flags := 4 * b2n r.isOpen + 8 * b2n r.isShort
  let nb := (old.neighbours k).filterMap (fun j => vals.getD j none)
  let d := r.temp - median nb
  let bad := r.isOpen || r.isShort
  let c := old.sensor k
  let put := fun (s : State) (code : Nat) (c : Sensor) =>
    (s.setReg (Key.SENSOR_STATE k) (code + flags)).updSensor k (fun _ => c)
  if ¬ old.sensorOn k then (put s 0 {}).setRegI (Key.SENSOR_TEMP k) r.temp
  else
    let s1 := match vals.getD k none with
      | some v => s.setRegI (Key.SENSOR_TEMP k) v
      | none => s
    match old.sensorCode k with
    | 1 =>
      let badN := if bad then c.bad + 1 else 0
      let far := decide (2 ≤ nb.length) && decide (lim < d.natAbs)
      let devN := if far then c.dev + 1 else 0
      let s2 := if 2 ≤ nb.length ∧ d.natAbs ≤ lim then
          let o := old.regI (Key.SENSOR_OFS k)
          s1.setRegI (Key.SENSOR_OFS k) (clampI (-(16 * (lim : Int))) (16 * lim) (o + (16 * d - o).fdiv 64))
        else s1
      if 2 ≤ badN ∨ old.reg Key.DEV_SCANS ≤ devN then
        ((put s2 (if nb.isEmpty then 3 else 2) {}).inc (Key.BROKEN_COUNT k)).raise 0x44 k
      else put s2 1 { bad := badN, dev := devN, rec_ := 0 }
    | code =>
      let near := !bad && decide (2 ≤ nb.length) && decide (2 * d.natAbs ≤ lim)
      let recN := if near then c.rec_ + 1 else 0
      if old.reg Key.RECOVER_SCANS ≤ recN then (put s1 1 {}).inc (Key.RECOVER_COUNT k)
      else put s1 (if nb.isEmpty then 3 else if code = 3 then 2 else code) { bad := 0, dev := 0, rec_ := recN }

/-! ## Derived temperatures (R363–R365) -/

/-- T_d of a group in a list of values: that of its diode, none while it is invalid or disabled (R322, R364). -/
def State.driveIn (s : State) (l : List (Option Int)) (g : Nat) : Option Int :=
  let k := 76 + s.reg (Key.DRIVE_SENSOR g) % 4
  if s.sensorOn k then l.getD k none else none

/-- T_d of the last completed scan (R364). -/
def State.driveNow (s : State) (g : Nat) : Option Int := s.driveIn s.therm.held g

/-- T_d for what happens on this clock: that of the scan before, where one completes on it (R349, R355, R364). -/
def State.driveTemp (s : State) (g : Nat) : Option Int :=
  s.driveIn (if s.therm.scanClk = some s.clk then s.therm.heldPrev else s.therm.held) g

/-- Die temperature and its faults (R365). -/
def State.scanDie (s : State) (vals : List (Option Int)) : State :=
  let v := ((List.range 12).map (64 + ·)).filterMap (fun k => vals.getD k none)
  let s1 := match v with
    | [] => s
    | x :: xs => { s.setRegI Key.DIE_TEMP (xs.foldl max x) with therm := { s.therm with dieFormed := true } }
  if s1.therm.dieFormed then
    let t := s1.regI Key.DIE_TEMP
    (s1.cause 0x48 0 (decide (s1.regI Key.DIE_WARN ≤ t)) 0).cause 0x49 0 (decide (s1.regI Key.DIE_HARD ≤ t)) 0
  else s1

/-- drive-overtemperature of each group (R365). -/
def State.scanDrive (s : State) (vals : List (Option Int)) : State :=
  s.forEach (List.range s.nGroups) (fun g s =>
    s.cause 0x4A g ((vals.getD (76 + s.reg (Key.DRIVE_SENSOR g) % 4) none).any (fun t => decide (s.regI Key.DRIVE_HARD ≤ t))) g)

/-! ## Head limits (R363, R366, R367) -/

/-- A limit state after T_lim `t`. -/
def limitAfter (was : Bool) (t lim hyst : Int) : Bool := if lim ≤ t then true else if t < lim - hyst then false else was

/-- Temperatures and limits of port `p` in a scan (R363, R366, R367). -/
def State.scanPort (vals : List (Option Int)) (p : Nat) (s : State) : State :=
  let v := ((List.range 4).map (4 * p + ·)).filterMap (fun k => vals.getD k none)
  let old := s.reg (Key.LIMIT_STATE p)
  let had := (s.heat p).hasTh
  let th := if had then some (s.regI (Key.HEAD_TEMP p)) else none
  match v with
  | [] =>
    let s1 := ((s.updHeat p (fun h => { h with hasTh := false, prevTh := th })).setReg (Key.LIMIT_STATE p) (old % 8 + 8)).cause 0x47 p true p
    if had then s1.stopAtLine 9 p else s1
  | x :: xs =>
    let t := xs.foldl max x
    let hyst : Int := s.reg (Key.LIMIT_HYST p)
    let warn := limitAfter (bit old 0) t (s.regI (Key.LIMIT_WARN p)) hyst
    let soft := limitAfter (bit old 1) t (s.regI (Key.LIMIT_SOFT p)) hyst
    let hard := limitAfter (bit old 2) t (s.regI (Key.LIMIT_HARD p)) hyst
    let s1 := ((s.setRegI (Key.HEAD_TEMP p) ((isum v).fdiv v.length)).setRegI (Key.HEAD_TEMP_MAX p) t).updHeat p
      (fun h => { h with hasTh := true, prevTh := th })
    let s2 := ((((s1.setReg (Key.LIMIT_STATE p) (b2n warn + 2 * b2n soft + 4 * b2n hard)).cause 0x47 p false p).cause 0x45 p warn p).cause
      0x46 p soft p).cause (0xA0 + p) p hard 0
    if hard ∧ ¬ bit old 2 then s2.cutPort 7 false p
    else if soft ∧ ¬ bit old 1 then s2.stopAtLine 8 p
    else s2

/-! ## Heaters (R368, R369) -/

/-- Is the heater of port `p` forced low (R368)? -/
def State.heatForced (s : State) (p : Nat) : Bool :=
  decide (1 < s.reg Key.POWER_STATE) || Nat.land (s.reg (Key.LIMIT_STATE p)) 6 != 0 || !(s.heat p).hasTh

/-- A forced output is low at once, HEAT_DUTY reads 0 and the integrator is 0 (R368, R369). -/
def State.heatForce (p : Nat) (s : State) : State :=
  if s.heatForced p then (s.setReg (Key.HEAT_DUTY p) 0).updHeat p (fun h => { h with integ := 0, want := 0 }) else s

/-- A step of the PI loop of port `p` (R369). -/
def State.heatStep (p : Nat) (s : State) : State :=
  if s.heatForced p ∨ s.reg (Key.HEAT_MODE p) ≠ 2 then s
  else
    let top : Int := s.reg (Key.HEAT_DUTY_MAX p)
    let e := s.regI (Key.HEAT_SETPOINT p) - s.regI (Key.HEAD_TEMP p)
    let i := clampI 0 (top * 4096) ((s.heat p).integ + (s.reg (Key.HEAT_KI p) : Int) * e)
    let u := ((s.reg (Key.HEAT_KP p) : Int) * e + i).fdiv 4096
    s.updHeat p (fun h => { h with integ := i.toNat, want := (clampI 0 top u).toNat })

/-- The duty of the mode in force (R368). -/
def State.heatDuty (s : State) (p : Nat) : Nat :=
  match s.reg (Key.HEAT_MODE p) with
  | 1 => min (s.reg (Key.HEAT_FIXED p)) (s.reg (Key.HEAT_DUTY_MAX p))
  | 2 => (s.heat p).want
  | _ => 0

/-- HEAT_MODE written: entry into PI sets the integrator to 0 (R369). -/
def State.heatModeWrite (s : State) (p old : Nat) : State :=
  if s.reg (Key.HEAT_MODE p) = 2 ∧ old ≠ 2 then s.updHeat p (fun h => { h with integ := 0, want := 0 }) else s

/-- HEAT_PERIOD in core clocks (R371). -/
def State.heatPeriod (s : State) : Nat := s.reg Key.HEAT_PERIOD * 500

/-- Does a PWM period of port `p` start: the one in progress has lasted HEAT_PERIOD, or none has begun (R368)? -/
def State.heatDue (s : State) (p : Nat) : Bool := (s.heat p).start.all (fun t => decide (t + s.heatPeriod ≤ s.clk))

/-- The level of HEATp: high for the first HEAT_DUTY/1,024 of each period (R368). -/
def State.heatPin (s : State) (p : Nat) : Bool :=
  (s.heat p).start.any (fun t => decide ((s.clk - t) * 1024 < s.reg (Key.HEAT_DUTY p) * s.heatPeriod))

/-- A heater PWM period starts and takes the duty in force (R368). -/
def execHeatPeriodStart (port : Fin 16) (s : State) : Res :=
  whenClocked s <| onPort port s (if s.heatDue port then
    let s1 := s.updHeat port (fun h => { h with start := some s.clk })
    if s1.heatForced port then s1.heatForce port else s1.setReg (Key.HEAT_DUTY port) (s1.heatDuty port)
  else s)

/-! ## The scan (R355, R356) -/

/-- Is a scan due: 100 µs of chain time after the last, or after a block reset (R355, R563)? Where chain time has been set meanwhile, 100 µs of
core clocks count as well. -/
def State.scanReady (s : State) : Bool := s.therm.lastScan.all (fun e => decide (e.1 + 50000 ≤ s.ct) || decide (e.2 + 50000 ≤ s.clk))

/-- Everything a scan changes but the corrections of Drive Calibration: sensors, temperatures, limits and heaters (R355–R369). -/
def State.scan (s : State) (readings : Vector (BitVec 32) 80) : State :=
  let rd := readings.toList.zipIdx.map (fun e => s.reading e.2 e.1.toNat)
  let vals := (List.range 80).map (s.scanValue rd)
  let s1 := s.forEach ((List.range 80).filter (fun k => decide (64 ≤ k) || decide (k / 4 < s.nPorts))) (State.scanSensor s rd vals)
  let s2 := ((s1.inc Key.SCAN_COUNT).scanDie vals).scanDrive vals
  let s3 := s2.forEach (List.range s2.nPorts) (State.scanPort vals)
  let div := s.therm.div + 1
  let step := decide (s.reg Key.HEAT_DIV ≤ div)
  let s4 := { s3 with therm := { s3.therm with
    div := if step then 0 else div, lastScan := some (s.ct, s.clk), scanClk := some s.clk, held := s3.heldAfter vals, heldPrev := s.therm.held } }
  let s5 := s4.forEach (List.range s4.nPorts) State.heatForce
  if step then s5.forEach (List.range s5.nPorts) State.heatStep else s5

end Sys2Proof.Machine
end

