-- ==== Sys2Proof/Machine/Cal.lean ====
section
/-! DEFINITION. Drive Calibration: correction sets, what is due, the HOV bus, hand-over and hand-back, measurement, acceptance, abort
(R322-R349). -/

namespace Sys2Proof.Machine

/-! ## Sets and corrections (R323, R324) -/

/-- Words of set `i` of drive channel `c` in its group's CAL_SETS (R323). -/
def State.setA (s : State) (c i : Nat) : Nat := s.tabWord (0x4500 + chGroup c) (10 * chSlot c + 2 * i)
def State.setB (s : State) (c i : Nat) : Nat := s.tabWord (0x4500 + chGroup c) (10 * chSlot c + 2 * i + 1)

/-- A correction set: TEMP, CAL_GAIN, CAL_OFFSET, SENSE_GAIN, SENSE_OFFSET (R323). -/
structure CorrSet where
  temp : Int
  gain : Int
  offset : Int
  sgain : Int
  soffset : Int
deriving DecidableEq, Repr

/-- Set `i` of a channel, if it is valid. -/
def State.corrSet (s : State) (c i : Nat) : Option CorrSet :=
  let a := s.setA c i
  if bit a 71 then
    some ⟨sgn 12 (bits a 67 56), bits a 55 40, sgn 16 (bits a 39 24), bits a 23 0, sgn 16 (bits (s.setB c i) 71 56)⟩
  else none

/-- Valid sets in ascending temperature; of equal temperatures the lowest set number only (R324). -/
def State.validSets (s : State) (c : Nat) : List CorrSet :=
  let l := (List.range 5).filterMap (s.corrSet c)
  let one := l.foldl (fun a x => if a.any (fun y => y.temp = x.temp) then a else a ++ [x]) []
  one.insertionSort (fun a b => a.temp ≤ b.temp)

/-- Interpolation of R324 between two sets. -/
def between (td : Int) (a b : CorrSet) : CorrSet :=
  let f := fun (x y : Int) => x + ((y - x) * (td - a.temp)).tdiv (b.temp - a.temp)
  ⟨td, f a.gain b.gain, f a.offset b.offset, f a.sgain b.sgain, f a.soffset b.soffset⟩

/-- The corrections at drive temperature `td` (R324). -/
def corrAt (td : Int) : List CorrSet → CorrSet
  | [] => ⟨td, 32768, 0, 1048576, 0⟩
  | [a] => a
  | a :: b :: l => if td ≤ a.temp then a else if td < b.temp then between td a b else corrAt td (b :: l)

/-- Recomputes the corrections in force of one channel at drive temperature `td`; while it is invalid they are held (R324). -/
def State.correctAt (c : Nat) (td : Option Int) (s : State) : State :=
  match td with
  | none => s
  | some td =>
    let x := corrAt td (s.validSets c)
    (((s.setRegI (Key.CAL_GAIN_IN_FORCE c) x.gain).setRegI (Key.CAL_OFFSET_IN_FORCE c) x.offset).setRegI
      (Key.SENSE_GAIN_IN_FORCE c) x.sgain).setRegI (Key.SENSE_OFFSET_IN_FORCE c) x.soffset

/-- Recomputes the corrections in force of one channel (R324). -/
def State.recompute (c : Nat) (s : State) : State := s.correctAt c (s.driveTemp (chGroup c))

/-- Every drive channel of the part. -/
def State.allChannels (s : State) : List Nat := (List.range 68).filter s.hasChannel

/-- Recomputes the corrections in force of every channel at a line event (R324). -/
def State.recomputeAll (s : State) : State := s.forEach s.allChannels State.recompute

/-- Recomputes them at a completed scan, with what it gives, while the grid is off (R324; log 45). -/
def State.recomputeScan (s : State) : State := s.forEach s.allChannels (fun c s => s.correctAt c (s.driveNow (chGroup c)))

/-! ## What is due (R325, R326) -/

/-- |T_d − CAL_TEMP_REF| (R325); 0 while T_d is invalid. -/
def State.calDrift (s : State) (c : Nat) : Nat :=
  match s.driveNow (chGroup c) with
  | some td => (td - s.regI (Key.CAL_TEMP_REF c)).natAbs
  | none => 0

/-- DUE (R325): a channel that was due stays so after a rejection. -/
def State.calDue (s : State) (c : Nat) : Bool :=
  let age : Bool := s.reg Key.CAL_MAX_AGE != 0 &&
    (match (s.chan c).acceptedAt with
     | some t => decide (t + s.reg Key.CAL_MAX_AGE * 500000000 ≤ s.ct)
     | none => false)
  s.flag Key.CAL_ENABLE && s.hasChannel c &&
    ((s.validSets c).isEmpty || decide (s.reg Key.CAL_DELTA_T < s.calDrift c) || age || s.flag (Key.CAL_REQUEST c) || (s.chan c).stays)

/-- May a due channel be selected: the holds after rejections, which CAL_REQUEST overrides (R325)? -/
def State.calSelectable (s : State) (c : Nat) : Bool :=
  let r := s.chan c
  let waits := r.rejectedAt.any (fun t => decide (s.ct < t + s.reg Key.CAL_RETRY))
  let limit := decide (s.reg Key.CAL_REJECT_LIMIT ≤ r.rejects) && !r.passed
  s.calDue c && (s.flag (Key.CAL_REQUEST c) || (!waits && (!limit || (s.validSets c).isEmpty)))

/-- At a completed scan: has the CAL_TEMP_REF of a channel been passed by more than CAL_DELTA_T (R325)? -/
def State.calPassed (c : Nat) (s : State) : State :=
  if s.reg Key.CAL_DELTA_T < s.calDrift c then s.updChan c (fun r => { r with passed := true }) else s

/-- The group's next channel (R326). -/
def State.calSelect (s : State) (g : Nat) : Option Nat :=
  let sp := 64 + g
  if s.calSelectable sp then some sp
  else
    let l := ((List.range 16).map (16 * g + ·)).filter s.calSelectable
    match l.find? (fun c => s.flag (Key.CAL_REQUEST c)) with
    | some c => some c
    | none => l.foldl (fun b c => match b with
        | none => some c
        | some x => if s.calDrift x < s.calDrift c then some c else b) none

/-! ## The HOV bus (R328–R332) -/

/-- CHECK of a frame without it (R329). -/
def hovCheck (v : Nat) : Nat := Nat.xor 0xFF (Nat.xor (Nat.xor (bits v 31 24) (bits v 23 16)) (bits v 15 8))

/-- A command frame (R329). -/
def hovFrame (board fseq : Nat) (c : HovCmd) : Nat :=
  let v := fld board 2 30 + fld c.op 2 28 + fld c.slot 5 23 + fld c.sense 2 21 + fld fseq 8 8
  v + hovCheck v

/-- Is a reply valid, and does it show command `c`, sent as frame `fseq`, applied (R330, R332)? -/
def hovReplyOk (board fseq : Nat) (swapped : Option Nat) (c : HovCmd) (v : Nat) : Bool :=
  bits v 7 0 == hovCheck v && bits v 31 30 == board && bits v 29 28 == c.op && bits v 27 23 == swapped.getD 31
    && bits v 22 21 == c.sense && !bit v 20 && bits v 15 8 == fseq % 256

/-- HOV_LEAD in 1/8 ct: 128 / HOV_CLOCK + 1 µs, rounded up (R333). -/
def State.hovLead (s : State) : Nat := ceilDiv 512000000 (s.reg Key.HOV_CLOCK) + 4000

/-- `n` periods of HOV_CLK in core clocks, rounded up (R328). -/
def State.hovClks (s : State) (n : Nat) : Nat := ceilDiv (n * 500000) (s.reg Key.HOV_CLOCK)

/-- The port of a channel; the spare has none. -/
def chPort (c : Nat) : Option Nat := if c < 64 then some (c / 4) else none

/-- Does the board of a group stand with nothing on its way: no frame, none pending, no STATUS? -/
def CalGroup.quiet (c : CalGroup) : Bool := c.frames.isEmpty && c.sent.isNone && c.status.isNone

/-- Command frames of group `g` fall due (R328). -/
def State.queueHov (g : Nat) (l : List HovCmd) (s : State) : State :=
  s.updCal g (fun r => { r with frames := r.frames ++ l, dueAt := if r.quiet then s.clk else r.dueAt })

/-- The clock at which the group's next frame fell or falls due, if it has one that can go: a STATUS after a strobe, else the next command frame
while the board holds none pending (R329, R332); a SENSE frame only once the dwell before it is over (R339). -/
def CalGroup.dueClk (c : CalGroup) : Option Nat :=
  if c.status.isSome then (if c.statusOut then none else some c.dueAt)
  else if c.sent.isSome then none
  else c.frames.head?.map (fun x => if x.op = 3 then max c.dueAt c.dwellTo else c.dueAt)

/-- May group `g` send a frame now? Frames go one at a time, after four idle periods, in the order they are due, of those due together that of
the lowest group first (R328; log 45). -/
def State.canSend (s : State) (g : Nat) : Bool :=
  match (s.cal g).dueClk with
  | none => false
  | some t =>
    let l := List.range s.nGroups
    decide (t ≤ s.clk) && l.all (fun k => decide ((s.cal k).busTo ≤ s.clk))
      && l.all (fun k => match (s.cal k).dueClk with
          | none => true
          | some u => decide (t < u) || (u == t && decide (g ≤ k)))

/-- Idle tickles of port `p` in progress, or due within 1 µs (R334). -/
def State.tickleNear (s : State) (p : Nat) : Bool :=
  (s.port p).drawing (s.at8 0) || (s.reg (Key.IDLE_TICKLE p) != 0 && !s.cutCause p && s.reg Key.POWER_STATE == 0 &&
    decide ((s.ticklePeriod p - s.ct % s.ticklePeriod p) % s.ticklePeriod p < 500))

/-- May the strobe for a channel of port `p` fall on this clock: while it fills or fires, at t_g + W_p of a fire where that lies `lead` or later
(R333); while it is DISARMED, with no idle tickle near (R334)? -/
def State.portRests (s : State) (lead p : Nat) : Bool :=
  let r := s.port p
  match r.st with
  | .disarmed => !s.tickleNear p
  | .filling => r.rest8.any (fun t => decide (lead ≤ t) && decide (t < s.at8 8) && decide (s.at8 0 < t + 2))
  | .firing => r.rest8.any (fun t => decide (lead ≤ t) && decide (t < s.at8 8) && decide (s.at8 0 < t + 2))
  | _ => false

/-- Are the channels of port `p` at rest on this clock for a RESTORE that concerns no channel in calibration: none draws, and none draws
within 200 ns (R332–R334; log 45)? -/
def State.portStill (s : State) (p : Nat) : Bool :=
  let r := s.port p
  let still : Bool := r.rest8.all (fun t => decide (t ≤ s.at8 0)) && r.last8.any (fun t => decide (s.at8 8 + 800 ≤ t + s.tMin p))
  match r.st with
  | .disarmed => !s.tickleNear p
  | .filling => r.last8.isNone || still
  | .firing => still
  | _ => false

/-- May the strobe of a SWAP or RESTORE of group `g` fall on this clock (R333, R334)? The channel concerned is that in calibration; a RESTORE
with none concerned waits until the four ports of the group are at rest. -/
def State.strobeOk (s : State) (g : Nat) : Bool :=
  match ((s.cal g).ch.bind chPort) with
  | some p => s.portRests ((match (s.cal g).moveAt8 with
      | some t => t + s.hovLead
      | none => 0)) p
  | none => ((List.range 4).map (4 * g + ·)).all s.portStill

/-- The first clock of a strobe: the frame has been shifted, and 50 ns have passed since its last rising edge, half a period before (R331,
R341). -/
def State.strobeFrom (s : State) (g : Nat) : Nat := (s.cal g).frameEnd + (25 - s.hovClks 1 / 2)

/-- Does the strobe of group `g` fall on this clock (R333, R334, R339)? -/
def State.strobeDue (s : State) (g : Nat) : Bool :=
  (s.cal g).sent.any (fun x => decide (s.strobeFrom g ≤ s.clk) && (x.op == 3 || s.strobeOk g))

/-- A HOV command or STATUS frame of the group is shifted out (R328, R329, R332). -/
def execHovFrame (group : Fin 4) (s : State) : Res :=
  let g := group.val
  let c := s.cal g
  let n := (c.fseq + 1) % 256
  let busy := fun (c : CalGroup) => { c with fseq := n, frameEnd := s.clk + s.hovClks 32, busTo := s.clk + s.hovClks 36 }
  whenClocked s <| onGroup g s (if ¬ s.canSend g then s
    else if c.status.isSome then
      (s.emit (.hov g (hovFrame g n ⟨0, 0, 0⟩))).updCal g (fun c => { busy c with statusOut := true })
    else match c.frames with
      | [] => s
      | x :: xs => (s.emit (.hov g (hovFrame g n x))).updCal g (fun c => { busy c with cmdSeq := n, frames := xs, sent := some x }))

/-- 2^A conversions after a dwell, in core clocks (R338). -/
def State.dwellClks (s : State) : Nat := 4 * s.reg Key.CAL_DWELL + 8 * 2 ^ s.reg Key.CAL_AVG

/-- HOV_SETTLE in core clocks. -/
def State.settleClks (s : State) : Nat := ceilDiv (s.reg Key.HOV_SETTLE) 2

/-- The strobe: the board applies its pending frame (R331–R334); after a SENSE frame the settling, the dwell and the sum (R339). -/
def execHovStrobe (group : Fin 4) (s : State) : Res :=
  let g := group.val
  whenClocked s <| onGroup g s (match (s.cal g).sent with
    | none => s
    | some x =>
      if ¬ s.strobeDue g then s
      else (s.emit (.hovStrobe g)).updCal g (fun c => { c with
        sent := none, status := some x, statusOut := false, dueAt := s.clk
        dwellTo := if x.op = 3 ∧ x.sense ≠ 0 then s.clk + s.settleClks + s.dwellClks else c.dwellTo
        sweepAt := if x.op = 3 ∧ x.sense = 0 then some (s.clk + s.settleClks) else c.sweepAt
        swapped := if x.op = 1 then some x.slot else if x.op = 2 then none else c.swapped
        sense := if x.op = 3 then x.sense else if x.op = 2 then 0 else c.sense }))

/-! ## Final status and hand-back (R336, R346) -/

/-- The final status write of the calibration of channel `c` (R346): OUTCOME and DETAIL as `outcome` holds them. -/
def State.calFinal (s : State) (g c : Nat) : State :=
  let old := s.reg (Key.CAL_RESULT g)
  let o := (s.cal g).outcome
  (((s.setReg (Key.CAL_RESULT g) (fld c 8 24 + fld (o / 16) 4 12 + fld (o % 16) 4 8 + (old + 1) % 256)).setReg
    (Key.CAL_REQUEST c) 0).setReg (Key.CAL_CHANNEL g) 0xFF).updCal g (fun r => { r with
      ch := none, phase := .idle, chDraws := true, spDraws := false, fits := [], setDue := none, setDone := false, outcome := 0
      roundNow := none, sweepAt := none, finalAt := some s.clk, moveAt8 := none })

/-- The set nearest a temperature, the lower on a tie (R345). -/
def State.nearestSet (s : State) (temp : Int) : Nat :=
  (List.range 5).foldl (fun b i =>
    if (s.regI (Key.CAL_SET_TEMP i) - temp).natAbs < (s.regI (Key.CAL_SET_TEMP b) - temp).natAbs then i else b) 0

/-- Writes an accepted result into its set of channel `c` (R345). -/
def State.writeSet (s : State) (c : Nat) (temp : Int) (f : CalFit) : State :=
  let g := chGroup c
  let i := s.nearestSet temp
  let a := 2 ^ 71 + fld (unsgn 12 temp) 12 56 + fld (unsgn 16 f.gain) 16 40 + fld (unsgn 16 f.offset) 16 24 + fld (unsgn 24 f.sgain) 24 0
  let b := fld (unsgn 16 f.soffset) 16 56 + fld (unsgn 16 f.resid) 16 40 + fld ((s.chan c).acceptedAt.getD 0 / 2 ^ 24) 40 0
  let at_ := 10 * chSlot c + 2 * i
  let words := (List.range 170).map (fun w => if w = at_ then a else if w = at_ + 1 then b else s.tabWord (0x4500 + g) w)
  (s.setTab (0x4500 + g) (tabOf words)).updCal g (fun r => { r with copies := r.copies ++ [at_] })

/-- The calibration in progress ends ABORTED with a detail; nothing more is written (R332, R347, R348, R349). A channel whose swap has not
been strobed is not handed over at all; one that is handed over waits for its hand-back. -/
def State.calAbort (detail g : Nat) (s : State) : State :=
  let r := s.cal g
  match r.ch with
  | none => s
  | some c =>
    let s1 := s.updCal g (fun r => { r with
      outcome := 2 * 16 + detail, setDue := none, fits := [], roundNow := none, sweepAt := none, dwellTo := 0, frames := r.frames.filter (fun x => x.op ≠ 3) })
    if r.phase = .handBack then s1
    else if 64 ≤ c then
      let away : Bool := r.sense != 0 || r.sent.any (fun x => x.op == 3 && x.sense != 0)
      (if away then s1.queueHov g [⟨3, chSlot c, 0⟩] else s1).calFinal g c
    else if r.phase = .handOver ∧ r.swapped.isNone then
      (s1.updCal g (fun r => { r with frames := r.frames.filter (fun x => x.op ≠ 1), sent := none })).calFinal g c
    else s1.updCal g (fun r => { r with phase := .handBack })

/-- The STATUS reply after a strobe (R330, R332, R336, R346). -/
def execHovVerify (group : Fin 4) (reply : Option (BitVec 32)) (s : State) : Res :=
  let g := group.val
  let r := s.cal g
  whenClocked s <| onGroup g s (match r.status with
    | none => s
    | some x =>
      if ¬ r.statusOut ∨ s.clk < r.frameEnd then s
      else
        let v := (reply.map BitVec.toNat).getD 0
        let ok := reply.isSome && hovReplyOk g r.cmdSeq r.swapped { x with sense := r.sense } v
        let chan := if reply.isSome then bits v 27 23 else s.reg (Key.HOV_STATE g) % 32
        let s1 := (s.setReg (Key.HOV_STATE g) (128 * b2n ok + chan)).updCal g (fun r => { r with
          status := none, statusOut := false, dueAt := s.clk })
        if ¬ ok then
          let s2 := (((s1.inc (Key.HOV_ERRORS g)).raise 0x43 g).calAbort 4 g).updCal g (fun r => { r with
            frames := [⟨2, 31, 0⟩], sent := none, unverified := true, retryAt := some (s.clk + 500000), chDraws := true
            spDraws := r.ch.isSome })
          s2
        else if x.op = 1 then
          s1.updCal g (fun r => { r with chDraws := false, phase := if r.phase = .handOver then .ready else r.phase })
        else if x.op = 2 then
          let s2 := s1.updCal g (fun r => { r with restored := true, unverified := false, retryAt := none })
          match r.ch with
          | some c => if r.phase = .handBack then s2.calFinal g c else s2
          | none => s2
        else s1)

/-- Every 1 ms an unverified RESTORE is sent again (R332). -/
def execHovRestoreRetry (group : Fin 4) (s : State) : Res :=
  let g := group.val
  whenClocked s <| onGroup g s (if (s.cal g).unverified ∧ (s.cal g).retryAt.any (fun t => decide (t ≤ s.clk)) then
    (if (s.cal g).quiet then s.queueHov g [⟨2, 31, 0⟩] else s).updCal g (fun r => { r with retryAt := some (s.clk + 500000) })
  else s)

/-! ## Start (R327, R333) -/

/-- The hand-over's SWAP is queued: at the first line event after the start while the port fills or fires, at once while it is DISARMED
(R333, R334). -/
def State.queueSwap (line : Bool) (g : Nat) (s : State) : State :=
  let r := s.cal g
  match r.ch.bind chPort with
  | none => s
  | some p =>
    let st := (s.port p).st
    let go := st == .disarmed || (line && (st == .filling || st == .firing))
    if r.phase = .handOver ∧ ¬ r.spDraws ∧ go then
      (s.queueHov g [⟨1, chSlot (r.ch.getD 0), 0⟩]).updCal g (fun r => { r with
        spDraws := true
        moveAt8 := if st = .disarmed then none else some (s.at8 0) })
    else s

/-- Why a selected channel cannot start (R327), as a mask: 1 power, 2 T_d, 4 board, 8 spare. -/
def State.calRefusal (s : State) (g c : Nat) : Nat :=
  b2n (s.reg Key.POWER_STATE != 0) + 2 * b2n (s.driveNow g).isNone
    + 4 * b2n (!(s.cal g).restored || (s.cal g).unverified || (s.cal g).swapped.isSome)
    + 8 * b2n (decide (c < 64) && (s.validSets (64 + g)).isEmpty)

/-- A group without a calibration selects at a completed scan and starts, or defers (R326, R327). -/
def execCalStart (group : Fin 4) (s : State) : Res :=
  let g := group.val
  whenClocked s <| onGroup g s (if ¬ (s.cal g).selDue ∨ (s.cal g).ch.isSome then s
    else
      let s1 := s.updCal g (fun r => { r with selDue := false })
      match s1.calSelect g with
      | none => s1
      | some c =>
        let why := s1.calRefusal g c
        if why ≠ 0 then
          if (s1.cal g).refused = some why then s1
          else ((s1.inc (Key.CAL_DEFERRED g)).raise 0x40 g).updCal g (fun r => { r with refused := some why })
        else
          let s2 := (s1.setReg (Key.CAL_CHANNEL g) c).updCal g (fun r => { r with
            ch := some c, refused := none, phase := if 64 ≤ c then .ready else .handOver, chDraws := true, spDraws := false
            fits := [], setDue := none, setDone := false, outcome := 0 })
          s2.queueSwap false g)

/-! ## Measurement (R338–R341) -/

/-- The frames of a sense reference: REF_LO, REF_HI, normal (R339). -/
def senseFrames (c : Nat) : List HovCmd := [⟨3, chSlot c, 1⟩, ⟨3, chSlot c, 2⟩, ⟨3, chSlot c, 0⟩]

/-- Measurement begins: the swap is verified and the channel's last waveform has ended, or an idle spare is measured where it stands
(R333, R337, R338). -/
def execMeasureStart (group : Fin 4) (s : State) : Res :=
  let g := group.val
  let r := s.cal g
  whenClocked s <| onGroup g s (match r.ch with
    | none => s
    | some c =>
      let drawing := (chPort c).any (fun p => (s.port p).draws.any (fun d => d.ch = c ∧ s.at8 0 < d.end8))
      if r.phase ≠ .ready ∨ drawing then s
      else
        let rest := s.restCode c
        let s1 := s.queueHov g (senseFrames c)
        match s.driveTemp g with
        | some t => s1.updCal g (fun r => { r with phase := .measure, temp := t, rest := rest })
        | none => { s1 with free := s1.free + 1 }.updCal g (fun r => { r with
            phase := .measure, temp := sgn 12 (Config.freeWord s.free).toNat, rest := rest }))

/-- The codes of the sweep (R340). -/
def State.sweep (s : State) : List Nat :=
  let n := s.reg Key.CAL_POINTS
  (List.range n).map (fun j => s.reg Key.CAL_CODE_LO + j * (s.reg Key.CAL_CODE_HI - s.reg Key.CAL_CODE_LO) / (n - 1))

/-- A code on its way from `a` to `b` after `n` samples at `slew` codes a sample (R338). -/
def slewCode (slew a b n : Nat) : Nat := if a < b then min b (a + n * slew) else max b (a - n * slew)

/-- The samples that a change of code takes (R341). -/
def slewSamples (slew a b : Nat) : Nat := ceilDiv ((a : Int) - b).natAbs slew

/-- The code at sample `n` of a staircase from code `a` that slews to each code of a list and holds it for `hold` samples; it stays at the last
(R338, R340). -/
def stairCode (slew hold a : Nat) : List Nat → Nat → Nat
  | [], _ => a
  | b :: l, n =>
    let k := slewSamples slew a b
    if n < k then slewCode slew a b (n + 1) else if n < k + hold then b else stairCode slew hold b l (n - k - hold)

/-- The samples that slewing along a list of codes from `a` takes: N_s (R341). -/
def stairSlew (slew a : Nat) : List Nat → Nat
  | [] => 0
  | b :: l => slewSamples slew a b + stairSlew slew b l

/-- Core clocks of a sweep of group `g`, R_c to R_c (R340, R341). -/
def State.sweepClks (s : State) (g : Nat) : Nat :=
  let rc := (s.cal g).rest
  s.reg Key.CAL_POINTS * s.dwellClks + 4 * stairSlew (s.reg Key.CAL_SLEW) rc (s.sweep ++ [rc])

/-- The DAC code of the channel in measurement at clock `clk`: a sample is 8 ns (R338, R340). -/
def State.sweepCode (s : State) (g clk : Nat) : Nat :=
  let rc := (s.cal g).rest
  match (s.cal g).sweepAt with
  | none => rc
  | some t => if clk < t then rc else
      stairCode (s.reg Key.CAL_SLEW) (ceilDiv s.dwellClks 4) rc (s.sweep ++ [rc]) ((clk - t) / 4)

/-- What drive channel `c` puts out on this clock at phase `ph`: raw codes while it is measured, else what it prints (R285, R297, R309, R338). -/
def State.dacAt (s : State) (c ph : Nat) : Nat :=
  let g := chGroup c
  if (s.cal g).ch = some c ∧ (s.cal g).phase = .measure then s.sweepCode g s.clk else s.printAt c (s.at8 ph)

/-- Rounding to nearest, halves away from zero, of `a / b` (R339). -/
def roundQ (a b : Int) : Int := if b < 0 then roundHalfAway (-a) (-b) else roundHalfAway a b

/-- The fit of a round from its sums and references; `odd` conversions read 0 or 4095; none where the round gives no line (R339, R340,
R343). -/
def State.calFit (s : State) (sums : List Nat) (slo shi odd : Nat) : Option CalFit :=
  if shi ≤ slo ∨ sums.length ≠ s.reg Key.CAL_POINTS then none
  else
    let u : Int := 2 ^ (16 + s.reg Key.CAL_AVG)
    let lo : Int := s.reg Key.CAL_REF_LO
    let sg := roundQ (((s.reg Key.CAL_REF_HI : Int) - lo) * u) ((shi : Int) - slo)
    let so := lo - roundQ (slo * sg) u
    let d : List Int := s.sweep.map (fun (x : Nat) => (x : Int))
    let m : List Int := sums.map (fun (x : Nat) => roundQ ((x : Int) * sg * 16) u + 16 * so)
    let n : Int := sums.length
    let sd := isum d
    let sm := isum m
    let num := n * isum ((d.zip m).map (fun e => e.1 * e.2)) - sd * sm
    let den := n * isum (d.map (fun x => x * x)) - sd * sd
    if num = 0 ∨ den = 0 then none
    else
      -- a16 = num / den, b16 = (sm * den − num * sd) / (n * den)
      let bn := sm * den - num * sd
      let gain := roundQ (524288 * den) num
      let off := roundQ (-bn) (n * num)
      let worst := ((d.zip m).map (fun e => ((n * den * e.2 - n * num * e.1 - bn).natAbs : Int))).foldl max 0
      let resid := roundQ worst ((n * den).natAbs : Int)
      let within := fun (x c : Int) (k : Nat) => decide ((x - c).natAbs ≤ s.reg k)
      let fits := decide (0 ≤ gain) && decide (gain < 2 ^ 16) && decide (-(2 ^ 15) ≤ off) && decide (off < 2 ^ 15) && decide (0 ≤ sg)
        && decide (sg < 2 ^ 24) && decide (-(2 ^ 15) ≤ so) && decide (so < 2 ^ 15) && decide (resid < 2 ^ 16)
      some { gain := gain, offset := off, sgain := sg, soffset := so, resid := resid
             ok := fits && odd == 0 && within gain 32768 Key.CAL_GAIN_TOL && within off 0 Key.CAL_OFFSET_TOL
               && within sg 1048576 Key.CAL_SENSE_GAIN_TOL && within so 0 Key.CAL_SENSE_OFFSET_TOL
               && decide (resid ≤ s.reg Key.CAL_RESID_MAX) }

/-- Do the results fit their set fields (R343)? -/
def CalFit.fits (f : CalFit) : Bool :=
  decide (0 ≤ f.gain) && decide (f.gain < 2 ^ 16) && decide (-(2 ^ 15) ≤ f.offset) && decide (f.offset < 2 ^ 15) && decide (0 ≤ f.sgain)
    && decide (f.sgain < 2 ^ 24) && decide (-(2 ^ 15) ≤ f.soffset) && decide (f.soffset < 2 ^ 15) && decide (f.resid < 2 ^ 16)

/-- DETAIL of a finished measurement from its rounds, newest first: 0 accepted, 1 implausible, 2 not in agreement (R342, R343, R346). -/
def State.calJudge (s : State) (rounds : List (Option CalFit)) : Nat :=
  let agree := fun (a b : CalFit) => decide ((a.gain - b.gain).natAbs ≤ s.reg Key.CAL_REPEAT_GAIN_TOL)
    && decide ((a.offset - b.offset).natAbs ≤ s.reg Key.CAL_REPEAT_OFFSET_TOL)
  match s.reg Key.CAL_ACCEPT, rounds with
  | 0, [some a] => if a.ok then 0 else 1
  | 1, [some b, some a] => if ¬ (a.fits && b.fits) then 1 else if agree a b then 0 else 2
  | _, [some b, some a] => if ¬ (a.ok && b.ok) then 1 else if agree a b then 0 else 2
  | _, _ => 1

/-- A value that stands for a round that gives no line: it fits nowhere. -/
def CalFit.void : CalFit := ⟨-1, 0, -1, 0, 0, false⟩

/-- The result of the last round is accepted or rejected (R342–R345, R336, R337). -/
def State.calConclude (s : State) (g c : Nat) : State :=
  let r := s.cal g
  let detail := s.calJudge (r.fits.map some)
  let s1 := s.setRegI (Key.CAL_TEMP_REF c) r.temp
  let s2 := s1.updCal g (fun r => { r with outcome := 16 + detail, phase := .handBack })
  let s3 :=
    if detail = 0 then
      (((s2.inc (Key.CAL_DONE c)).updChan c (fun x => { x with
        stays := false, rejects := 0, limitTold := false, acceptedAt := some s.ct }))).updCal g
        (fun r => { r with setDue := r.fits.head? })
    else
      let n := min 15 ((s.chan c).rejects + 1)
      let full := decide (s.reg Key.CAL_REJECT_LIMIT ≤ n)
      let s4 := ((s2.inc (Key.CAL_REJECTED c)).updChan c (fun x => { x with
        stays := true, passed := false, rejects := n, limitTold := x.limitTold || full, rejectedAt := some s.ct })).raise 0x41 c
      if full ∧ ¬ (s.chan c).limitTold then s4.raise 0x42 c else s4
  if c < 64 then s3
  else
    let s5 := match (s3.cal g).setDue with
      | some f => s3.writeSet c r.temp f
      | none => s3
    s5.calFinal g c

/-- Has the sweep of a round of group `g` been through (R341)? -/
def State.roundOver (s : State) (g : Nat) : Bool :=
  (s.cal g).phase == .measure && (s.cal g).quiet && (s.cal g).sweepAt.any (fun t => decide (t + s.sweepClks g ≤ s.clk))

/-- A measurement round of channel `c` ends: `sums` are the sums of its sweep, `refs` the sums S_lo and S_hi and how many conversions read 0
or 4095 (R338–R345). -/
def State.roundDone (s : State) (g c : Nat) (sums refs : List Nat) : State :=
  let f := s.calFit sums (refs.getD 0 0) (refs.getD 1 0) (refs.getD 2 0)
  let s1 := match f with
    | some x => s.setReg (Key.CAL_RESID_LAST c) (min 65535 x.resid.toNat)
    | none => s
  let s2 := s1.updCal g (fun r => { r with fits := (f.getD CalFit.void) :: r.fits, sweepAt := none })
  if s.reg Key.CAL_ACCEPT ≠ 0 ∧ (s.cal g).fits.isEmpty then s2.queueHov g (senseFrames c) else s2.calConclude g c

/-! ## Line events (R333, R336, R349) -/

/-- The hand-back of a channel begins at a line event: its set is written, its corrections recomputed, and RESTORE is queued (R336). A port
that a cut, a stop or a gate holds makes it wait (R334, R349). Sets that the host has replaced on this very clock stand, and the calibration
ends ABORTED (R349). -/
def State.handBack (g : Nat) (s : State) : State :=
  let r := s.cal g
  match r.ch with
  | none => s
  | some c =>
    let st := ((chPort c).map (fun p => (s.port p).st)).getD .disarmed
    if r.phase = .handBack ∧ ¬ r.chDraws ∧ (st = .disarmed ∨ st = .filling ∨ st = .firing) then
      let s1 := match r.setDue with
        | some f =>
          if r.commitAt = some s.clk then s.updCal g (fun r => { r with setDue := none, outcome := 2 * 16 + 3 })
          else (s.writeSet c r.temp f).updCal g (fun r => { r with setDue := none, setDone := true })
        | none => s
      ((s1.recompute c).queueHov g [⟨2, 31, 0⟩]).updCal g (fun r => { r with
        chDraws := true, moveAt8 := if st = .disarmed then none else some (s.at8 0) })
    else s

/-- What the end of a clock brings to the calibration of group `g`: with a line event on this clock, a hand-over or hand-back, which a cut of the
port on the same clock makes wait (R333, R336, R349); while the grid is off no line event comes, and a completed scan takes its place for a
DISARMED port (log 45); then a round that ends (R341, R349). -/
def State.calEnd (g : Nat) (s : State) : State :=
  let idle : Bool := (((s.cal g).ch.bind chPort).map (fun p => (s.port p).st == .disarmed)).getD true
  let s1 := if s.grid.evClk = some s.clk then (State.handBack g s).queueSwap true g
    else if s.therm.scanClk = some s.clk ∧ ¬ s.flag Key.GRID_ENABLE ∧ idle then State.handBack g s
    else s
  match (s1.cal g).roundNow, (s1.cal g).ch with
  | some (sums, refs), some c => (s1.updCal g (fun r => { r with roundNow := none })).roundDone g c sums refs
  | _, _ => s1

/-! ## Writes, copies, scans -/

/-- CAL_ABORT of group `g` (R347). -/
def State.calAbortWrite (s : State) (g : Nat) : State :=
  let s0 := s.setReg (Key.CAL_ABORT g) 0
  match (s.cal g).ch with
  | some _ => s0.calAbort 1 g
  | none => if (s.cal g).finalAt = some s.clk then s0.setRegBit (Key.CAL_RESULT g) 19 true else s0

/-- Phase of CAL_STATE (R353). -/
def State.calPhase (s : State) (c : Nat) : Nat :=
  let r := s.cal (chGroup c)
  if r.ch = some c then
    match r.phase with
    | .idle => 0
    | .handOver => 1
    | .ready => if 64 ≤ c then 4 else 1
    | .measure => 2
    | .handBack => 3
  else if 64 ≤ c ∧ r.restored then (if r.spDraws then 5 else 4) else 0

/-- CAL_STATE (R353). A spare whose board has not been verified since the reset reads its reset value in PHASE and IN_LOAD (R352). -/
def State.calState (s : State) (c : Nat) : Nat :=
  if ¬ s.hasChannel c then 0
  else
    let sw := (s.cal (chGroup c)).swapped
    let load : Bool := if 64 ≤ c then (s.cal (chGroup c)).restored && sw.isNone else sw == some (chSlot c)
    fld (s.chan c).rejects 4 12 + b2n (s.calDue c) * 1024 + b2n (s.flag (Key.CAL_REQUEST c)) * 512 + b2n load * 256
      + nsum ((List.range 5).map (fun i => b2n (s.corrSet c i).isSome * 2 ^ (3 + i))) + s.calPhase c

/-- A scan completes (R355–R369): what is derived from it, the corrections while the grid is off (R324), what is due, and the groups may select
(R325, R326). -/
def State.scanDone (s : State) (readings : Vector (BitVec 32) 80) : State :=
  let s1 := s.scan readings
  let s2 := (if s1.flag Key.GRID_ENABLE then s1 else s1.recomputeScan).forEach s1.allChannels State.calPassed
  s2.forEach (List.range s2.nGroups) (fun g s => (s.updCal g (fun r => { r with selDue := true })).queueSwap false g)

/-- A scan completes, at most every 100 µs (R355, R356). -/
def execThermalScan (readings : Vector (BitVec 32) 80) (s : State) : Res :=
  whenClocked s <| .next (if s.scanReady then s.scanDone readings else s)

end Sys2Proof.Machine
end

