-- ==== Sys2Proof/Machine/Camera.lean ====
section
/-! DEFINITION. The camera ports: CSI-2 packets, frames, triggers, ingress buffers, capture and the camera I²C controllers
(R374-R384). -/

namespace Sys2Proof.Machine

/-- Sources 0x50–0x54 of CAM0 and 0x55–0x59 of CAM1 (R477). -/
def camSource (cam k : Nat) : Nat := 0x50 + 5 * cam + k

/-- Bits of a sample of DATA_TYPE (R375, R408). -/
def State.rawDepth (s : State) (cam : Nat) : Nat :=
  match s.reg (Key.DATA_TYPE cam) with | 0x2B => 10 | 0x2C => 12 | _ => 14

/-- Do the camera ports run: RUN and CAM_ENABLE 1 (R378, R405)? -/
def State.camOn (s : State) (cam : Nat) : Bool := s.flag (Key.CAM_ENABLE cam) && s.reg Key.POWER_STATE == 0

/-- The exposure of a virtual channel, if one in use has it (R375). -/
def State.exposureOf (s : State) (cam vc : Nat) : Option Nat :=
  (List.range (s.reg (Key.EXPOSURES cam))).find? (fun e => bits (s.reg (Key.CAM_VC cam)) (2 * e + 1) (2 * e) == vc)

/-- The frame being received, if any: the last in the buffer, not ended. -/
def Cam.receiving (c : Cam) : Option CamFrame := c.frames.getLast?.filter (fun f => !f.ended)

/-- Changes the last frame of a camera. -/
def State.updFrame (s : State) (cam : Nat) (f : CamFrame → CamFrame) : State :=
  s.updCam cam (fun c => { c with frames := modAt f (c.frames.length - 1) c.frames })

/-- Slots that a frame holds: lines received and not yet freed, by the pipeline or, where `wait` says that bulk memory holds it back, by capture (R382,
R384). -/
def CamFrame.held (f : CamFrame) (wait : Bool) : Nat :=
  nsum (f.lines.map (fun l => ((l.zipIdx).filter (fun e => e.1.isSome && (decide (f.done < e.2 + 5) || (wait && f.capSlots != 0)))).length))

/-- Slots of a camera's ingress buffer in use (R382). -/
def State.slotsHeld (s : State) (cam : Nat) : Nat :=
  nsum ((s.cam cam).frames.map (fun f => f.held s.bmHolds)) + (s.cam cam).capHeld

/-! ## Capture (R384) -/

/-- Pixels of `b` bits packed as a bit stream into words (R384). -/
def packPixels (b : Nat) (l : List Nat) : List Nat :=
  streamWords (ceilDiv (b * l.length) 72) (l.foldr (fun x a => x % 2 ^ b + 2 ^ b * a) 0)

/-- Copies line `k` of exposure `e` of a frame into its capture slot (R384). -/
def State.capture (s : State) (f : CamFrame) (k e : Nat) (line : List Nat) : State :=
  let n := f.capSlots
  if n = 0 then s
  else
    let lw := ceilDiv (f.width * f.depth) 72
    let a := f.capBase + f.seq % n * (f.expo * f.height * lw) + (k * f.expo + e) * lw
    (s.writeBulks a ((packPixels f.depth line).map (BitVec.ofNat 72))).pmcBulk true 1 a lw

/-! ## Frames (R378–R380) -/

/-- The frame being received ends: missing lines are supplied, flags judged, FRAME_TIMEOUT's flag set when `late` (R379). -/
def State.endFrameOf (s : State) (cam : Nat) (late : Bool) : State :=
  match (s.cam cam).receiving with
  | none => s
  | some f =>
    let missing := f.lines.any (fun l => decide (l.length < f.height))
    let short := f.short || missing || late
    let pad := List.replicate f.width f.fill
    let s1 := s.forEach (List.range f.expo) (fun e s =>
      let n := (f.lines.getD e []).length
      s.forEach ((List.range (f.height - n)).map (n + ·)) (fun k s => s.capture f k e pad))
    let s2 := s1.updFrame cam (fun f => { f with ended := true, short := short, timeout := f.timeout || late })
    let s3 := if short then s2.inc (Key.FRAMES_SHORT cam) else s2
    let s4 := if f.long then s3.inc (Key.FRAMES_LONG cam) else s3
    let s5 := if short || f.long then s4.raise (camSource cam 1) cam else s4
    if f.dropped then s5.raise (camSource cam 2) cam else s5

/-- The trigger of a frame that starts now (R380, R403). -/
def State.trigOf (s : State) (cam : Nat) : Option Trig :=
  (s.cam cam).trig.filter (fun t => decide (s.ct ≤ t.ct + s.reg (Key.TRIG_WINDOW cam)))

/-- An assertion of CAMc_TRIG by compare unit `unit`, displacing one that no frame took (R380). It belongs to a frame that has started on this very
clock, and displaces the one which that frame took (R403). -/
def State.triggered (s : State) (cam unit ct pos : Nat) : State :=
  match (s.cam cam).frames.getLast?.filter (fun f => f.fsClk = s.clk ∧ f.fsCt = ct) with
  | some f =>
    let s1 := if f.trig.isSome then s.inc (Key.TRIG_ORPHAN cam) else s
    s1.updFrame cam (fun f => { f with trig := some ⟨unit, ct, pos⟩ })
  | none =>
    let s1 := if (s.cam cam).trig.isSome then s.inc (Key.TRIG_ORPHAN cam) else s
    s1.updCam cam (fun c => { c with trig := some ⟨unit, ct, pos⟩ })

/-- A frame begins, and latches the ingress settings (R378, R388). FILL_VALUE is a raw code of the sensor's bit depth (R379): DESIGN CHOICE (log 47):
its low bits to that depth are. -/
def State.beginFrame (s : State) (cam number : Nat) : State :=
  let n := s.reg (Key.EXPOSURES cam)
  let t := s.trigOf cam
  let f : CamFrame :=
    { seq := ((s.cam cam).begun + 1) % 2 ^ 32, csi := number, fsCt := s.ct, trig := t, width := s.reg (Key.CAM_WIDTH cam)
      height := s.reg (Key.CAM_HEIGHT cam), expo := n, depth := s.rawDepth cam, fill := s.reg (Key.FILL_VALUE cam) % 2 ^ s.rawDepth cam
      limit := s.reg (Key.FRAME_TIMEOUT cam)
      capBase := s.reg (Key.CAP_BASE cam), capSlots := s.reg (Key.CAP_SLOTS cam), fsClk := s.clk
      lines := List.replicate n [], rx := List.replicate n 0 }
  (s.updCam cam (fun c => { c with
    frames := c.frames ++ [f], begun := c.begun + 1, trig := if t.isSome then none else c.trig, quietFrom := s.ct })).cause
      (camSource cam 3) cam false cam

/-! ## Lines (R375, R378, R379, R382, R383) -/

/-- A line of exposure `e` of the frame being received is stored, or is dropped where the clock ends without a free slot for it (R378–R384). -/
def State.storeLine (s : State) (cam e : Nat) (f : CamFrame) (pixels : List Nat) (crcOk : Bool) : State :=
  let k := (f.lines.getD e []).length
  let s1 := s.updFrame cam (fun f => { f with rx := modAt (· + 1) e f.rx })
  if f.height ≤ k then s1.updFrame cam (fun f => { f with long := true })
  else if 64 ≤ s.slotsHeld cam then
    ((s1.updFrame cam (fun f => { f with
      lines := modAt (fun l => l ++ [none]) e f.lines, dropped := true, lost := f.lost + 1 })).inc (Key.LINES_DROPPED cam)).capture
      f k e (List.replicate f.width f.fill)
  else
    let cut := (pixels.take f.width).map (· % 2 ^ f.depth)
    let line := cut ++ List.replicate (f.width - cut.length) f.fill
    let s2 := s1.updFrame cam (fun f => { f with
      lines := modAt (fun l => l ++ [some line]) e f.lines
      short := f.short || decide (pixels.length < f.width), long := f.long || decide (f.width < pixels.length)
      crc := f.crc || !crcOk })
    (s2.setReg (Key.BUF_PEAK cam) (max (s2.reg (Key.BUF_PEAK cam)) (s2.slotsHeld cam))).capture f k e line

/-- The lines that found no free slot on this clock are judged: one that was freed meanwhile takes the first of them (R383, R403). -/
def State.lateLines (cam : Nat) (s : State) : State :=
  (s.cam cam).late.foldl (fun s x => match (s.cam cam).receiving with
    | some f => s.storeLine cam x.1 f x.2.1 x.2.2
    | none => s) (s.updCam cam (fun c => { c with late := [] }))

/-- A line of exposure `e` arrives in the frame being received; one without a free slot waits for the end of the clock (R383, R403). -/
def State.takeLine (s : State) (cam e : Nat) (f : CamFrame) (pixels : List Nat) (crcOk : Bool) : State :=
  if (f.lines.getD e []).length < f.height ∧ (64 ≤ s.slotsHeld cam ∨ !(s.cam cam).late.isEmpty) ∧ ¬ s.pending.isEmpty then
    s.updCam cam (fun c => { c with late := c.late ++ [(e, pixels, crcOk)] })
  else s.storeLine cam e f pixels crcOk

/-- The frame being received ends, with its lines of this clock (R379). -/
def State.endFrame (s : State) (cam : Nat) (late : Bool) : State := (s.lateLines cam).endFrameOf cam late

/-! ## Frame Start and Frame End (R378–R380) -/

/-- A CSI Frame Start (R375, R378, R403). -/
def execFrameStart (cam : Fin 2) (vc : BitVec 2) (number : BitVec 16) (s : State) : Res :=
  whenClocked s <| .next (if s.reg Key.POWER_STATE ≠ 0 then s
    else match s.exposureOf cam vc.toNat with
      | none => s.inc (Key.VC_DISCARDED cam)
      | some 0 =>
        if s.camOn cam then (s.endFrame cam true).beginFrame cam number.toNat
        else if (s.cam cam).offAt = some s.clk then s.inc (Key.OUT_OF_FRAME cam)
        else s
      | some _ => s)

/-- A CSI Frame End: the frame ends when every exposure's has arrived (R378). -/
def execFrameEnd (cam : Fin 2) (vc : BitVec 2) (s : State) : Res :=
  whenClocked s <| .next (if s.reg Key.POWER_STATE ≠ 0 then s
    else match s.exposureOf cam vc.toNat with
      | none => s.inc (Key.VC_DISCARDED cam)
      | some e =>
        match (s.cam cam).receiving with
        | none => s
        | some f =>
          let ends := if f.ends.contains e then f.ends else e :: f.ends
          let s1 := s.updFrame cam (fun f => { f with ends := ends })
          if ends.length = f.expo then s1.endFrame cam false else s1)

/-- Is a frame of a camera not ended FRAME_TIMEOUT, as latched at its start, after FS_CT (R379, R388)? -/
def State.frameLate (s : State) (cam : Nat) : Bool :=
  (s.cam cam).receiving.any (fun f => decide (f.fsCt + f.limit ≤ s.ct))

/-- The end of a clock at a camera: lines without a slot, then a frame that is late, so that a Frame End of the clock wins (R379, R383, R403). -/
def State.camEnd (cam : Nat) (s : State) : State :=
  let s1 := s.lateLines cam
  if s1.frameLate cam then s1.endFrame cam true else s1

/-- A frame not ended FRAME_TIMEOUT after FS_CT: it is judged when the clock ends, here when no other command waits (R379, R403). -/
def execFrameTimeout (cam : Fin 2) (s : State) : Res :=
  whenClocked s <| .next (if s.pending.isEmpty then s.camEnd cam else s)

/-- Has a camera been silent for CAM_SILENT (R381)? -/
def State.camQuiet (s : State) (cam : Nat) : Bool :=
  s.camOn cam && s.reg (Key.CAM_SILENT cam) != 0 && decide ((s.cam cam).quietFrom + s.reg (Key.CAM_SILENT cam) ≤ s.ct)

/-- No Frame Start for CAM_SILENT (R381). -/
def execCamSilent (cam : Fin 2) (s : State) : Res :=
  whenClocked s <| .next (if s.camQuiet cam then s.cause (camSource cam 3) cam true cam else s)

/-! ## Other packets (R375) -/

/-- Any other CSI-2 packet (R375). -/
def execCsiPacket (cam : Fin 2) (p : CsiPacket) (s : State) : Res :=
  let t := p.dataType.toNat
  whenClocked s <| .next (if s.reg Key.POWER_STATE ≠ 0 then s
    else
      let s0 := if p.ecc = .corrected then s.inc (Key.HDR_ECC_CORRECTED cam) else s
      if p.ecc = .bad then (s.inc (Key.HDR_ECC_ERRORS cam)).raise (camSource cam 0) cam
      else match s.exposureOf cam p.vc.toNat with
        | none => s0.inc (Key.VC_DISCARDED cam)
        | some e =>
          if t ≤ 0x0F ∨ t = 0x12 then s0
          else if t ≠ s.reg (Key.DATA_TYPE cam) then s0.inc (Key.TYPE_DISCARDED cam)
          else
            match (s.cam cam).receiving with
            | none => s0.inc (Key.OUT_OF_FRAME cam)
            | some f =>
              let s1 := s0.takeLine cam e f p.pixels p.crcOk
              if p.crcOk then s1 else (s1.inc (Key.PAYLOAD_CRC cam)).raise (camSource cam 0) cam)

/-- A frame that has started on the clock on which CAM_ENABLE is cleared does not begin: its packet is out of frame, and its trigger is free
again (R403). -/
def State.unbegin (s : State) (cam : Nat) : State :=
  match (s.cam cam).receiving.filter (fun f => f.fsClk = s.clk) with
  | none => s
  | some f => (s.updCam cam (fun c => { c with
      frames := c.frames.dropLast, begun := c.begun - 1, trig := f.trig.or c.trig, late := [] })).inc (Key.OUT_OF_FRAME cam)

/-- CAM_ENABLE written (R376, R378, R381, R403). -/
def State.camEnableWrite (s : State) (cam old : Nat) : State :=
  let new := s.reg (Key.CAM_ENABLE cam)
  if new = old then s
  else if new = 1 then s.updCam cam (fun c => { c with quietFrom := s.ct, offAt := none })
  else (((s.unbegin cam).endFrame cam true).updCam cam (fun c => { c with offAt := some s.clk })).cause (camSource cam 3) cam false cam

/-- CAM_SILENT written: silence is judged no longer while it is 0 (R381). -/
def State.camSilentWrite (s : State) (cam : Nat) : State :=
  if s.reg (Key.CAM_SILENT cam) = 0 then s.cause (camSource cam 3) cam false cam else s

/-- CAM_STATE (R408). -/
def State.camState (s : State) (cam : Nat) : Nat :=
  if (s.cam cam).receiving.isSome then 2 else if s.camOn cam then 1 else 0

/-- Leaving RUN ends every frame in progress (R405). -/
def State.camsStop (s : State) : State := s.forEach [0, 1] (fun cam s => s.endFrame cam true)

/-! ## I²C (R377) -/

/-- A write of I2C_CMD starts a transaction (R377). -/
def State.i2cStart (s : State) (cam : Nat) : State :=
  (s.setReg (Key.I2C_STATUS cam) 1).emit (.i2c cam (s.reg (Key.I2C_SPEED cam)) (s.reg (Key.I2C_CMD cam)))

/-- The level of CAMc_RST_N, low while CAM_RESET is 1 (R377). -/
def State.camRstN (s : State) (cam : Nat) : Bool := !s.flag (Key.CAM_RESET cam)

/-- Is I2C_CMD `v` in range (R377)? -/
def i2cRange (v : Nat) : Bool :=
  (bits v 63 62 == 1 || bits v 63 62 == 2) && decide (bits v 54 53 ≤ 2) && decide (1 ≤ bits v 52 50) && decide (bits v 52 50 ≤ 4)

/-- A transaction ends with DONE or NACK; a read leaves its bytes in I2C_DATA (R377). -/
def execI2cDone (cam : Fin 2) (nack : Bool) (data : BitVec 32) (s : State) : Res :=
  whenClocked s <| .next (if s.reg (Key.I2C_STATUS cam) ≠ 1 ∨ s.reg Key.POWER_STATE ≠ 0 then s
    else if nack then (s.setReg (Key.I2C_STATUS cam) 3).raise (camSource cam 4) cam
    else
      let c := s.reg (Key.I2C_CMD cam)
      let s1 := s.setReg (Key.I2C_STATUS cam) 2
      if bits c 63 62 = 2 then s1.setReg (Key.I2C_DATA cam) (data.toNat % 2 ^ (8 * bits c 52 50)) else s1)

/-- SCL held low for more than 25 ms (R377). -/
def execI2cTimeout (cam : Fin 2) (s : State) : Res :=
  whenClocked s <| .next (if s.reg (Key.I2C_STATUS cam) ≠ 1 ∨ s.reg Key.POWER_STATE ≠ 0 then s
    else (s.setReg (Key.I2C_STATUS cam) 4).raise (camSource cam 4) cam)

end Sys2Proof.Machine
end

