-- ==== Sys2Proof/Machine/Pipe.lean ====
section
/-! DEFINITION. The image pipeline: grants, lines, the stages from linearisation to colour, output, profiles, mark finders and records
(R385-R404). -/

namespace Sys2Proof.Machine

/-- Changes the pipeline's own record. -/
def State.updPipe (s : State) (f : Pipe → Pipe) : State := { s with pipe := f s.pipe }

/-! ## Latched settings (R388, R393) -/

/-- Defect entries in order: the list ends at the first that does not follow its predecessor in ascending Y, then X (R393). -/
def defectList : Option (Nat × Nat) → List Nat → List (Nat × Nat)
  | _, [] => []
  | prev, e :: l =>
    let y := bits e 23 12
    let x := bits e 11 0
    let ok : Bool := match prev with
      | none => true
      | some p => decide (p.1 < y) || (p.1 == y && decide (p.2 < x))
    if ok then (y, x) :: defectList (some (y, x)) l else []

/-- The settings of a camera in force now (R388). -/
def State.pipeCfg (s : State) (c : Nat) : PipeCfg :=
  let r := fun (k : Nat) => s.reg k
  { cfa := r (Key.CFA c), gains := (List.range 2).map (fun i => r (Key.EXP_GAIN c i)), kneeLo := r (Key.KNEE_LO c)
    kneeHi := r (Key.KNEE_HI c), shift := r (Key.MERGE_SHIFT c), black := (List.range 4).map (fun i => r (Key.BLACK c i))
    blackGain := (List.range 4).map (fun i => r (Key.BLACK_GAIN c i)), dyn := r (Key.DYN_THRESH c)
    ccm := (List.range 9).map (fun i => s.regI (Key.CCM c i)), ofs := (List.range 3).map (fun i => s.regI (Key.CCM_OFS c i))
    regions := (List.range 8).map (fun i => r (Key.REGION c i)), finders := (List.range 4).map (fun i => r (Key.FINDER c i))
    finderT := (List.range 4).map (fun i => r (Key.FINDER_T c i)), finderMin := (List.range 4).map (fun i => r (Key.FINDER_MIN c i))
    seq := r (Key.CONFIG_SEQ c), lin := (List.range 129).map (s.tabWord (0x4600 + c))
    defects := defectList none ((List.range (min 4096 (3 * ((s.tab (0x4602 + c)).len.getD 0)))).map (s.entry24 (0x4602 + c)))
    lut := (List.range 260).map (s.tabWord (0x4604 + c))
    bad := [0x4600 + c, 0x4602 + c, 0x4604 + c].flatMap (fun i => (s.tab i).bad.map (fun w => (i, w))) }

/-- Does a write of this object or table count in CONFIG_SEQ: the pipeline and analysis settings of a camera (R388)? -/
def configOf (index : Nat) : Option Nat :=
  if 0x2730 ≤ index ∧ index ≤ 0x2731 then some (index - 0x2730)
  else if 0x2740 ≤ index ∧ index ≤ 0x2741 then some (index - 0x2740)
  else if 0x2742 ≤ index ∧ index ≤ 0x2743 then some (index - 0x2742)
  else if 0x4600 ≤ index ∧ index ≤ 0x4605 then some (index % 2)
  else none

/-! ## Linearisation, merge, black level, defects (R390–R392) -/

/-- Four 16-bit entries to a word. -/
def entry16 (ws : List Nat) (i : Nat) : Nat := bits (ws.getD (i / 4) 0) (16 * (i % 4) + 15) (16 * (i % 4))

/-- R390. -/
def linearise (lt : List Nat) (b c : Nat) : Nat :=
  let r := c * 2 ^ (14 - b)
  let i := r / 32
  let f := r % 32
  (entry16 lt i * (32 - f) + entry16 lt (i + 1) * f + 16) / 32

/-- The merge of exposures 1 … from `m`; `prev` is the linear value of the exposure before (R391). -/
def mergeFrom (cfg : PipeCfg) : List Nat → List Nat → Nat → Nat → Nat
  | [], _, _, m => m
  | _ :: _, [], _, m => m
  | x :: xs, g :: gs, prev, m =>
    let s := x * g
    let m1 := if cfg.kneeHi ≤ prev then s
      else if cfg.kneeLo < prev then
        let w := ((prev - cfg.kneeLo) * 256) / (cfg.kneeHi - cfg.kneeLo)
        (m * (256 - w) + s * w + 128) / 256
      else m
    mergeFrom cfg xs gs x m1

/-- R391. -/
def merge (cfg : PipeCfg) : List Nat → Nat
  | [] => 0
  | [a] => a
  | a :: l => min 65535 (mergeFrom cfg l cfg.gains a (a * 256) / 2 ^ (8 + cfg.shift))

/-- Raw code of exposure `e` at `(x, y)`; FILL_VALUE where the line was dropped or is missing (R379, R383). -/
def CamFrame.raw (f : CamFrame) (e x y : Nat) : Nat :=
  match (f.lines.getD e [])[y]? with
  | some (some l) => l.getD x f.fill
  | _ => f.fill

/-- Black-corrected value (R392). -/
def CamFrame.blackOf (f : CamFrame) (cfg : PipeCfg) (x y : Nat) : Nat :=
  let ph := 2 * (y % 2) + x % 2
  let m := merge cfg ((List.range f.expo).map (fun e => linearise cfg.lin f.depth (f.raw e x y)))
  min 65535 (((m - cfg.black.getD ph 0) * cfg.blackGain.getD ph 0 + 2048) / 4096)

/-- The corrected sample p(x, y): black level and defects (R392, R393). -/
def CamFrame.sample (f : CamFrame) (cfg : PipeCfg) (x y : Nat) : Nat :=
  let v := fun (x : Nat) => f.blackOf cfg x y
  let d := if cfg.cfa = 4 then 1 else 2
  let left := fun (k : Nat) => if k ≤ x then [v (x - k)] else []
  let right := fun (k : Nat) => if x + k < f.width then [v (x + k)] else []
  if cfg.defects.contains (y, x) then
    match left d ++ right d with
    | [a, b] => (a + b + 1) / 2
    | [a] => a
    | _ => v x
  else
    let mx := (left d ++ right d ++ left (2 * d) ++ right (2 * d)).foldl max 0
    if cfg.dyn ≠ 0 ∧ mx + cfg.dyn < v x then mx else v x

/-! ## Demosaic and colour (R393, R394) -/

/-- Coordinate mirrored into `0 … n − 1` (R393). -/
def mirror (n : Nat) (i : Int) : Nat := if i < 0 then (-i).toNat else if (n : Int) ≤ i then (2 * ((n : Int) - 1) - i).toNat else i.toNat

/-- Colour of a site: 0 red, 1 green, 2 blue (R408). -/
def siteColour (cfa x y : Nat) : Nat :=
  let ph := 2 * (y % 2) + x % 2
  let t : List Nat := match cfa with
    | 0 => [0, 1, 1, 2] | 1 => [1, 0, 2, 1] | 2 => [1, 2, 0, 1] | _ => [2, 1, 1, 0]
  t.getD ph 1

/-- The corrected sample with mirrored coordinates. -/
def CamFrame.at_ (f : CamFrame) (cfg : PipeCfg) (x y : Int) : Int := f.sample cfg (mirror f.width x) (mirror f.height y)

/-- Every result is clamped (R393). -/
def clamp16 (i : Int) : Int := clampI 0 65535 i

/-- Green at a site (R393). -/
def CamFrame.green (f : CamFrame) (cfg : PipeCfg) (x y : Int) : Int :=
  let p := f.at_ cfg
  let c := p x y
  if siteColour cfg.cfa (mirror f.width x) (mirror f.height y) = 1 then c
  else
    let dh := (p (x - 1) y - p (x + 1) y).natAbs + (2 * c - p (x - 2) y - p (x + 2) y).natAbs
    let dv := (p x (y - 1) - p x (y + 1)).natAbs + (2 * c - p x (y - 2) - p x (y + 2)).natAbs
    let gh := (2 * (p (x - 1) y + p (x + 1) y) + 2 * c - p (x - 2) y - p (x + 2) y).fdiv 4
    let gv := (2 * (p x (y - 1) + p x (y + 1)) + 2 * c - p x (y - 2) - p x (y + 2)).fdiv 4
    clamp16 (if dh < dv then gh else if dv < dh then gv else (gh + gv).fdiv 2)

/-- A colour from neighbours `l` of a site: green plus the mean difference (R393). -/
def CamFrame.diffColour (f : CamFrame) (cfg : PipeCfg) (x y : Int) (l : List (Int × Int)) : Int :=
  clamp16 (f.green cfg x y + (isum (l.map (fun d => f.at_ cfg (x + d.1) (y + d.2) - f.green cfg (x + d.1) (y + d.2)))).fdiv l.length)

/-- Colour `k` (0 red, 2 blue) at a site (R393). -/
def CamFrame.colour (f : CamFrame) (cfg : PipeCfg) (x y k : Nat) : Int :=
  let c := siteColour cfg.cfa x y
  if c = k then f.at_ cfg x y
  else if c = 1 then
    (if siteColour cfg.cfa (x + 1) y = k then f.diffColour cfg x y [(-1, 0), (1, 0)] else f.diffColour cfg x y [(0, -1), (0, 1)])
  else f.diffColour cfg x y [(-1, -1), (1, -1), (-1, 1), (1, 1)]

/-- r, g, b at a site (R393). -/
def CamFrame.rgb (f : CamFrame) (cfg : PipeCfg) (x y : Nat) : List Int :=
  if cfg.cfa = 4 then List.replicate 3 (f.at_ cfg x y) else [f.colour cfg x y 0, f.green cfg x y, f.colour cfg x y 2]

/-- r′, g′, b′ and luma at a site (R394). -/
def CamFrame.pixel (f : CamFrame) (cfg : PipeCfg) (x y : Nat) : List Nat :=
  let c := f.rgb cfg x y
  let o := (List.range 3).map (fun i =>
    (clamp16 ((isum ((List.range 3).map (fun j => cfg.ccm.getD (3 * i + j) 0 * c.getD j 0)) + 512).fdiv 1024 + cfg.ofs.getD i 0)).toNat)
  o ++ [(77 * o.getD 0 0 + 150 * o.getD 1 0 + 29 * o.getD 2 0 + 128) / 256]

/-! ## Analysis (R396–R398) -/

/-- Density of channel value `v` of channel `h` (R396). -/
def densityOf (lut : List Nat) (h v : Nat) : Nat :=
  let k := v / 256
  let f := v % 256
  let e := fun i => entry16 (lut.drop (65 * h)) i
  min 4095 ((e k * (256 - f) + e (k + 1) * f + 128) / 256)

/-- Density of a channel at a site. -/
def CamFrame.density (f : CamFrame) (cfg : PipeCfg) (h x y : Nat) : Nat := densityOf cfg.lut h ((f.pixel cfg x y).getD h 0)

/-- Columns (or lines) `a … a + n` clipped to `w`. -/
def clipped (a n w : Nat) : List Nat := (List.range (min (a + n + 1) w - a)).map (a + ·)

/-- The values of a region (R397). -/
def CamFrame.profile (f : CamFrame) (cfg : PipeCfg) (r : Nat) : List Nat :=
  let xs := clipped (bits r 47 36) (bits r 35 24) f.width
  let ys := clipped (bits r 23 12) (bits r 11 0) f.height
  let b := 2 ^ bits r 60 59
  if ys.isEmpty then []
  else (List.range (ceilDiv xs.length b)).map (fun j =>
    let cols := (xs.drop (j * b)).take b
    let n := cols.length * ys.length
    let sum := nsum (cols.flatMap (fun x => ys.map (fun y => f.density cfg (bits r 62 61) x y)))
    (16 * sum + n / 2) / n)

/-- What a finder reports: COUNT, MASS, CX, CY, FOUND (R398). -/
structure Mark where
  count : Nat
  mass : Nat
  cx : Nat
  cy : Nat
  found : Bool
deriving DecidableEq, Repr

/-- R398. -/
def CamFrame.mark (f : CamFrame) (cfg : PipeCfg) (k : Nat) : Mark :=
  let r := cfg.finders.getD k 0
  let t := cfg.finderT.getD k 0
  let xs := clipped (bits r 47 36) (bits r 35 24) f.width
  let ys := clipped (bits r 23 12) (bits r 11 0) f.height
  let l := ys.flatMap (fun y => xs.filterMap (fun x =>
    let d := f.density cfg (bits r 62 61) x y
    if t ≤ d then some (x, y, d - t + 1) else none))
  let mass := min (2 ^ 32 - 1) (nsum (l.map (fun e => e.2.2)))
  let found := decide (cfg.finderMin.getD k 0 ≤ l.length)
  let c := fun (w : Nat) => if found ∧ 0 < mass then (256 * w + mass / 2) / mass else 0
  ⟨l.length, mass, c (nsum (l.map (fun e => e.1 * e.2.2))), c (nsum (l.map (fun e => e.2.1 * e.2.2))), found⟩

/-! ## Output (R395) -/

/-- Words of an output line at decimation `d`. -/
def outWords (w d : Nat) : Nat := ceilDiv (ceilDiv w d) 3

/-- The words of output line `y` (R395). -/
def CamFrame.outLine (f : CamFrame) (cfg : PipeCfg) (d y : Nat) : List Word :=
  let px := ((List.range (ceilDiv f.width d)).map (fun i =>
    let c := f.pixel cfg (i * d) y
    c.getD 0 0 / 256 * 65536 + c.getD 1 0 / 256 * 256 + c.getD 2 0 / 256))
  (List.range (outWords f.width d)).map (fun k =>
    BitVec.ofNat 72 (pack24 (px.getD (3 * k) 0) (px.getD (3 * k + 1) 0) (px.getD (3 * k + 2) 0)))

/-- Output line `y` of the frame at the head of a camera's buffer goes to its FIFO, or is lost (R395). -/
def State.outputLine (s : State) (cam y : Nat) : State :=
  match (s.cam cam).frames.head? with
  | none => s
  | some f =>
    let n := s.reg (Key.OUT_SLOTS cam)
    let d := 2 ^ s.reg (Key.OUT_DECIM cam)
    if n = 0 ∨ y % d ≠ 0 ∨ f.height ≤ y then s
    else
      let lw := outWords f.width d
      if 2 * lw < (s.cam cam).fifo.length + lw then
        (s.updCam cam (fun c => { c with frames := modAt (fun f => { f with outTrunc := true }) 0 c.frames })).inc (Key.OUT_LINES_LOST cam)
      else
        let a := s.reg (Key.OUT_BASE cam) + f.seq % n * (ceilDiv f.height d * lw) + y / d * lw
        let ws := f.outLine (f.cfg.getD (s.pipeCfg cam)) d y
        s.updCam cam (fun c => { c with fifo := c.fifo ++ (ws.zipIdx).map (fun e => (a + e.2, e.1)) })

/-- One word leaves the FIFOs, CAM0's first (R395). -/
def State.drainWord (s : State) : State :=
  let go := fun (cam : Nat) =>
    match (s.cam cam).fifo with
    | [] => none
    | e :: _ => some (((s.updCam cam (fun c => { c with fifo := c.fifo.tail })).writeBulk e.1 e.2).pmcBulk true 3 e.1 1)
  match go 0, go 1 with
  | some t, _ => t
  | none, some t => t
  | none, none => s

/-- The output limiter on one core clock: OUT_RATE words per µs, bursts of up to 64 (R395). -/
def State.outputTick (s : State) : State :=
  let c := min 32000 (s.pipe.credit + s.reg Key.OUT_RATE)
  let busy := !(s.cam 0).fifo.isEmpty || !(s.cam 1).fifo.isEmpty
  if 500 ≤ c ∧ busy ∧ ¬ s.bmHolds then (s.updPipe (fun p => { p with credit := c - 500 })).drainWord else s.updPipe (fun p => { p with credit := c })

/-! ## Grants (R385, R386) -/

/-- Is input line `k` of a frame complete: received in every exposure, or supplied at the frame's end (R378, R385)? -/
def CamFrame.lineReady (f : CamFrame) (k : Nat) : Bool := f.ended || f.lines.all (fun l => decide (k < l.length))

/-- The end of the unit that a frame's next work lies in (R385). -/
def State.unitEndOf (s : State) (f : CamFrame) : Nat :=
  if s.reg Key.SHARE_MODE = 0 then f.height else min f.height (f.done / 32 * 32 + 32)

/-- Does a camera request the pipeline (R385)? -/
def State.requests (s : State) (cam : Nat) : Bool :=
  match (s.cam cam).frames.head? with
  | none => false
  | some f => if s.reg Key.SHARE_MODE = 0 then f.lineReady 0 else f.lineReady (s.unitEndOf f - 1)

/-- The camera that a free pipeline is granted to (R386). -/
def State.grantee (s : State) : Option Nat :=
  match s.requests 0, s.requests 1 with
  | false, false => none
  | true, false => some 0
  | false, true => some 1
  | true, true =>
    let fs := fun c => ((s.cam c).frames.head?.map CamFrame.fsCt).getD 0
    let started := fun c => ((s.cam c).frames.head?.map (fun f => f.cfg.isSome)).getD false
    if s.reg Key.SHARE_MODE = 1 ∧ (started 0 ∨ started 1) then some (1 - s.pipe.last.getD 1)
    else some (if fs 1 < fs 0 then 1 else 0)

/-- Clocks in which the pipeline processes a line of width `w` (R387). -/
def lineClocks (w : Nat) : Nat := ceilDiv w 4

/-- The end of a clock at the pipeline: the frame granted for the first time latches the settings that stand now, and the processing of the next line
begins once it is complete (R387, R388). -/
def State.pipeEnd (s : State) : State :=
  match s.pipe.cur with
  | none => s
  | some c =>
    let cfg := s.pipeCfg c
    let s1 := s.updCam c (fun m => { m with frames := modAt (fun f => { f with cfg := f.cfg.or (some cfg) }) 0 m.frames })
    match (s.cam c).frames.head? with
    | none => s1
    | some f =>
      if s.pipe.lineEnd.isNone ∧ f.done < s.pipe.unitEnd ∧ f.lineReady f.done then
        s1.updPipe (fun p => { p with lineEnd := some (max s.clk p.freeAt + lineClocks f.width) })
      else s1

/-- The pipeline is granted, with a context switch of 64 clocks where another camera was served before; the settings are latched when the clock ends,
here when no other command waits (R386–R388). -/
def execPipeGrant (s : State) : Res :=
  whenClocked s <| .next (if s.pipe.cur.isSome ∨ s.reg Key.POWER_STATE ≠ 0 then s
    else match s.grantee with
      | none => s
      | some c =>
        let switch := decide (s.pipe.last ≠ some c)
        let s1 := if switch then s.inc Key.CTX_SWITCHES else s
        let stop := ((s.cam c).frames.head?.map s.unitEndOf).getD 0
        let s2 := s1.updPipe (fun p => { p with
          cur := some c, last := some c, unitEnd := stop, since := s.ct, freeAt := s.clk + 64 * b2n switch, lineEnd := none })
        if s.pending.isEmpty then s2.pipeEnd else s2)

/-- Is word `e.2` of table `e.1` of camera `c` as the frame latched it (R388)? -/
def State.stillLatched (s : State) (c : Nat) (cfg : PipeCfg) (i : Nat) : Bool :=
  let now := s.pipeCfg c
  if i = 0x4600 + c then now.lin == cfg.lin else if i = 0x4602 + c then now.defects == cfg.defects else now.lut == cfg.lut

/-- Table words of camera `c` turn out uncorrectable in a frame: each fails again until its table is replaced (R404). -/
def State.failPipe (s : State) (c : Nat) (cfg : PipeCfg) (l : List (Nat × Nat)) : State :=
  l.foldl (fun s e =>
    if s.stillLatched c cfg e.1 ∧ ¬ (s.tab e.1).bad.contains e.2 then s.setTab e.1 { s.tab e.1 with bad := e.2 :: (s.tab e.1).bad } else s) s

/-- The pipeline has processed one input line, ⌈W / 4⌉ clocks after it was free for it (R382, R387, R404). `tableErr` names the words, by table (0
LIN_TABLE, 1 DEFECT_TABLE, 2 DENSITY_LUT) and word, that turn out uncorrectable on this line; a word that failed before fails again on every line. -/
def execPipeLineDone (tableErr : List (Fin 3 × Nat)) (s : State) : Res :=
  whenClocked s <| .next (match s.pipe.cur with
    | none => s
    | some c =>
      match (s.cam c).frames.head? with
      | none => s
      | some f =>
        if s.reg Key.POWER_STATE ≠ 0 ∨ s.pipe.lineEnd.all (fun t => decide (s.clk < t)) ∨ s.pipe.unitEnd ≤ f.done ∨ ¬ f.lineReady f.done then s
        else
          let cfg := f.cfg.getD (s.pipeCfg c)
          let new := ((tableErr.map (fun e => (0x4600 + 2 * e.1.val + c, e.2))).filter (fun e => !cfg.bad.contains e)).dedup
          let bad := new ++ cfg.bad
          let s1 := ((s.updCam c (fun m => { m with frames := modAt (fun f => { f with
            done := f.done + 1, tableErr := f.tableErr || !bad.isEmpty, cfg := some { cfg with bad := bad } }) 0 m.frames })).failPipe c cfg new).updPipe
              (fun p => { p with freeAt := s.clk, lineEnd := none })
          let s2 := if bad.isEmpty then s1 else (s1.addReg Key.PIPE_TABLE_ERRORS bad.length).raise 0x5A 0
          if 2 ≤ f.done then s2.outputLine c (f.done - 2) else s2)

/-! ## Records (R400–R402) -/

/-- USABLE (R400). -/
def CamFrame.usable (f : CamFrame) : Bool :=
  f.trig.isSome && !(f.short || f.long || f.dropped || f.crc || f.timeout || f.tableErr)

/-- A profile record (R401). -/
def CamFrame.profileRecord (f : CamFrame) (cfg : PipeCfg) (cam r : Nat) : List Nat :=
  let v := cfg.regions.getD r 0
  let p := f.profile cfg v
  let x0 := min (bits v 47 36) f.width
  (fld f.seq 32 40 + fld cam 1 39 + fld r 3 36 + fld (bits v 62 61) 2 34 + fld (bits v 60 59) 2 32 + fld p.length 13 19
    + fld x0 12 7 + b2n f.usable)
  :: (List.range (ceilDiv p.length 4)).map (fun w => pack16 (fun j => p.getD (4 * w + j) 0))

/-- A mark record (R401). -/
def CamFrame.markRecord (f : CamFrame) (cfg : PipeCfg) (cam k : Nat) : List Nat :=
  let m := f.mark cfg k
  [fld f.seq 32 40 + fld cam 1 39 + fld k 2 37 + b2n m.found * 2 ^ 36 + fld m.count 24 0,
   fld m.cx 20 52 + fld m.cy 20 32 + fld m.mass 32 0]

/-- The frame record (R400). -/
def State.frameRecord (s : State) (f : CamFrame) (cfg : PipeCfg) (cam resOfs : Nat) : List Nat :=
  let slots := f.capSlots
  let t := f.trig.getD ⟨0, 0, 0⟩
  [fld f.seq 32 40 + fld f.csi 16 24 + fld cam 1 23 + b2n f.trig.isSome * 2 ^ 22 + fld t.unit 5 17 + b2n f.short * 2 ^ 16
     + b2n f.long * 2 ^ 15 + b2n f.dropped * 2 ^ 14 + b2n f.crc * 2 ^ 13 + b2n f.timeout * 2 ^ 12 + b2n f.outTrunc * 2 ^ 11
     + b2n (slots != 0) * 2 ^ 10 + b2n f.usable * 2 ^ 9 + b2n f.tableErr * 2 ^ 8,
   fld f.fsCt 64 0, fld t.ct 64 0,
   fld t.pos 48 24 + fld (min 8191 (f.rx.foldl min (f.rx.headD 0))) 13 11 + fld (min 2047 f.lost) 11 0,
   fld cfg.seq 32 40 + fld (if slots = 0 then 0xFFFF else f.seq % slots) 16 24 + fld resOfs 24 0,
   fld s.ct 64 0]

/-- Where records of the given lengths lie in a ring of `n` words from offset `o`: none crosses the end (R402). -/
def ringPlaces (n : Nat) : Nat → List Nat → List Nat
  | _, [] => []
  | o, l :: ls =>
    let a := if n < o + l then 0 else o
    a :: ringPlaces n (a + l) ls

/-- The frame at the head of a camera's buffer is finished: its last output lines, records and counters (R387, R400–R402). -/
def State.finishFrame (s : State) (cam : Nat) (f : CamFrame) : State :=
  let cfg := f.cfg.getD (s.pipeCfg cam)
  let s0 := (s.outputLine cam (f.height - 2)).outputLine cam (f.height - 1)
  let f := ((s0.cam cam).frames.head?).getD f
  let rs := (List.range 8).filter (fun r => bit (cfg.regions.getD r 0) 63)
  let ks := (List.range 4).filter (fun k => bit (cfg.finders.getD k 0) 63)
  let profiles := rs.map (fun r => (r, f.profileRecord cfg cam r))
  let marks := ks.map (fun k => (k, f.markRecord cfg cam k))
  let ring := s0.reg (Key.RES_WORDS cam)
  let places := ringPlaces ring (s0.reg (Key.RES_WRITE cam)) (profiles.map (fun e => e.2.length) ++ marks.map (fun e => e.2.length) ++ [6])
  let record := s0.frameRecord f cfg cam (if ring = 0 then 0 else places.headD 0)
  let recs := profiles.map (fun e => e.2) ++ marks.map (fun e => e.2) ++ [record]
  let s1 := if ring = 0 then s0
    else
      let t := ((places.zip recs).foldl (fun s e =>
        (s.writeBulks (s.reg (Key.RES_BASE cam) + e.1) (e.2.map (BitVec.ofNat 72))).pmcBulk true 3 (s.reg (Key.RES_BASE cam) + e.1) e.2.length) s0)
      t.setReg (Key.RES_WRITE cam) ((places.getLastD 0 + 6) % ring)
  let s2 := profiles.foldl (fun s e => s.setTab (0x4610 + 8 * cam + e.1) (tabOf e.2)) s1
  let old := (List.range 8).map (s2.tabWord (0x4620 + cam))
  let s3 := s2.setTab (0x4620 + cam) (tabOf ((List.range 8).map (fun w =>
    match marks.find? (fun e => e.1 = w / 2) with
    | some e => e.2.getD (w % 2) 0
    | none => old.getD w 0)))
  let s4 := (s3.setTab (0x4622 + cam) (tabOf record)).setReg (Key.FRAME_SEQ cam) f.seq
  let s5 := s4.inc (Key.FRAMES cam)
  let s6 := if f.usable then s5.inc (Key.FRAMES_USABLE cam) else s5
  s6.updCam cam (fun c => { c with
    frames := c.frames.tail
    capHeld := c.capHeld + (if s6.bmHolds ∧ f.capSlots ≠ 0 then nsum (f.lines.map (fun l => (l.filter Option.isSome).length)) else 0) })

/-- Is the unit in progress finished: its lines processed, and at the frame's end two further line times (R387)? -/
def State.unitOver (s : State) (f : CamFrame) : Bool :=
  s.reg Key.POWER_STATE == 0 && decide (s.pipe.unitEnd ≤ f.done)
    && (decide (f.done < f.height) || decide (s.pipe.freeAt + 2 * lineClocks f.width ≤ s.clk))

/-- A frame or stripe finishes; at a frame's end the records are written (R385, R387, R400–R402). -/
def execPipeUnitDone (s : State) : Res :=
  whenClocked s <| .next (match s.pipe.cur with
    | none => s
    | some c =>
      match (s.cam c).frames.head? with
      | none => s
      | some f =>
        if ¬ s.unitOver f then s
        else
          let s1 := ((s.inc Key.PIPE_UNITS).addReg Key.PIPE_BUSY_CT (s.ct - s.pipe.since)).updPipe (fun p => { p with cur := none, lineEnd := none })
          if f.height ≤ f.done then s1.finishFrame c f else s1)

end Sys2Proof.Machine
end

