-- ==== Sys2Proof/Machine/Loop.lean ====
section
/-! DEFINITION. The Nozzle Health and Registration Loop: check blocks, insertion, arming, measuring, judgement, trims, offsets and their
hand-over; with it the assembly and screening of a slot, into which the loop inserts (R22, R238-R242, R250, R410-R430). -/

namespace Sys2Proof.Machine

/-! ## Blocks (R410–R413) -/

/-- BLK of the settings (R411). -/
def blkOf (sl bl gl ml : Nat) : Nat := sl + bl + 2 * gl + ml

/-- BLK of a latched block. -/
def LoopBlock.blk (k : LoopBlock) : Nat := blkOf k.sl k.bl k.gl k.ml

/-- Offset of raster line `n` in a block, if the block holds it (R410). -/
def LoopBlock.offset (k : LoopBlock) (n : Nat) : Option Nat :=
  let o := diff32 n k.n0
  if o < k.period then some o else none

/-- The block that line `n` lies in under the settings in force, latched where R413 lets it be; the last block before the wrap of line
numbers may be short (R410–R413). -/
def State.newBlock (s : State) (n : Nat) : LoopBlock :=
  let per := max 1 (s.reg Key.MARGIN_PERIOD)
  let ph := s.reg Key.MARGIN_PHASE
  let b := diff32 n ph / per
  let caps := (List.range s.nPorts).map (fun p => s.reg (Key.MAP_CAM p))
  let sl := s.reg Key.STRIP_LINES
  let bl := s.reg Key.BAR_LINES
  let gl := s.reg Key.GAP_LINES
  let ml := s.reg Key.MARK_LINES
  let lines := s.reg Key.MARGIN_LINES
  let test := fun (c : Nat) =>
    let l := (List.range s.nPorts).filter (fun p => caps.getD p 0xFF == c)
    if l.isEmpty then [] else
      let u := l.getD (b % l.length) 0
      let r := s.reg (Key.REG_REF u)
      [({ cam := c, u := u, ref := if r = 0xFF then none else some r } : LoopTest)]
  { n0 := (ph + b * per) % 2 ^ 32, period := min per (2 ^ 32 - b * per), b := b
    latched := s.flag Key.LOOP_ENABLE && s.reg Key.GRID_DIR != 2 && decide (blkOf sl bl gl ml ≤ lines) && decide (lines < per)
    sl := sl, pitch := max 1 (s.reg Key.STRIP_PITCH), code := s.reg Key.STRIP_CODE, bl := bl, bar := s.reg Key.BAR_VALUE, gl := gl, ml := ml
    cols := s.reg Key.MARK_COLS, mark := s.reg Key.MARK_CODE, mapCam := caps
    markCol := (List.range s.nPorts).map (fun p => s.reg (Key.MARK_COL p)), tests := [0, 1].flatMap test }

/-- A block is skipped: counted, and reported for its port and camera (R413, R415, R430). -/
def State.skipBlock (s : State) (u cam : Nat) : State :=
  (s.inc Key.BLOCKS_SKIPPED).event 0x50 0x31 (fld u 8 24 + fld cam 8 16)

/-- Blocks whose lines are far behind and whose tests are done are forgotten. -/
def pruneBlocks (n : Nat) (l : List LoopBlock) : List LoopBlock :=
  l.filter (fun k => decide ((diff 32 n k.n0).natAbs < 2 ^ 26) || (k.latched && k.tests.any (fun t => t.phase != 2)))

/-- The block of line `n` is met: latched, or skipped, where it is new (R413). -/
def State.meetBlock (n : Nat) (s : State) : State :=
  if s.loop.blocks.any (fun k => (k.offset n).isSome) then s
  else
    let k := s.newBlock n
    let s1 := { s with loop := { s.loop with blocks := k :: pruneBlocks n s.loop.blocks } }
    if k.latched then s1 else s1.skipBlock 0xFF 0xFF

/-- Distinct raster lines of the used nozzles of a line. -/
def nozLines (l : List Noz) : List Nat :=
  l.foldl (fun a n => if n.unused ∨ a.contains n.line then a else n.line :: a) []

/-! ## Insertion (R414) -/

/-- Is a nozzle of port `p` one of the mark's columns? -/
def LoopBlock.inMark (k : LoopBlock) (p : Nat) (n : Noz) : Bool :=
  decide (k.markCol.getD p 0 ≤ n.col) && decide (n.col < k.markCol.getD p 0 + k.cols)

/-- Does a port print the reference mark of a test (R414)? -/
def LoopBlock.isRef (k : LoopBlock) (t : LoopTest) (p : Nat) : Bool := t.ref == some p && k.mapCam.getD p 0xFF == t.cam

/-- Is offset `o` on the marks span? -/
def LoopBlock.onMarks (k : LoopBlock) (o : Nat) : Bool := decide (k.sl + k.bl + k.gl ≤ o) && decide (o < k.sl + k.bl + k.gl + k.ml)

/-- What a test replaces nozzle `n` of port `p` at offset `o` by, if anything (R414). -/
def LoopBlock.replace (k : LoopBlock) (direct : Bool) (w p o : Nat) (n : Noz) (t : LoopTest) : Option (NozKind × Nat) :=
  if k.blk ≤ o ∨ n.unused then none
  else if t.u = p then
    if o < k.sl then some (.strip, if n.col % k.pitch = o % k.pitch then k.code else 0)
    else if o < k.sl + k.bl then (if direct then none else some (.bar, k.bar % 2 ^ w))
    else some (.strip, if k.onMarks o ∧ k.inMark p n then k.mark else 0)
  else if k.isRef t p ∧ k.onMarks o ∧ k.inMark p n then some (.strip, k.mark)
  else none

/-- The loop's replacement of a nozzle of port `p`, if it lies in a latched block (R414). -/
def State.loopNoz (s : State) (p : Nat) (n : Noz) : Noz :=
  let hit := s.loop.blocks.findSome? (fun k => if k.latched then (k.offset n.line).map (fun o => (k, o)) else none)
  match hit with
  | none => n
  | some (k, o) =>
    match k.tests.findSome? (k.replace (s.reg Key.INGRESS_MODE == 2) s.sampleBits p o n) with
    | none => n
    | some r => { n with kind := r.1, val := r.2, absent := false }

/-- First lines of the latched blocks whose marks a line of port `p` carries (R425). -/
def State.markBlocks (s : State) (p : Nat) (l : List Noz) : List Nat :=
  (s.loop.blocks.filter (fun k => k.latched && l.any (fun n => !n.unused && k.inMark p n &&
    (match k.offset n.line with
     | none => false
     | some o => k.onMarks o && k.tests.any (fun t => t.u == p || k.isRef t p))))).map LoopBlock.n0

/-- The line of a port's slot, whose assembly began on clock `t`, is assembled: gathered, replaced, counted (R238, R241, R242, R413, R414). -/
def State.assemble (s : State) (p g t : Nat) : State :=
  let pass := s.reg Key.PASS_COUNT
  let a := s.gather p g pass t
  let s1 := a.1.forEach (nozLines a.2) State.meetBlock
  let l := a.2.map (s1.loopNoz p)
  let marks := s1.markBlocks p l
  let s2 := s1.forEach marks (fun n0 s => s.updTests n0 (fun t => t.u == p || t.ref == some p) (fun t => { t with due := t.due + 1 }))
  let n := (l.filter (fun x => x.absent)).length
  let s3 := s2.updPort p (fun r => { r with
    asm := ⟨g, pass, s.reg Key.LATE_POLICY, n != 0, l⟩ :: r.asm, lines := (g, unsgn 32 ((g : Int) - s.reg (Key.STAGGER p))) :: r.lines
    marks := marks.map (fun n0 => (g, n0)) ++ r.marks })
  s3.missingRaster p g n

/-- Assembly of a port's slot begins (R22, R238): with what stood at the end of the clock on which it fell due (R26). -/
def execAssemblyStart (port : Fin 16) (s : State) : Res :=
  let p := port.val
  whenClocked s <| onPort p s (match (s.port p).asmDue with
    | [] => s
    | (g, t) :: rest => (s.updPort p (fun r => { r with asmDue := rest, asmNext := s.lineAfterSlot g 1 })).assemble p g t)

/-! ## Screening of a slot (R22, R239, R250, R422) -/

/-- Receivers of the dead nozzles of a line under the tables in force (R256, R422). -/
def State.lineReceivers (s : State) (p : Nat) (l : List Noz) : List Nat :=
  let used := (l.zipIdx.map (fun e => (e.2, e.1))).filter (fun e => !e.2.unused)
  let live := used.filter (fun e => !s.nozDead p e.1)
  (used.filter (fun e => s.nozDead p e.1)).flatMap (fun d =>
    let r := s.receiversOf p d.2 live
    (r.1.toList ++ r.2.toList).map (fun e => e.1))

/-- A slot that carries a bar of port `p` is screened: the printers whose trims it may update (R422). -/
def State.barScreened (s : State) (p : Nat) (l : List Noz) : State :=
  if l.all (fun n => n.kind != .bar) then s
  else
    let recv := s.lineReceivers p l
    let ok := (l.zipIdx.filter (fun e => !e.1.unused && !s.nozDead p e.2 && !bit (s.corrEntry p e.2) 22 && !recv.contains e.2)).map (fun e => e.2)
    let on := fun (k : LoopBlock) => l.any (fun n => n.kind == .bar && (k.offset n.line).isSome)
    { s with loop := { s.loop with blocks := s.loop.blocks.map (fun k =>
        if k.latched && on k then { k with tests := k.tests.map (fun t =>
          if t.u = p then
            { t with barAt := t.barAt.or (some s.clk)
                     barSet := if t.barAt.isNone then ok else t.barSet.filter ok.contains
                     barRecv := recv ++ t.barRecv }
          else t) } else k) } }

/-- Screening of the oldest slot of a port that is due begins: `done` says that its assembly has finished, `bad` which table words turn out
uncorrectable. A slot whose assembly is late is counted once, and its screening begins once the line is whole (R22, R239, R250, R269). -/
def State.startScreening (s : State) (p : Nat) (done : Bool) (bad : List (Nat × Nat)) : State :=
  match (s.port p).scrDue with
  | [] => s
  | (g, t8, late) :: rest =>
    match (s.port p).asm.find? (fun a => a.g = g), done with
    | some a, true =>
      let s1 := (s.updPort p (fun r => { r with scrDue := rest, asm := r.asm.filter (fun a => a.g ≠ g) })).failWords bad
      let r := (s1.barScreened p a.noz).screenLine p g a.pass a.noz
      let done8 := (if late then s.at8 0 else t8) + 8 * s.screenClocks
      r.1.updPort p (fun r' => { r' with scr := ⟨g, done8, a.missing, a.policy, r.2⟩ :: r'.scr, scrEnds := done8 :: r'.scrEnds })
    | _, _ =>
      if late then s else (s.updPort p (fun r => { r with scrDue := (g, t8, true) :: rest })).inc (Key.ASSEMBLY_LATE p)

/-! ## Arming (R415, R416, R428) -/

/-- Unfinished tests of camera `c`, oldest first, with their blocks. -/
def State.loopTests (s : State) (c : Nat) : List (LoopBlock × LoopTest) :=
  s.loop.blocks.reverse.flatMap (fun k =>
    if k.latched then (k.tests.filter (fun t => t.cam = c ∧ t.phase ≠ 2)).map (fun t => (k, t)) else [])

/-- C30 for CAM0, C31 for CAM1 (R211). -/
def loopUnit (c : Nat) : Nat := 30 + c

/-- Did the compare unit of camera `c` fire since it was armed (R214)? -/
def State.loopFired (s : State) (c : Nat) : Bool := bit (s.reg (Key.CMP_STATUS (loopUnit c))) 0

/-- Is the last frame record of camera `c` that of the loop's trigger (R417)? -/
def State.loopFrame (s : State) (c : Nat) : Bool :=
  let w := s.tabWord (0x4622 + c)
  s.loopFired c && bit (w 0) 22 && bits (w 0) 21 17 == loopUnit c && bits (w 2) 63 0 == s.reg (Key.CMP_FIRED_CT (loopUnit c))

/-- Is no frame left that could take the loop's trigger of camera `c` (R380, R415)? -/
def State.loopLost (s : State) (c : Nat) : Bool :=
  let f := s.reg (Key.CMP_FIRED_CT (loopUnit c))
  let mine := fun (t : Trig) => t.unit == loopUnit c && t.ct == f
  s.loopFired c && !s.loopFrame c && decide (f + s.reg (Key.TRIG_WINDOW c) < s.ct)
    && !(s.cam c).frames.any (fun r => r.trig.any mine)

/-- A test's phase is set. -/
def State.setPhase (s : State) (n0 c ph : Nat) : State := s.updTests n0 (fun t => t.cam == c) (fun t => { t with phase := ph })

/-- x_p(k) in 1/256 pixel (R416). -/
def State.loopX (s : State) (p k : Nat) : Int := s.regI (Key.MAP_X0 p) + ((k * s.reg (Key.MAP_PITCH p) / 256 : Nat) : Int)

/-- A region or finder over columns `x0 … x1` and lines `y0 … y1`, clipped to the frame; disabled when nothing is left (R416). -/
def State.loopRegion (s : State) (c chan : Nat) (x0 x1 y0 y1 : Int) : Nat :=
  let w := s.reg (Key.CAM_WIDTH c)
  let h := s.reg (Key.CAM_HEIGHT c)
  let a := max x0 0
  let b := min x1 ((w : Int) - 1)
  let d := max y0 0
  let e := min y1 ((h : Int) - 1)
  if b < a ∨ e < d then 0
  else 2 ^ 63 + fld chan 2 61 + fld a.toNat 12 36 + fld (b - a).toNat 12 24 + fld d.toNat 12 12 + fld (e - d).toNat 12 0

/-- Frame lines of the span of offsets `a … e − 1` (R416). -/
def State.loopLines (s : State) (c a e : Nat) : Int × Int :=
  let up := fun (x : Nat) => ceilDiv (x * s.reg (Key.CAM_LPG c)) 65536
  let g := s.reg Key.YGUARD
  (((up a + g : Nat) : Int), (up e : Int) - 1 - g)

/-- Finder over the marks of port `p` (R416). -/
def State.loopFinder (s : State) (c : Nat) (k : LoopBlock) (p : Nat) : Nat :=
  let m := k.markCol.getD p 0
  let xs := [s.loopX p m, s.loopX p (m + k.cols - 1)]
  let lo := xs.foldl min (xs.headD 0)
  let hi := xs.foldl max (xs.headD 0)
  let sr : Int := s.reg Key.MARK_SEARCH
  let y := s.loopLines c (k.sl + k.bl) k.blk
  s.loopRegion c (s.reg (Key.CHECK_CHANNEL p)) (lo.fdiv 256 - sr) ((hi + 255).fdiv 256 + sr) y.1 y.2

/-- The loop writes regions 4–7 and finders 2 and 3 of a camera for a test (R416). -/
def State.loopRegions (s : State) (c : Nat) (k : LoopBlock) (t : LoopTest) : State :=
  let xs := ((s.nozzles t.u 0).filter (fun n => !n.unused)).map (fun n => s.loopX t.u n.col)
  let lo := (xs.foldl min (xs.headD 0)).fdiv 256 - 2
  let hi := (xs.foldl max (xs.headD 0) + 255).fdiv 256 + 2
  let reg := fun (a e : Nat) =>
    let y := s.loopLines c a e
    if xs.isEmpty then 0 else s.loopRegion c (s.reg (Key.CHECK_CHANNEL t.u)) lo hi y.1 y.2
  let fin := match t.ref with
    | some q => if k.isRef t q then s.loopFinder c k q else 0
    | none => 0
  [(Key.REGION c 4, reg 0 k.sl), (Key.REGION c 5, reg k.sl (k.sl + k.bl)), (Key.REGION c 6, reg (k.sl + k.bl + k.gl + k.ml) k.blk),
    (Key.REGION c 7, 0), (Key.FINDER c 2, s.loopFinder c k t.u), (Key.FINDER c 3, fin)].foldl (fun s e => s.setReg e.1 e.2) s

/-- The target of a block's trigger (R415). -/
def State.loopTarget (s : State) (c n0 : Nat) : Nat :=
  unsgn 48 (((s.gridPos n0 : Int) + s.reg (Key.CAM_DIST c) * 65536) / 65536)

/-- Arms the compare unit of camera `c` for a test; a stale target skips it (R415, R416). -/
def State.armTest (s : State) (c : Nat) (k : LoopBlock) (t : LoopTest) : State :=
  let u := loopUnit c
  let s1 := ((s.loopRegions c k t).setReg (Key.CMP_CTRL u) (fld (1 + c) 4 12 + fld (b2n s.dirPrint) 2 10 + 1)).setReg (Key.CMP_TARGET u)
    (s.loopTarget c k.n0)
  let s2 := s1.cmpArm u
  if bit (s2.reg (Key.CMP_STATUS u)) 2 then ((s2.setPhase k.n0 c 2).skipBlock t.u c)
  else
    (s2.setPhase k.n0 c 1).updTests k.n0 (fun x => x.cam == c) (fun x => { x with
      beyond := decide (s.reg (Key.CAM_HEIGHT c) < ceilDiv (k.blk * s.reg (Key.CAM_LPG c)) 65536) })

/-- C30 and C31, the regions and the finders that the loop uses, disabled (R428). -/
def State.loopOff (s : State) : State :=
  s.forEach [0, 1] (fun c s =>
    let s1 := ((s.setRegBit (Key.CMP_CTRL (loopUnit c)) 0 false).updCmp (loopUnit c) (fun r => { r with armed := false, fireAt := none }))
    [Key.REGION c 4, Key.REGION c 5, Key.REGION c 6, Key.REGION c 7, Key.FINDER c 2, Key.FINDER c 3].foldl
      (fun s k => s.setRegBit k 63 false) s1)

/-- The loop gives its units back once it is disabled and no latched block is left to be analysed (R428). -/
def State.loopRelease (s : State) : State :=
  if s.loop.owns ∧ ¬ s.flag Key.LOOP_ENABLE ∧ (s.loopTests 0).isEmpty ∧ (s.loopTests 1).isEmpty then
    { s.loopOff with loop := { s.loop with owns := false } }
  else s

/-- A write of LOOP_ENABLE (R428). -/
def State.loopEnableWrite (s : State) : State :=
  if s.flag Key.LOOP_ENABLE then
    if s.loop.owns then s else { s.loopOff with loop := { s.loop with owns := true } }
  else s.loopRelease

/-- The grid is enabled: line numbers start anew, so the blocks of the old grid are forgotten; those not yet analysed are skipped (R415). -/
def State.loopRegrid (s : State) : State :=
  let l := s.loopTests 0 ++ s.loopTests 1
  (l.foldl (fun (s : State) e => s.skipBlock e.2.u e.2.cam) { s with loop := { s.loop with blocks := [] } }).loopRelease

/-- Is the loop due to arm a test of camera `c` (R415)? -/
def State.loopArmDue (s : State) (c : Nat) : Bool :=
  match s.loopTests c with
  | [] => false
  | e :: _ => e.2.phase == 0 || s.loopLost c

/-- The loop arms the oldest latched block of a camera whose turn has come (R415, R416). -/
def execLoopArm (cam : Fin 2) (s : State) : Res :=
  let c := cam.val
  whenClocked s <| .next (match s.loopTests c with
    | [] => s
    | (k, t) :: rest =>
      if t.phase = 0 then (s.armTest c k t).loopRelease
      else if s.loopLost c then
        let s1 := s.setPhase k.n0 c 2
        (match rest with
         | [] => s1
         | e :: _ => s1.armTest c e.1 e.2).loopRelease
      else s)

/-! ## Measuring (R417–R425) -/

/-- A profile of the frame just recorded: first column and values; empty where the region gave none in this frame (R401, R417). -/
def State.loopProfile (s : State) (c r : Nat) : Nat × List Nat :=
  let w := s.tabWord (0x4610 + 8 * c + r)
  if bits (w 0) 71 40 = bits (s.tabWord (0x4622 + c) 0) 71 40 ∧ bit (s.reg (Key.REGION c r)) 63 then
    (bits (w 0) 18 7, (List.range (bits (w 0) 31 19)).map (fun j => bits (w (1 + j / 4)) (16 * (j % 4) + 15) (16 * (j % 4))))
  else (0, [])

/-- A mark of the frame just recorded: CX and CY, where FOUND (R401, R424). -/
def State.loopMark (s : State) (c k : Nat) : Option (Nat × Nat) :=
  let w := s.tabWord (0x4620 + c)
  if bits (w (2 * k)) 71 40 = bits (s.tabWord (0x4622 + c) 0) 71 40 ∧ bit (w (2 * k)) 36 ∧ bit (s.reg (Key.FINDER c k)) 63 then
    some (bits (w (2 * k + 1)) 71 52, bits (w (2 * k + 1)) 51 32)
  else none

/-- Nozzles of port `u` with the profile index of their column, in ascending order (R419). -/
def State.loopCols (s : State) (u x0 : Nat) : List (Nat × Int) :=
  ((s.nozzles u 0).zipIdx.filter (fun e => !e.1.unused)).map (fun e => (e.2, (s.loopX u e.1.col + 128).fdiv 256 - (x0 : Int)))

/-- Responses of the seen nozzles of a profile over the paper (R419). -/
def State.responses (s : State) (u : Nat) (prof : Nat × List Nat) (paper : Int) : List (Nat × Nat) :=
  (s.loopCols u prof.1).filterMap (fun (e : Nat × Int) =>
    if 0 ≤ e.2 then (prof.2[e.2.toNat]?).map (fun v => (e.1, (max 0 ((v : Int) - paper)).toNat)) else none)

/-- LOOP_DEAD entries of the pending map (R421). -/
def LoopPort.deadCount (r : LoopPort) : Nat := (r.pend.filter (fun e => bit e.2 23)).length

/-- RESPONSE (R435); the spec states no value where R_med is 0: free (log 23). -/
def responseOf (r med free : Nat) : Nat := if med = 0 then free % 4096 else min 4095 (r * 1024 / med)

/-- Judges nozzle `i` of port `u` of response `r` against `med` (R420, R421); `apply` is bit 0 of LOOP_APPLY. -/
def State.judgeNozzle (s : State) (u : Nat) (apply : Bool) (med i r : Nat) : State :=
  let lp := s.lport u
  let n := lp.nozzle i
  let missing := decide (r * 256 < s.reg Key.MISS_FRAC * med)
  let weak := decide (r * 256 < s.reg Key.WEAK_FRAC * med)
  let miss := if missing then min 15 (n.miss + 1) else 0
  let ok := if missing then 0 else min 15 (n.ok + 1)
  let free := (Config.freeWord s.free).toNat
  let base : NozSt := { n with miss := miss, ok := ok, unseen := false, resp := responseOf r med free }
  let put := fun (s : State) (x : NozSt) => s.updLport u (fun q => { q with noz := Map.put (fun _ => {}) q.noz i x })
  let ent := fun (s : State) (d : Bool) =>
    if apply then s.updLport u (fun q => q.setEnt s.clk s.grid.frozenBand i (loopEnt d (q.trim i))) else s
  let arg := fld u 8 24 + fld i 12 12
  let s0 := if med = 0 then { s with free := s.free + 1 } else s
  let judged : Nat := if weak then 1 else 0
  if n.st = 3 then
    if ¬ missing ∧ s.reg Key.RECOVER ≤ ok then (ent (put s0 { base with st := judged }) false).event 0x50 2 arg
    else put s0 base
  else if missing then
    if miss < s.reg Key.CONFIRM then put s0 { base with st := 2 }
    else if apply ∧ ¬ lp.dead i ∧ s.reg Key.DEAD_LIMIT ≤ lp.deadCount then
      ((put s0 { base with st := 2, miss := s.reg Key.CONFIRM }).event 0x50 3 arg).raise (0xB0 + u) 0
    else (ent (put s0 { base with st := 3 }) true).event 0x50 1 arg
  else put s0 { base with st := judged }

/-- WEAK_COUNT and TRIM_SAT of port `u`, and the cause of trim-saturated (R422, R434). -/
def State.loopCounts (s : State) (u : Nat) : State :=
  let lp := s.lport u
  let lim : Int := s.reg Key.TRIM_LIMIT
  let sat := (lp.pend.filter (fun e => decide (lim ≤ iabs (sgn 10 e.2)))).map (fun e => e.1)
  let s1 := (s.setReg (Key.WEAK_COUNT u) (lp.noz.filter (fun e => e.2.st = 1)).length).setReg (Key.TRIM_SAT u) sat.length
  let s2 := s1.forEach ((s1.src (0xD0 + u)).causes.filter (fun i => !sat.contains i)) (fun i s => s.cause (0xD0 + u) i false 0)
  s2.forEach sat (fun i s => s.cause (0xD0 + u) i true 0)

/-- A median of profile values (R419, R422); the spec states none where there is no value: free (log 23). -/
def State.medianOr (s : State) (l : List Int) : Int := if l.isEmpty then ((Config.freeWord s.free).toNat % 65536 : Nat) else median l

/-- The state once the medians of `l` have been taken in it: each that had no value drew a free one. -/
def State.drew (s : State) (l : List (List Int)) : State := { s with free := s.free + (l.filter List.isEmpty).length }

/-- The correction of a trim whose nozzle deviates (R422); the spec states no quotient where D_med is 0: free (log 23). -/
def State.trimDelta (s : State) (dMed d : Int) : Int :=
  let q := if dMed = 0 then sgn 72 (Config.freeWord s.free).toNat else (s.reg Key.TRIM_GAIN * 4 * (dMed - d)).tdiv dMed
  clampI (-(s.reg Key.TRIM_STEP_MAX : Int)) (s.reg Key.TRIM_STEP_MAX) q

/-- Density trims of a usable check (R422). -/
def State.loopTrims (s : State) (c : Nat) (k : LoopBlock) (t : LoopTest) (paper : Int) : State :=
  let u := t.u
  if k.bl = 0 ∨ s.reg Key.INGRESS_MODE = 2 then s
  else
    match t.barAt with
    | none => s
    | some at_ =>
      if (s.lport u).mapAt.any (fun m => decide (at_ < m)) then s.inc Key.STALE_MEASURE
      else
        let ds := (s.responses u (s.loopProfile c 5) paper).filter (fun e => t.barSet.contains e.1)
        let dv := ds.map (fun e => (e.2 : Int))
        let med := s.medianOr dv
        let s1 := (s.drew [dv]).setReg (Key.BAR_MEDIAN u) med.toNat
        if med < (s.reg Key.MIN_RESPONSE : Int) then s1
        else
          let s2 := s1.updLport u (fun q => { q with
            noz := (List.range 2304).foldl (fun m i => Map.upd (fun _ => {}) m i (fun n => { n with receiver := t.barRecv.contains i })) q.noz })
          if ¬ bit (s.reg (Key.LOOP_APPLY u)) 1 then s2
          else
            let lim : Int := s.reg Key.TRIM_LIMIT
            ds.foldl (fun s e =>
              if s.reg Key.TRIM_DEADBAND * med < iabs ((med : Int) - e.2) * 1024 then
                let dl := s.trimDelta med e.2
                let s3 := if med = 0 then { s with free := s.free + 1 } else s
                s3.updLport u (fun q =>
                  q.setEnt s.clk s.grid.frozenBand e.1 (loopEnt (q.dead e.1) (clampI (-lim) lim (q.trim e.1 + dl))))
              else s) s2

/-- Does port `r` lie in a cycle of references (R423)? -/
def State.inCycle (s : State) (r : Nat) : Bool :=
  let nxt := fun (x : Option Nat) => x.bind (fun p => if s.reg (Key.REG_REF p) = 0xFF then none else some (s.reg (Key.REG_REF p)))
  ((List.range 16).foldl (fun (a : Option Nat × Bool) _ =>
    let n := nxt a.1
    (n, a.2 || n == some r)) (some r, false)).2

/-- The in-track measurement of a usable check (R423–R425). -/
def State.loopOffset (s : State) (c : Nat) (k : LoopBlock) (t : LoopTest) : State :=
  let u := t.u
  match t.ref with
  | none => s
  | some q =>
    if ¬ k.isRef t q ∨ k.ml = 0 ∨ s.inCycle q then s
    else
      match s.loopMark c 2, s.loopMark c 3 with
      | some a, some b =>
        let since := fun (p : Nat) => (s.lport p).offAt.all (fun o => t.hitAt.any (fun h => decide (o ≤ h)))
        if t.due = 0 ∨ t.hit ≠ t.due ∨ ¬ since u ∨ ¬ since q then s.inc Key.STALE_MEASURE
        else
          let e0 := (((a.2 : Int) - b.2) * s.reg Key.LINE_PITCH).tdiv (256 * s.reg (Key.CAM_LPG c) : Nat)
          let e := e0 - s.regI (Key.REG_TARGET u)
          let x := ((a.1 : Int) - b.1) - (s.loopX u (k.markCol.getD u 0) - s.loopX q (k.markCol.getD q 0))
          let s1 := (s.setRegI (Key.REG_ERROR u) e).setRegI (Key.XTRACK_ERROR u) x
          if iabs e ≤ s.reg Key.REG_DEADBAND ∨ ¬ bit (s.reg (Key.LOOP_APPLY u)) 2 then s1
          else
            let gain := if s.reg (Key.PLANE_SEL u) = s.reg (Key.PLANE_SEL q) then s.reg Key.STITCH_GAIN else s.reg Key.REG_GAIN
            let step : Int := s.reg Key.REG_STEP_MAX
            let lim : Int := s.reg Key.REG_LIMIT
            let delta := clampI (-step) step ((-(gain * e)).tdiv 256)
            s1.updLport u (fun r => { r with
              off := some (clampI (-lim) lim (s.regI (Key.LOOP_OFFSET u) + delta)), offAcc := s.clk, offSkip := s.grid.frozenSheet })
      | _, _ => s.raise (0xF0 + u) 0

/-- The computation for a check (R417–R425). -/
def State.checkBlock (s : State) (c : Nat) (k : LoopBlock) (t : LoopTest) : State :=
  let u := t.u
  let strip := s.loopProfile c 4
  let pv := (s.loopProfile c 6).2.map (fun (v : Nat) => (v : Int))
  let paper := s.medianOr pv
  let rs := s.responses u strip paper
  let rv := rs.map (fun e => (e.2 : Int))
  let med := ((s.drew [pv]).medianOr rv).toNat
  let s0 := (((s.drew [pv, rv]).inc Key.BLOCKS_DONE).setReg (Key.BLOCK_LAST c) k.b).setReg (Key.PORT_LAST c) u
  let void := fun (s : State) => (s.inc Key.CHECKS_VOID).event 0x50 0x30 (fld u 8 24 + fld c 8 16)
  if ¬ bit (s.tabWord (0x4622 + c) 0) 9 ∨ t.beyond ∨ strip.2.length < 16 then void s0
  else
    let s1 := s0.setReg (Key.RESP_MEDIAN u) med
    if med < s.reg Key.MIN_RESPONSE then
      let n := (s.lport u).silent + 1
      let s2 := void (s1.updLport u (fun r => { r with silent := n }))
      if s.reg Key.CONFIRM ≤ n then s2.raise (0xC0 + u) 0 else s2
    else
      let apply := bit (s.reg (Key.LOOP_APPLY u)) 0
      let s2 := (s1.inc (Key.CHECKS u)).updLport u (fun r => { r with
        silent := 0, noz := (List.range 2304).foldl (fun m i => Map.upd (fun _ => {}) m i (fun n => { n with unseen := true })) r.noz })
      let s3 := rs.foldl (fun s e => s.judgeNozzle u apply med e.1 e.2) s2
      ((s3.loopTrims c k t paper).loopCounts u).loopOffset c k t

/-- The loop takes the frame record of its trigger and finishes its computation (R417). -/
def execLoopCheck (cam : Fin 2) (s : State) : Res :=
  let c := cam.val
  whenClocked s <| .next (match s.loopTests c with
    | [] => s
    | (k, t) :: _ =>
      if t.phase = 1 ∧ s.loopFrame c then ((s.checkBlock c k t).setPhase k.n0 c 2).loopRelease else s)

/-! ## Hand-over and host control (R426, R427, R429) -/

/-- LOOP_CLEAR written: the requests of `old` still pending are kept (R427). -/
def State.loopClearWrite (s : State) (p old : Nat) : State := s.setReg (Key.LOOP_CLEAR p) (Nat.lor old (s.reg (Key.LOOP_CLEAR p)))

/-- The LOOP_MAP image in force, by nozzle. -/
def State.mapInForce (s : State) (p : Nat) : Map Nat :=
  (List.range 2304).foldl (fun m i => Map.put (fun _ => 0) m i (s.loopEntry p i)) []

/-- A LOOP_MAP image as a table (R255). -/
def mapTab (m : Map Nat) : Tab :=
  let e := fun i => Map.get (fun _ => 0) m i
  tabOf ((List.range 768).map (fun w => pack24 (e (3 * w)) (e (3 * w + 1)) (e (3 * w + 2))))

/-- LOOP_MAP of port `p` is handed over at a band boundary: the pending image if its boundary this is, and clears (R426, R427, R429).
Answers whether anything was. -/
def State.loopBandPort (s : State) (p : Nat) : State × Bool :=
  let lp := s.lport p
  let req := s.reg (Key.LOOP_CLEAR p)
  let dead := bit req 0
  let trim := bit req 1
  let go := lp.dirty && !lp.skip && decide (lp.acc < s.clk)
  if s.reg Key.INGRESS_MODE = 2 ∨ (¬ go ∧ ¬ dead ∧ ¬ trim) then (s.updLport p (fun r => { r with skip := false }), false)
  else
    let wipe := fun (m : Map Nat) => m.foldl (fun a e =>
      Map.put (fun _ => 0) a e.1 (loopEnt (!dead && bit e.2 23) (if trim then 0 else sgn 10 e.2))) []
    let old := s.mapInForce p
    let pend := wipe lp.pend
    let new := if go then pend else wipe old
    let changed := ((List.range 2304).filter (fun i => Map.get (fun _ => 0) old i ≠ Map.get (fun _ => 0) new i)).length
    let s1 := (s.setTab (0x4003 + 0x40 * p) (mapTab new)).updLport p (fun r => { r with
      pend := pend, dirty := !go && decide (pend ≠ new), skip := false, mapAt := some s.clk
      noz := if dead then r.noz.map (fun e => (e.1, { e.2 with st := 0, miss := 0, ok := 0 })) else r.noz })
    let s2 := (s1.setReg (Key.DEAD_LOOP p) (new.filter (fun e => bit e.2 23)).length).setReg (Key.LOOP_CLEAR p) (Nat.land req 4)
    ((s2.loopCounts p).event 0x50 0x10 (fld p 8 24 + fld (s.reg (Key.MAP_CAM p)) 8 16 + fld changed 16 0), true)

/-- LOOP_OFFSET of port `p` is handed over at a sheet boundary (R425–R427, R429). -/
def State.loopSheetPort (s : State) (p : Nat) : State × Bool :=
  let lp := s.lport p
  let req := s.reg (Key.LOOP_CLEAR p)
  let clr := bit req 2
  let go := lp.off.isSome && !lp.offSkip && decide (lp.offAcc < s.clk)
  if ¬ go ∧ ¬ clr then (s.updLport p (fun r => { r with offSkip := false }), false)
  else
    let v : Int := if clr then 0 else lp.off.getD 0
    let n := b2n (decide (v ≠ s.regI (Key.LOOP_OFFSET p)))
    let s1 := ((s.setRegI (Key.LOOP_OFFSET p) v).setReg (Key.LOOP_CLEAR p) (Nat.land req 3)).updLport p (fun r => { r with
      off := none, offSkip := false, offAt := some s.clk })
    let s2 := s1.cause (0xE0 + p) 0 (decide (s.reg Key.REG_LIMIT ≤ iabs v)) 0
    (s2.event 0x50 0x20 (fld p 8 24 + fld (s.reg (Key.MAP_CAM p)) 8 16 + n), true)

/-- The loop's outputs of a class are handed over; answers whether there were any (R190, R426). -/
def State.loopHandOver (s : State) (c : Commit) : State × Bool :=
  (List.range s.nPorts).foldl (fun (a : State × Bool) p =>
    let r := match c with
      | .band => a.1.loopBandPort p
      | .sheet => a.1.loopSheetPort p
      | _ => (a.1, false)
    (r.1, a.2 || r.2)) (s, false)

/-- NOZZLE_REPORT of port `p`, word `w` (R435). -/
def State.nozReport (s : State) (p w : Nat) : Nat :=
  let e := fun (i : Nat) =>
    let n := (s.lport p).nozzle i
    fld n.st 2 22 + fld n.miss 4 18 + fld n.ok 4 14 + b2n n.receiver * 2 ^ 13 + b2n n.unseen * 2 ^ 12 + fld n.resp 12 0
  pack24 (e (3 * w)) (e (3 * w + 1)) (e (3 * w + 2))

end Sys2Proof.Machine
end

