-- ==== Sys2Proof/Machine/Dma.lean ====
section
/-! DEFINITION. The DMA movers: direct transfers, descriptor chains, index gather, slots and rate, completion, pause, resume and abort
(R454-R474), and the host's word access (R472). The words of a burst are written on the clock of its read slot (log 24). -/

namespace Sys2Proof.Machine

/-- Mover of a channel (R454). -/
def moverOf (c : Nat) : Nat := c / 8

/-- Is Caldera running (R470, R505)? -/
def State.calderaUp (s : State) : Bool := s.reg Key.CALDERA_STATE == 2

/-- STATE of a channel (R474). -/
def DmaSt.code : DmaSt → Nat
  | .idle => 0 | .waiting => 1 | .running => 2 | .pausing => 3 | .paused => 4 | .held => 5

/-- CH_STATUS (R474). -/
def DmaCh.status (r : DmaCh) : Nat :=
  fld r.st.code 4 28 + fld r.outcome 2 26 + b2n r.abortLate * 2 ^ 25 + fld r.errKind 2 23 + b2n r.after * 2 ^ 22 + b2n r.fresh * 2 ^ 21
    + b2n r.pauseReq * 2 ^ 20 + b2n r.chainErr * 2 ^ 19 + b2n r.latch * 2 ^ 18

/-- MOVER_CHANNEL (R472). -/
def State.moverChannel (s : State) (m : Nat) : Nat :=
  (((List.range 8).map (8 * m + ·)).find? (fun c => (s.dch c).st = .running ∨ (s.dch c).st = .pausing)).getD 0xFF

/-! ## Accesses (R436, R437, R455, R465) -/

/-- Offset in the bulk memory window of an on-chip address, if it lies there (R436). -/
def bulkOffset (a : Nat) : Option Nat :=
  if 0x4000000000 ≤ a ∧ a < 0x4080000000 then some (a - 0x4000000000) else none

/-- A read by a mover: none is a bus error (R465). -/
def State.moverRead (s : State) (a : Nat) : State × Option Nat :=
  if inScratch a then
    let r := (s.portA a).readScratch false (a % 0x100000)
    (r.1, match r.2 with
      | .word w => some w.toNat
      | _ => none)
  else match bulkOffset a with
    | some o => let r := (s.pmcBulk false 4 o 1).readBulk o; (r.1, r.2.map (fun w => w.toNat))
    | none => (s, none)

/-- A write by a mover; false is a bus error. A write beyond BM_CAPACITY is discarded without one (R437, R465). -/
def State.moverWrite (s : State) (a v : Nat) : State × Bool :=
  if inScratch a then
    let r := (s.portA a).writeScratch false a (BitVec.ofNat 72 v)
    (r.1, r.2 == .done)
  else match bulkOffset a with
    | some o => if s.bmReady then ((s.pmcBulk true 4 o 1).writeBulk o (BitVec.ofNat 72 v), true) else (s, false)
    | none => (s, false)

/-- Must an access to `a` wait because bulk memory is being trained, or checked after a rest (R449, R542)? -/
def State.accessWaits (s : State) (a : Nat) : Bool := (bulkOffset a).isSome && s.bmHolds

/-- Reads `n` words from `a`; none if one of them fails (R456, R465). -/
def State.moverReads (s : State) (a n : Nat) : State × Option (List Nat) :=
  (List.range n).foldl (fun (r : State × Option (List Nat)) k =>
    let x := r.1.moverRead (a + k)
    (x.1, match r.2, x.2 with
      | some l, some w => some (l ++ [w])
      | _, _ => none)) (s, some [])

/-- Writes words from `a`; false if one of them fails, the others being kept (R465). -/
def State.moverWrites (s : State) (a : Nat) (ws : List Nat) : State × Bool :=
  ws.zipIdx.foldl (fun (r : State × Bool) e =>
    let x := r.1.moverWrite (a + e.2) e.1
    (x.1, r.2 && x.2)) (s, true)

/-- Collisions with port B: each is counted (R440). -/
def State.collided (s : State) (n : Nat) : State := s.addReg Key.SCRATCH_COLLISIONS n

/-- The words of a burst of channel `c`: those that meet a write of port B to the same word wait for a retry; answers whether the others were written
(R440, R465). -/
def State.burstWrite (s : State) (c a : Nat) (ws : List Nat) : State × Bool :=
  let l := ws.zipIdx.map (fun e => (a + e.2, e.1))
  let hit := l.filter (fun e => inScratch e.1 && s.portBHits (e.1 % 0x100000))
  let r := (l.filter (fun e => !hit.contains e)).foldl (fun (r : State × Bool) e =>
    let x := r.1.moverWrite e.1 e.2
    (x.1, r.2 && x.2)) (s, true)
  if hit.isEmpty then r
  else ((r.1.collided hit.length).updDch c (fun x => { x with retry := x.retry ++ hit, tries := 1, triedAt := s.clk }), r.2)

/-- Is a number a valid descriptor address (R455)? -/
def descOk (d : Nat) : Bool := d % 4 == 0 && decide (d < 0x100000)

/-! ## Selection (R461, R466, R470) -/

/-- Must a channel be held before it fetches, or begins (R470)? -/
def State.dmaHeld (s : State) (c : Nat) : Bool :=
  decide (c < 16) && !s.calderaUp &&
    (match (s.dch c).pos with
     | .fetch _ => true
     | .link _ => true
     | .run => !(s.dch c).begun
     | _ => false)

/-- The mover selects the next WAITING channel when none runs; one that is to pause or to be held does so instead (R461, R466, R470). -/
def State.selectMover (s : State) (m : Nat) : State :=
  if s.moverChannel m ≠ 0xFF then s
  else
    let order := (List.range 8).map (fun k => 8 * m + ((s.mover m).last + 1 + k) % 8)
    (order.foldl (fun (a : State × Bool) c =>
      if a.2 ∨ (a.1.dch c).st ≠ .waiting then a
      else if (a.1.dch c).pauseReq then (a.1.updDch c (fun r => { r with st := .paused }), false)
      else if a.1.dmaHeld c then (a.1.updDch c (fun r => { r with st := .held }), false)
      else ((a.1.updDch c (fun r => { r with st := .running })).updMover m (fun x => { x with last := c % 8 }), true)) (s, false)).1

/-- Channels held while Caldera was not running, or while the core clock stood, continue (R470). -/
def State.dmaUnhold (s : State) : State :=
  (s.forEach (List.range 32) (fun c s =>
    if (s.dch c).st = .held ∧ ¬ s.dmaHeld c then s.updDch c (fun r => { r with st := .waiting }) else s)).forEach (List.range 4)
      (fun m s => s.selectMover m)

/-- Entry into a power state that gates the core clock holds every channel as after a pause (R470). -/
def State.dmaHold (s : State) : State :=
  s.forEach (List.range 32) (fun c s =>
    if (s.dch c).st = .pausing then s.updDch c (fun r => { r with st := .paused })
    else if (s.dch c).st = .running ∨ (s.dch c).st = .waiting then s.updDch c (fun r => { r with st := .held }) else s)

/-! ## Starts and doorbells (R457, R459, R466, R469) -/

/-- A channel with work to do enters WAITING, and its mover selects; with PAUSE_REQ it is PAUSED with its work pending (R466). -/
def State.dmaEnqueue (s : State) (c : Nat) (pos : DmaAt) : State :=
  (s.updDch c (fun r => { r with st := if r.pauseReq then .paused else .waiting, pos := pos })).selectMover (moverOf c)

/-- Does a doorbell of channel `c` fall on this clock beside its read: one that met it busy, or one that waits (R469)? -/
def State.bellNow (s : State) (c : Nat) : Bool :=
  (s.dch c).bellAt == some s.clk || s.pending.any (fun i => match i with
    | .dmaStart _ ch => ch.val == c
    | _ => false)

/-- A chain stops on a bad pointer or descriptor (R459). -/
def State.chainError (s : State) (c d : Nat) : State :=
  (((s.setReg (Key.CH_CUR c) d).updDch c (fun r => { r with st := .idle, pos := .none, chainErr := true })).raise (0x68 + moverOf c)
    (moverOf c)).selectMover (moverOf c)

/-- IRQ of a completed transfer: Caldera's interrupt or the host's flag (R463). -/
def State.dmaIrq (s : State) (c : Nat) : State :=
  if c < 16 then s.emit (.dmaDone c) else s.setRegBit Key.DMA_HOST_FLAGS (c - 16) true

/-- A start or doorbell; of two on one clock one takes effect and the other is counted (R457, R459, R469). -/
def State.dmaBell (s : State) (c : Nat) : State :=
  let r := s.dch c
  let chain := s.reg (Key.CH_MODE c) == 1
  if r.st ≠ .idle then
    (s.inc (Key.CH_BELL_BUSY c)).updDch c (fun r => { r with latch := r.latch || chain || r.st == .held, bellAt := some s.clk })
  else if r.startAt = some s.clk then s.inc (Key.CH_BELL_BUSY c)
  else if chain then
    let s1 := s.updDch c (fun r => { r with
      fresh := false, chainErr := false, latch := true, after := false, stop := false, startAt := some s.clk })
    if r.fresh then
      let h := s.reg (Key.CH_HEAD c)
      if h = 0 then (s1.setReg (Key.CH_CUR c) 0).updDch c (fun r => { r with latch := false, after := true })
      else if descOk h then s1.dmaEnqueue c (.fetch h)
      else (s1.updDch c (fun r => { r with latch := false })).chainError c h
    else s1.dmaEnqueue c (if r.after then .link (s.reg (Key.CH_CUR c)) else .fetch (s.reg (Key.CH_CUR c)))
  else
    let f := s.reg (Key.CH_FLAGS c)
    let s1 := (s.setReg (Key.CH_DONE c) 0).updDch c (fun r => { r with
      indexed := bit f 5, irq := bit f 4, last := false, elem := bits f 3 0, table := s.reg (Key.CH_TABLE c), haveDst := false
      entry := none, part := 0, begun := false, lastDst := none, late := false, stop := false, startAt := some s.clk })
    if s.reg (Key.CH_COUNT c) = 0 then
      let s2 := (s1.traceRec 0x06 (fld c 5 51 + fld 1 2 49)).updDch c (fun r => { r with outcome := 1, errKind := 0, abortLate := false })
      if bit f 4 then s2.dmaIrq c else s2
    else s1.dmaEnqueue c .run

/-! ## Slots (R456, R459, R460, R462) -/

/-- SHARE and BURST (R462, R473). -/
def State.dmaShare (s : State) (c : Nat) : Nat := bits (s.reg (Key.CH_RATE c)) 13 8 + 1
def State.dmaBurst (s : State) (c : Nat) : Nat := bits (s.reg (Key.CH_RATE c)) 4 0 + 1

/-- A transfer ends with an outcome: a read-back first where the part makes one and a word was written, else the final status write begins
(R464, R465). -/
def State.dmaFinish (s : State) (c outcome err : Nat) : State :=
  s.updDch c (fun r => { r with
    ending := outcome, endErr := err
    pos := if s.ident.part = .px7216 ∧ outcome ≠ 3 ∧ r.lastDst.isSome then .readback else .status })

/-- The slot that was counted goes unused (R462). -/
def State.dmaUnused (s : State) (c : Nat) : State := s.updDch c (fun r => { r with used := r.used - 1 })

/-- One burst of `n` words from `src` (R456, R460, R465). -/
def State.dmaBurstMove (s : State) (c src n : Nat) : State :=
  let dst := s.reg (Key.CH_DST c)
  if s.accessWaits src ∨ s.accessWaits dst then s.dmaUnused c
  else
    let a := s.moverReads src n
    match a.2 with
    | none => a.1.dmaFinish c 3 1
    | some ws =>
      let b := (a.1.pmc 0x0F (2 ^ moverOf c) n).burstWrite c dst ws
      if ¬ b.2 then b.1.dmaFinish c 3 2
      else
        let r := b.1.dch c
        let whole := r.part + n = r.elem + 1
        let adv := if r.indexed then (if whole then 1 else 0) else n
        let left := b.1.reg (Key.CH_COUNT c) - adv
        let s1 := (((b.1.setReg (Key.CH_DST c) (dst + n)).setReg (Key.CH_COUNT c) left).addReg (Key.CH_DONE c) adv).addReg (Key.CH_WORDS c) n
        let s2 := (if r.indexed then s1 else s1.setReg (Key.CH_SRC c) (src + n)).updDch c (fun r => { r with
          part := if r.indexed ∧ ¬ whole then r.part + n else 0, lastDst := some (dst + n - 1) })
        if left = 0 then s2.dmaFinish c 1 0 else s2

/-- The next read of a transfer: the table's word 0, an entry word, or a burst (R456, R460). -/
def State.dmaStep (s : State) (c : Nat) : State :=
  let r := s.dch c
  let idx := fun (k : Nat) (f : State → Nat → State) =>
    if s.accessWaits (r.table + k) then s.dmaUnused c
    else
      let a := s.moverRead (r.table + k)
      match a.2 with
      | none => a.1.dmaFinish c 3 3
      | some w => f a.1 w
  if ¬ r.indexed then s.dmaBurstMove c (s.reg (Key.CH_SRC c)) (min (s.dmaBurst c) (s.reg (Key.CH_COUNT c)))
  else if ¬ r.haveDst then idx 0 (fun s w => (s.setReg (Key.CH_DST c) (bits w 39 0)).updDch c (fun r => { r with haveDst := true }))
  else
    let k := s.reg (Key.CH_DONE c)
    let hold := r.entry.filter (fun e => e.1 = k / 2)
    match hold with
    | none => idx (1 + k / 2) (fun s w => s.updDch c (fun r => { r with entry := some (k / 2, w) }))
    | some e =>
      let off := bits e.2 (36 * (k % 2) + 35) (36 * (k % 2))
      s.dmaBurstMove c ((s.reg (Key.CH_SRC c) + off) % 2 ^ 40 + r.part) (min (s.dmaBurst c) (r.elem + 1 - r.part))

/-- A descriptor is fetched at `d`; a doorbell of the clock on which it is found not owned has the read repeated (R458, R459, R469). -/
def State.dmaFetch (s : State) (c d : Nat) : State :=
  let s0 := s.updDch c (fun r => { r with latch := false, bellAt := none })
  let a := s0.moverReads d 4
  match a.2 with
  | none => a.1.chainError c d
  | some w =>
    let s1 := a.1.setReg (Key.CH_CUR c) d
    let w0 := w.getD 0 0
    if ¬ bit w0 71 ∧ s.bellNow c then a.1
    else if ¬ bit w0 71 then
      (s1.updDch c (fun r => { r with st := .idle, pos := .none, after := false })).selectMover (moverOf c)
    else
      let ix := bit w0 69
      let s2 := (((s1.setReg (Key.CH_SRC c) (bits (w.getD 1 0) 39 0)).setReg (Key.CH_DST c) (bits (w.getD 2 0) 39 0)).setReg (Key.CH_COUNT c)
        (bits w0 31 0)).setReg (Key.CH_DONE c) 0
      let s3 := s2.updDch c (fun r => { r with
        pos := .run, indexed := ix, irq := bit w0 68, last := bit w0 70, elem := bits w0 67 64, table := bits (w.getD 2 0) 39 0
        haveDst := false, entry := none, part := 0, begun := true, lastDst := none, late := false, stop := false })
      if bits w0 31 0 = 0 then s3.dmaFinish c 1 0 else s3

/-- The link of the descriptor at `d` is read: the chain goes on at its NEXT, or stops; a doorbell of the clock on which the end is found has the
read repeated (R459, R469). -/
def State.dmaLink (s : State) (c d : Nat) (yield : Bool) : State :=
  let s0 := s.updDch c (fun r => { r with latch := false, bellAt := none })
  let a := s0.moverRead (d + 3)
  match a.2 with
  | none => a.1.chainError c d
  | some w =>
    let n := bits w 39 0
    if n = 0 ∧ s.bellNow c then a.1.updDch c (fun r => { r with pos := .link d })
    else if n = 0 then
      ((a.1.setReg (Key.CH_CUR c) d).updDch c (fun r => { r with st := .idle, pos := .none, after := true })).selectMover (moverOf c)
    else if ¬ descOk n then a.1.chainError c d
    else
      let s1 := a.1.updDch c (fun r => { r with pos := .fetch n })
      if (s1.dch c).pauseReq then
        ((s1.setReg (Key.CH_CUR c) n).updDch c (fun r => { r with st := .paused, pauseReq := false })).selectMover (moverOf c)
      else if s1.dmaHeld c then
        ((s1.setReg (Key.CH_CUR c) n).updDch c (fun r => { r with st := .held })).selectMover (moverOf c)
      else if yield then (s1.updDch c (fun r => { r with st := .waiting })).selectMover (moverOf c)
      else s1

/-- One read of the running channel, counted against its share (R462). -/
def State.dmaRead (s : State) (c : Nat) : State :=
  let win := s.ct / 4608
  let used := if (s.dch c).win = win then (s.dch c).used else 0
  if s.dmaShare c ≤ used then s
  else
    let s1 := s.updDch c (fun r => { r with win := win, used := used + 1 })
    match (s.dch c).pos with
    | .fetch d => s1.dmaFetch c d
    | .run => (s1.updDch c (fun r => { r with begun := true })).dmaStep c
    | _ => s

/-- Does a slot of mover `m` begin that it has not used (R462)? -/
def State.slotDue (s : State) (m : Nat) : Bool := (s.mover m).slot != some (s.ct / 72)

/-- A slot of a mover (R462). -/
def execDmaSlot (m : Fin 4) (s : State) : Res :=
  whenClocked s <| .next (if ¬ s.slotDue m then s else
    let s1 := (s.updMover m (fun x => { x with slot := some (s.ct / 72) })).selectMover m
    let c := s1.moverChannel m
    if c = 0xFF ∨ (s1.dch c).st ≠ .running then s1
    else
      let s2 := match (s1.dch c).pos with
        | .link d => s1.dmaLink c d false
        | _ => s1
      if (s2.dch c).st = .running then s2.dmaRead c else s2)

/-! ## Completion (R459, R463, R464) -/

/-- The read-back of the last word returns and the final status write begins (R464, R465). -/
def execDmaReadbackDone (ch : Fin 32) (s : State) : Res :=
  let c := ch.val
  whenClocked s <| .next (if (s.dch c).pos ≠ .readback ∨ !(s.dch c).retry.isEmpty then s
    else match (s.dch c).lastDst with
      | none => s.updDch c (fun r => { r with pos := .status })
      | some a =>
        let r := s.moverRead (if inScratch a then a % 0x100000 else a)
        if r.2.isSome then r.1.updDch c (fun r => { r with pos := .status })
        else r.1.updDch c (fun r => { r with pos := .status, ending := 3, endErr := 2 }))

/-- The outcome is entered in CH_STATUS and counted (R463, R465, R474). -/
def State.dmaOutcome (s : State) (c : Nat) : State :=
  let r := s.dch c
  let s1 := (s.traceRec 0x06 (fld c 5 51 + fld r.ending 2 49)).updDch c (fun r => { r with outcome := r.ending, abortLate := r.late, errKind := r.endErr })
  let s2 := if r.irq then s1.dmaIrq c else s1
  if r.ending = 3 then ((s2.inc (Key.CH_BAD c)).inc Key.DMA_BUS_ERRORS).raise (0x64 + moverOf c) (moverOf c) else s2

/-- A status or OWN write meets port B: it is tried again on the next clock, and the fifth collision ends the chain (R440, R459, R469). -/
def State.statusCollides (s : State) (c d : Nat) : State :=
  let s1 := s.collided 1
  if 4 ≤ (s.dch c).tries then (s1.updDch c (fun r => { r with tries := 0 })).chainError c d
  else (s1.inc Key.DMA_RETRIES).updDch c (fun r => { r with tries := r.tries + 1 })

/-- The writes of channel `c` that collided are tried again on a later clock, four times at the most; one that collides then as well is a bus error
(R440, R465). -/
def State.retryChannel (s : State) (c : Nat) : State :=
  let r := s.dch c
  if r.retry.isEmpty ∨ s.clk ≤ r.triedAt then s
  else
    let hit := r.retry.filter (fun e => s.portBHits (e.1 % 0x100000))
    let s1 := (s.addReg Key.DMA_RETRIES r.retry.length).collided hit.length
    let w := (r.retry.filter (fun e => !hit.contains e)).foldl (fun (x : State × Bool) e =>
      let y := x.1.moverWrite e.1 e.2
      (y.1, x.2 && y.2)) (s1, true)
    let bad := !w.2 || (!hit.isEmpty && decide (5 ≤ r.tries + 1))
    let left := if bad then [] else hit
    let s2 := w.1.updDch c (fun x => { x with retry := left, tries := if left.isEmpty then 0 else x.tries + 1, triedAt := s.clk })
    if bad then s2.dmaFinish c 3 2 else s2

/-- The end of a clock at the movers: retries (R440). -/
def State.dmaEnd (s : State) : State := s.forEach (List.range 32) (fun c s => s.retryChannel c)

/-- A descriptor or direct transfer completes by its status writes; a chain goes on or stops (R459, R463, R467, R469). -/
def execDmaDescDone (ch : Fin 32) (s : State) : Res :=
  let c := ch.val
  let r := s.dch c
  whenClocked s <| .next (if r.pos ≠ .status ∨ !r.retry.isEmpty then s
    else if s.reg (Key.CH_MODE c) = 0 then
      ((s.dmaOutcome c).updDch c (fun r => { r with st := .idle, pos := .none, late := false, stop := false })).selectMover (moverOf c)
    else
      let d := s.reg (Key.CH_CUR c)
      if s.portBHits (d + 3) ∨ s.portBHits d then s.statusCollides c d
      else
      let st := fld r.ending 2 70 + b2n r.late * 2 ^ 69 + fld r.endErr 2 67 + fld (min 16777215 (s.reg (Key.CH_DONE c))) 24 40
      let a := (s.updDch c (fun r => { r with tries := 0 })).moverWrite (d + 3 + 0x100000) st
      let b := a.1.moverWrite (d + 0x200000) (2 ^ 71)
      if ¬ a.2 ∨ ¬ b.2 then (if a.2 then b.1 else a.1).chainError c d
      else
        let s1 := (b.1.dmaOutcome c).inc (Key.CH_DESC_DONE c)
        let idle := fun (s : State) (after : Bool) =>
          (s.updDch c (fun r => { r with st := .idle, pos := .none, after := after, late := false, stop := false })).selectMover (moverOf c)
        if r.ending = 2 then idle s1 false
        else if r.stop then idle s1 true
        else s1.dmaLink c d r.last)

/-! ## Pause, resume, abort (R466, R467, R469) -/

/-- CH_CMD 2 (R466, R469). -/
def State.dmaPauseCh (s : State) (c : Nat) : State :=
  let r := s.dch c
  match r.st with
  | .running =>
    if r.pos = .readback ∨ r.pos = .status then s.updDch c (fun r => { r with pauseReq := true })
    else s.updDch c (fun r => { r with st := .pausing })
  | .idle => s.updDch c (fun r => { r with pauseReq := true })
  | .waiting => s.updDch c (fun r => { r with pauseReq := true })
  | _ => s

/-- The words in flight are written and the channel is PAUSED (R466). -/
def execDmaPauseDone (ch : Fin 32) (s : State) : Res :=
  let c := ch.val
  whenClocked s <| .next (if (s.dch c).st ≠ .pausing then s
    else
      let s1 := s.updDch c (fun r => { r with st := .paused })
      (match (s.dch c).pos with
       | .fetch d => s1.setReg (Key.CH_CUR c) d
       | _ => s1).selectMover (moverOf c))

/-- CH_CMD 3 (R466). -/
def State.dmaResumeCh (s : State) (c : Nat) : State :=
  let s1 := s.updDch c (fun r => { r with pauseReq := false })
  if (s.dch c).st = .paused then (s1.updDch c (fun r => { r with st := .waiting })).selectMover (moverOf c) else s1

/-- CH_CMD 4 (R467). -/
def State.dmaAbortCh (s : State) (c : Nat) : State :=
  let r := s.dch c
  let idle := fun (s : State) => (s.updDch c (fun r => { r with st := .idle, pos := .none })).selectMover (moverOf c)
  if r.st = .idle then s
  else match r.pos with
    | .none => idle s
    | .fetch d => idle ((s.setReg (Key.CH_CUR c) d).updDch c (fun r => { r with after := false }))
    | .link d => idle ((s.setReg (Key.CH_CUR c) d).updDch c (fun r => { r with after := true }))
    | .run =>
      if s.reg (Key.CH_MODE c) = 0 ∧ ¬ r.begun then
        idle (((s.setReg (Key.CH_DONE c) 0).updDch c (fun r => { r with ending := 2, endErr := 0, late := false })).dmaOutcome c)
      else s.dmaFinish c 2 0
    | .readback => s.updDch c (fun r => { r with ending := 2, endErr := 0 })
    | .status => s.updDch c (fun r => { r with late := r.late || r.ending == 1, stop := true })

/-- CH_CMD `v` written (R473). -/
def State.dmaCmd (s : State) (c v : Nat) : State :=
  match v with
  | 1 => s.dmaBell c
  | 2 => s.dmaPauseCh c
  | 3 => s.dmaResumeCh c
  | 4 => s.dmaAbortCh c
  | _ => s

/-! ## The host's word access (R472) -/

/-- WORD_DATA written: the word is stored through M3 (R472). -/
def State.wordWrite (s : State) (v : Nat) : State :=
  let a := s.reg Key.WORD_ADDR
  let s := if inScratch a && s.portBHits (a % 0x100000) then (s.collided 1).inc Key.DMA_RETRIES else s
  let r := s.moverWrite (s.reg Key.WORD_ADDR) v
  r.1.setReg Key.WORD_STATUS (b2n (!r.2))

/-- WORD_DATA read: the word at WORD_ADDR, 0 on error (R472). -/
def State.wordRead (s : State) : State × Nat :=
  let r := s.moverRead (s.reg Key.WORD_ADDR)
  (r.1.setReg Key.WORD_STATUS (b2n r.2.isNone), r.2.getD 0)

end Sys2Proof.Machine
end

