-- ==== Sys2Proof/Machine/Log.lean ====
section
/-! DEFINITION. The NOR flash and the event log: records, queue, ring, anchors, the log window (R509-R516). -/

namespace Sys2Proof.Machine

/-- Changes Caldera's own record. -/
def State.updMgmt (s : State) (f : Mgmt → Mgmt) : State := { s with mgmt := f s.mgmt }

/-- Changes the NOR flash. -/
def State.updNor (s : State) (f : Nor → Nor) : State := { s with nor := f s.nor }

/-- Erases or programs NOR flash in region `region`; where the flash does not answer, source 0x14 is raised instead (R509, R510). -/
def State.norWrite (s : State) (region : Nat) (f : Nor → Nor) : State :=
  if s.nor.ok then s.updNor f else s.raise 0x14 region

/-- An event of class 0x60, which Caldera sends itself (R526). -/
def State.calderaEvent (s : State) (code arg : Nat) : State := s.event 0x60 code arg

/-! ## The queue (R512–R514) -/

/-- Queues a log record of the present chain time; lost and counted when 256 wait (R514). -/
def State.logAdd (s : State) (kind code : Nat) (payload : List Nat) (mark : Option Nat := none) : State :=
  if ¬ s.calderaUp then s
  else if s.mgmt.queue.length < 256 then s.updMgmt (fun m => { m with queue := m.queue ++ [⟨s.ct, kind, code, payload, mark⟩] })
  else s.updMgmt (fun m => { m with lost := (m.lost + 1) % 2 ^ 32, owed := m.owed + 1 })

/-- The configuration record of `kind` that stores `payload` is programmed, and logged (R510, R512). -/
def State.logConfig (s : State) (kind : Nat) (payload : List Nat) : State := s.logAdd 0x06 (Config.recordKind kind).toNat payload

/-- Copies the history entries not yet copied, at most the 16 that exist; older ones are told by a gap record (R513). -/
def State.histCopy (s : State) : State :=
  if ¬ s.calderaUp then s
  else
    let n := s.reg Key.HIST_COUNT
    let miss := (n + 2 ^ 32 - s.mgmt.hist) % 2 ^ 32
    let s1 := if 16 < miss then s.logAdd 0x02 0 (beBytes 4 (miss - 16)) (some ((n + 2 ^ 32 - 16) % 2 ^ 32)) else s
    let k := min 16 miss
    ((List.range k).foldl (fun (s : State) j =>
      let i := (n + 2 ^ 32 - k + j) % 16
      let w0 := s.reg (Key.HISTORY (2 * i))
      s.logAdd 0x01 (bits w0 7 0) (beBytes 9 w0 ++ beBytes 9 (s.reg (Key.HISTORY (2 * i + 1))))
        (some ((n + 2 ^ 32 - k + j + 1) % 2 ^ 32))) s1).updMgmt (fun m => { m with hist := n })

/-! ## Records (R511, R515) -/

/-- Records that the log region holds (R510, R511). -/
def Nor.slots (n : Nor) : Nat := 32 * n.sectors

/-- Bytes 0 to 15 of a record (R511). -/
def logHead (seq : Nat) (r : LogReq) (flags : Nat) : List Nat := beBytes 4 seq ++ beBytes 8 r.ct ++ [r.kind, flags] ++ beBytes 2 r.code

/-- The 128 bytes of a record (R511). -/
def logBytes (seq : Nat) (r : LogReq) (flags prev : Nat) : List Nat :=
  let body := logHead seq r flags ++ (r.payload ++ List.replicate 76 0).take 76
    ++ beBytes 32 prev
  body ++ beBytes 4 (crc32c body)

/-- PREV of record `seq`: the hash of the record before (R511). -/
def Nor.prevHash (n : Nor) (seq : Nat) : Nat :=
  if seq = 0 then Config.firstPrev.toNat else sha256 (Map.get (fun _ => []) n.log ((seq - 1) % n.slots))

/-- Programs a record at the write point: on entering a sector it is erased first, and LOG_FIRST_SEQ passes what it held (R511, R515). -/
def Nor.program (n : Nor) (bytes : List Nat) : Nor :=
  let k := n.next
  let n1 := if k % 32 = 0 ∧ n.slots ≤ k then
      { n with first := k - n.slots + 32, log := n.log.filter (fun e => decide (e.1 < k % n.slots) || decide (k % n.slots + 32 ≤ e.1)) }
    else n
  { n1 with log := Map.put (fun _ => []) n1.log (k % n.slots) bytes, next := k + 1 }

/-- Can an anchor be signed: K_log is present and not destroyed (R515, R534)? -/
def State.canSign (s : State) : Bool := s.otp.klog.isSome && s.reg Key.LIFECYCLE != 4

/-- The anchor: r and s of its signature under K_log, over the hash of bytes 0–15 and PREV (R515); the signature's random number is the unit's
own and free (log 13). -/
def State.anchorBytes (s : State) : List Nat :=
  let n := s.nor.next
  let prev := s.nor.prevHash n
  let e := sha256 (logHead n ⟨s.ct, 0x10, 0, [], none⟩ 1 ++ beBytes 32 prev)
  let g := ecdsaSign (s.otp.klog.getD 0) e (1 + (Config.anchorNonce s.free).toNat % (ecN - 1))
  logBytes n ⟨s.ct, 0x10, 0, beBytes 32 g.1 ++ beBytes 32 g.2, none⟩ 1 prev

/-- Is there a record to program? -/
def State.logDue (s : State) : Bool := s.calderaUp && s.nor.ok && ((s.mgmt.anchorDue && s.canSign) || !s.mgmt.queue.isEmpty)

/-- Firmware programs the next log record: an anchor that is due, else the oldest in the queue; when room has returned after losses, one
record tells them (R511–R515). -/
def execLogProgram (s : State) : Res :=
  whenOn s <| .next (if ¬ s.calderaUp then s
    else if ¬ s.nor.ok then s.raise 0x14 4
    else if s.mgmt.anchorDue ∧ s.canSign then
      let k := s.nor.next
      let s1 := { s.updNor (fun n => n.program s.anchorBytes) with free := s.free + 1 }
      (s1.updMgmt (fun m => { m with anchorDue := false, since := 0 })).calderaEvent 0x20 k
    else match s.mgmt.queue with
      | [] => s
      | r :: rest =>
        let n := s.nor.next
        let s1 := s.updNor (fun x => { (x.program (logBytes n r 0 (x.prevHash n))) with hist := r.mark.getD x.hist })
        let s2 := s1.updMgmt (fun m => { m with
          queue := rest, since := m.since + 1, anchorDue := m.anchorDue || decide (s.reg Key.LOG_ANCHOR_EVERY ≤ m.since + 1) })
        if 0 < s2.mgmt.owed then
          let n := s2.mgmt.owed
          ((s2.updMgmt (fun m => { m with owed := 0 })).logAdd 0x07 0 (beBytes 4 n)).calderaEvent 0x21 n
        else s2)

/-! ## The window (R516) -/

/-- The record `seq` as the window shows it: 0xFF where the log does not hold it. -/
def State.windowRecord (s : State) (seq : Nat) : List Nat :=
  if s.nor.first ≤ seq ∧ seq < s.nor.next then Map.get (fun _ => []) s.nor.log (seq % s.nor.slots) else List.replicate 128 0xFF

/-- Word `w` of LOG_WINDOW (R516). -/
def State.windowWord (s : State) (w : Nat) : Nat :=
  let k := s.reg Key.LOG_WINDOW_SEQ
  ofBytes ((List.range 9).map (fun j =>
    let b := 9 * w + j
    if b < 8192 then (s.windowRecord (k + b / 128)).getD (b % 128) 0 else 0)).reverse

/-- May LOG_WINDOW_SEQ be `v` (R516)? -/
def State.windowRange (s : State) (v : Nat) : Bool := decide (s.nor.first ≤ v) && decide (v < s.nor.next)

end Sys2Proof.Machine
end

