-- ==== Sys2Proof/Machine/Faults.lean ====
section
/-! DEFINITION. The Fault Collector: arrivals, collection order, escalation, first-fault record, history, reactions, clearing and
injection (R478-R503). -/

namespace Sys2Proof.Machine

/-- Changes the Collector's own record. -/
def State.updFaults (s : State) (f : Faults → Faults) : State := { s with faults := f s.faults }

/-! ## Reactions in force (R488, R489, R497) -/

/-- REACTION of a source with CLASS_REACT of a raised class: INT 32, NMI 16, BLOCK_RESET 8, CHIP_RESET 4, ERR_PIN 2, FIRE_INHIBIT 1;
BLOCK_RESET is not taken where there is no block to reset (R488, R489). -/
def State.reactions (s : State) (k : Nat) : Nat :=
  let r := bits (s.reg (0x2A1000 + k)) 29 24
  let r1 := if 0 < (s.src k).up then Nat.lor r (s.reg (Key.CLASS_REACT (s.srcClass k)) % 64) else r
  if srcNoBlock k then setBit r1 3 false else r1

/-- Reactions of an arrival: one that is only injected takes INT in place of resets outside FACTORY (R497). -/
def State.arrivalReactions (s : State) (k : Nat) (real : Bool) : Nat :=
  let r := s.reactions k
  if real ∨ s.reg Key.LIFECYCLE = 1 ∨ (¬ bit r 3 ∧ ¬ bit r 2) then r
  else setBit (setBit (setBit r 3 false) 2 false) 5 true

/-- ERR_N is held low (R490, R493). -/
def State.errLow (s : State) : Bool := (List.range 256).any (fun k => (s.src k).status && bit (s.reactions k) 1)

/-- FAULT_SUMMARY (R500). -/
def State.faultSummary (s : State) : Nat :=
  nsum ((List.range 4).map (fun c => b2n ((List.range 256).any (fun k => (s.src k).status && s.srcClass k == c)) * 2 ^ c))

/-- STATUS_MAP word `k` (R500). -/
def State.statusMap (s : State) (k : Nat) : Nat := nsum ((List.range 64).map (fun j => b2n (s.src (64 * k + j)).status * 2 ^ j))

/-- SRC_STATE (R503). -/
def State.srcState (s : State) (k : Nat) : Nat :=
  let r := s.src k
  if ¬ srcExists s.nPorts k then 0
  else
    fld (srcBase k) 2 14 + fld (s.srcClass k) 2 12 + b2n r.status * 2 ^ 11 + b2n (!r.causes.isEmpty) * 2 ^ 10 + b2n (srcCond k) * 2 ^ 9
      + b2n (s.reg Key.INJ_PENDING == 256 + k) * 2 ^ 8 + (if r.winOpen then fld (min 15 r.winCount) 4 4 else 0) + 8

/-! ## Arrivals (R478–R488) -/

/-- One arrival: source, DETAIL, whether real and whether injected, and once escalated its class and ESC (R478, R484, R498). -/
structure Arrival where
  src : Nat
  detail : Nat
  real : Bool
  inj : Bool
  cls : Nat := 0
  esc : Bool := false
deriving DecidableEq, Repr

/-- Raises of one source on one cycle merge (R478, R498). -/
def mergeRaise (r : Raise) : List Arrival → List Arrival
  | [] => [{ src := r.src, detail := r.detail, real := !r.inj, inj := r.inj }]
  | a :: l =>
    if a.src = r.src then { a with detail := min a.detail r.detail, real := a.real || !r.inj, inj := a.inj || r.inj } :: l
    else a :: mergeRaise r l

/-- Escalation by an arrival that counts (R486). -/
def State.escalate (s : State) (k : Nat) : State × Bool :=
  let cfg := s.reg (0x2A1000 + k)
  let n := bits cfg 23 20
  let r := s.src k
  if n = 0 ∨ 2 ≤ s.srcClass k then (s, false)
  else
    let opened := r.winOpen && decide (s.ct < r.winStart + bits cfg 15 0 * 500000)
    let start := if opened then r.winStart else s.ct
    let cnt := (if opened then r.winCount else 0) + 1
    if n ≤ cnt then (s.updSrc k (fun r => { r with up := r.up + 1, winOpen := false, winStart := start, winCount := cnt }), true)
    else (s.updSrc k (fun r => { r with winOpen := true, winStart := start, winCount := cnt }), false)

/-- Does an arrival count toward escalation: a real one, or in FACTORY (R486)? -/
def State.arrivalCounts (s : State) (a : Arrival) : Bool := a.real || s.reg Key.LIFECYCLE == 1

/-- Every arrival of a cycle escalates its source and takes its recorded class (R479, R486). -/
def State.escalateAll (s : State) (l : List Arrival) : State × List Arrival :=
  l.foldl (fun (a : State × List Arrival) x =>
    let c := a.1.arrivalCounts x
    let e := if c then a.1.escalate x.src else (a.1, false)
    let s1 := e.1.updSrc x.src (fun r => { r with lastArr := some (s.clk, c) })
    (s1, a.2 ++ [{ x with cls := s1.srcClass x.src, esc := e.2 }])) (s, [])

/-- Collection order (R479). -/
def collect (l : List Arrival) : List Arrival :=
  l.insertionSort (fun a b => b.cls < a.cls ∨ (a.cls = b.cls ∧ (b.real < a.real ∨ (a.real = b.real ∧ a.src ≤ b.src))))

/-- The two words of a history entry (R484). -/
def State.entryWords (s : State) (a : Arrival) (lost : Bool) : Nat × Nat :=
  (fld s.ct 64 8 + fld a.src 8 0,
   fld s.derived 48 24 + fld a.cls 2 22 + b2n a.real * 2 ^ 21 + b2n a.inj * 2 ^ 20 + b2n lost * 2 ^ 19 + b2n a.esc * 2 ^ 18 + fld a.detail 16 0)

/-- Is a batch write in progress on this cycle (R482, R483)? -/
def State.batchBusy (s : State) : Bool := s.faults.batch.any (fun b => decide (s.clk < b.clk + 4))

/-- Is a batch of an earlier cycle being written, to which the entries of this one are lost (R483)? -/
def State.batchLate (s : State) : Bool := s.faults.batch.any (fun b => decide (b.clk < s.clk) && decide (s.clk < b.clk + 4))

/-- The arrivals of a cycle start a batch, or are lost to the one in progress (R482, R483); those that come with a second FAULT_ARRIVAL of the cycle
join its batch behind the first (log 52). -/
def State.record (s : State) (l : List Arrival) : State :=
  if s.batchLate then
    (s.addReg Key.HIST_LOST l.length).updFaults (fun f => { f with lostMark := true })
  else
    let es := l.zipIdx.map (fun e => s.entryWords e.1 (s.faults.lostMark && e.2 == 0))
    let before := ((s.faults.batch.filter (fun b => b.clk = s.clk)).map Batch.entries).getD []
    s.updFaults (fun f => { f with batch := some ⟨s.clk, before ++ es, false⟩, lostMark := false })

/-- STATUS, count and event of one arrival; its reactions follow when the clock ends (R480, R488). -/
def State.react (hlost : Bool) (a : Arrival) (s : State) : State :=
  let k := a.src
  let s1 := (s.updSrc k (fun r => { r with status := true, latched := r.latched || srcBase k == 3 })).inc (0x2A1200 + k)
  let s2 := if a.inj then s1.inc Key.INJ_COUNT else s1
  let s3 := if srcBase k = 3 then s2.updFaults (fun f => { f with lastGrave := some k }) else s2
  let s4 := s3.updFaults (fun f => { f with now := f.now ++ [(k, a.real)] })
  let s5 := (s4.pmc 0x0D (2 ^ a.cls) 1).traceRec 0x04 (fld k 8 48 + fld a.cls 2 46 + b2n a.real * 2 ^ 45 + b2n a.inj * 2 ^ 44)
  if s5.reg Key.EVENT_FLOOR ≤ a.cls then
    s5.event (3 - a.cls) k (fld a.detail 16 16 + b2n a.real * 2 ^ 15 + b2n a.inj * 2 ^ 14 + b2n a.esc * 2 ^ 13 + b2n hlost * 2 ^ 12)
  else s5

/-- The reactions in force of an arrival are issued (R488). -/
def State.issue (s : State) (e : Nat × Bool) : State :=
  let k := e.1
  let r := s.arrivalReactions k e.2
  let up := s.calderaUp
  let tell := fun (b nmi : Bool) (s : State) => if b && up then s.emit (.trap nmi k) else s
  let s1 := (tell (bit r 4) true (tell (bit r 5) false s)).updFaults (fun f => { f with
    irq := if bit r 5 && !up then f.irq ++ [k] else f.irq
    nmi := if bit r 4 && !up then f.nmi ++ [k] else f.nmi
    resets := f.resets ++ (if bit r 3 then [.block k] else []) ++ (if bit r 2 then [.chip] else []) })
  if bit r 0 then s1.fireInhibit else s1

/-- The reactions of the arrivals of a clock are issued in collection order when it ends, so that they are those that a write of SRC_CONFIG of
the clock sets (R488, R499). -/
def State.reactionsNow (s : State) : State :=
  if s.faults.now.isEmpty then s else s.faults.now.foldl State.issue (s.updFaults (fun f => { f with now := [] }))

/-- FIRST_FAULT takes an arrival's entry (R481). -/
def State.putFirst (s : State) (w : Nat × Nat) : State :=
  ((s.setReg (Key.FIRST_FAULT 0) w.1).setReg (Key.FIRST_FAULT 1) w.2).setReg Key.FIRST_VALID 1

/-- FIRST_FAULT takes the first arrival since it was cleared (R481). -/
def State.first (s : State) (a : Arrival) : State :=
  let w := s.entryWords a false
  let s1 := if s.faults.firstNow.any (fun e => e.1 = s.clk) then s
    else s.updFaults (fun f => { f with firstNow := some (s.clk, w.1, w.2) })
  if s.flag Key.FIRST_VALID then s1 else s1.putFirst w

/-- The raises of a cycle that stand: sources that exist, and of injections only the one pending, armed before this cycle (R495, R499). -/
def State.standing (s : State) (l : List Raise) : List Raise :=
  l.filter (fun r => srcExists s.nPorts r.src
    && (!r.inj || (s.reg Key.INJ_PENDING == 256 + r.src && s.faults.injAt.all (fun t => decide (t < s.ct)))))

/-- The raises of a cycle arrive at the Collector: those of the unit's blocks and `raises` of checkers outside the other commands
(R478–R488, R495); the reactions are issued when the clock ends, here when no other command waits. -/
def execFaultArrival (raises : List RaiseIn) (s : State) : Res :=
  let l := s.standing (s.faults.raised ++ raises.map (fun r => ⟨r.src.val, r.detail.toNat, r.inj⟩))
  let s0 := s.updFaults (fun f => { f with raised := [] })
  whenOn s <| .next (if l.isEmpty then s0
    else
      let s1 := if l.any Raise.inj then (s0.setReg Key.INJ_PENDING 0xFF).updFaults (fun f => { f with injAt := none }) else s0
      let e := s1.escalateAll (l.foldl (fun a r => mergeRaise r a) [])
      let o := collect e.2
      let lost := e.1.batchLate
      let s2 := (match o.head? with
        | none => e.1
        | some a => e.1.first a).record o
      let s3 := o.foldl (fun s a => s.react lost a) s2
      if s3.pending.isEmpty then s3.reactionsNow else s3)

/-- The batch is written: entries in the ring, HIST_COUNT (R482); firmware copies them to the log (R513). -/
def execHistBatchWrite (s : State) : Res :=
  whenOn s <| .next (match s.faults.batch with
    | none => s
    | some b =>
      if b.written ∨ s.clk < b.clk + 3 then s
      else
        let n := s.reg Key.HIST_COUNT
        let s1 := b.entries.zipIdx.foldl (fun s e =>
          let i := (n + e.2) % 16
          (s.setReg (Key.HISTORY (2 * i)) e.1.1).setReg (Key.HISTORY (2 * i + 1)) e.1.2) s
        ((s1.addReg Key.HIST_COUNT b.entries.length).updFaults (fun f => { f with batch := some { b with written := true } })).histCopy)

/-- May a reset that a reaction asked for begin: is its record written, or the batch that displaced it (R488)? -/
def State.recordDone (s : State) : Bool := s.faults.batch.all Batch.written

/-! ## Clearing (R481, R485, R492, R493) -/

/-- May source `k` be cleared (R492)? -/
def State.clearable (s : State) (k : Nat) : Bool := srcBase k != 3 && !(srcCond k && !(s.src k).causes.isEmpty)

/-- Clears source `k`. An arrival of this very clock wins (R492): STATUS stays, and the window opens with it at count 1. -/
def State.clearSrc (k : Nat) (s : State) : State :=
  match (s.src k).lastArr.filter (fun a => a.1 = s.clk) with
  | some a => s.updSrc k (fun r => { r with up := 0, winOpen := a.2, winStart := s.ct, winCount := b2n a.2 })
  | none => s.updSrc k (fun r => { r with status := false, up := 0, winOpen := false, winCount := 0 })

/-- FAULT_CLEAR `v` (R492). -/
def State.faultClear (s : State) (v : Nat) : State :=
  if v = 0xFFFF then s.forEach ((List.range 256).filter s.clearable) State.clearSrc else State.clearSrc v s

/-- FIRST_CLEAR acts before the arrivals of its clock, of which the first becomes FIRST (R481). -/
def State.firstClear (s : State) : State :=
  match s.faults.firstNow.filter (fun e => e.1 = s.clk) with
  | some e => s.putFirst e.2
  | none => s.setReg Key.FIRST_VALID 0

/-- Every history entry is emptied (R485). -/
def State.emptyHistory (s : State) : State :=
  (s.forEach (List.range 32) (fun i s => s.setReg (Key.HISTORY i) 0)).updFaults (fun f => { f with clearWait := false })

/-- HIST_CLEAR: now, or when the batch write in progress has ended (R485). -/
def State.histClear (s : State) : State := if s.batchBusy then s.updFaults (fun f => { f with clearWait := true }) else s.emptyHistory

/-- The tick's part: a waiting HIST_CLEAR on the first cycle without a batch write (R485). -/
def State.faultTick (s : State) : State := if s.faults.clearWait ∧ ¬ s.batchBusy then s.emptyHistory else s

/-! ## Injection (R495, R496) -/

/-- An accepted INJECT (R495). -/
def State.injectArm (s : State) (k : Nat) : State :=
  (s.setReg Key.INJ_PENDING (256 + k % 256)).updFaults (fun f => { f with injAt := some s.ct })

/-- Is an injection pending? -/
def State.injPending (s : State) : Bool := s.reg Key.INJ_PENDING != 0xFF

/-- Does the lifecycle state refuse an injection of source `k` (R496)? -/
def State.injRefused (s : State) (k : Nat) : Bool :=
  match s.reg Key.LIFECYCLE with
  | 1 => false
  | 2 => decide (2 ≤ srcBase k)
  | 3 => decide (2 ≤ srcBase k)
  | _ => true

/-- Has a pending injection stood 1 s of chain time unused (R495)? -/
def State.injDue (s : State) : Bool := s.injPending && s.faults.injAt.any (fun t => decide (t + 500000000 ≤ s.ct))

/-- An unused injection expires (R495). -/
def execInjectExpire (s : State) : Res :=
  whenOn s <| .next (if s.injDue then
    ((s.setReg Key.INJ_PENDING 0xFF).inc Key.INJ_EXPIRED).updFaults (fun f => { f with injAt := none })
  else s)

/-- Is SRC_CONFIG `v` of source `k` in range (R486, R487, R489)? -/
def srcConfigRange (k v : Nat) : Bool :=
  let r := bits v 29 24
  !(srcBase k == 3 && r != 0x13) && !(srcNoBlock k && bit r 3) && !(decide (2 ≤ srcBase k) && bits v 23 20 != 0) && bits v 15 0 != 0

end Sys2Proof.Machine
end

