-- ==== Sys2Proof/Machine/Slots.lean ====
section
/-! DEFINITION. Fire slots: what comes on the clock of a fire instant is judged when that clock ends, after everything else that falls on it
(R22, R26, R194-R203, R239, R288, R305, R313). -/

namespace Sys2Proof.Machine

/-! ## The end of a clock -/

/-- The phase of this clock at which a deferred slot is decided and a fire instant falls, of those that came (R194, R199). -/
def State.firesAt (s : State) (p ph : Nat) : Bool := (s.port p).evaluates && s.firePhase p == some ph
def State.decidesAt (s : State) (p ph : Nat) : Bool := (s.port p).deferred.isSome && s.deferPhase p == some ph

/-- Does port `p` on this clock call for the fire inhibit of HALT (R199, R241)? -/
def State.haltsNow (s : State) (p : Nat) : Bool :=
  (s.port p).fireNow.any (fun e => s.firesAt p e.1 && !(s.port p).isHeld && s.slotHalts p (s.at8 e.1))
  || (s.port p).deferNow.any (fun e => s.decidesAt p e.1 && (s.port p).missingDrop.any (fun c => c.policy == 2))

/-- A decision on a deferred slot that came on this clock (R199, R203). -/
def State.decideNow (p : Nat) (s : State) (e : Nat × List Nat) : State :=
  match (s.port p).deferred with
  | some d => if s.decidesAt p e.1 then s.deferDecide p d.tg8 (s.at8 e.1) e.2 else s
  | none => s

/-- A fire instant that came on this clock (R194). -/
def State.instantNow (p : Nat) (s : State) (e : Nat × List Nat) : State :=
  if s.firesAt p e.1 then s.fireInstant p (s.at8 e.1) e.2 else s

/-- What came for port `p` on this clock: a deferred slot first, then the next one (R203), an idle tickle, a start of screening. -/
def State.settleSlots (p : Nat) (s : State) : State :=
  let r := s.port p
  let s1 := s.updPort p (fun r => { r with fireNow := [], deferNow := [], tickleNow := none, scrNow := [] })
  let s2 := r.fireNow.foldl (State.instantNow p) (r.deferNow.foldl (State.decideNow p) s1)
  let s3 := match r.tickleNow with
    | some sense => s2.tickle p sense
    | none => s2
  r.scrNow.foldl (fun s x => s.startScreening p x.1 x.2) s3

/-- Has something come for port `p` on this clock that is judged when it ends? -/
def Port.waits (r : Port) : Bool := !r.fireNow.isEmpty || !r.deferNow.isEmpty || r.tickleNow.isSome || !r.scrNow.isEmpty || r.ending

/-- The end of a core clock: the reactions to its faults come first (R488); then the cameras and the pipeline (R388, R403), the moves of calibrations (R336, R349); slots that call for HALT are dropped and the fire inhibit is set, which withholds every other slot of the clock
(R203); then the others fire, defer or drop, and ports disarmed on this clock go on to their clear latch (R288). -/
def State.clockEnd (s : State) : State :=
  let s := (((s.reactionsNow).forEach [0, 1] State.camEnd).pipeEnd).forEach (List.range s.nGroups) State.calEnd
  let l := (List.range s.nPorts).filter (fun p => (s.port p).waits)
  let h := l.filter s.haltsNow
  let s1 := s.forEach h State.settleSlots
  let s2 := if h.isEmpty then s1 else s1.fireInhibit
  (s2.forEach l State.settleSlots).forEach l State.endPort

/-- The clock ends here when no other command waits: those that wait fall on the same clock (log 22). -/
def State.lastOfClock (s : State) : State := if s.pending.isEmpty then s.clockEnd else s

/-! ## Commands -/

/-- A port's fire instant arrives (R194–R203, R284–R288, R312). -/
def execFireSlot (port : Fin 16) (phase : Fin 8) (sense : List Nat) (s : State) : Res :=
  whenClocked s <| onPort port s (s.updPort port (fun r => { r with fireNow := r.fireNow ++ [(phase.val, sense)] })).lastOfClock

/-- A deferred slot fires or is dropped at the first instant that meets the minimum period and shipping (R199, R203). -/
def execDeferredFire (port : Fin 16) (phase : Fin 8) (sense : List Nat) (s : State) : Res :=
  whenClocked s <| onPort port s (s.updPort port (fun r => { r with deferNow := r.deferNow ++ [(phase.val, sense)] })).lastOfClock

/-- An idle tickle of a port falls due (R305). -/
def execIdleTickle (port : Fin 16) (sense : List Nat) (s : State) : Res :=
  whenClocked s <| onPort port s (s.updPort port (fun r => { r with tickleNow := some sense })).lastOfClock

/-- Screening of a port's slot begins (R22, R239, R250). -/
def execScreeningStart (port : Fin 16) (asmDone : Bool) (tableErr : List (Nat × Nat)) (s : State) : Res :=
  whenClocked s <| onPort port s (s.updPort port (fun r => { r with scrNow := r.scrNow ++ [(asmDone, tableErr)] })).lastOfClock

/-- A measurement round ends, not before its sweep is through: the sums of the sweep, and S_lo, S_hi and how many conversions read 0 or 4095
(R338–R345, R349). -/
def execCalRoundDone (group : Fin 4) (sums : List Nat) (refs : List Nat) (s : State) : Res :=
  whenClocked s <| onGroup group s (if s.roundOver group then (s.updCal group (fun r => { r with roundNow := some (sums, refs) })).lastOfClock
    else s)

end Sys2Proof.Machine
end

