-- ==== Sys2Proof/Machine/Caldera.lean ====
section
/-! DEFINITION. Caldera: restart and boot, rail and clock monitors, firmware images, commit records, update, and what it stores for
the unit (R87, R136, R348, R504-R528). -/

namespace Sys2Proof.Machine

/-! ## Firmware images (R517, R518) -/

/-- Byte `i` of a bank; 0xFF where nothing is programmed (R115, R517). -/
def FwBank.byte (b : FwBank) (i : Nat) : Nat :=
  match Map.get (fun _ => none) b.words (i / 9) with
  | some w => bits w.toNat (8 * (i % 9) + 7) (8 * (i % 9))
  | none => 0xFF

/-- `n` bytes of a bank. -/
def FwBank.bytes (b : FwBank) (off n : Nat) : List Nat := (List.range n).map (fun i => b.byte (off + i))

/-- Bank A (0) or B (1). -/
def State.fwBank (s : State) (b : Nat) : FwBank := Map.get (fun _ => {}) s.nor.banks b

/-- Bit of this part in PARTS (R517). -/
def Part.bit : Part → Nat
  | .px7216 => 0 | .px7208 => 1 | .px7204 => 2

/-- A 32-bit field of a header (R517). -/
def hdr32 (h : List Nat) (o : Nat) : Nat := ofBytes ((h.drop o).take 4)

/-- The first check of R518 that an image of `staged` bytes fails, or 0. -/
def State.imageCheck (s : State) (staged : Nat) (bytes : Nat → Nat → List Nat) : Nat :=
  let h := bytes 0 512
  let n := hdr32 h 16
  if h.length < 512 ∨ hdr32 h 0 ≠ 0x50584657 ∨ hdr32 h 4 ≠ 1 ∨ (h.drop 188).any (· ≠ 0) then 1
  else if ¬ bit (hdr32 h 24) s.ident.part.bit then 2
  else if n = 0 ∨ 786432 < n ∨ staged < 512 + n then 3
  else if s.otp.vendor ≠ some (sha256 ((h.drop 60).take 64)) then 4
  else if ¬ ecdsaVerify (ofBytes ((h.drop 60).take 32)) (ofBytes ((h.drop 92).take 32)) (sha256 (h.take 124)) (ofBytes ((h.drop 124).take 32))
      (ofBytes ((h.drop 156).take 32)) then 5
  else if ofBytes ((h.drop 28).take 32) ≠ sha256 (bytes 512 n) then 6
  else if hdr32 h 8 < s.otp.floor then 7
  else 0

/-- The first check that a bank fails, or 0. -/
def State.bankCheck (s : State) (b : Nat) : Nat := s.imageCheck (9 * (s.fwBank b).len) (s.fwBank b).bytes

/-- Header fields and hash of a bank. -/
def State.bankSvn (s : State) (b : Nat) : Nat := hdr32 ((s.fwBank b).bytes 8 4) 0
def State.bankVersion (s : State) (b : Nat) : Nat := hdr32 ((s.fwBank b).bytes 12 4) 0
def State.bankHash (s : State) (b : Nat) : Nat := sha256 ((s.fwBank b).bytes 0 512)

/-- BANK_SVN and BANK_VERSION of bank `b` (R527). -/
def State.reportBank (b : Nat) (s : State) : State :=
  if s.bankCheck b = 0 then (s.setReg (Key.BANK_SVN b) (s.bankSvn b)).setReg (Key.BANK_VERSION b) (s.bankVersion b)
  else (s.setReg (Key.BANK_SVN b) 0xFF).setReg (Key.BANK_VERSION b) 0

/-- The bank that is not in use (R522); while a recovered image runs, the one that the newest commit record does not name (log 66). -/
def State.idleBank (s : State) : Nat :=
  let k := s.reg Key.FW_BANK
  if k < 2 then 1 - k else 1 - ((s.nor.commits.head?).map CommitRec.bank).getD 1

/-! ## Update state (R523, R528) -/

/-- UPDATE_STATE changes: an update record is logged and an event sent (R512, R523, R526). `b` is the bank of the image concerned. -/
def State.updateState (s : State) (st b : Nat) : State :=
  let s1 := s.setReg Key.UPDATE_STATE st
  let r := s1.reg Key.UPDATE_RESULT
  (s1.logAdd 0x04 st (beBytes 4 r ++ [b] ++ beBytes 1 (s1.bankSvn b) ++ beBytes 4 (s1.bankVersion b))).calderaEvent 0x10 (fld st 8 24 + r % 2 ^ 24)

/-- UPDATE_RESULT of an update that has finished: one more (R524, R528). -/
def State.updateResult (s : State) (outcome detail svn : Nat) : State :=
  s.setReg Key.UPDATE_RESULT (fld svn 8 24 + fld outcome 4 12 + fld detail 4 8 + (s.reg Key.UPDATE_RESULT + 1) % 256)

/-- A commit record is written (R520). -/
def State.commitRecord (s : State) (b : Nat) (trial other : Bool) (st : Nat) : State :=
  s.norWrite 0 (fun n => { n with
    commits := ⟨((n.commits.head?).map CommitRec.cseq).getD 0 + 1, b, trial, other, st, s.bankHash b⟩ :: n.commits.take 127 })

/-- Changes what a bank holds. -/
def State.updBank2 (s : State) (b : Nat) (f : FwBank → FwBank) : State :=
  s.norWrite (2 + b) (fun n => { n with banks := Map.upd (fun _ => {}) n.banks b f })

/-- DOM_OPEN of FW_IMAGE: the header sector of the inactive bank is erased (R522, R523). -/
def State.imageOpen (s : State) (len : Nat) : State :=
  let b := s.idleBank
  let s1 := (s.updBank2 b (fun _ => ⟨[], len, true⟩)).reportBank b
  (s1.setReg Key.UPDATE_RESULT (s.reg Key.UPDATE_RESULT % 256)).updateState 1 b

/-- Words of FW_IMAGE are programmed as they arrive (R522). -/
def State.imageWrite (s : State) (off : Nat) (ws : List Nat) : State :=
  s.updBank2 s.idleBank (fun k => { k with
    words := ws.zipIdx.foldl (fun m e => Map.put (fun _ => none) m (off + e.2) (some (BitVec.ofNat 72 e.1))) k.words })

/-- DOM_COMMIT of FW_IMAGE (R522). -/
def State.imageStaged (s : State) : State := s.updateState 2 s.idleBank

/-- The staged image is no longer an update in progress. -/
def State.endStaging (s : State) : State := s.updBank2 s.idleBank (fun k => { k with staging := false })

/-- INSTALL (R523, R524). -/
def State.updateInstall (s : State) : State :=
  let b := s.idleBank
  let s1 := s.updateState 3 b
  let c := s1.bankCheck b
  if c ≠ 0 then ((s1.updateResult 3 c (s1.bankSvn b)).endStaging).updateState 0 b
  else
    let s2 := (s1.setReg Key.UPDATE_RESULT (fld (s1.bankSvn b) 8 24 + s1.reg Key.UPDATE_RESULT % 256)).updateState 4 b
    (((s2.commitRecord b true false 0).endStaging).reportBank b).updateState 5 b

/-- ACTIVATE: ACTIVATE_PENDING, and the restart with cause 5 (R523). -/
def State.updateActivate (s : State) : State := s.updMgmt (fun m => { m with actPending := true, restartDue := some 5 })

/-- The new ROLLBACK_FLOOR: the smaller of the SVNs of the banks that verify (R519). -/
def State.newFloor (s : State) : Nat :=
  let l := ([0, 1].filter (fun b => s.bankCheck b = 0)).map s.bankSvn
  min 64 ((l.min?).getD 0)

/-- Burns ROLLBACK_FLOOR in both copies; a burned bit stays burned (R519, R535). -/
def State.burnFloor (s : State) (v : Nat) : State :=
  let n := max s.otp.floor v
  { s.setReg Key.ROLLBACK_FLOOR n with otp := { s.otp with floor := n }, otp2 := { s.otp2 with floor := n } }

/-- CONFIRM (R523). -/
def State.updateConfirm (s : State) : State :=
  let b := s.reg Key.FW_BANK
  let s1 := s.commitRecord b false false 0
  let s2 := (s1.burnFloor s1.newFloor).updMgmt (fun m => { m with trialAt := none, confirmAt := some s.clk })
  (s2.updateResult 1 0 (s2.bankSvn b)).updateState 0 b

/-- An update is aborted with DETAIL `d` (R524). -/
def State.abortUpdate (s : State) (d : Nat) : State :=
  let b := s.idleBank
  let k := s.reg Key.FW_BANK
  match s.reg Key.UPDATE_STATE with
  | 6 =>
    let s1 := (s.commitRecord (1 - k) false true 0).updMgmt (fun m => { m with trialAt := none, restartDue := some 6 })
    (s1.updateResult 2 d (s1.bankSvn k)).updateState 0 k
  | 4 => (((s.commitRecord k false true 0).updateResult 2 d (s.bankSvn b)).endStaging).updateState 0 b
  | 5 => (((s.commitRecord k false true 0).updateResult 2 d (s.bankSvn b)).endStaging).updateState 0 b
  | _ => (((s.updBank2 b (fun _ => {})).reportBank b).updateResult 2 d 0).updateState 0 b

/-- ABORT from the host; one sampled after the final commit record has begun finds the update DONE (R524). -/
def State.updateAbort (s : State) : State :=
  if s.reg Key.UPDATE_STATE = 0 then s.setRegBit Key.UPDATE_RESULT 19 true else s.abortUpdate 1

/-- May ABORT be written now (R524)? -/
def State.abortOk (s : State) : Bool :=
  let st := s.reg Key.UPDATE_STATE
  (decide (1 ≤ st) && decide (st ≤ 6)) || (st == 0 && s.mgmt.confirmAt == some s.clk)

/-- Has a trial stood TRIAL_TIMEOUT without CONFIRM (R524)? -/
def State.trialOver (s : State) : Bool :=
  s.calderaUp && s.reg Key.UPDATE_STATE == 6 && s.mgmt.trialAt.any (fun t => decide (t + s.reg Key.TRIAL_TIMEOUT * 500000 ≤ s.clk))

/-- TRIAL_TIMEOUT passes (R524). -/
def execTrialTimeout (s : State) : Res := whenOn s <| .next (if s.trialOver then s.abortUpdate 2 else s)

/-! ## Restart and boot (R504, R505, R521) -/

/-- A restart begins (R504, R505): the processor, its SRAM, its interrupts and the flash operation in progress are reset, and nothing
else. -/
def State.restartNow (s : State) (cause : Nat) : State :=
  let s1 := (((s.fwDown).setReg Key.CALDERA_STATE 1).inc Key.CALDERA_RESTARTS).setReg Key.RESTART_CAUSE cause
  { s1.updMgmt (fun m => { m with
      restartDue := none, queue := [], lost := 0, owed := 0, since := 0, anchorDue := false, trialAt := none, confirmAt := none
      image := if cause = 7 then m.image else none }) with
    dict := { s1.dict with floorWrite := none } }

/-- Caldera cannot start while its PLL is unlocked (R508). -/
def State.calderaClocked (s : State) : Bool := !bit (s.reg Key.CLOCK_STATUS) 4

/-- The seal floor is established where SEAL_FLOOR reads 0 (R136, R137). -/
def State.bootFloor (s : State) : State :=
  if s.reg Key.SEAL_FLOOR ≠ 0 ∨ ¬ s.nor.ok then s
  else
    let f := s.nor.floor.getD 1024
    let n := min (f + 1024) 0xFFFFFC00
    ((s.updNor (fun x => { x with floor := some n })).setReg Key.SEAL_LAST (f - 1)).setReg Key.SEAL_FLOOR n

/-- The bank that the boot ROM boots, and whether as a trial (R521). -/
def State.pickBank (s : State) : State × Option (Nat × Bool) :=
  let ok := fun b => decide (s.bankCheck b = 0)
  match s.nor.commits.head? with
  | none => (s, if ok 0 then some (0, false) else if ok 1 then some (1, false) else none)
  | some r =>
    let o := 1 - r.bank
    if ¬ r.trial then
      (s, if ok r.bank && decide (s.bankHash r.bank = r.hash) then some (r.bank, false) else if ok o then some (o, false) else none)
    else
      let s1 := s.updMgmt (fun m => { m with actPending := false })
      if s.mgmt.actPending ∧ ok r.bank then (s1, some (r.bank, true))
      else if ok o then (s1.commitRecord o false true 7, some (o, false))
      else (s1, none)

/-- The copies of CAL_SETS are written into the tables (R348, R557). -/
def State.restoreSets (g : Nat) (s : State) : State :=
  let saved := fun (w : Nat) => Map.get (fun _ => none) s.nor.sets (1024 * g + w)
  if (List.range 170).any (fun w => (saved w).isSome) then
    s.setTab (0x4500 + g) (tabOf ((List.range 170).map (fun w => ((saved w).map BitVec.toNat).getD (s.tabWord (0x4500 + g) w))))
  else s

/-- What a start finds of an update that a reset cut off: the inactive header erased, or a commit record of this fall-back (R525); after a reset that
cleared the objects the newest record's STATE is reported again (R520). -/
def State.resumeUpdate (s : State) (trial : Bool) (bank : Nat) : State :=
  let b := s.idleBank
  let st := s.reg Key.UPDATE_STATE
  if trial then (s.updMgmt (fun m => { m with trialAt := some s.clk })).updateState 6 bank
  else if (s.fwBank b).staging then
    ((((s.updBank2 b (fun _ => {})).reportBank b).updateResult 4 0 0)).updateState 7 b
  else if (s.nor.commits.head?).any (fun r => r.state == 7) ∧ (st = 5 ∨ st = 6 ∨ s.reg Key.RESTART_CAUSE ≤ 1) then (s.updateResult 4 0 (s.bankSvn b)).updateState 7 b
  else s

/-- Interrupts and traps held while Caldera was not running are delivered (R488). -/
def State.heldTraps (s : State) : State :=
  let s1 := s.faults.nmi.foldl (fun s k => s.emit (.trap true k)) s
  (s.faults.irq.foldl (fun s k => s.emit (.trap false k)) s1).updFaults (fun f => { f with irq := [], nmi := [] })

/-- Firmware runs (R505 step 4, R513, R526, R470, R488); a stored sticky address counts only with the unit's own serial number (R84). -/
def State.firmwareStart (s : State) (bank version svn : Nat) (trial : Bool) : State :=
  let cause := s.reg Key.RESTART_CAUSE
  let s1 := ((s.setReg Key.FW_BANK bank).setReg Key.FW_VERSION version).setReg Key.CALDERA_STATE 2
  let s2 := (s1.updMgmt (fun m => { m with anchorDue := true, wdtFrom := s.clk, hist := if cause = 0 then 0 else s.nor.hist, image := none })).calderaEvent 0x01
    (fld cause 8 24 + fld bank 8 16 + fld version 16 0)
  let s3 := (s2.logAdd 0x03 cause ([bank] ++ beBytes 4 version ++ beBytes 1 svn ++ beBytes 4 (s.reg Key.HIST_COUNT))).histCopy
  let s4 := match s3.nor.sticky with
    | some (a, n) => if n = s.ident.serial then s3.setReg Key.STICKY_ADDR a else s3
    | none => s3
  let s5 := if cause ≤ 1 then s4.forEach (List.range s4.nGroups) State.restoreSets else s4
  let s6 := (s5.heldTraps).dmaUnhold
  s6.resumeUpdate trial bank

/-- Neither bank verifies, or the flash cannot be read: Caldera halts (R505, R509). -/
def State.haltCaldera (s : State) (region : Nat) : State :=
  (((s.setReg Key.CALDERA_STATE 3).setReg Key.FW_BANK 0xFF).raise 0x14 region).calderaEvent 0x02 0

/-- The boot ROM has done its work: the floor, the bank, and firmware runs or Caldera halts (R505, R539); a floor that cannot be established is
reported (R136). -/
def execCalderaRunning (s : State) : Res :=
  whenOn s <| .next (if s.reg Key.CALDERA_STATE ≠ 1 ∨ ¬ s.calderaClocked then s
    else
      let s1 := s.bootFloor
      match s1.mgmt.image with
      | some img => (if s1.reg Key.SEAL_FLOOR = 0 then s1.raise 0x14 1 else s1).firmwareStart 0xFF (hdr32 img 12) (hdr32 img 8) false
      | none =>
        if ¬ s1.nor.ok then s1.haltCaldera 0
        else
          let s2 := (s1.reportBank 0).reportBank 1
          match s2.pickBank with
          | (s3, none) => s3.haltCaldera 2
          | (s3, some (b, trial)) => s3.firmwareStart b (s3.bankVersion b) (s3.bankSvn b) trial)

/-! ## Watchdog and monitors (R506–R508) -/

/-- Firmware has not serviced the watchdog for WDT_PERIOD: it has run at least that long (R506). -/
def execWdtExpire (s : State) : Res :=
  whenOn s <| .next (if (s.calderaUp ∨ s.mgmt.hostAt = some s.clk) ∧ s.mgmt.wdtFrom + 500000 * s.reg Key.WDT_PERIOD ≤ s.clk then
    (s.updMgmt (fun m => { m with wdtAt := some s.clk })).raise 0x11 0
  else s)

/-- Source of row `k` of the table of R507. -/
def railSource (k : Nat) : Nat := if k = 0 then 0x01 else 0x05 + k

/-- A supply stands outside its trip limits for its filter time (R507). -/
def execRailTrip (row : Fin 9) (s : State) : Res :=
  whenOn s <| .next ((s.setRegBit Key.RAIL_STATUS row true).cause (railSource row) 0 true 0)

/-- A supply stands inside the narrower limits for 100 µs (R507). -/
def execRailRecover (row : Fin 9) (s : State) : Res :=
  whenOn s <| .next ((s.setRegBit Key.RAIL_STATUS row false).cause (railSource row) 0 false 0)

/-- Source of row `k` of the table of R508. -/
def clockSource (k : Nat) : Nat := if k = 0 then 0x02 else if k = 1 then 0x05 else 0x0C + k

/-- A clock condition begins; Caldera stops while its own PLL is unlocked (R508). -/
def execClockFail (row : Fin 5) (s : State) : Res :=
  whenOn s <| .next (let s1 := (s.setRegBit Key.CLOCK_STATUS row true).cause (clockSource row) 0 true 0
    if row.val = 4 then (s1.fwDown).setReg Key.CALDERA_STATE 0 else s1)

/-- The condition has been absent for 1 ms; Caldera restarts with cause 8 when its PLL is locked again (R508). -/
def execClockRecover (row : Fin 5) (s : State) : Res :=
  whenOn s <| .next (if ¬ bit (s.reg Key.CLOCK_STATUS) row then s
    else
      let s1 := (s.setRegBit Key.CLOCK_STATUS row false).cause (clockSource row) 0 false 0
      if row.val = 4 then s1.updMgmt (fun m => { m with restartDue := some 8 }) else s1)

/-! ## What firmware stores (R87, R136, R348) -/

/-- Caldera writes a sticky address to NOR flash, with the unit's serial number (R84, R87, R510); where the flash does not take it, none is
stored (R101, R509). -/
def State.storeSticky (s : State) (a : Nat) : State :=
  let s1 := s.norWrite 1 (fun n => { n with sticky := some (a, s.ident.serial) })
  if s.nor.ok then (s1.setReg Key.STICKY_ADDR a).logConfig 0 [a] else s1

/-- A sticky address that an assignment asked for is stored once Caldera runs (R87). -/
def execStickyStore (s : State) : Res :=
  whenOn s <| .next (match s.link.sticky with
    | none => s
    | some a => if s.calderaUp then (s.updLink (fun l => { l with sticky := none })).storeSticky a else s)

/-- Is the seal floor to be raised (R136, R137)? -/
def State.floorDue (s : State) : Bool :=
  let f := s.reg Key.SEAL_FLOOR
  s.calderaUp && s.nor.ok && s.dict.floorWrite.isNone && f != 0 && decide (f < 0xFFFFFC00) && decide (f ≤ s.reg Key.SEAL_LAST + 512)

/-- Firmware writes a raised floor record (R136, R137). -/
def execSealFloorRaise (s : State) : Res :=
  whenOn s <| .next (if s.floorDue then
    { s with dict := { s.dict with floorWrite := some (min (s.reg Key.SEAL_FLOOR + 1024) 0xFFFFFC00) } }
  else s)

/-- The floor write completes and the limit rises (R136). -/
def execSealFloorCommitted (s : State) : Res :=
  whenOn s <| .next (match s.dict.floorWrite with
    | none => s
    | some v =>
      let s1 := { s with dict := { s.dict with floorWrite := none } }
      if s.nor.ok then ((s1.updNor (fun n => { n with floor := some v })).setReg Key.SEAL_FLOOR v).logConfig 1 (beBytes 4 v)
      else s1.raise 0x14 1)

/-- Caldera copies an accepted set to NOR flash (R348). -/
def execCalSetCopy (group : Fin 4) (s : State) : Res :=
  let g := group.val
  onGroup g s (match s.on && s.calderaUp, (s.cal g).copies with
    | true, w :: rest =>
      let a := s.tabWord (0x4500 + g) w
      let b := s.tabWord (0x4500 + g) (w + 1)
      (((s.updCal g (fun r => { r with copies := rest })).norWrite 1 (fun n => { n with
        sets := Map.put (fun _ => none) (Map.put (fun _ => none) n.sets (1024 * g + w) (some (BitVec.ofNat 72 a))) (1024 * g + w + 1)
          (some (BitVec.ofNat 72 b)) })).logConfig 2 (beBytes 9 a ++ beBytes 9 b))
    | _, _ => s)

end Sys2Proof.Machine
end

