-- ==== Sys2Proof/Machine/Life.lean ====
section
/-! DEFINITION. Lifecycle, keys, boundary scan, power states and Fumarole (R529-R552). -/

namespace Sys2Proof.Machine

/-! ## Fumarole (R546–R551) -/

/-- A trace session begins: a new NONCE, record numbers from 0, and the START record, always sent in clear (R550). -/
def State.traceStart (s : State) : State :=
  let m := s.reg Key.TRACE_MODE
  let n := (Config.nonce s.freeT).toNat
  let s1 := { s.setReg Key.TRACE_NONCE n with freeT := s.freeT + 1, trace := { s.trace with
    recNo := 0, sampled := s.ct / max 1 (s.reg Key.TRACE_SAMPLE) } }
  s1.tracePut false (fld n 64 64 + fld m 8 48 + fld s.ident.serial 48 0)

/-- TRACE_MODE becomes `m`: records queued are discarded, and a trace mode starts a session (R550, R551). -/
def State.traceTo (s : State) (m : Nat) : State :=
  let s1 := { s.setReg Key.TRACE_MODE m with trace := { s.trace with now := [], queue := [], lossOwed := 0 } }
  if 2 ≤ m then s1.traceStart else s1

/-- TRACE_MODE written (R546). -/
def State.traceModeWrite (s : State) (old : Nat) : State := if s.reg Key.TRACE_MODE = old then s else s.traceTo (s.reg Key.TRACE_MODE)

/-- Does the lifecycle state refuse trace mode `m` (R546, R552)? -/
def State.traceRefused (s : State) (m : Nat) : Bool :=
  let lc := s.reg Key.LIFECYCLE
  match m with
  | 2 => lc == 3
  | 3 => lc == 0 || lc == 4 || s.otp.ktrace.isNone
  | _ => false

/-- TRACE_RESTART: a session begins where trace is sent (R550). -/
def State.traceRestart (s : State) : State :=
  let s0 := s.setReg Key.TRACE_RESTART 0
  if 2 ≤ s.reg Key.TRACE_MODE then s0.traceStart else s0

/-- A record as it is sent (R549, R550). -/
def State.traceBits (s : State) (e : TraceEnt) : Nat :=
  if e.sealed then Nat.xor e.rec_ (aes128 (s.otp.ktrace.getD 0) (fld e.nonce 64 64 + fld e.no 64 0)) else e.rec_

/-- `k` nibbles of a number, most significant first. -/
def nibbles : Nat → Nat → List Nat
  | 0, _ => []
  | k + 1, n => n / 16 ^ k % 16 :: nibbles k n

/-- The next trace record is sent as a frame of 44 nibbles (R549). -/
def execTraceFrame (s : State) : Res :=
  whenClocked s <| .next (match s.trace.queue with
    | [] => s
    | e :: rest =>
      (({ s with trace := { s.trace with queue := rest } }).emit
        (.trace (nibbles 4 0xA55A ++ nibbles 8 (e.no % 2 ^ 32) ++ nibbles 32 (s.traceBits e)))).inc Key.TRACE_RECORDS)

/-- Has a multiple of TRACE_SAMPLE been reached (R549)? -/
def State.sampleDue (s : State) : Bool :=
  let n := s.reg Key.TRACE_SAMPLE
  n != 0 && decide (2 ≤ s.reg Key.TRACE_MODE) && s.trace.sampled != s.ct / n

/-- A counter sample record for every PMC (R549). -/
def execTraceSample (s : State) : Res :=
  whenClocked s <| .next (if s.sampleDue then
    ({ s with trace := { s.trace with sampled := s.ct / s.reg Key.TRACE_SAMPLE } }).forEach (List.range 16) (fun k s =>
      s.traceRec 0x08 (fld k 4 52 + fld (s.reg (Key.PMC k)) 48 0))
  else s)

/-- PMC_SEL written: the counter is cleared (R548). -/
def State.pmcSelWrite (s : State) (k : Nat) : State := s.setReg (Key.PMC k) 0

/-! ## Lifecycle (R529–R534) -/

/-- Is lifecycle pair `k` burned (R529)? -/
def pairBurned (pairs k : Nat) : Bool := bit pairs (2 * k) || bit pairs (2 * k + 1)

/-- LIFECYCLE of an OTP field; pairs out of sequence read as RETIRED (R529). -/
def lifeOf (pairs : Nat) : Nat :=
  match pairBurned pairs 0, pairBurned pairs 1, pairBurned pairs 2, pairBurned pairs 3 with
  | false, false, false, false => 0
  | true, false, false, false => 1
  | true, true, false, false => 2
  | true, true, true, false => 3
  | _, _, _, _ => 4

/-- Are the pairs burned out of sequence (R529)? -/
def pairsBroken (pairs : Nat) : Bool := lifeOf pairs == 4 && !(pairBurned pairs 0 && pairBurned pairs 1 && pairBurned pairs 2 && pairBurned pairs 3)

/-- Every half-burned pair completed (R529). -/
def completePairs (pairs : Nat) : Nat := nsum ((List.range 4).map (fun k => b2n (pairBurned pairs k) * 3 * 4 ^ k))

/-- Both copies of the OTP (R535). -/
def State.burn (s : State) (f : Otp → Otp) : State := { s with otp := f s.otp, otp2 := f s.otp2 }

/-- Every key destroyed (R534). -/
def Otp.destroy (o : Otp) : Otp :=
  { o with
    kcmd := List.replicate 4 (some (2 ^ 128 - 1)), ktrace := some (2 ^ 128 - 1), klog := some (2 ^ 256 - 1) }

/-- LIFECYCLE as the OTP holds it. -/
def State.syncLife (s : State) : State := s.setReg Key.LIFECYCLE (lifeOf s.otp.pairs)

/-- The unit advances to lifecycle state `lc`: its pair is burned and the change logged (R530). -/
def State.lifeTo (s : State) (lc : Nat) : State :=
  let s1 := (s.burn (fun o => { o with pairs := Nat.lor o.pairs (2 ^ (2 * lc) - 1) })).syncLife
  let s2 := if lc = 3 ∧ s1.reg Key.TRACE_MODE = 2 then s1.traceTo 0 else s1
  s2.logAdd 0x05 lc []

/-- Entry to RETIRED: the keys are destroyed and sealed trace ends (R530, R534). -/
def State.retire (s : State) : State :=
  let s1 := (s.burn (fun o => { o.destroy with pairs := Nat.lor o.pairs 0xFF })).syncLife
  let s2 := if s1.reg Key.TRACE_MODE = 3 then s1.traceTo 0 else s1
  s2.logAdd 0x05 4 []

/-- K_cmd in force: the key of the highest valid slot; none where every tag fails (R532, R534). -/
def State.kcmd (s : State) : Option Nat := if s.reg Key.LIFECYCLE = 4 then none else (s.otp.kcmd.filterMap id).getLast?

/-- KEY_STATE (R553). -/
def State.keyState (s : State) : Nat :=
  let o := s.otp
  let used := (o.kcmd.filterMap id).length
  b2n o.vendor.isSome * 128 + b2n o.ktrace.isSome * 64 + b2n o.klog.isSome * 32 + (used - 1) * 8 + (4 - used)

/-- May LIFECYCLE_CMD advance now (R530)? -/
def State.advanceOk (s : State) : Bool :=
  match s.reg Key.LIFECYCLE with
  | 1 => (s.otp.kcmd.headD none).isSome && s.otp.ktrace.isSome && s.otp.klog.isSome
  | 2 => true
  | _ => false

/-- KEY_WRAP as one AES block: its 16 bytes, byte 0 first (R516, R533). -/
def State.keyWrap (s : State) : Nat :=
  let a := s.tabWord 0x2C10 0
  let b := s.tabWord 0x2C10 1
  ofBytes ((List.range 16).map (fun i => if i < 9 then bits a (8 * i + 7) (8 * i) else bits b (8 * (i - 9) + 7) (8 * (i - 9))))

/-- May KEY_COMMIT be written: a wrapped key has been committed and a slot is free (R533)? -/
def State.keyOk (s : State) : Bool := (s.tab 0x2C10).len.isSome && s.otp.kcmd.any Option.isNone

/-- Burns a key into the first free slot. -/
def putKey (k : Nat) : List (Option Nat) → List (Option Nat)
  | [] => []
  | none :: l => some k :: l
  | a :: l => a :: putKey k l

/-- A new K_cmd is provisioned: the sequence numbers start again (R137). -/
def State.sealRestart (s : State) : State :=
  let s1 := (s.setReg Key.SEAL_LAST 0).setReg Key.SEAL_FLOOR 1024
  { s1 with dict := { s1.dict with floorWrite := none } }.norWrite 1 (fun n => { n with floor := some 1024 })

/-- KEY_COMMIT: the wrapped key is decrypted and burned into the next free slot (R137, R533). -/
def State.keyInstall (s : State) : State :=
  match s.kcmd with
  | none => s
  | some k =>
    let new := aes128Inv k s.keyWrap
    (s.burn (fun o => { o with kcmd := putKey new o.kcmd })).sealRestart.logAdd 0x05 0x10 []

/-- LOG_PUBKEY as words (R532): X and Y, each most significant byte first, byte `b` at stream bits 8b + 7 .. 8b. -/
def State.pubkeyWord (s : State) (w : Nat) : Nat :=
  match s.otp.klog with
  | none => 0
  | some k =>
    let q := ecPublic k
    let bytes := beBytes 32 q.1 ++ beBytes 32 q.2
    ofBytes ((List.range 9).map (fun j => bytes.getD (9 * w + j) 0)).reverse

/-- The two copies of the OTP are compared (R535). -/
def State.otpCompare (s : State) : State :=
  let a := s.otp
  let b := s.otp2
  let f := fun (bad : Bool) (d : Nat) (s : State) => if bad then s.raise 0x04 d else s
  f (decide (a.floor ≠ b.floor)) 6 (f (decide (a.klog ≠ b.klog)) 5 (f (decide (a.ktrace ≠ b.ktrace)) 4 (f (decide (a.kcmd ≠ b.kcmd)) 3
    (f (decide (a.vendor ≠ b.vendor)) 2 (f (decide (a.pairs ≠ b.pairs)) 1 s)))))

/-- The scan of every second (R535). -/
def execOtpScan (s : State) : Res := whenOn s <| .next s.otpCompare

/-! ## Boundary scan (R536–R539) -/

/-- Does a listed opcode act in the present lifecycle and power state (R537, R552)? -/
def State.jtagAllows (s : State) (op : Nat) : Bool :=
  let lc := s.reg Key.LIFECYCLE
  let full := lc == 0 || lc == 1 || lc == 4
  if op = 0xFF ∨ op = 0x01 then true
  else if 2 ≤ s.reg Key.POWER_STATE then false
  else match op with
    | 0x02 => true
    | 0x03 => full && !s.armed
    | 0x04 => full && !s.armed
    | 0x05 => full && !s.armed
    | 0x40 => lc == 0
    | 0x41 => lc == 0 || lc == 1
    | 0x42 => lc == 1 || (decide (2 ≤ lc) && s.reg Key.CALDERA_STATE == 3)
    | 0x43 => full
    | 0x44 => lc == 0 || lc == 1
    | _ => true

/-- Opcodes of R537. -/
def jtagListed (op : Nat) : Bool := [0xFF, 0x01, 0x02, 0x03, 0x04, 0x05, 0x40, 0x41, 0x42, 0x43, 0x44].contains op

/-- A refused instruction is replaced by BYPASS, counted and reported (R538). -/
def State.jtagRefuse (s : State) : State := (({ s with tap := ⟨0xFF, true⟩ }).inc Key.JTAG_REFUSED).raise 0x16 0

/-- An instruction is updated into the TAP (R536–R538); an opcode not listed acts as BYPASS. -/
def execJtagInstruction (opcode : BitVec 8) (s : State) : Res :=
  let op := opcode.toNat
  whenOn s <| .next (if ¬ jtagListed op then { s with tap := ⟨0xFF, false⟩ }
    else if s.jtagAllows op then { s with tap := ⟨op, false⟩ }
    else s.jtagRefuse)

/-- LC_ADVANCE: a BLANK unit with the vendor key hash becomes FACTORY (R530). -/
def execLcAdvance (s : State) : Res :=
  whenOn s <| .next (if s.jtagAllows 0x40 ∧ s.otp.vendor.isSome then s.lifeTo 1 else s.jtagRefuse)

/-- LC_RETIRE (R530, R534). -/
def execLcRetire (s : State) : Res := whenOn s <| .next (if s.jtagAllows 0x44 then s.retire else s.jtagRefuse)

/-- K_log from a random 256 bits: a private key of P-256 (R532). -/
def logKey (v : Nat) : Nat := 1 + v % (ecN - 1)

/-- Update-DR of PROVISION burns one field; a field burned before, or not allowed, is refused (R537, R538). -/
def execProvision (field : Nat) (data : BitVec 256) (s : State) : Res :=
  let d := data.toNat
  let lc := s.reg Key.LIFECYCLE
  whenOn s <| .next (if ¬ s.jtagAllows 0x41 then s.jtagRefuse
    else match lc, field with
      | 0, 1 => if s.otp.vendor.isSome then s.jtagRefuse else s.burn (fun o => { o with vendor := some d })
      | 1, 2 =>
        if (s.otp.kcmd.headD none).isSome then s.jtagRefuse
        else (s.burn (fun o => { o with kcmd := some (d % 2 ^ 128) :: o.kcmd.tail })).sealRestart
      | 1, 3 => if s.otp.ktrace.isSome then s.jtagRefuse else s.burn (fun o => { o with ktrace := some (d % 2 ^ 128) })
      | 1, 4 =>
        if s.otp.klog.isSome then s.jtagRefuse
        else
          let k := logKey (Config.kLog s.free).toNat
          { s.burn (fun o => { o with klog := some k }) with free := s.free + 1 }
      | _, _ => s.jtagRefuse)

/-- Update-DR of the last byte of RECOVER: a verified image restarts Caldera with cause 7; another is discarded and reported (R539). -/
def execRecover (image : List (BitVec 8)) (s : State) : Res :=
  let l := image.map BitVec.toNat
  whenOn s <| .next (if ¬ s.jtagAllows 0x42 then s.jtagRefuse
    else
      let c := s.imageCheck l.length (fun off n => (l.drop off).take n)
      if c = 0 then s.updMgmt (fun m => { m with image := some l, restartDue := some 7 })
      else s.updateResult 3 c (hdr32 l 8))

/-- TRST_N or five clocks with TMS high (R560). -/
def execTapReset (s : State) : Res := whenOn s <| .next { s with tap := {} }

/-- IDCODE (R536). -/
def State.idcode (s : State) : Nat :=
  fld s.ident.dieStep 4 28 + fld (match s.ident.part with | .px7216 => 0x7216 | .px7208 => 0x7208 | .px7204 => 0x7204) 16 12
    + fld 0x3D5 11 1 + 1

/-! ## Power (R540–R545, R567) -/

/-- Does REFCLK_OUT run: through every reset and in every power state but SHELF, from REFCLK and VDDA_SER 1.2 V, row 3 of R507 (R585)? -/
def State.refclkOut (s : State) : Bool :=
  s.boot.phase != .shelf && !bit (s.reg Key.RAIL_STATUS) 3 && !bit (s.reg Key.CLOCK_STATUS) 1

/-- Changes the power record. -/
def State.updPower (s : State) (f : Power → Power) : State := { s with power := f s.power }

/-- POWER_REQ written: at POWER_AT where it lies at least 50,000 ct ahead, else at once (R541). -/
def State.powerReqWrite (s : State) (v : Nat) : State :=
  let t := s.reg Key.POWER_AT
  s.updPower (fun p => { p with req := some (v, if s.ct + 50000 ≤ t then some t else none), leaving := false, now := false })

/-- Is a change of power state due (R541)? A unit in start-up leaves it first (R540). -/
def State.powerDue (s : State) : Bool :=
  s.boot.phase == .running && (match s.power.req with
    | none => false
    | some (_, none) => true
    | some (_, some t) => decide (t ≤ s.ct))

/-- The request ends with POWER_RESULT `r`. -/
def State.powerEnd (s : State) (r : Nat) : State := (s.updPower (fun p => { p with req := none, leaving := false, now := false })).setReg Key.POWER_RESULT r

/-- Leaving RUN ends every frame and aborts every calibration (R348, R379, R541). -/
def State.leaveRun (s : State) : State :=
  (s.camsStop.forEach (List.range s.nGroups) (State.calAbort 5)).updPower (fun p => { p with leaving := true })

/-- Is every board verified RESTORED (R348, R541)? -/
def State.allRestored (s : State) : Bool :=
  (List.range s.nGroups).all (fun g => (s.cal g).ch.isNone && !(s.cal g).unverified && (s.cal g).swapped.isNone && (s.cal g).restored)

/-- EIDLE on every lane that is UP (R52, R542). -/
def State.idleLanes (s : State) : State :=
  let links : List LinkSel := [.chain .u, .chain .d, .image 0, .image 1, .image 2, .image 3]
  links.foldl (fun s l =>
    if (linkLanes l).all (fun i => decide ((s.lane i).st = .up)) then
      (s.forEach (linkLanes l) (fun i s => s.updLane i (fun x => { x with st := .idle }))).emit (.eidle l)
    else s) s

/-- Entry to DOZE (2) or SLEEP (3) (R542). -/
def State.enterRest (s : State) (v : Nat) : State :=
  let old := s.reg Key.GRID_ENABLE
  let s1 := (((s.idleLanes).setReg Key.GRID_ENABLE 0).gridEnableWrite old).setReg Key.POS_LOCAL_VALID 0
  let s2 := (s1.dmaHold).setReg Key.POWER_STATE v
  let s3 := s2.forEach (List.range s2.nPorts) State.heatForce
  if v = 3 then s3.updLink (fun l => { l with ctValid := false, timeN := none }) else s3

/-- Entry to SHELF: the queued log records are written, then PWR_EN falls; WAKE_N asserted during the entry wakes the unit at once (R543, R545). -/
def State.enterShelf (s : State) : State :=
  let s1 := (List.range 258).foldl (fun s _ => if s.logDue then (match execLogProgram s with
    | .next t => t
    | _ => s) else s) s
  let woken := s1.power.woken
  let s2 := (s1.inc Key.SHELF_COUNT).setReg Key.POWER_STATE 4
  { (if woken then s2.setReg Key.WAKE_CAUSE 3 else s2) with
    boot := { s1.boot with phase := .shelf }, power := { s1.power with pwrEn := woken, woken := false } }

/-- A change of power state that is due takes effect, waits for what it ends, or is refused (R541). -/
def State.powerStep (s : State) : State :=
  match s.powerDue, s.power.req with
    | true, some (v, _) =>
      let cur := s.reg Key.POWER_STATE
      if v = cur then s.powerEnd 1
      else if s.armed then s.powerEnd 2
      else
        let s1 := if cur = 0 ∧ ¬ s.power.leaving then s.leaveRun else s
        if cur = 0 ∧ ¬ s1.allRestored then s1
        else
          let s2 := s1.powerEnd 1
          match v with
          | 0 => (s2.setReg Key.POWER_STATE 0).forEach [0, 1] (fun c s => s.updCam c (fun m => { m with quietFrom := s.ct }))
          | 1 => s2.setReg Key.POWER_STATE 1
          | 4 => s2.enterShelf
          | _ => s2.enterRest v
    | _, _ => s

/-- The end of a clock on which a change of power state came: an arming and a wake of that clock have been judged before it (R545). -/
def State.powerEnding (s : State) : State := if s.power.now then (s.updPower (fun p => { p with now := false })).powerStep else s

/-- A requested change of power state falls due: it is judged when the clock ends, here when no other command waits (R541, R545). -/
def execPowerChange (s : State) : Res :=
  whenOn s <| .next (if s.pending.isEmpty then s.powerStep else s.updPower (fun p => { p with now := true }))

/-- A Geyser bank whose target passed while the unit rested reads MISSED (R542). -/
def State.wakeBank (b : Nat) (s : State) : State :=
  let k := s.bank b
  if k.st = .armed ∧ s.geyserReached k.byPos (s.reg (Key.GEYSER_TARGET b)) then s.updBank b (fun k => { k with st := .missed }) else s

/-- The return is a reset that clears the local position (R163, R542, R565). -/
def State.clearPosition (s : State) : State :=
  let p := s.pos
  let kept : Pos :=
    { raw := p.raw, lineBad := p.lineBad, dirPin := p.dirPin, dirPrev := p.dirPin, hall := p.hall, ssiReady := p.ssiReady, newRole := p.newRole }
  let s1 := (s.updPos (fun _ => kept)).syncEncOut
  let s2 := (s1.cause 0x23 0 false 0).seekRef
  if ¬ s2.flag Key.ENC_ENABLE then s2
  else if s2.flag Key.SSI_ENABLE ∧ s2.flag Key.SSI_AT_START then s2.ssiStart .start
  else s2.setReg Key.POS_LOCAL_VALID 1

/-- The return to READY from DOZE or SLEEP (R542, R544, R550); the loss of broadcasts is judged again once one has been accepted since (R29). -/
def State.wakeUp (s : State) : State :=
  let sleep := s.reg Key.POWER_STATE = 3
  let s1 := (((s.updRecv (fun r => { r with judging := false, missed := 0, accepted := false })).setReg Key.POWER_STATE 1).updPower (fun p => { p with quietTo := s.clk + 500000 })).forEach (List.range 4) State.wakeBank
  let s2 := ((s1.clearPosition).updMem (fun m => { m with checkDue := s.bmReady })).dmaUnhold
  let s3 := if sleep then s2.forEach (List.range 8) (fun i s => s.downLane i)
    else (s2.sendBurst (.chain .u)).sendBurst (.chain .d)
  if 2 ≤ s3.reg Key.TRACE_MODE then s3.traceStart else s3

/-- Is a wake source enabled and one that leaves the present state (R540, R544)? 1 U port, 2 D port, 3 WAKE_N. -/
def State.wakeOk (s : State) (source : Nat) : Bool :=
  decide (1 ≤ source) && decide (source ≤ 3) && bit (s.reg Key.WAKE_ENABLE) (source - 1) && !(s.reg Key.POWER_STATE == 3 && source == 2)

/-- A wake: the unit returns from DOZE or SLEEP; at the instant of entry it wins over the change, which then reads WOKEN (R544, R545). -/
def execWake (source : Nat) (s : State) : Res :=
  whenOn s <| .next (if ¬ s.wakeOk source then s
    else if 2 ≤ s.reg Key.POWER_STATE then (s.setReg Key.WAKE_CAUSE source).wakeUp
    else match s.powerDue && !s.armed, s.power.req with
      | true, some (v, _) =>
        let s1 := if s.reg Key.POWER_STATE = 0 ∧ ¬ s.power.leaving then s.leaveRun else s
        if (v = 2 ∨ v = 3) ∧ (s.reg Key.POWER_STATE ≠ 0 ∨ s1.allRestored) then
          ((s1.powerEnd 3).setReg Key.POWER_STATE 1).setReg Key.WAKE_CAUSE source
        else s
      | _, _ => s)

/-- WAKE_N low for 33 island periods in SHELF: PWR_EN rises (R543, R567). WAKE_ENABLE has no effect. During an entry to SHELF the entry
completes first (R545). -/
def execShelfWake (s : State) : Res :=
  .next (if s.boot.phase = .shelf then (s.updPower (fun p => { p with pwrEn := true })).setReg Key.WAKE_CAUSE 3
    else if s.powerDue && s.power.req.any (fun e => e.1 == 4) then s.updPower (fun p => { p with woken := true })
    else s)

/-- AON_TIME: island clock periods of 32,768 Hz since VAON was applied (R543). -/
def State.aonTime (s : State) : Nat := (s.clk - s.power.vaonAt) * 32768 / 500000000

end Sys2Proof.Machine
end

