-- ==== Sys2Proof/Machine/Reset.lean ====
section
/-! DEFINITION. Start-up, chip reset, power-on reset and block resets (R488, R494, R555-R568). -/

namespace Sys2Proof.Machine

/-- Changes the boot record. -/
def State.updBoot (s : State) (f : Boot → Boot) : State := { s with boot := f s.boot }

/-! ## Groups and sessions that are dropped (R122, R124, R130, R563) -/

/-- Group `g` is discarded, and the sessions that are its entries end in `st`. -/
def State.discardGroup (s : State) (g : Nat) (st : SessSt) : State :=
  let s1 := (s.group g).entries.foldl (fun (s : State) e => match e with
    | .session k => s.updSess k (fun x => { x with st := st })
    | .write _ _ => s) s
  s1.updGroup g (fun r => { r with st := .discarded, entries := [] })

/-! ## What a block reset does (R449, R563) -/

/-- The frames of a camera, their output words and the pipeline's work on them are dropped (R449, R563). -/
def State.dropFrames (cam : Nat) (s : State) : State :=
  let s1 := s.updCam cam (fun c => { c with frames := [], late := [], capHeld := 0, fifo := [] })
  if s1.pipe.cur = some cam then
    (s1.addReg Key.PIPE_BUSY_CT (s1.ct - s1.pipe.since)).updPipe (fun p => { p with cur := none, lineEnd := none })
  else s1

/-- Bulk memory is trained again: its contents are undefined, the Delay Store tags are rewritten, ring frames in progress are lost
(R229, R449). -/
def State.bmRestart (s : State) : State := (s.bmTrainBegin.relayout (List.range 16)).forEach [0, 1] State.dropFrames

/-- Caldera restarts with cause `c`; one that a host restart of the same instant has begun takes the watchdog's cause (R506). -/
def State.resetCaldera (s : State) (c : Nat) : State :=
  if c = 2 ∧ s.mgmt.wdtAt.isSome ∧ s.mgmt.wdtAt = s.mgmt.hostAt then s.setReg Key.RESTART_CAUSE 2
  else s.updMgmt (fun m => { m with restartDue := some c })

/-- The Dictionary Server: queued requests are dropped, OPEN and POISONED groups and open sessions are discarded and counted. -/
def State.resetDict (s : State) : State :=
  let s1 := { s with dict := { s.dict with fw := [], wordWait := [] } }
  let s2 := s1.forEach ((List.range 15).map (· + 1)) (fun g s =>
    if (s.group g).st = .opened ∨ (s.group g).st = .poisoned then (s.discardGroup g .failed).inc Key.GROUP_EXPIRED else s)
  s2.forEach (List.range 4) (fun k s =>
    if (s.sess k).st = .opened then (s.updSess k (fun x => { x with st := .failed })).inc Key.SESSION_EXPIRED else s)

/-- The chain ports: every chain lane to DOWN, link-delay averages start again, the SEQ records are empty (R63). -/
def State.resetPorts (s : State) : State :=
  let s1 := (s.forEach [4, 5, 6, 7] (fun i s => s.restartLane i)).updLink Link.seqClear
  let s2 := [ChainPort.u, .d].foldl (fun s p => s.updCport p (fun c => { c with probes := [], samples := [], txq := [], busyTo := 0 })) s1
  (s2.setReg Key.LINK_DELAY_U 0).setReg Key.LINK_DELAY_D 0

/-- The Position Base: the reference is sought again, PENDING is 0, the measured values are invalid; the local position is kept. -/
def State.resetPosition (s : State) : State :=
  let s1 := s.updPos (fun p => { p.restart with
    pending := 0, n := 0, q := 0, rm := 0, gapTicks := 0, steps := 0, stepTicks := 0, stepRev := none, ssi := {}, recoverDue := false })
  (s1.cause 0x23 0 false 0).seekRef

/-- The Line Scheduler: grid off, sheet queue empty, compare units off, GPO low. -/
def State.resetScheduler (s : State) : State :=
  let old := s.reg Key.GRID_ENABLE
  let s1 := ((s.setReg Key.GRID_ENABLE 0).gridEnableWrite old).updGrid (fun g => { g with queue := [], cueWait := [], fast := [], slow := [] })
  let s2 := s1.forEach (List.range 32) (fun c s =>
    (s.setRegBit (Key.CMP_CTRL c) 0 false).updCmp c (fun r => { r with armed := false, fireAt := none, pulses := [] }))
  { s2 with gpo := 0, camTrig := 0 }

/-- Raster Ingress: image lanes DOWN, packets and entries dropped, tags rewritten. -/
def State.resetIngress (s : State) : State :=
  let s1 := s.forEach (List.range 4) (fun i s =>
    (s.restartLane i).updIlane i (fun _ => {}))
  (s1.updIngress (fun g => { g with entries := [], fresh := [], held := [] })).relayout (List.range 16)

/-- The Fire Sequencer and Waveform Engine: every port is DISARMED already; runs of failed fires and scale factors start again. -/
def State.resetFire (s : State) : State :=
  let s1 := s.forEach s.allChannels (fun c s => s.updChan c (fun r => { r with failRun := 0, failTold := false }))
  s1.forEach (List.range s1.nPorts) (fun p s =>
    (s.updPort p (fun r => { r with
      draws := [], checks := [], failed := [], ramps := [], fireNow := [], deferNow := [], tickleNow := none, scrNow := [] })).forEach (List.range 4) (fun w s => s.snapScale p w))

/-- The Thermal Monitor: every enabled channel is MEASURED, its counts and the integrators are 0. -/
def State.resetThermal (s : State) : State :=
  let s1 := s.forEach (List.range 80) (fun k s => if s.sensorOn k then s.setReg (Key.SENSOR_STATE k) (s.reg (Key.SENSOR_STATE k) / 4 * 4 + 1) else s)
  { s1 with therm := { s1.therm with
      sensors := [], lastScan := some (s1.ct, s1.clk), ports := s1.therm.ports.map (fun e => (e.1, { e.2 with integ := 0 })) } }

/-- A camera and the pipeline: the frame in progress ends, the buffer is emptied, an I²C transaction ends with TIMEOUT. -/
def State.resetCamera (cam : Nat) (s : State) : State :=
  let s1 := (s.endFrame cam true).dropFrames cam
  if s1.reg (Key.I2C_STATUS cam) = 1 then (s1.setReg (Key.I2C_STATUS cam) 4).raise (camSource cam 4) cam else s1

/-- A mover: every channel is IDLE with CH_CUR at its descriptor in progress (R470). -/
def State.resetMover (m : Nat) (s : State) : State :=
  let s1 := s.forEach ((List.range 8).map (8 * m + ·)) (fun c s =>
    let s1 := match (s.dch c).pos with
      | .fetch d => s.setReg (Key.CH_CUR c) d
      | .link d => s.setReg (Key.CH_CUR c) d
      | _ => s
    s1.updDch c (fun r => { r with
      st := .idle, pos := .none, pauseReq := false, latch := false, entry := none, part := 0, retry := [], tries := 0
      after := match r.pos with
        | .none => r.after
        | .link _ => true
        | _ => false }))
  s1.updMover m (fun x => { x with last := 7 })

/-- The words of Scratch Banks 0 to 13 alone (R436, R563, R565). -/
def Mem.lowBanks (m : Mem) : Mem :=
  { m with
    scratch := m.scratch.filter (fun e => decide (e.1 < 0xE0000)), scratchErr := m.scratchErr.filter (fun e => decide (e.1 < 0xE0000)) }

/-- The Nozzle Health Loop: latched blocks, nozzle states, runs and pending changes are dropped, and no compare unit of its stays armed; what is in
force is kept. -/
def State.resetLoop (s : State) : State :=
  let s0 := if s.loop.owns then s.loopOff else s
  let s1 := (({ s0 with loop := { s0.loop with blocks := [], ports := [] } }).updMem Mem.lowBanks).loopRelease
  s1.forEach (List.range s1.nPorts) (fun p s => (s.updLport p (fun r => { r with pend := s.mapInForce p })).loopCounts p)

/-- The block that owns a source, named by its first source (R563). -/
def blockOf (src : Nat) : Nat :=
  if src = 0x11 ∨ src = 0x12 then src
  else if src ≤ 0x14 then 0x13
  else if src < 0x18 then src
  else if src < 0x20 then 0x18
  else if src < 0x2C then 0x20
  else if src < 0x30 then 0x2C
  else if src < 0x36 then 0x30
  else if src < 0x38 then 0x36
  else if src < 0x40 then 0x38
  else if src < 0x44 then 0x40
  else if src < 0x50 then 0x44
  else if src < 0x55 then 0x50
  else if src < 0x5A then 0x55
  else if src < 0x5C then 0x5A
  else if src < 0x5E then 0x5C
  else if src < 0x64 then 0x5E
  else if src < 0x6C then 0x64 + src % 4
  else if src < 0xB0 then 0x44
  else 0xB0

/-- Blocks that are cut first (R563). -/
def cutsFirst (b : Nat) : Bool := [0x2C, 0x30, 0x36, 0x38, 0x5E].contains b

/-- The effect of the reset of a block (R562, R563). -/
def State.resetBlock (s : State) (b : Nat) : State :=
  match b with
  | 0x11 => s.resetCaldera 2
  | 0x12 => s.resetCaldera 3
  | 0x15 => s.resetDict
  | 0x16 => { s with tap := {} }
  | 0x18 => s.resetPorts
  | 0x20 => s.resetPosition
  | 0x2C => s.resetScheduler
  | 0x30 => s.resetIngress
  | 0x36 => s.forEach (List.range s.nPorts) (fun p s => s.resetCarry p)
  | 0x38 => s.resetFire
  | 0x40 => s.forEach (List.range s.nGroups) (State.calAbort 2)
  | 0x44 => s.resetThermal
  | 0x50 => s.resetCamera 0
  | 0x55 => s.resetCamera 1
  | 0x5A => (s.resetCamera 0).resetCamera 1
  | 0x5C => s.updMem (fun m => { m with scrubAddr := 0 })
  | 0x5E => s.bmRestart
  | 0xB0 => s.resetLoop
  | n => if 0x64 ≤ n ∧ n < 0x68 then s.resetMover (n - 0x64) else s

/-- The requests for a reset of block `b` are met (R564). -/
def State.resetMet (s : State) (b : Nat) : State :=
  (s.updFaults (fun f => { f with resets := f.resets.filter (fun r => match r with
    | .block k => blockOf k != b
    | .chip => true) })).updBoot (fun x => { x with blocks := x.blocks.filter (fun k => k != b) })

/-- Has a reaction asked for a reset of block `b`, with its record written (R488)? -/
def State.blockAsked (s : State) (b : Nat) : Bool :=
  s.recordDone && s.faults.resets.any (fun r => match r with
    | .block k => blockOf k == b
    | .chip => false)

/-- A reset of the block that owns source `blk`; one that cuts first waits for every port to be DISARMED (R488, R562–R564). -/
def execBlockReset (blk : Nat) (s : State) : Res :=
  let b := blockOf blk
  whenOn s <| .next (if s.boot.blocks.contains b then (if s.armed then s else (s.resetMet b).resetBlock b)
    else if ¬ s.blockAsked b then s
    else
      let s1 := if cutsFirst b then s.fireInhibit else s
      if cutsFirst b ∧ s1.armed then (s1.resetMet b).updBoot (fun x => { x with blocks := b :: x.blocks })
      else (s1.resetMet b).resetBlock b)

/-! ## Chip reset and power-on reset (R494, R555, R560, R561, R565) -/

/-- What stays across every reset: who the unit is, the clock, the model's own records, the OTP and the NOR flash. -/
def State.blank (s : State) : State :=
  ({ State.reset with
    pending := s.pending, ident := s.ident, clk := s.clk, free := s.free + 1, freeT := s.freeT, out := s.out, otp := s.otp, otp2 := s.otp2, nor := s.nor
    power := { s.power with req := none, leaving := false, quietTo := 0, pwrEn := true }
    mgmt := { actPending := s.mgmt.actPending }
    mem := { gen := s.free } }).syncLife

/-- Objects that a chip reset keeps (R494, R543, R565). -/
def keptKeys : List Nat :=
  [Key.FIRST_VALID, Key.FIRST_FAULT 0, Key.FIRST_FAULT 1, Key.HIST_COUNT, Key.HIST_LOST, Key.GRAVE_PRIOR, Key.CALDERA_RESTARTS,
    Key.WAKE_CAUSE, Key.SHELF_COUNT] ++ (List.range 32).map (fun k => Key.HISTORY k)

/-- The chip reset takes hold (R494, R561, R565). -/
def State.chipHold (s : State) : State :=
  let grave := (List.range 256).filter (fun k => (s.src k).latched)
  let s1 := keptKeys.foldl (fun (t : State) k => t.setReg k (s.reg k)) s.blank
  let s2 := grave.foldl (fun (t : State) k => t.updSrc k (fun r => { r with status := true, latched := true })) s1
  let s3 := if grave.isEmpty then s2 else s2.setReg Key.FIRE_INHIBIT 1
  let low := s.mem.lowBanks
  { s3 with
    faults := { s3.faults with batch := s.faults.batch, lostMark := s.faults.lostMark, lastGrave := s.faults.lastGrave }
    mem := { s3.mem with scratch := low.scratch, scratchErr := low.scratchErr }
    mgmt := { s3.mgmt with restartDue := some 1 }
    boot := { s3.boot with phase := .held } }

/-- RESET_N low for 1 µs, or a CHIP_RESET reaction: the ports are cut, and the reset takes hold once every port is DISARMED
(R560, R561, R568). -/
def execChipReset (s : State) : Res :=
  whenOn s <| .next (let s1 := if s.boot.cutting then s else s.forEach (List.range s.nPorts) (State.cutPort 6 false)
    if s1.armed then s1.updBoot (fun x => { x with cutting := true }) else s1.chipHold)

/-- Start-up begins: what a reset cut off in the OTP is completed, and the OTP is compared (R529, R534, R535, R557). -/
def State.startUp (s : State) : State :=
  let s1 := s.burn (fun o => { o with pairs := completePairs o.pairs })
  let s2 := (if lifeOf s1.otp.pairs = 4 then s1.burn Otp.destroy else s1).syncLife
  let s3 := if pairsBroken s2.otp.pairs then s2.raise 0x04 1 else s2
  (s3.updBoot (fun x => { x with phase := .starting })).otpCompare

/-- RESET_N returns high, or an internal chip reset ends: start-up runs from t = 0 (R557). -/
def execChipResetRelease (s : State) : Res := .next (if s.boot.phase = .held then s.startUp else s)

/-- The registers of the island that a power-on reset keeps (R543, R560). -/
def State.keepIsland (s t : State) : State :=
  ((t.setReg Key.WAKE_CAUSE (s.reg Key.WAKE_CAUSE)).setReg Key.SHELF_COUNT (s.reg Key.SHELF_COUNT)).setReg Key.GRAVE_PRIOR
    (s.faults.lastGrave.getD 0xFF)

/-- A power-on reset is released, at once and whatever goes on (R555, R561, R568); one that lost VAON clears the island. A unit in SHELF
stays there until PWR_EN or VAON returns (R543, R567). -/
def execPowerOnReset (vaonLost : Bool) (s : State) : Res :=
  .next (if s.boot.phase = .shelf ∧ ¬ s.power.pwrEn ∧ ¬ vaonLost then s
    else
      let t := s.blank.updNor (fun n => { n with hist := 0 })
      let t1 := if vaonLost then
          { t with power := { t.power with vaonAt := s.clk }, mgmt := { t.mgmt with actPending := false } }
        else s.keepIsland t
      (t1.updMgmt (fun m => { m with restartDue := some 0 })).startUp)

/-! ## Start-up (R557) -/

/-- REFCLK absent for 10 ms while the PLLs wait for it (R557). -/
def execRefclkWaitTimeout (s : State) : Res :=
  .next (if s.boot.phase = .starting then (s.setRegBit Key.CLOCK_STATUS 1 true).cause 0x05 0 true 0 else s)

/-- Have training and the Caldera start ended, well or not (R557)? -/
def State.startupDone (s : State) : Bool :=
  s.boot.phase == .starting && decide (2 ≤ s.reg Key.BM_STATE) && (s.reg Key.CALDERA_STATE == 2 || s.reg Key.CALDERA_STATE == 3)

/-- Start-up is complete: READY (R557, step 8). -/
def execStartupComplete (s : State) : Res :=
  .next (if s.startupDone then (s.updBoot (fun x => { x with phase := .running })).setReg Key.POWER_STATE 1 else s)

end Sys2Proof.Machine
end

