-- ==== Sys2Proof/Machine/Values.lean ====
section
/-! DEFINITION. What the dictionary shows: which objects the part has, what each object reads as, the words of each table, the directory
and the counter list (R4, R103, R109, R129, R143, R144, R322, R501, R547). -/

namespace Sys2Proof.Machine

/-! ## What exists (R4, R103, R143, R322) -/

/-- Does the part have the port or group of an index: port objects, port tables, CAL_SETS, NOZZLE_REPORT (R4, R354, R435)? -/
def State.indexHere (s : State) (idx : Nat) : Bool :=
  if 0x3000 ≤ idx ∧ idx < 0x3100 then decide ((idx - 0x3000) / 16 < s.nPorts)
  else if 0x4000 ≤ idx ∧ idx < 0x4400 then decide ((idx - 0x4000) / 64 < s.nPorts)
  else if 0x4500 ≤ idx ∧ idx < 0x4504 then decide (idx - 0x4500 < s.nGroups)
  else if 0x4700 ≤ idx ∧ idx < 0x4710 then decide (idx - 0x4700 < s.nPorts)
  else true

/-- Does a row of the object tables cover an index? -/
def Obj.covers (o : Obj) (idx : Nat) : Bool :=
  decide (o.base ≤ idx) && (idx - o.base) % o.stride == 0 && decide ((idx - o.base) / o.stride < o.count)

/-- Does the index exist in this unit (R103)? -/
def State.hasIndex (s : State) (idx : Nat) : Bool := s.indexHere idx && (objPage idx).any (fun o => o.covers idx)

/-- The object, where it exists in this unit. Every object of DMA channels 0 to 15 is RO (R473). -/
def State.object (s : State) (key : Nat) : Option Obj :=
  if s.indexHere (key / 256) then
    (objOf key).map (fun o =>
      if 0x2910 ≤ key / 256 ∧ key / 256 < 0x2920 then { o with access := .ro, commit := .none } else o)
  else none

/-- Does the element of a shared array exist: a group, a drive channel, a sensor, a fault source (R4, R322, R501)? Other elements read 0
and ignore writes. -/
def State.elemHere (s : State) (key : Nat) : Bool :=
  let idx := key / 256
  let sub := key % 256
  if 0x2512 ≤ idx ∧ idx ≤ 0x2518 then decide (sub < s.nGroups)
  else if 0x2520 ≤ idx ∧ idx ≤ 0x2529 then s.hasChannel sub
  else if 0x2610 ≤ idx ∧ idx ≤ 0x2614 then decide (64 ≤ sub) || decide (sub / 4 < s.nPorts)
  else if 0x2A10 ≤ idx ∧ idx ≤ 0x2A12 then srcExists s.nPorts sub
  else true

/-- Bits of the ports that the part has (R4). -/
def State.portMask (s : State) : Nat := 2 ^ s.nPorts - 1

/-! ## Counters (R547) -/

/-- Counters of the unit-wide tables that are stated to wrap, as index and subindex ranges (log 70). -/
def counterRows : List (Nat × Nat × Nat) := [
  (0x1105, 0, 11), (0x1200, 0, 4), (0x1200, 6, 7), (0x1230, 2, 4), (0x2003, 0, 12), (0x2101, 6, 9), (0x2102, 9, 9), (0x2102, 11, 14),
  (0x2202, 0, 9), (0x2203, 0, 7), (0x2400, 6, 6), (0x2401, 5, 8), (0x2516, 0, 3), (0x2517, 0, 3), (0x2600, 0, 0), (0x2612, 0, 79),
  (0x2613, 0, 79), (0x2700, 2, 5), (0x2800, 30, 33), (0x2900, 1, 2), (0x2900, 4, 4), (0x2901, 8, 9), (0x2901, 11, 12), (0x2901, 14, 14),
  (0x2902, 0, 0), (0x2902, 5, 5), (0x2A00, 2, 3), (0x2A00, 9, 10), (0x2B00, 1, 1), (0x2C00, 4, 4), (0x2D00, 7, 7), (0x2E00, 5, 6)]

/-- Keys of a row. -/
def rangeKeys (r : Nat × Nat × Nat) : List Nat := (List.range (r.2.2 + 1 - r.2.1)).map (fun j => 256 * r.1 + r.2.1 + j)

/-- The counter set of the part: the stated counters in ascending order, then PMC0 to PMC15 (R547). -/
def State.counters (s : State) : List Nat :=
  ((counterRows.flatMap rangeKeys).filter s.elemHere)
    ++ ((List.range s.nPorts).flatMap (fun p => (rangeKeys (0x3004 + 16 * p, 0, 0)) ++ rangeKeys (0x3004 + 16 * p, 3, 7)))
    ++ (List.range 16).map Key.PMC

/-- A word of COUNTER_LIST (R547). -/
def counterWord (key : Nat) : Nat :=
  fld (key / 256) 16 56 + fld (key % 256) 8 48 + fld (((objOf key).map (fun o => o.ty.code)).getD 0) 4 44

/-! ## The directory (R143) -/

/-- Objects that the part has: those of the rows of the object tables (R143, R144). -/
def State.objectCount (s : State) : Nat :=
  nsum (objAll.map (fun o => nsum ((List.range o.count).map (fun i => if s.indexHere (o.base + i * o.stride) then o.hi + 1 - o.lo else 0))))

/-- The largest LENGTH of a table, 0 for a scalar: of the tables that the unit makes of its objects, the LENGTH that they have in this part
(R97, R143, R547). -/
def State.sizeOf (s : State) (o : Obj) (idx : Nat) : Nat :=
  if idx = 0x5E00 then s.objectCount
  else if idx = 0x2E10 then s.counters.length
  else if 0x5F00 ≤ idx ∧ idx ≤ 0x5F03 then s.counters.length + 3
  else o.size

/-- Every row's words of DICT_DIRECTORY (R143). -/
def State.rowWords (s : State) (o : Obj) : List Nat :=
  (List.range o.count).flatMap (fun i =>
    let idx := o.base + i * o.stride
    if s.indexHere idx then
      (List.range (o.hi + 1 - o.lo)).map (fun j =>
        let key := 256 * idx + o.lo + j
        let x := (s.object key).getD o
        fld idx 16 56 + fld (o.lo + j) 8 48 + fld x.ty.code 4 44 + fld x.access.code 3 41
          + fld (if x.access = .ro then 7 else x.commit.code) 3 38 + b2n x.fw * 2 ^ 37 + fld x.stage 3 34 + fld (s.sizeOf x idx) 32 0)
    else [])

/-- DICT_DIRECTORY: ascending order of index and subindex is ascending order of the words (R143). -/
def State.directory (s : State) : List Nat := ((objAll.flatMap s.rowWords).insertionSort (· ≤ ·))

/-! ## What an object reads as -/

/-- Numbers of the identity objects (R144). -/
def State.identValue (s : State) (sub : Nat) : Nat :=
  match sub with
  | 1 => s.ident.part.code
  | 2 => b2n s.ident.industrial
  | 3 => s.portMask
  | 4 => s.ident.serial
  | 5 => s.ident.dieStep
  | 6 => s.ident.romVersion
  | 8 => s.objectCount
  | n => s.reg (0x100000 + n)

/-- GROUP_STATE, GROUP_BUSY (R144). -/
def GroupSt.code : GroupSt → Nat
  | .free => 0 | .opened => 1 | .poisoned => 2 | .closed => 3 | .applied => 4 | .discarded => 5
def GroupSt.busy : GroupSt → Bool
  | .opened | .poisoned | .closed => true
  | _ => false
def State.groupState (s : State) (g : Nat) : Nat := (s.group g).st.code + 8 * b2n (s.group g).forced
def State.groupBusy (s : State) : Nat := nsum ((List.range 16).map (fun g => b2n (decide (1 ≤ g) && (s.group g).st.busy) * 2 ^ g))

/-- SESSION_STATE (R144). -/
def SessSt.code : SessSt → Nat
  | .free => 0 | .opened => 1 | .complete => 2 | .pending => 3 | .applied => 4 | .aborted => 5 | .failed => 6
def State.sessState (s : State) (k : Nat) : Nat := (s.sess k).st.code + 8 * b2n (s.sess k).forced

/-- Values of the Position Base's own objects (R175). -/
def RefSt.code : RefSt → Nat
  | .off => 0 | .seeking => 1 | .locked => 2 | .lost => 3
def State.posValue (s : State) (sub : Nat) : Nat :=
  match sub with
  | 0 => s.localAt s.ct
  | 2 => s.speedAt s.ct
  | 3 => 2 * b2n s.pos.stopped + b2n s.pos.rev
  | 4 => s.pos.ref.code
  | 7 => unsgn 32 (clampI (-(2 ^ 31)) (2 ^ 31 - 1) s.pos.pending)
  | 8 => s.pos.hall.getD 0
  | n => s.reg (0x200200 + n)

/-- Values of the scheduler's computed objects (R191, R213). -/
def State.gridValue (s : State) (sub : Nat) : Nat :=
  match sub with
  | 1 => s.grid.next
  | 2 => s.nextBandLine
  | 3 => s.nextSheetLine
  | 4 => s.nextLineCt
  | 5 => s.freezeState
  | n => s.reg (0x210100 + n)

/-- Computed objects of a plane (R247). -/
def State.planeValue (s : State) (q sub : Nat) : Nat :=
  match sub with
  | 5 => s.depthNeeded q
  | 6 => s.lineWords q
  | 7 => (s.plane q).bottom
  | 8 => (s.plane q).top
  | n => s.reg (256 * (0x2210 + q) + n)

/-- Computed objects of a DMA channel (R473, R474). -/
def State.chValue (s : State) (c sub : Nat) : Nat :=
  match sub with
  | 7 => 0
  | 9 => (s.dch c).status
  | n => s.reg (256 * (0x2910 + c) + n)

/-- The chain's computed objects (R101). -/
def State.chainValue (s : State) (key : Nat) : Option Nat :=
  if key = Key.CHAIN_STATE then some s.link.st.code
  else if key / 256 = 0x1101 then some (s.laneStatus (key % 256))
  else if key = Key.CHAIN_TIME then some s.ct
  else if key / 256 = 0x1180 then some (s.bank (key % 256)).st.code
  else none

/-- The Collector's computed objects (R500, R501, R503). -/
def State.faultValue (s : State) (key : Nat) : Option Nat :=
  if key = Key.FAULT_SUMMARY then some s.faultSummary
  else if key = Key.ERR_N_STATE then some (b2n s.errLow)
  else if key / 256 = 0x2A02 then some (s.statusMap (key % 256))
  else if key / 256 = 0x2A11 then some (s.srcState (key % 256))
  else none

/-- The log's, the keys' and the power objects that are computed (R527, R553). -/
def State.lifeValue (s : State) (key : Nat) : Option Nat :=
  if key = Key.LOG_NEXT_SEQ then some s.nor.next
  else if key = Key.LOG_FIRST_SEQ then some s.nor.first
  else if key = Key.LOG_LOST then some s.mgmt.lost
  else if key = Key.LOG_PENDING then some s.mgmt.queue.length
  else if key = Key.KEY_STATE then some s.keyState
  else if key = Key.IDCODE then some s.idcode
  else if key = Key.POWER_REQ then some ((s.power.req.map (fun r => r.1)).getD (s.reg Key.POWER_STATE))
  else if key = Key.AON_TIME then some s.aonTime
  else if key = Key.COUNTER_COUNT then some s.counters.length
  else none

/-- Objects that read 0 whatever was written to them (R304, R449, R492, R550). -/
def readsZero (key : Nat) : Bool :=
  [Key.FIRE_DISARM, Key.FAULT_CLEAR, Key.FIRST_CLEAR, Key.HIST_CLEAR, Key.TRACE_RESTART].contains key || key / 256 == 0x2513

/-- What a scalar object reads as now (R103–R106). -/
def State.objValue (s : State) (key : Nat) : Nat :=
  let idx := key / 256
  let sub := key % 256
  if ¬ s.elemHere key ∨ readsZero key then 0
  else if key = Key.TRACE_PORTS then Nat.land (s.reg key) s.portMask
  else if idx = 0x2401 ∧ sub < 4 then Nat.land (s.reg key) (s.portMask * 65536 + 0xFFFF)
  else if idx < 0x1200 then (if idx = 0x1000 then s.identValue sub else (s.chainValue key).getD (s.reg key))
  else if idx < 0x2000 then
    (if key = Key.GROUP_BUSY then s.groupBusy
     else if idx = 0x1210 then s.groupState sub
     else if idx = 0x1220 then (s.sess sub).index
     else if idx = 0x1221 then s.sessState sub
     else s.reg key)
  else if idx < 0x2100 then
    (if idx = 0x2002 then s.posValue sub
     else if key = Key.TICKS_PER_REV then s.tpr
     else if key = Key.SSI_COMMAND then s.ssiCommand
     else s.reg key)
  else if idx < 0x2200 then
    (if idx = 0x2101 then s.gridValue sub
     else if key = Key.SHEET_QUEUE then s.grid.queue.length
     else if key = Key.GPO_LEVEL then s.gpoLevel
     else s.reg key)
  else if idx < 0x2300 then
    (if key = Key.DS_USED then s.dsUsed
     else if 0x2210 ≤ idx then s.planeValue (idx - 0x2210) sub
     else s.reg key)
  else if idx < 0x2500 then
    (if key = Key.SCREEN_CLOCKS then s.screenClocks
     else if key = Key.FIRE_ARM ∨ key = Key.ARMED_PORTS then s.armedMask
     else s.reg key)
  else if idx < 0x2900 then
    (if idx = 0x2520 then s.calState sub
     else if key = Key.PIPE_BUSY_CT then s.reg key + (if s.pipe.cur.isSome then s.ct - s.pipe.since else 0)
     else if idx / 2 = 0x1390 ∧ sub = 0 then s.camState (idx - 0x2720)
     else s.reg key)
  else if idx < 0x2A00 then
    (if idx = 0x2903 then s.moverChannel sub
     else if key = Key.DMA_COMPLETION then b2n (s.ident.part == .px7216)
     else if 0x2910 ≤ idx then s.chValue (idx - 0x2910) sub
     else s.reg key)
  else if idx < 0x2B00 then (s.faultValue key).getD (s.reg key)
  else if idx < 0x3000 then (s.lifeValue key).getD (s.reg key)
  else
    let p := (idx - 0x3000) / 16
    if key = Key.GEOM_COST p then s.geomCost p
    else if key = Key.GEOM_ROWMAX p then s.rowMaxOf p
    else if key = Key.PORT_STATE p then (s.port p).st.code
    else s.reg key

/-- The words of a Geyser bank latched now: the counters as they read at this instant (R97, R547). -/
def State.bankWords (s : State) (b : Nat) : List Nat :=
  let l := s.counters
  [fld b 2 70 + fld l.length 16 54, s.ct, s.derived] ++ l.map (fun k => s.objValue k % 2 ^ 64)

/-! ## What is pending (R109, R110) -/

/-- Pending values of an object with the order of their acceptance. -/
def State.pendingOf (s : State) (key : Nat) : List (Nat × Nat) :=
  ((s.dict.shadows.filter (fun h => h.key = key)).map (fun h => (h.order, h.val)))
  ++ (s.dict.groups.filter (fun e => e.2.st = .closed)).flatMap (fun e =>
    e.2.entries.filterMap (fun x => match x with
      | .write k v => if k = key then some (e.2.order, v) else none
      | .session _ => none))

/-- The value that was accepted last and is not yet handed over, or none. -/
def State.lastPending (s : State) (key : Nat) : Option Nat :=
  ((s.pendingOf key).foldl (fun (a : Option (Nat × Nat)) x => match a with
    | none => some x
    | some y => if y.1 ≤ x.1 then some x else some y) none).map (fun x => x.2)

/-- The pending value of an object, or what it reads as (R109). -/
def State.pendOr (s : State) (key : Nat) : Nat := (s.lastPending key).getD (s.objValue key)

/-! ## What a table reads as (R127, R129) -/

/-- Words of the table that DOM_READ can reach: the largest LENGTH of a table that the host replaces; the present LENGTH of one that
the unit makes. -/
def State.tableLen (s : State) (index : Nat) : Nat :=
  if index = 0x5E00 then s.objectCount
  else if index = 0x2E10 then s.counters.length
  else if 0x5F00 ≤ index ∧ index ≤ 0x5F03 then (s.bank (index - 0x5F00)).words.length
  else if (0x4610 ≤ index ∧ index < 0x4630) ∨ (index / 0x40 ≥ 0x100 ∧ index < 0x4400 ∧ index % 0x40 = 0x0C) then
    (s.tab index).len.getD 0
  else ((objOf (256 * index)).map (fun o => o.size)).getD 0

/-- Word `w` of a table as DOM_READ returns it. -/
def State.tableWord (s : State) (index w : Nat) : Nat :=
  if index = 0x5E00 then s.directory.getD w 0
  else if index = 0x2E10 then counterWord (s.counters.getD w 0)
  else if 0x5F00 ≤ index ∧ index ≤ 0x5F03 then (s.bank (index - 0x5F00)).words.getD w 0
  else if index = 0x5D00 then s.windowWord w
  else if index = 0x2C11 then s.pubkeyWord w
  else if 0x4700 ≤ index ∧ index ≤ 0x470F then s.nozReport (index - 0x4700) w
  else s.tabWord index w

/-- The words of one DOM_READ, sampled together; the directory and the counter list are formed once. -/
def State.tableWords (s : State) (index w n : Nat) : List Nat :=
  if index = 0x5E00 then (s.directory.drop w).take n else (List.range n).map (fun i => s.tableWord index (w + i))

end Sys2Proof.Machine
end

