-- ==== Sys2Proof/Machine/Effects.lean ====
section
/-! DEFINITION. Writes of objects: reserved bits, ranges, the operating states in which a write is accepted, and what a write does beside
changing the value (R4, R15, R105, R107, and the rules of each object). The same effects apply when a shadowed value is handed over. -/

namespace Sys2Proof.Machine

/-! ## Bits that a write can set (R4, R15) -/

/-- Bits of the value that are kept: reserved bits and the bits of ports that are not bonded read 0. -/
def State.keepBits (s : State) (key : Nat) : Nat :=
  let idx := key / 256
  let sub := key % 256
  if key = Key.FIRE_ARM ∨ key = Key.FIRE_DISARM ∨ key = Key.TRACE_PORTS then s.portMask
  else if idx = 0x2401 ∧ sub < 4 then s.portMask * 65536 + 0x0BFF
  else if 0x2140 ≤ idx ∧ idx < 0x2160 ∧ sub = 0 then 0x00FFFF81
  else if key = Key.CAM_TRIG_INVERT then 3
  else if key = Key.LANE_ENABLE ∨ key = Key.DT_ENABLE then 0xF
  else if idx = 0x2A01 then 0x3F
  else if idx = 0x2A10 then 0x3FF0FFFF
  else if key = Key.INJECT then 0xFF
  else if key = Key.WAKE_ENABLE then 7
  else if idx = 0x2E01 then 0xFFFF00FF
  else if idx = 0x2740 ∨ idx = 0x2741 then 0xF800FFFFFFFFFFFF
  else if (idx = 0x2742 ∨ idx = 0x2743) ∧ sub < 4 then 0xE000FFFFFFFFFFFF
  else if (idx = 0x2710 ∨ idx = 0x2711) ∧ sub = 22 then 0xFFFCFFFFFFFFFFFF
  else if 0x2910 ≤ idx ∧ idx < 0x2930 ∧ sub = 4 then 0x3F
  else if 0x2910 ≤ idx ∧ idx < 0x2930 ∧ sub = 8 then 0x3F1F
  else if 0x3000 ≤ idx ∧ idx < 0x3100 then
    (match idx % 16, sub with
    | 3, 5 => 3
    | 3, 7 => 0xE
    | 7, 0 => 0x1FFFE000
    | 7, 1 => 0xFFFFFF00
    | 9, 0 => 0xF
    | 10, 7 => 7
    | 10, 8 => 7
    | _, _ => 2 ^ 72 - 1)
  else 2 ^ 72 - 1

/-- The value as the object takes it; bit 63 of TRACE_FILTER is always set (R553). -/
def State.keptVal (s : State) (key v : Nat) : Nat :=
  let w := Nat.land v (s.keepBits key)
  if key = Key.TRACE_FILTER then Nat.lor w (2 ^ 63) else w

/-! ## Ranges (R105) -/

/-- Codes of a CODE_SET with LEVELS: 0 < L1 < L2 < L3 ≤ 4,095 (R260, R275). -/
def levelsRange (v : Nat) : Bool :=
  decide (0 < bits v 15 0) && decide (bits v 15 0 < bits v 31 16) && decide (bits v 31 16 < bits v 47 32) && decide (bits v 47 32 ≤ 4095)

/-- The first `n` 2-bit fields of LANE_MAP name distinct lanes (R376). -/
def laneMapRange (n v : Nat) : Bool := ((List.range n).map (fun i => bits v (2 * i + 1) (2 * i))).dedup.length == n

/-- Range of port objects that depend on others. -/
def State.portRange (s : State) (p sub9 sub v : Nat) : Bool :=
  match sub9, sub with
  | 3, 7 => v != 0
  | 3, 8 => levelsRange v
  | 5, _ => true
  | 7, 0 => decide (2 ≤ bits v 28 24) && bits v 21 20 != 3
  | 7, 1 => bits v 23 16 != 0
  | 9, 3 => decide (sgn 16 v < s.regI (Key.LIMIT_SOFT p))
  | 9, 4 => decide (s.regI (Key.LIMIT_WARN p) < sgn 16 v) && decide (sgn 16 v < s.regI (Key.LIMIT_HARD p))
  | 9, 5 => decide (s.regI (Key.LIMIT_SOFT p) < sgn 16 v)
  | 10, 5 => v == 0xFF || (decide (v < s.nPorts) && v != p)
  | _, _ => true

/-- CAL_SET_TEMP stays in ascending order (R351). -/
def State.setTempRange (s : State) (i v : Nat) : Bool :=
  ascending ((List.range 5).map (fun j => if j = i then sgn 16 v else s.regI (Key.CAL_SET_TEMP j)))

/-- Range of unit-wide calibration objects (R351). -/
def State.calRange (s : State) (sub v : Nat) : Bool :=
  match sub with
  | 5 => decide (v ≤ 2)
  | 7 => decide (v + 1024 ≤ s.reg Key.CAL_CODE_HI)
  | 8 => decide (s.reg Key.CAL_CODE_LO + 1024 ≤ v)
  | 12 => decide (v + 1024 ≤ s.reg Key.CAL_REF_HI)
  | 13 => decide (s.reg Key.CAL_REF_LO + 1024 ≤ v)
  | _ => true

/-- Range of camera objects that depend on others (R376, R377, R407, R408). Bits 7..6 of CAM_VC belong to no exposure and no range is given for
them, so every value of them is accepted. -/
def State.camRange (s : State) (c sub v : Nat) : Bool :=
  match sub with
  | 2 => laneMapRange (s.reg (Key.CAM_LANES c)) v
  | 5 => laneMapRange 3 v
  | 7 => v % 2 == 0 && decide (8 ≤ v) && decide (v ≤ 4096)
  | 22 => i2cRange v
  | _ => true

/-- Range of the loop's objects that depend on others (R432). -/
def State.loopRange (s : State) (sub v : Nat) : Bool :=
  match sub with
  | 4 => decide (8 ≤ v) && v % max 1 (s.pendOr Key.STRIP_PITCH) == 0
  | 5 => decide (1 ≤ v) && decide (v ≤ 16)
  | 17 => decide (v < s.reg Key.WEAK_FRAC)
  | 18 => decide (s.reg Key.MISS_FRAC < v)
  | _ => true

/-- The ranges that no pair of bounds states (R105). -/
def State.rangeSpecial (s : State) (key v : Nat) : Bool :=
  let idx := key / 256
  let sub := key % 256
  if key = Key.SSI_BITS then decide (1 ≤ v) && decide (v ≤ 32)
  else if key = Key.SSI_STATUS_BITS then decide (v ≤ 4) && decide (v < s.reg Key.SSI_BITS)
  else if 0x2140 ≤ idx ∧ idx < 0x2160 then (if sub = 0 then s.cmpCtrlRange (idx - 0x2140) v
    else !(bit (s.cmpCtrl (idx - 0x2140)) 0 && s.cmpBadPeriod (idx - 0x2140) (s.cmpCtrl (idx - 0x2140))))
  else if idx = 0x2401 then decide (bits v 7 0 ≤ 20)
  else if idx = 0x2510 then s.calRange sub v
  else if idx = 0x2511 then s.setTempRange sub v
  else if idx = 0x2710 ∨ idx = 0x2711 then s.camRange (idx - 0x2710) sub v
  else if idx = 0x2730 ∨ idx = 0x2731 then
    (if sub = 3 then decide (v < s.reg (Key.KNEE_HI (idx - 0x2730))) else decide (s.reg (Key.KNEE_LO (idx - 0x2730)) < v))
  else if idx = 0x2800 then s.loopRange sub v
  else if key = Key.INJECT then srcExists s.nPorts v
  else if idx = 0x2A10 then srcConfigRange sub v
  else if key = Key.LOG_WINDOW_SEQ then s.windowRange v
  else if idx = 0x2E01 then decide (bits v 7 0 ≤ 0x0F)
  else if 0x3000 ≤ idx ∧ idx < 0x3100 then s.portRange ((idx - 0x3000) / 16) (idx % 16) sub v
  else true

/-- Is a value, reserved bits removed, in the object's range (R105)? -/
def State.inRange (s : State) (o : Obj) (key v : Nat) : Bool :=
  let i : Int := if o.ty.signed then sgn o.ty.width v else (v : Int)
  if ¬ s.elemHere key then true
  else if (key / 256 = 0x2740 ∨ key / 256 = 0x2741) then bits v 60 59 != 3
  else match o.rng with
  | .any => true
  | .between lo hi => decide (lo ≤ i) && decide (i ≤ hi)
  | .either x lo hi => v == x || (decide (lo ≤ i) && decide (i ≤ hi))
  | .oneOf l => l.contains v
  | .special => s.rangeSpecial key v

/-! ## Operating states (status STATE) -/

/-- A write that enables the loop waits on this clock (R403). -/
def enablesLoop : Instr → Bool
  | .loopEnable r => bit ((r.frame.data.headD 0).toNat) 0
  | _ => false

/-- Objects that the loop has taken for itself, or takes on this clock (R211, R399, R403, R428); FINDER_T and FINDER_MIN remain the host's (R416). -/
def State.loopTaken (s : State) (key : Nat) : Bool :=
  let idx := key / 256
  let sub := key % 256
  (s.loop.owns || s.pending.any enablesLoop) && (idx == 0x215E || idx == 0x215F || ((idx == 0x2740 || idx == 0x2741) && decide (4 ≤ sub))
    || ((idx == 0x2742 || idx == 0x2743) && (sub == 2 || sub == 3)))

/-- Ports that fail a check of an arming, each with its reasons (R302). -/
def State.armFails (s : State) (mask : Nat) : List (Nat × Nat) :=
  let inh := s.inhibited s.reactions || s.boot.cutting || !s.boot.blocks.isEmpty
  let chainOk := s.link.st == .active || s.link.st == .wrapped
  ((s.toArm mask).map (fun p => (p, s.armReasons inh chainOk p))).filter (fun e => e.2 != 0)

/-- Is an update command possible in the present state (R523, R524)? -/
def State.updateOk (s : State) (v : Nat) : Bool :=
  match v with
  | 1 => s.reg Key.UPDATE_STATE == 2
  | 2 => s.reg Key.UPDATE_STATE == 5
  | 3 => s.reg Key.UPDATE_STATE == 6
  | 4 => s.abortOk
  | _ => true

/-- Is a lifecycle command possible in the present state (R530)? -/
def State.lifeOk (s : State) (v : Nat) : Bool :=
  !s.armed && (match v with
    | 1 => s.advanceOk
    | 2 => s.reg Key.LIFECYCLE != 4
    | _ => true)

/-- Is the sheet source `v` possible with the direction `d` (R184)? -/
def sheetSourceOk (v d : Nat) : Bool := !(v == 1 && d == 2) && !(v == 4 && d != 2)

/-- Conditions of objects that have one of their own. -/
def State.condSpecial (s : State) (key v : Nat) : Bool :=
  let idx := key / 256
  if key = Key.POS_ROLE then !s.armed || s.roleLater
  else if key = Key.GRID_ENABLE then !(v == 0 && s.armed)
  else if key = Key.SHEET_SOURCE then !s.flag Key.GRID_ENABLE && sheetSourceOk v (s.reg Key.GRID_DIR)
  else if key = Key.SHEET_AT then s.reg Key.SHEET_SOURCE == 2
  else if key = Key.FIRE_ARM then (s.armFails v).isEmpty
  else if key = Key.FAULT_CLEAR then v == 0xFFFF || s.clearable v
  else if key = Key.INJECT then !s.injPending
  else if key = Key.UPDATE_COMMAND then s.updateOk v
  else if key = Key.KEY_COMMIT then s.keyOk
  else if key = Key.POWER_REQ then s.power.req.isNone
  else if key = Key.TRACE_CLOCK then decide (s.reg Key.TRACE_MODE < 2)
  else if idx = 0x2710 ∨ idx = 0x2711 then s.reg (Key.I2C_STATUS (idx - 0x2710)) != 1
  else if 0x2910 ≤ idx ∧ idx < 0x2930 then (s.dch (idx - 0x2910)).st == .idle
  else true

/-- Is the write accepted in the present operating state (R120 step 9)? -/
def State.stateOk (s : State) (o : Obj) (key v : Nat) : Bool :=
  if s.loopTaken key then false
  else if key = Key.GRID_DIR then !s.flag Key.GRID_ENABLE && sheetSourceOk (s.reg Key.SHEET_SOURCE) v
  else if key = Key.LIFECYCLE_CMD then s.lifeOk v
  else match o.cond with
  | .always => true
  | .notArmed => !s.armed
  | .gridOff => !s.flag Key.GRID_ENABLE
  | .camOff => !s.flag (Key.CAM_ENABLE (key / 256 % 2))
  | .camsOff => !s.flag (Key.CAM_ENABLE 0) && !s.flag (Key.CAM_ENABLE 1)
  | .special => s.condSpecial key v

/-- A refused arming leaves its reasons (R302). -/
def State.armRefused (s : State) (v : Nat) : State :=
  let l := s.armFails v
  (s.setReg Key.ARM_REFUSE (l.foldl (fun a e => Nat.lor a e.2) 0)).setReg Key.ARM_REFUSE_PORTS (nsum (l.map (fun e => 2 ^ e.1)))

/-- Does the lifecycle state forbid the write (R120 step 7; R302, R495, R530, R533, R546)? -/
def State.lifecycleBars (s : State) (key v : Nat) : Bool :=
  let lc := s.reg Key.LIFECYCLE
  if key = Key.FIRE_ARM then lc == 0 || lc == 4
  else if key = Key.INJECT then s.injRefused v
  else if key = Key.TRACE_MODE then s.traceRefused v
  else if key = Key.LIFECYCLE_CMD then lc == 0
  else if key = Key.KEY_COMMIT then !(lc == 2 || lc == 3)
  else false

/-! ## Effects -/

/-- A port's waveforms are judged again (R286, R291, R293). -/
def State.waveChanged (s : State) (p : Nat) : State := (s.refreshWave p).judgeWave p

/-- What has to be judged once every value of an instant stands: the windows (R229–R234), the dead-nozzle figures of a port (R259), the
waveforms of a port (R293). Tables go by the key of their subindex 0. -/
def needsWindows (key : Nat) : Bool :=
  let idx := key / 256
  (decide (0x3000 ≤ idx ∧ idx < 0x3100) && (idx % 16 == 0 || idx % 16 == 2))
    || (decide (0x4000 ≤ idx ∧ idx < 0x4400) && idx % 0x40 == 0) || (decide (0x2210 ≤ idx ∧ idx < 0x2220) && key % 256 == 3)
def deadPort (key : Nat) : Option Nat :=
  let idx := key / 256
  if 0x3000 ≤ idx ∧ idx < 0x3100 ∧ idx % 16 = 3 ∧ (key % 256 = 9 ∨ key % 256 = 10) then some ((idx - 0x3000) / 16)
  else if 0x4000 ≤ idx ∧ idx < 0x4400 ∧ (idx % 0x40 = 0 ∨ idx % 0x40 = 1 ∨ idx % 0x40 = 3) then some ((idx - 0x4000) / 0x40)
  else none
def wavePort (key : Nat) : Option Nat :=
  let idx := key / 256
  if 0x3000 ≤ idx ∧ idx < 0x3100 ∧ (idx % 16 = 6 ∨ (idx % 16 = 5 ∧ key % 256 < 13)) then some ((idx - 0x3000) / 16)
  else if 0x4000 ≤ idx ∧ idx < 0x4400 ∧ 0x08 ≤ idx % 0x40 ∧ idx % 0x40 ≤ 0x0B then some ((idx - 0x4000) / 0x40)
  else none

/-- Does a hand-over of this object or table set the scale factor of channel `w` of port `p` at once (R295)? -/
def snaps (p w key : Nat) : Bool :=
  key == Key.WAVE_SEL p w || key / 256 == 0x4008 + 0x40 * p + w || (List.range 5).any (fun i => key == Key.SCALE_TEMP p i)

/-- Judges what follows from objects and tables that have changed together at one instant (R190, R259, R293). -/
def State.settleKeys (s : State) (keys : List Nat) : State :=
  let s1 := if keys.any needsWindows then s.windowsHanded else s
  let s2 := s1.forEach ((List.range s1.nPorts).filter (fun p => (keys.filterMap deadPort).contains p)) State.judgeDead
  let s3 := s2.forEach ((List.range s2.nPorts).filter (fun p => (keys.filterMap wavePort).contains p)) (fun p s => s.waveChanged p)
  s3.forEach (List.range s3.nPorts) (fun p s =>
    s.forEach ((List.range 4).filter (fun w => keys.any (snaps p w))) (fun w s => s.snapScale p w))

/-- Effect of a change of a port object whose new value stands in its register. -/
def State.portEffect (s : State) (p sub9 sub old key : Nat) : State :=
  match sub9 with
  | 3 => if resetsCarry p key then s.resetCarry p else s
  | 9 => if sub = 8 then s.heatModeWrite p old else s
  | 10 => if sub = 8 then s.loopClearWrite p old else s
  | _ => s

/-- Effect of a change of a Position Base object. -/
def State.posEffect (s : State) (key old : Nat) : State :=
  if key = Key.SSI_COMMAND then s.ssiCommandWrite
  else if key = Key.SSI_MODULUS then s.ssiModulusWrite
  else if key = Key.POS_ROLE then s.posRoleWrite
  else if key = Key.POS_PRESET then s.posPresetWrite
  else if key = Key.ENC_OUT_MODE then s.syncEncOut
  else if key = Key.DIR_SOURCE ∨ key = Key.DIR_PIN_INVERT ∨ key = Key.SLIP_STEP_TICKS ∨ key = Key.SLIP_WINDOW then s.dirConfig key old
  else if (key / 256 = 0x2000 ∧ key % 256 < 4) ∨ (key / 256 = 0x2001 ∧ key % 256 < 3) then s.encConfig key old
  else s

/-- GRID_ENABLE: the grid is set up or stopped, the loop and the windows follow (R177, R181, R229, R415). -/
def State.gridEffect (s : State) (old : Nat) : State :=
  let on := s.flag Key.GRID_ENABLE && old == 0
  let s1 := s.gridEnableWrite old
  ((if on then s1.loopRegrid else s1)).windows on

/-- Effect of a change of a Line Scheduler object. -/
def State.schedEffect (s : State) (key old : Nat) : State :=
  let idx := key / 256
  if key = Key.GRID_ENABLE then s.gridEffect old
  else if key = Key.SHEET_AT then s.queueSheet (s.reg Key.SHEET_AT)
  else if key = Key.SHEET_LINES then s.freezeAll
  else if 0x2140 ≤ idx ∧ idx < 0x2160 then
    (match key % 256 with
    | 0 => s.cmpCtrlWrite (idx - 0x2140) old
    | 1 => s.cmpTargetWrite (idx - 0x2140)
    | _ => s)
  else s

/-- Effect of a change of an ingress object: the layout, or the lanes (R216, R229). -/
def State.ingressEffect (s : State) (key : Nat) : State :=
  let sub := key % 256
  if key / 256 = 0x2200 then
    (match sub with
    | 0 | 4 | 5 | 7 => s.relayout (layoutPlanes key)
    | 1 => s.laneEnableWrite
    | _ => s)
  else if sub < 3 then s.relayout (layoutPlanes key)
  else s

/-- Effect of a change of an inspection object (R376–R381, R388). -/
def State.camEffect (s : State) (key old : Nat) : State :=
  let idx := key / 256
  let s1 := match configOf idx with
    | some c => s.inc (Key.CONFIG_SEQ c)
    | none => s
  if idx = 0x2710 ∨ idx = 0x2711 then
    (match key % 256 with
    | 0 => s1.camEnableWrite (idx - 0x2710) old
    | 12 => s1.camSilentWrite (idx - 0x2710)
    | 22 => s1.i2cStart (idx - 0x2710)
    | _ => s1)
  else s1

/-- What a write does once the value stands in the register; `old` is the value before. -/
def State.objEffect (s : State) (key old : Nat) : State :=
  let idx := key / 256
  if idx < 0x2000 then s
  else if idx < 0x2100 then s.posEffect key old
  else if idx < 0x2200 then s.schedEffect key old
  else if idx < 0x2300 then s.ingressEffect key
  else if idx = 0x2401 then s.gateCfgWrite (key % 256) old
  else if idx < 0x2700 then s
  else if idx < 0x2800 then s.camEffect key old
  else if key = Key.LOOP_ENABLE then s.loopEnableWrite
  else if key = Key.BM_CONTROL then s.bmRestart
  else if 0x2910 ≤ idx ∧ idx < 0x2930 then
    (if key % 256 = 6 then s.updDch (idx - 0x2910) (fun r => { r with fresh := true }) else s)
  else if key = Key.TRACE_MODE then s.traceModeWrite old
  else if key = Key.TRACE_RESTART then (if s.flag Key.TRACE_RESTART then s.traceRestart else s)
  else if idx = 0x2E01 then s.pmcSelWrite (key % 256)
  else if 0x3000 ≤ idx ∧ idx < 0x3100 then s.portEffect ((idx - 0x3000) / 16) (idx % 16) (key % 256) old key
  else s

/-- Objects that are commands: writing them acts and holds nothing; the others are `none`. -/
def State.command (s : State) (key v : Nat) : Option State :=
  let idx := key / 256
  if key = Key.FIRE_ARM then some (s.armPorts v)
  else if key = Key.FIRE_DISARM then some (s.disarmPorts v).lastOfClock
  else if idx = 0x2513 then some (if v = 1 then s.calAbortWrite (key % 256) else s)
  else if key = Key.DMA_HOST_FLAGS then some (s.setReg key (s.reg key - Nat.land (s.reg key) v))
  else if key = Key.WORD_DATA then some (s.wordWrite v)
  else if 0x2910 ≤ idx ∧ idx < 0x2930 ∧ key % 256 = 7 then some (s.dmaCmd (idx - 0x2910) v)
  else if key = Key.FAULT_CLEAR then some (s.faultClear v)
  else if key = Key.FIRST_CLEAR then some (if v = 1 then s.firstClear else s)
  else if key = Key.HIST_CLEAR then some (if v = 1 then s.histClear else s)
  else if key = Key.INJECT then some (s.injectArm v)
  else if key = Key.CALDERA_RESTART then
    some ((s.updMgmt (fun m => { m with hostAt := some s.clk })).restartNow (if s.mgmt.wdtAt = some s.clk then 2 else 4))
  else if key = Key.UPDATE_COMMAND then
    some (match v with
      | 1 => s.updateInstall
      | 2 => s.updateActivate
      | 3 => s.updateConfirm
      | _ => s.updateAbort)
  else if key = Key.LIFECYCLE_CMD then
    some (if v = 1 then s.lifeTo (s.reg Key.LIFECYCLE + 1) else s.retire)
  else if key = Key.KEY_COMMIT then some s.keyInstall
  else if key = Key.STICKY_ADDR then some (s.storeSticky v)
  else if key = Key.POWER_REQ then some (s.powerReqWrite v)
  else none

/-- A written value stands, with its own effect; what it means together with other values of the same instant is judged after
(`settleKeys`). -/
def State.putWrite (s : State) (key v : Nat) : State :=
  if ¬ s.elemHere key then s
  else match s.command key v with
  | some t => t
  | none => (s.setReg key v).objEffect key (s.reg key)

/-- A single write takes effect: at its acceptance for an IMMEDIATE object (R107). -/
def State.applyWrite (s : State) (key v : Nat) : State := (s.putWrite key v).settleKeys [key]

/-! ## Tables -/

/-- Bits of a table word that the device keeps (R15): the reserved bits of each layout read 0. -/
def tableKeep (index w : Nat) : Nat :=
  if index < 0x4400 then
    (match index % 0x40 with
    | 0 => 0x9FFFFF + 0x9FFFFF * 2 ^ 24 + 0x9FFFFF * 2 ^ 48
    | 2 => if w < 256 then 2 ^ 64 - 1 else 2 ^ 16 - 1
    | 0x10 => if w < 16 then 2 ^ 64 - 1 else 2 ^ 16 - 1
    | 1 => 2 ^ 72 - 1
    | _ => if w % 33 = 0 then 2 ^ 72 - 1 - 15 * 2 ^ 60 else 2 ^ 72 - 1 - (31 * 2 ^ 28 + 31 * 2 ^ 64))
  else if index = 0x4600 ∨ index = 0x4601 then (if w < 128 then 2 ^ 64 - 1 else 2 ^ 16 - 1)
  else if index = 0x4604 ∨ index = 0x4605 then (if w % 65 < 64 then 2 ^ 64 - 1 else 2 ^ 16 - 1)
  else if isMatrix index then (if w = 0 then 0xFFFF else 2 ^ 72 - 1)
  else if isMask index then (if w = 0 then 0xFFFFF else 2 ^ 72 - 1)
  else if 0x4410 ≤ index ∧ index ≤ 0x4417 then 2 ^ 72 - 2 ^ 12
  else if 0x4500 ≤ index ∧ index ≤ 0x4503 then (if w % 2 = 0 then 2 ^ 72 - 1 - 7 * 2 ^ 68 else 2 ^ 72 - 1)
  else 2 ^ 72 - 1

/-- The staged words of a session as a table (R127). -/
def Session.image (k : Session) : Tab :=
  { len := some k.length
    words := k.words.foldl (fun m e => Map.put (fun _ => 0) m e.1 (BitVec.ofNat 72 (Nat.land (e.2.getD 0).toNat (tableKeep k.index e.1)))) [] }

/-- The host replaces CAL_SETS: a calibration of the group that is measuring ends ABORTED, and a set write of this clock gives way; the new sets
come into force at the next recomputation (R324, R349). -/
def State.setsReplaced (s : State) (g : Nat) : State :=
  let s1 := s.updCal g (fun r => { r with commitAt := some s.clk })
  if (s.cal g).phase = .measure then s1.calAbort 3 g else s1

/-- What follows when a table has been replaced. -/
def State.tableEffect (s : State) (index : Nat) : State :=
  let p := (index - 0x4000) / 0x40
  if 0x4000 ≤ index ∧ index < 0x4400 then
    (if index % 0x40 = 0 then s.resetCarry p else s)
  else if 0x4500 ≤ index ∧ index ≤ 0x4503 then s.setsReplaced (index - 0x4500)
  else match configOf index with
    | some c => s.inc (Key.CONFIG_SEQ c)
    | none => s

/-- The LOOP_MAP tables that a hand-over of the classes `cs` may change (R426). -/
def State.loopKeys (s : State) (cs : List Commit) : List Nat :=
  if cs.contains .band then (List.range s.nPorts).map (fun p => 256 * (0x4003 + 0x40 * p)) else []

/-- A staged image replaces the table in force (R127). -/
def State.applySession (s : State) (k : Nat) : State :=
  let x := s.sess k
  if x.index = 0x5000 then s else (s.setTab x.index x.image).tableEffect x.index

end Sys2Proof.Machine
end

