-- ==== Sys2Proof/Machine/Dict.lean ====
section
/-! DEFINITION. The Dictionary Server: the checks of a request in their order, the seal, groups, shadowed writes, DOMAIN sessions, the
hand-over of what is pending, broadcasts and the answers (R103-R141). -/

namespace Sys2Proof.Machine

/-! ## Hand-over (R110, R111, R123, R190) -/

/-- Something that waits for a boundary. -/
inductive Item where
  | shadow (h : Shadow)
  | group (g : Nat)
  | session (k : Nat)
deriving DecidableEq, Repr

/-- Ungrouped writes and sessions are the ones that 0x1212 records (R123). -/
def Item.ungrouped : Item → Bool
  | .group _ => false
  | _ => true

/-- Items of class `c` with their places in the order of acceptance; `ready acc skip` says which of them are taken. -/
def State.items (s : State) (c : Commit) (ready : Nat → Bool → Bool) : List (Nat × Item) :=
  ((s.dict.shadows.filter (fun h => h.cls = c ∧ ready h.acc h.skip)).map (fun h => (h.order, Item.shadow h)))
  ++ ((s.dict.groups.filter (fun e => e.2.st = .closed ∧ e.2.cls = c ∧ ready e.2.acc e.2.skip)).map (fun e => (e.2.order, Item.group e.1)))
  ++ ((s.dict.sessions.filter (fun e => e.2.st = .pending ∧ e.2.group = 0 ∧ e.2.cls = c ∧ ready e.2.acc e.2.skip)).map
      (fun e => (e.2.order, Item.session e.1)))

/-- Items in the order of their acceptance instants (R110). -/
def inOrder (l : List (Nat × Item)) : List Item := (l.insertionSort (fun a b => a.1 ≤ b.1)).map (fun e => e.2)

/-- The line number of the last line event (R111). -/
def State.lineNow (s : State) : Nat := s.reg Key.LINE_NOW

/-- A session's image is in force; it reads APPLIED with its COMMIT_EPOCH (R127). -/
def State.sessionDone (s : State) (line : Nat) (forced : Bool) (k : Nat) : State :=
  ((s.applySession k).updSess k (fun x => { x with st := .applied, forced := forced, words := [] })).setReg (Key.SESSION_EPOCH k) line

/-- One entry of a group takes effect. -/
def State.applyEntry (line : Nat) (forced : Bool) (s : State) (e : Entry) : State :=
  match e with
  | .write k v => s.putWrite k v
  | .session k => s.sessionDone line forced k

/-- The keys of the objects and tables that an entry changes. -/
def State.entryKey (s : State) : Entry → Nat
  | .write k _ => k
  | .session k => 256 * (s.sess k).index

/-- A group is handed over: its entries in their order, COMMIT_EPOCH, GROUP_EPOCH_LAST and the class 0x10 event (R123). At a boundary it
returns to FREE; after COMMIT_NOW or the close of an IMMEDIATE group it reads APPLIED (R111, R121; log 37). What follows from the values
together is judged by the caller. -/
def State.applyGroup (s : State) (line : Nat) (forced : Bool) (g : Nat) : State :=
  let r := s.group g
  let s1 := r.entries.foldl (State.applyEntry line forced) s
  let st : GroupSt := if forced ∨ r.cls = .imm then .applied else .free
  let s2 := s1.updGroup g (fun r => { r with st := st, forced := forced, entries := [], skip := false })
  ((s2.setReg (Key.COMMIT_EPOCH g) line).setReg Key.GROUP_EPOCH_LAST line).event 0x10 r.cls.code line

/-- One item takes effect. -/
def State.applyItem (line : Nat) (forced : Bool) (s : State) (i : Item) : State :=
  match i with
  | .shadow h => ({ s with dict := { s.dict with shadows := s.dict.shadows.filter (fun x => x.order ≠ h.order) } }).putWrite h.key h.val
  | .group g => s.applyGroup line forced g
  | .session k => s.sessionDone line forced k

/-- The keys of the objects and tables that an item changes. -/
def State.itemKeys (s : State) : Item → List Nat
  | .shadow h => [h.key]
  | .group g => (s.group g).entries.map s.entryKey
  | .session k => [256 * (s.sess k).index]

/-- Items take effect in their order, all at one instant: what follows from the values is judged once all of them stand (R190). -/
def State.applyItems (s : State) (line : Nat) (forced : Bool) (l : List Item) : State :=
  (l.foldl (State.applyItem line forced) s).settleKeys (l.flatMap s.itemKeys)

/-- A hand-over of class `c` at line `line`: counted and traced (R548, R549). -/
def State.markHandOver (s : State) (c : Commit) (line : Nat) : State :=
  (s.pmc 0x0E (2 ^ (c.code - 1)) (b2n (decide (1 ≤ c.code)))).traceRec 0x03 (fld c.code 2 54 + fld line 32 0)

/-- Records the line of a hand-over of something ungrouped (R123). -/
def State.epochLast (s : State) (c : Commit) (line : Nat) : State := s.setReg (Key.COMMIT_EPOCH_LAST (c.code - 1)) line

/-- Items of class `c` that belong to the boundary of this clock: a frozen boundary takes what was accepted before its freeze point; one
reached without a freeze point takes what was accepted before this clock (R188, R189). -/
def State.assigned (s : State) (c : Commit) : List (Nat × Item) :=
  s.items c (fun acc skip => if s.frozen c then !skip else decide (acc < s.clk))

/-- Everything assigned to the boundary at line `line`, which carries the classes `cs`, is handed over in the order of acceptance, loop
outputs included; what follows from the values is judged once all of them stand (R190, R426). -/
def State.handOver (s : State) (cs : List Commit) (line : Nat) : State :=
  let l := inOrder (cs.flatMap s.assigned)
  let s1 := l.foldl (State.applyItem line false) (cs.foldl (fun (t : State) c => t.markDict c (fun _ _ => false)) s)
  let s2 := cs.foldl (fun (t : State) c =>
    let mine := s.assigned c
    let lp := t.loopHandOver c
    let t1 := if lp.2 ∨ mine.any (fun e => e.2.ungrouped) then lp.1.epochLast c line else lp.1
    if lp.2 ∨ ¬ mine.isEmpty then t1.markHandOver c line else t1) s1
  s2.settleKeys (l.flatMap s.itemKeys ++ s.loopKeys cs)

/-- COMMIT_NOW: everything pending, of every class, at once (R111). -/
def State.commitNow (s : State) : State :=
  let line := s.lineNow
  let of := fun (c : Commit) => s.items c (fun _ _ => true)
  let s1 := s.applyItems line true (inOrder (of .line ++ of .band ++ of .sheet))
  let s2 := [Commit.line, .band, .sheet].foldl (fun (s : State) c =>
    let l := of c
    let s' := if l.any (fun e => e.2.ungrouped) then s.epochLast c line else s
    if l.isEmpty then s' else s'.markHandOver c line) s1
  s2.windows false

/-! ## Groups (R121–R124) -/

/-- Something of class `c` is accepted now: its place in the order, and whether its class is already frozen. -/
def State.nextOrder (s : State) : State × Nat := ({ s with dict := { s.dict with order := s.dict.order + 1 } }, s.dict.order)

/-- An entry is staged in group `g` (R121, R122). -/
def State.groupEntry (s : State) (g : Nat) (c : Commit) (e : Entry) : State × Nat :=
  let r := s.group g
  match r.st with
  | .closed => (s, St.GROUP_NOT_OPEN)
  | .poisoned => (s, St.GROUP_FAILED)
  | .opened =>
    if c ≠ r.cls then (s, St.GROUP_CLASS)
    else if 64 ≤ r.entries.length then (s, St.GROUP_FULL)
    else (s.updGroup g (fun r => { r with entries := r.entries ++ [e] }), St.OK_PENDING)
  | _ => (s.updGroup g (fun _ => { st := .opened, cls := c, entries := [e], since := s.ct }), St.OK_PENDING)

/-- Has an OPEN or POISONED group outlived GROUP_TIMEOUT (R124)? -/
def State.groupDue (s : State) (g : Nat) : Bool :=
  ((s.group g).st == .opened || (s.group g).st == .poisoned) && decide ((s.group g).since + s.reg Key.GROUP_TIMEOUT < s.ct)

/-- The group is discarded and counted (R124). -/
def State.expireGroup (s : State) (g : Nat) : State :=
  if s.groupDue g then (s.discardGroup g .failed).inc Key.GROUP_EXPIRED else s

/-- The values that a write of group `g` is judged with: the entries before it in its group stand (R105, R367; log 37). -/
def State.withGroup (s : State) (g : Nat) : State :=
  if (s.group g).st = .opened then (s.group g).entries.foldl (fun (s : State) e => match e with
    | .write k v => s.setReg k v
    | .session _ => s) s
  else s

/-- Do the entries of an IMMEDIATE group leave every value in its range (R105, R367; log 37)? -/
def State.groupFits (s : State) (g : Nat) : Bool :=
  let t := s.withGroup g
  (s.group g).entries.all (fun e => match e with
    | .write k v => (s.object k).all (fun o => t.inRange o k v)
    | .session _ => true)

/-- GROUP_CLOSE (R121–R124); an expiry of the same instant wins. An IMMEDIATE group that would break the range of an object receives RANGE and
is POISONED (DESIGN CHOICE, log 37). -/
def State.closeGroup (s0 : State) (g : Nat) : State × Nat :=
  let s := s0.expireGroup g
  let r := s.group g
  match r.st with
  | .poisoned => (s.discardGroup g .failed, St.GROUP_FAILED)
  | .opened =>
    if r.cls = .imm ∧ ¬ s.groupFits g then (s.updGroup g (fun r => { r with st := .poisoned }), St.RANGE)
    else if r.cls = .imm then
      let s1 := (s.applyItems s.lineNow false [.group g]).traceRec 0x03 (fld s.lineNow 32 0)
      (s1.windows false, St.OK)
    else
      let n := s.nextOrder
      let s1 := r.entries.foldl (fun (s : State) e => match e with
        | .session k => s.updSess k (fun x => { x with st := .pending })
        | .write _ _ => s) n.1
      (s1.updGroup g (fun r => { r with st := .closed, order := n.2, skip := s.frozen r.cls, acc := s.clk }), St.OK_PENDING)
  | _ => (s, St.GROUP_NOT_OPEN)

/-- Is something pending past the freeze point of its boundary (R124, R130)? -/
def State.past (s : State) (c : Commit) (skip : Bool) : Bool := s.frozen c && !skip

/-- GROUP_ABORT (R124); the Bool is ABORT_LATE. -/
def State.abortGroup (s0 : State) (g : Nat) : State × Nat × Bool :=
  let s := s0.expireGroup g
  let r := s.group g
  match r.st with
  | .opened => (s.discardGroup g .aborted, St.OK, false)
  | .poisoned => (s.discardGroup g .aborted, St.OK, false)
  | .closed => if s.past r.cls r.skip then (s, St.OK, true) else (s.discardGroup g .aborted, St.OK, false)
  | _ => (s, St.GROUP_NOT_OPEN, false)

/-! ## DOMAIN sessions (R125–R130) -/

/-- Is a session in use: open, or committed and not yet handed over? -/
def SessSt.inUse : SessSt → Bool
  | .opened | .complete | .pending => true
  | _ => false

/-- The session on a table. -/
def State.sessionOf (s : State) (index : Nat) : Option Nat :=
  (List.range 4).find? (fun k => (s.sess k).st.inUse && decide ((s.sess k).index = index))

/-- DOM_OPEN (R125); FW_IMAGE goes to the inactive bank (R522). -/
def State.domOpen (s : State) (o : Obj) (q : Req) : State × Nat :=
  match s.sessionOf q.index, (List.range 4).find? (fun k => !(s.sess k).st.inUse) with
  | none, some k =>
    if o.size < q.d1Hi then (s, St.DOMAIN_OFFSET)
    else
      let s1 := s.updSess k (fun _ => { st := .opened, index := q.index, length := q.d1Hi, crc := q.d1Lo, last := s.ct, cls := o.commit })
      (if q.index = 0x5000 then s1.imageOpen q.d1Hi else s1, St.OK)
  | _, _ => (s, St.DOMAIN_BUSY)

/-- Words staged at an offset (R126). -/
def stage (m : Map (Option Word)) (off : Nat) (ws : List Nat) : Map (Option Word) :=
  ws.zipIdx.foldl (fun m e => Map.put (fun _ => none) m (off + e.2) (some (BitVec.ofNat 72 e.1))) m

/-- The words of a DOM_WRITE (R115). -/
def Req.domWords (q : Req) : List Nat := unpackWords q.nwords ((q.blocks.drop 1).map (BitVec.ofNat 64))

/-- DOM_WRITE (R126). -/
def State.domWrite (s : State) (q : Req) : State × Nat :=
  match s.sessionOf q.index with
  | none => (s, St.DOMAIN_NOT_OPEN)
  | some k =>
    if (s.sess k).st ≠ .opened then (s, St.DOMAIN_NOT_OPEN)
    else
      let s1 := s.updSess k (fun x => { x with last := s.ct })
      if (s.sess k).length < q.d1Hi + q.nwords then (s1, St.DOMAIN_OFFSET)
      else
        let s2 := s1.updSess k (fun x => { x with words := stage x.words q.d1Hi q.domWords })
        (if q.index = 0x5000 then s2.imageWrite q.d1Hi q.domWords else s2, St.OK)

/-- The staged image, where every word below LENGTH has been written. -/
def Session.whole (x : Session) : Option (List Nat) :=
  (List.range x.length).mapM (fun i => (Map.get (fun _ => (none : Option Word)) x.words i).map BitVec.toNat)

/-- Is the image complete, with the CRC that was declared (R127)? -/
def Session.good (x : Session) : Bool := x.whole.any (fun l => crc32c (wordBytes l) == x.crc)

/-- A session whose image is good is committed: in its group, at once, or for a boundary (R127). -/
def State.commitSession (s : State) (o : Obj) (g k : Nat) : State × Nat :=
  if g ≠ 0 then
    let r := s.groupEntry g o.commit (.session k)
    if r.2 = St.OK_PENDING then (r.1.updSess k (fun x => { x with st := .complete, group := g }), r.2) else r
  else if o.commit = .imm then
    let s1 := s.applyItems s.lineNow false [.session k]
    (if (s.sess k).index = 0x5000 then s1.imageStaged else s1, St.OK)
  else
    let n := s.nextOrder
    (n.1.updSess k (fun x => { x with st := .pending, group := 0, order := n.2, skip := s.frozen o.commit, acc := s.clk }), St.OK_PENDING)

/-- What the state of its group answers a DOM_COMMIT with, before its session is judged (R121, R122). -/
def State.groupBars (s : State) (g : Nat) : Option Nat :=
  if g = 0 then none
  else match (s.group g).st with
    | .closed => some St.GROUP_NOT_OPEN
    | .poisoned => some St.GROUP_FAILED
    | _ => none

/-- DOM_COMMIT (R121, R122, R127). -/
def State.domCommit (s : State) (o : Obj) (q : Req) : State × Nat :=
  match s.groupBars q.r.group.toNat with
  | some st => (s, st)
  | none =>
  match s.sessionOf q.index with
  | none => (s, St.DOMAIN_NOT_OPEN)
  | some k =>
    if (s.sess k).st ≠ .opened then (s, St.DOMAIN_NOT_OPEN)
    else
      let s1 := s.updSess k (fun x => { x with last := s.ct })
      if (s.sess k).good then s1.commitSession o q.r.group.toNat k else (s1, St.DOMAIN_CHECK)

/-- Session `k` reads ABORTED. -/
def State.sessAborted (s : State) (k : Nat) : State := s.updSess k (fun x => { x with st := .aborted, words := [] })

/-- DOM_ABORT of a session that is an entry of a group (R130). -/
def State.abortEntry (s : State) (k : Nat) : State × Nat × Bool :=
  let g := (s.sess k).group
  let r := s.group g
  match r.st with
  | .closed => if s.past r.cls r.skip then (s, St.OK, true) else (s.discardGroup g .aborted, St.OK, false)
  | _ =>
    let s1 := s.updGroup g (fun r => { r with
      st := if r.st = .opened then .poisoned else r.st, entries := r.entries.filter (fun e => e ≠ .session k) })
    (s1.sessAborted k, St.OK, false)

/-- DOM_ABORT (R130, R524); the Bool is ABORT_LATE. -/
def State.domAbort (s : State) (q : Req) : State × Nat × Bool :=
  match s.sessionOf q.index with
  | none => (s, St.DOMAIN_NOT_OPEN, false)
  | some k =>
    let x := s.sess k
    if x.st = .opened then
      let s1 := s.sessAborted k
      (if q.index = 0x5000 ∧ s.reg Key.UPDATE_STATE = 1 then s1.abortUpdate 1 else s1, St.OK, false)
    else if x.group ≠ 0 then s.abortEntry k
    else if s.past x.cls x.skip then (s, St.OK, true)
    else (s.sessAborted k, St.OK, false)

/-- Has an open session had no request for 1 s (R125)? -/
def State.sessDue (s : State) (k : Nat) : Bool := (s.sess k).st == .opened && decide ((s.sess k).last + 500000000 ≤ s.ct)

/-! ## Values on the wire (R104, R105) -/

/-- The value of a WRITE, or none where its upper bits are wrong (R105). -/
def Req.value (q : Req) (ty : Ty) : Option Nat :=
  let b := q.blocks.headD 0
  match ty with
  | .w72 => let hi := q.blocks.getD 1 0; if hi < 256 then some (b + 2 ^ 64 * hi) else none
  | t =>
    let w := t.width
    let top := b / 2 ^ (w - 1)
    if t.signed then (if top = 0 ∨ top = 2 ^ (65 - w) - 1 then some (b % 2 ^ w) else none)
    else if b < 2 ^ w then some b else none

/-- The value blocks of a value (R104). -/
def valueBlocks (ty : Ty) (v : Nat) : List Block :=
  match ty with
  | .w72 => [BitVec.ofNat 64 v, BitVec.ofNat 64 (v / 2 ^ 64)]
  | t => if t.signed then [BitVec.ofInt 64 (sgn t.width v)] else [BitVec.ofNat 64 v]

/-! ## The checks of R120 -/

/-- LEN without the seal blocks. -/
def Req.len (q : Req) : Nat := q.r.frame.data.length + 1 - (if q.r.sealed then 2 else 0)

/-- Does LEN fit the operation (R113)? A WRITE passes here with 2 or 3. -/
def Req.lenOk (q : Req) : Bool :=
  match q.op with
  | .write => q.len == 2 || q.len == 3
  | .domOpen => q.len == 2
  | .domWrite => q.len == 2 + ceilDiv (9 * q.nwords) 8
  | .domRead => q.len == 2
  | _ => q.len == 1

/-- Step 1 (R113, R119, R120): BAD_REQUEST before LEN_ERROR. -/
def Req.step1 (q : Req) : Option Nat :=
  let g := q.r.group.toNat
  if !q.op.listed || (q.op.noObject && (q.index != 0 || q.sub != 0)) || (q.r.sealed && !q.op.sealable) || (g != 0 && !q.op.grouped && !q.op.namesGroup)
    || (g == 0 && q.op.namesGroup) || (q.op == .read && q.r.count.toNat == 31)
    || ((q.op == .domWrite || q.op == .domRead) && decide (2 ≤ q.len) && (q.nwords == 0 || decide (24 < q.nwords))) then some St.BAD_REQUEST
  else if q.lenOk then none else some St.LEN_ERROR

/-- Consecutive subindices of the request. -/
def Req.n (q : Req) : Nat := if q.op = .read then max 1 q.r.count.toNat else 1

/-- The objects named; `none` for one that does not exist. -/
def State.named (s : State) (q : Req) : List (Option Obj) :=
  (List.range q.n).map (fun i => if q.sub + i < 256 then s.object (q.key + i) else none)

/-- Those that exist. -/
def State.objects (s : State) (q : Req) : List Obj := (s.named q).filterMap id

/-- Step 2 (R103, R113, R120). -/
def State.step2 (s : State) (q : Req) : Option Nat :=
  if ¬ s.hasIndex q.index then some St.NO_OBJECT
  else if (s.named q).any Option.isNone then some St.NO_SUBINDEX
  else match s.objects q with
  | o :: _ =>
    if q.op = .write ∧ q.len ≠ (if o.ty = .w72 then 3 else 2) then some St.LEN_ERROR
    else if q.op = .read ∧ o.ty = .w72 ∧ 15 < q.n then some St.BAD_REQUEST
    else none
  | [] => some St.NO_OBJECT

/-- Steps 3 and 4 (R106, R131). -/
def State.step34 (s : State) (q : Req) : Option Nat :=
  let l := s.objects q
  if q.op.reads then (if l.any (fun o => o.access == .woa) then some St.WRITE_ONLY else none)
  else if l.any (fun o => o.access == .ro) then some St.READ_ONLY
  else if l.any (fun o => o.access == .rwa || o.access == .woa) then (if q.r.sealed then none else some St.SEAL_REQUIRED)
  else if q.r.sealed then some St.SEAL_UNEXPECTED else none

/-- Step 5 (R104, R105). -/
def State.step5 (s : State) (q : Req) : Option Nat :=
  let t := q.r.ty.toNat
  let l := s.objects q
  if (t ≠ 15 ∧ l.any (fun o => o.ty.code != t)) ∨ l.any (fun o => (o.ty == .dom) != q.op.domain)
    ∨ (q.op = .write ∧ l.any (fun o => (q.value o.ty).isNone)) then some St.TYPE_MISMATCH
  else none

/-- Is a firmware-backed object named (R139)? -/
def State.fwNamed (s : State) (q : Req) : Bool := !q.op.noObject && (s.objects q).any Obj.fw

/-- The value that a WRITE gives its object. -/
def State.valueOf (s : State) (q : Req) : Nat :=
  match s.objects q with
  | o :: _ => s.keptVal q.key ((q.value o.ty).getD 0)
  | [] => 0

/-- Steps 6 and 7 (R120, R140). -/
def State.step67 (s : State) (q : Req) : Option Nat :=
  if s.fwNamed q ∧ ¬ s.calderaUp then some St.CALDERA_DOWN
  else if q.op = .write ∧ s.lifecycleBars q.key (s.valueOf q) then some St.LIFECYCLE
  else none

/-- Step 9 (R111, R522, and the conditions of the objects). -/
def State.step9 (s : State) (q : Req) : Option Nat :=
  match q.op, s.objects q with
  | .commitNow, _ => if s.armed then some St.STATE else none
  | .write, o :: _ => if s.stateOk o q.key (s.valueOf q) then none else some St.STATE
  | .domOpen, _ =>
    if q.index = 0x5000 ∧ s.reg Key.UPDATE_STATE ≠ 0 ∧ s.reg Key.UPDATE_STATE ≠ 7 then some St.STATE else none
  | _, _ => none

/-- Step 10 (R105). -/
def State.step10 (s : State) (q : Req) : Option Nat :=
  match q.op, s.objects q with
  | .write, o :: _ => if (s.withGroup q.r.group.toNat).inRange o q.key (s.valueOf q) then none else some St.RANGE
  | _, _ => none

/-- The checks before the seal; the operations without an object pass the second to the seventh. -/
def State.early (s : State) (q : Req) : Option Nat :=
  q.step1 <|> (if q.op.noObject then none else s.step2 q <|> s.step34 q <|> s.step5 q <|> s.step67 q)

/-! ## The seal (R132–R138) -/

/-- Bytes of a sealed value of a type (R134). -/
def Ty.bytes (t : Ty) : Nat := ceilDiv t.width 8

/-- DATA of the message (R134). -/
def State.sealData (s : State) (q : Req) : List Nat :=
  match q.op with
  | .write =>
    (match s.objects q with
    | o :: _ => beBytes o.ty.bytes ((q.value o.ty).getD 0)
    | [] => [])
  | .domOpen => q.op.code :: beBytes 4 q.d1Hi ++ beBytes 4 q.d1Lo
  | .domWrite => q.op.code :: beBytes 4 q.d1Hi ++ beBytes 1 q.nwords ++ q.domWords.flatMap (beBytes 9)
  | _ => [q.op.code]

/-- The message that the tag covers (R133). -/
def State.sealMessage (s : State) (q : Req) : List Nat :=
  beBytes 8 s.ident.serial ++ beBytes 1 s.addr ++ beBytes 2 q.index ++ beBytes 1 q.sub ++ beBytes 4 q.seqNo ++ s.sealData q

/-- Does the tag verify under K_cmd (R132)? A unit without a K_cmd verifies none. -/
def State.tagOk (s : State) (q : Req) : Bool :=
  match s.kcmd with
  | none => false
  | some k => cmac64 k (s.sealMessage q) == q.seal.2

/-- What the seal checks come to (R135). -/
inductive Sealed where
  | taken
  | refused (st : Nat)
  | again (r : SealRec)
deriving DecidableEq, Repr

/-- The seal checks, in their order (R135–R137). -/
def State.sealCheck (s : State) (q : Req) : Sealed :=
  if ¬ s.tagOk q then .refused St.SEAL_BAD_TAG
  else if s.reg Key.SEAL_FLOOR = 0 then .refused St.SEAL_HOLD
  else match s.dict.lastSealed.filter (fun r => decide (r.seq = s.reg Key.SEAL_LAST) && decide (q.seqNo = r.seq)
      && decide (r.d0.toNat = q.d0) && decide (r.data = q.r.frame.data)) with
  | some r => .again r
  | none =>
    if s.reg Key.SEAL_LAST = 0xFFFFFBFF then .refused St.SEAL_EXHAUSTED
    else if q.seqNo ≤ s.reg Key.SEAL_LAST then .refused St.SEAL_REPLAY
    else if s.reg Key.SEAL_FLOOR ≤ q.seqNo then .refused St.SEAL_HOLD
    else .taken

/-- A refused seal is counted, and raises source 0x15 (R138, R144). -/
def State.sealRefused (s : State) (st : Nat) : State :=
  if st = St.SEAL_BAD_TAG then (s.inc Key.SEAL_REJECT_TAG).raise 0x15 0
  else if st = St.SEAL_REPLAY then (s.inc Key.SEAL_REJECT_REPLAY).raise 0x15 0
  else if st = St.SEAL_HOLD then s.inc Key.SEAL_HOLD_COUNT
  else s

/-! ## Execution -/

/-- Does the request wait: an access of WORD_DATA while the word that it names waits for training, or any request of that index behind one
that waits, since requests naming the same objects execute in arrival order (R118, R449, R472)? -/
def State.wordWaits (s : State) (q : Req) : Bool :=
  q.r.group.toNat == 0 && (q.op == .read || q.op == .write) && q.index == 0x2902
    && (!s.dict.wordWait.isEmpty || (decide (q.sub ≤ 3) && decide (3 < q.sub + q.n) && s.accessWaits (s.reg Key.WORD_ADDR)))

/-- One value of a READ (R109, R472). -/
def State.readValue (q : Req) (r : State × List Block) (i : Nat) : State × List Block :=
  let key := q.key + i
  let ty := ((r.1.object key).map (fun o => o.ty)).getD .u64
  if key = Key.WORD_DATA then
    let x := r.1.wordRead
    (x.1, r.2 ++ valueBlocks ty x.2)
  else (r.1, r.2 ++ valueBlocks ty (if q.r.shadow then r.1.pendOr key else r.1.objValue key))

/-- A READ (R109, R116). -/
def State.doRead (s : State) (q : Req) : State × Reply :=
  let r := (List.range q.n).foldl (State.readValue q) (s, [])
  (r.1, ⟨St.OK, false, false, r.2⟩)

/-- A WRITE that is neither grouped nor waiting: at once, or shadowed (R107). -/
def State.doWrite (s : State) (o : Obj) (q : Req) : State × Nat :=
  let v := s.valueOf q
  if o.commit = .imm then (s.applyWrite q.key v, St.OK)
  else
    let n := s.nextOrder
    let s1 := { n.1 with dict := { n.1.dict with shadows := n.1.dict.shadows ++ [Shadow.mk q.key v o.commit n.2 (s.frozen o.commit) s.clk] } }
    (s1, St.OK_PENDING)

/-- A DOM_READ (R116, R129). -/
def State.doDomRead (s : State) (q : Req) : Reply :=
  if s.tableLen q.index < q.d1Hi + q.nwords then ⟨St.DOMAIN_OFFSET, false, false, []⟩
  else ⟨St.OK, false, false, BitVec.ofNat 64 q.d1 :: packWords (s.tableWords q.index q.d1Hi q.nwords)⟩

/-- A status alone. -/
def reply (r : State × Nat) : State × Reply := (r.1, ⟨r.2, false, false, []⟩)
def replyLate (r : State × Nat × Bool) : State × Reply := (r.1, ⟨r.2.1, false, r.2.2, []⟩)

/-- The operation itself, every check passed (step 11 of R120 included). -/
def State.perform (s : State) (q : Req) : State × Reply :=
  match q.op, s.objects q with
  | .groupClose, _ => reply (s.closeGroup q.r.group.toNat)
  | .groupAbort, _ => replyLate (s.abortGroup q.r.group.toNat)
  | .commitNow, _ => (s.commitNow, ⟨St.OK, false, false, []⟩)
  | .read, _ => s.doRead q
  | .write, o :: _ =>
    if q.r.group.toNat ≠ 0 then reply (s.groupEntry q.r.group.toNat o.commit (.write q.key (s.valueOf q))) else reply (s.doWrite o q)
  | .domOpen, o :: _ => reply (s.domOpen o q)
  | .domWrite, _ => reply (s.domWrite q)
  | .domCommit, o :: _ => reply (s.domCommit o q)
  | .domAbort, _ => replyLate (s.domAbort q)
  | .domRead, _ => (s, s.doDomRead q)
  | .unlisted _, _ => (s, ⟨St.BAD_REQUEST, false, false, []⟩)
  | _, [] => (s, ⟨St.NO_OBJECT, false, false, []⟩)

/-- A refusal of a sealed or unsealed request in steps 9 and 10; a refused arming records its reasons (R302). -/
def State.late (s : State) (q : Req) : Option Nat := s.step9 q <|> s.step10 q
def State.refuseLate (s : State) (q : Req) (st : Nat) : State :=
  if q.op = .write ∧ q.key = Key.FIRE_ARM ∧ st = St.STATE then s.armRefused (s.valueOf q) else s

/-- Steps 9 to 11. `direct` says that the row of the command stands for Caldera's own part too, where no earlier request waits for Caldera;
other requests of firmware-backed objects wait for Caldera in arrival order (R118), except entries of a group, which are staged. -/
def State.run (s : State) (q : Req) (took direct : Bool) : State :=
  let acc := s.ct
  match s.late q with
  | some st => (s.refuseLate q st).conclude q took ⟨st, false, false, []⟩ acc
  | none =>
    let f : FwReq := ⟨q.r, q.op, q.index, q.sub, s.clk, acc⟩
    if s.wordWaits q then { s with dict := { s.dict with wordWait := s.dict.wordWait ++ [f] } }
    else if s.fwNamed q ∧ ¬ (direct ∧ s.dict.fw = []) ∧ ¬ (q.op = .write ∧ q.r.group.toNat ≠ 0) then { s with dict := { s.dict with fw := s.dict.fw ++ [f] } }
    else
      let r := s.perform q
      r.1.conclude q took r.2 acc

/-- A request at its acceptance: the checks in order, then its effect and its answer (R120). -/
def State.serve (s : State) (q : Req) (direct : Bool) : State :=
  match s.early q with
  | some st => s.conclude q false ⟨st, false, false, []⟩ s.ct
  | none =>
    if ¬ q.r.sealed then s.run q false direct
    else match s.sealCheck q with
      | .refused st => (s.sealRefused st).conclude q false ⟨st, false, false, []⟩ s.ct
      | .again r => s.conclude q false ⟨r.status, true, r.late, []⟩ s.ct
      | .taken => (s.setReg Key.SEAL_LAST q.seqNo).run q true direct

/-! ## Arrival (R112, R117, R118) -/

/-- Is the queue of the object's kind full (R118)? How many requests stand before this one is what the frame finds at its EOF, which the
time that service takes decides (log 38); requests known to wait count in any case. -/
def State.queueFull (s : State) (q : Req) : Bool :=
  if s.fwNamed q then decide (8 ≤ max s.dict.fw.length q.r.waiting) else decide (16 ≤ max s.dict.wordWait.length q.r.waiting)

/-- Why a broadcast is ignored, in the order of R117. -/
def State.bcastCause (s : State) (q : Req) : Option Nat :=
  if ¬ q.op.broadcasts then some St.BAD_REQUEST
  else if q.r.sealed then some St.SEAL_UNEXPECTED
  else if s.fwNamed q then some St.CALDERA_DOWN
  else none

/-- A request that has been received intact and new. -/
def State.request (s : State) (q : Req) (direct : Bool) : State :=
  if q.bcast ∧ (s.bcastCause q).isSome then s.bcastDone ((s.bcastCause q).getD 0)
  else if s.queueFull q then s.finish q false ⟨St.BUSY, false, false, []⟩ s.ct
  else s.serve q direct

/-- A DREQ frame arrives (R58–R63, R112): the unit acts on one for its address or for all, once. -/
def State.dreq (s : State) (q : Req) (direct : Bool) : State :=
  let mine : Bool := q.r.frame.dest.toNat == s.addr && decide (s.addr ≠ 0)
  let r := s.recvSummit 0x0A q.frame mine q.bcast
  if r.2 then r.1.request q direct else r.1

/-- The request at the front of those that Caldera holds is answered: its state and range are judged again, then it takes effect (R118,
R139). -/
def State.fwAnswer (s : State) (f : FwReq) : State :=
  let q := f.req
  match s.late q with
  | some st => s.conclude q q.r.sealed (Reply.mk st false false []) f.acc
  | none =>
    let r := s.perform q
    r.1.conclude q q.r.sealed r.2 f.acc

/-- Accesses of WORD_DATA that waited for training are made, and what waited behind them (R118, R449). -/
def State.wordResume (s : State) : State :=
  if s.dict.wordWait.isEmpty ∨ s.bmHolds then s
  else s.dict.wordWait.foldl (fun (s : State) (f : FwReq) =>
    let r := s.perform f.req
    r.1.conclude f.req f.r.sealed r.2 f.acc) { s with dict := { s.dict with wordWait := [] } }

end Sys2Proof.Machine
end

