-- ==== Sys2Proof/Machine/Requests.lean ====
section
/-! DEFINITION. The commands that are dictionary requests: each is the DREQ frame that carries its operation to the object that the row
names, with the value that the frame carries, and what the object's own rule says follows from it (R103-R141). -/

namespace Sys2Proof.Machine

/-- READ (R109, R116). -/
def execRead (r : Dreq) (index : BitVec 16) (sub : BitVec 8) (s : State) : Res :=
  whenClocked s <| .next (s.dreq ⟨r, .read, index.toNat, sub.toNat⟩ false)

/-- WRITE: at once, shadowed, staged in a group, or handed to Caldera (R107, R121, R139). -/
def execWrite (r : Dreq) (index : BitVec 16) (sub : BitVec 8) (s : State) : Res :=
  whenClocked s <| .next (s.dreq ⟨r, .write, index.toNat, sub.toNat⟩ false)

/-- GROUP_CLOSE (R122–R124). -/
def execGroupClose (r : Dreq) (index : BitVec 16) (sub : BitVec 8) (s : State) : Res :=
  whenClocked s <| .next (s.dreq ⟨r, .groupClose, index.toNat, sub.toNat⟩ false)

/-- GROUP_ABORT (R124). -/
def execGroupAbort (r : Dreq) (index : BitVec 16) (sub : BitVec 8) (s : State) : Res :=
  whenClocked s <| .next (s.dreq ⟨r, .groupAbort, index.toNat, sub.toNat⟩ false)

/-- DOM_OPEN (R125). -/
def execDomOpen (r : Dreq) (index : BitVec 16) (sub : BitVec 8) (s : State) : Res :=
  whenClocked s <| .next (s.dreq ⟨r, .domOpen, index.toNat, sub.toNat⟩ false)

/-- DOM_WRITE (R126). -/
def execDomWrite (r : Dreq) (index : BitVec 16) (sub : BitVec 8) (s : State) : Res :=
  whenClocked s <| .next (s.dreq ⟨r, .domWrite, index.toNat, sub.toNat⟩ false)

/-- DOM_COMMIT (R127). -/
def execDomCommit (r : Dreq) (index : BitVec 16) (sub : BitVec 8) (s : State) : Res :=
  whenClocked s <| .next (s.dreq ⟨r, .domCommit, index.toNat, sub.toNat⟩ false)

/-- DOM_ABORT (R130). -/
def execDomAbort (r : Dreq) (index : BitVec 16) (sub : BitVec 8) (s : State) : Res :=
  whenClocked s <| .next (s.dreq ⟨r, .domAbort, index.toNat, sub.toNat⟩ false)

/-- DOM_READ (R129). -/
def execDomRead (r : Dreq) (index : BitVec 16) (sub : BitVec 8) (s : State) : Res :=
  whenClocked s <| .next (s.dreq ⟨r, .domRead, index.toNat, sub.toNat⟩ false)

/-- COMMIT_NOW (R111). -/
def execCommitNow (r : Dreq) (index : BitVec 16) (sub : BitVec 8) (s : State) : Res :=
  whenClocked s <| .next (s.dreq ⟨r, .commitNow, index.toNat, sub.toNat⟩ false)

/-- ENC_ENABLE: counting starts, with the start-up read or without (R163). -/
def execEncEnable (r : Dreq) (ready : Option Nat) (s : State) : Res :=
  whenClocked s <| .next ((s.updPos (fun p => { p with ssiReady := ready })).dreq ⟨r, .write, 0x2000, 0⟩ false)

/-- SSI_COMMAND 1: a test read (R163). -/
def execSsiTestRead (r : Dreq) (ready : Option Nat) (s : State) : Res :=
  whenClocked s <| .next ((s.updPos (fun p => { p with ssiReady := ready })).dreq ⟨r, .write, 0x2006, 14⟩ false)

/-- SSI_COMMAND 2, or the entry to LOST: a recovery read (R153, R163). -/
def execSsiRecoveryRead (r : Option Dreq) (ready : Option Nat) (s : State) : Res :=
  whenClocked s <| .next (
    let s1 := s.updPos (fun p => { p with ssiReady := ready })
    match r with
    | some q => s1.dreq ⟨q, .write, 0x2006, 14⟩ false
    | none => if s.pos.recoverDue then (s1.updPos (fun p => { p with recoverDue := false })).ssiStart .recovery else s)

/-- A setting of the encoder input or of the tooth wheel: the reference is sought anew (R150). -/
def execEncConfigWrite (r : Dreq) (index : BitVec 16) (sub : BitVec 8) (s : State) : Res :=
  whenClocked s <| .next (s.dreq ⟨r, .write, index.toNat, sub.toNat⟩ false)

/-- POS_ROLE: at once or at POS_SWITCH_CT (R170). -/
def execPosRole (r : Dreq) (s : State) : Res :=
  whenClocked s <| .next (s.dreq ⟨r, .write, 0x2007, 0⟩ false)

/-- POS_PRESET (R163, R172). -/
def execPosPreset (r : Dreq) (s : State) : Res :=
  whenClocked s <| .next (s.dreq ⟨r, .write, 0x2007, 3⟩ false)

/-- GRID_ENABLE: the grid is set up or stopped (R177, R181). -/
def execGridEnable (r : Dreq) (s : State) : Res :=
  whenClocked s <| .next (s.dreq ⟨r, .write, 0x2100, 0⟩ false)

/-- SHEET_AT: a sheet position is queued (R186, R187). -/
def execSheetAt (r : Dreq) (s : State) : Res :=
  whenClocked s <| .next (s.dreq ⟨r, .write, 0x2102, 7⟩ false)

/-- CMP_CTRL of a compare unit (R205, R208). -/
def execCmpCtrl (r : Dreq) (c : Fin 32) (s : State) : Res :=
  whenClocked s <| .next (s.dreq ⟨r, .write, 0x2140 + c.val, 0⟩ false)

/-- CMP_TARGET of a compare unit (R208, R210). -/
def execCmpTarget (r : Dreq) (c : Fin 32) (s : State) : Res :=
  whenClocked s <| .next (s.dreq ⟨r, .write, 0x2140 + c.val, 1⟩ false)

/-- A layout object of the Delay Store: INGRESS_READY clears and the tags are rewritten (R229). -/
def execLayoutWrite (r : Dreq) (index : BitVec 16) (sub : BitVec 8) (s : State) : Res :=
  whenClocked s <| .next (s.dreq ⟨r, .write, index.toNat, sub.toNat⟩ false)

/-- FIRE_ARM: the ports named are armed, or the arming is refused with its reasons (R302, R303). -/
def execFireArm (r : Dreq) (s : State) : Res :=
  whenClocked s <| .next (s.dreq ⟨r, .write, 0x2400, 0⟩ false)

/-- FIRE_DISARM (R304). -/
def execFireDisarm (r : Dreq) (s : State) : Res :=
  whenClocked s <| .next (s.dreq ⟨r, .write, 0x2400, 1⟩ false)

/-- CAL_ABORT of a group (R347). -/
def execCalAbort (r : Dreq) (group : Fin 4) (s : State) : Res :=
  whenClocked s <| .next (s.dreq ⟨r, .write, 0x2513, group.val⟩ false)

/-- CAL_REQUEST of a channel (R325). -/
def execCalRequest (r : Dreq) (ch : Fin 68) (s : State) : Res :=
  whenClocked s <| .next (s.dreq ⟨r, .write, 0x2529, ch.val⟩ false)

/-- CAM_ENABLE (R376, R381). -/
def execCamEnable (r : Dreq) (cam : Fin 2) (s : State) : Res :=
  whenClocked s <| .next (s.dreq ⟨r, .write, 0x2710 + cam.val, 0⟩ false)

/-- I2C_CMD: an I²C transaction starts (R377). -/
def execI2cCmd (r : Dreq) (cam : Fin 2) (s : State) : Res :=
  whenClocked s <| .next (s.dreq ⟨r, .write, 0x2710 + cam.val, 22⟩ false)

/-- LOOP_ENABLE (R428). -/
def execLoopEnable (r : Dreq) (s : State) : Res :=
  whenClocked s <| .next (s.dreq ⟨r, .write, 0x2800, 0⟩ false)

/-- LOOP_CLEAR of a port (R427). -/
def execLoopClear (r : Dreq) (port : Fin 16) (s : State) : Res :=
  whenClocked s <| .next (s.dreq ⟨r, .write, 0x300A + 16 * port.val, 8⟩ false)

/-- BM_CONTROL: bulk memory is trained again (R449). -/
def execBmControl (r : Dreq) (s : State) : Res :=
  whenClocked s <| .next (s.dreq ⟨r, .write, 0x2901, 1⟩ false)

/-- CH_CMD 1, or the bell that a compare unit rings (R208, R459). -/
def execDmaStart (r : Option Dreq) (ch : Fin 32) (s : State) : Res :=
  whenClocked s <| .next (match r with
    | some q => s.dreq ⟨q, .write, 0x2910 + ch.val, 7⟩ false
    | none => s.dmaBell ch)

/-- CH_CMD 2 (R466). -/
def execDmaPause (r : Dreq) (ch : Fin 32) (s : State) : Res :=
  whenClocked s <| .next (s.dreq ⟨r, .write, 0x2910 + ch.val, 7⟩ false)

/-- CH_CMD 3 (R467). -/
def execDmaResume (r : Dreq) (ch : Fin 32) (s : State) : Res :=
  whenClocked s <| .next (s.dreq ⟨r, .write, 0x2910 + ch.val, 7⟩ false)

/-- CH_CMD 4 (R468). -/
def execDmaAbort (r : Dreq) (ch : Fin 32) (s : State) : Res :=
  whenClocked s <| .next (s.dreq ⟨r, .write, 0x2910 + ch.val, 7⟩ false)

/-- An access of WORD_DATA (R472). -/
def execWordData (r : Dreq) (write : Bool) (s : State) : Res :=
  whenClocked s <| .next (s.dreq ⟨r, if write then .write else .read, 0x2902, 3⟩ false)

/-- FAULT_CLEAR (R492). -/
def execFaultClear (r : Dreq) (s : State) : Res :=
  whenClocked s <| .next (s.dreq ⟨r, .write, 0x2A00, 4⟩ false)

/-- FIRST_CLEAR (R481). -/
def execFirstClear (r : Dreq) (s : State) : Res :=
  whenClocked s <| .next (s.dreq ⟨r, .write, 0x2A00, 5⟩ false)

/-- HIST_CLEAR (R485). -/
def execHistClear (r : Dreq) (s : State) : Res :=
  whenClocked s <| .next (s.dreq ⟨r, .write, 0x2A00, 6⟩ false)

/-- INJECT (R495). -/
def execInject (r : Dreq) (s : State) : Res :=
  whenClocked s <| .next (s.dreq ⟨r, .write, 0x2A04, 0⟩ false)

/-- LOG_WINDOW_SEQ (R516). -/
def execLogWindowSeq (r : Dreq) (s : State) : Res :=
  whenClocked s <| .next (s.dreq ⟨r, .write, 0x2B02, 5⟩ true)

/-- UPDATE_COMMAND 1 (R523, R524). -/
def execUpdateInstall (r : Dreq) (s : State) : Res :=
  whenClocked s <| .next (s.dreq ⟨r, .write, 0x2B01, 1⟩ true)

/-- UPDATE_COMMAND 2 (R523, R524). -/
def execUpdateActivate (r : Dreq) (s : State) : Res :=
  whenClocked s <| .next (s.dreq ⟨r, .write, 0x2B01, 1⟩ true)

/-- UPDATE_COMMAND 3 (R523, R524). -/
def execUpdateConfirm (r : Dreq) (s : State) : Res :=
  whenClocked s <| .next (s.dreq ⟨r, .write, 0x2B01, 1⟩ true)

/-- UPDATE_COMMAND 4 (R523, R524). -/
def execUpdateAbort (r : Dreq) (s : State) : Res :=
  whenClocked s <| .next (s.dreq ⟨r, .write, 0x2B01, 1⟩ true)

/-- LIFECYCLE_CMD 1 (R530). -/
def execLifecycleAdvance (r : Dreq) (s : State) : Res :=
  whenClocked s <| .next (s.dreq ⟨r, .write, 0x2C00, 1⟩ true)

/-- LIFECYCLE_CMD 2 (R530, R534). -/
def execLifecycleRetire (r : Dreq) (s : State) : Res :=
  whenClocked s <| .next (s.dreq ⟨r, .write, 0x2C00, 1⟩ true)

/-- KEY_COMMIT (R533). -/
def execKeyCommit (r : Dreq) (s : State) : Res :=
  whenClocked s <| .next (s.dreq ⟨r, .write, 0x2C00, 3⟩ true)

/-- POWER_REQ (R541). -/
def execPowerReq (r : Dreq) (s : State) : Res :=
  whenClocked s <| .next (s.dreq ⟨r, .write, 0x2D00, 0⟩ false)

/-- TRACE_MODE (R546). -/
def execTraceMode (r : Dreq) (s : State) : Res :=
  whenClocked s <| .next (s.dreq ⟨r, .write, 0x2E00, 0⟩ false)

/-- TRACE_RESTART (R550). -/
def execTraceRestart (r : Dreq) (s : State) : Res :=
  whenClocked s <| .next (s.dreq ⟨r, .write, 0x2E00, 8⟩ false)

/-- PMC_SEL of a programmable counter (R548). -/
def execPmcSel (r : Dreq) (k : Fin 16) (s : State) : Res :=
  whenClocked s <| .next (s.dreq ⟨r, .write, 0x2E01, k.val⟩ false)

/-! ## Frames of any KIND (R58–R62) -/

/-- A DREQ frame taken apart (R112, R113): OP, INDEX, SUB and the other fields of D0, which is the first data block. How many requests wait
(log 38) is not known of it. A frame without D0 is damaged in any case. -/
def dreqOf (f : Frame) : Option Req :=
  match f.data with
  | [] => none
  | d0 :: l =>
    let d := d0.toNat
    some ⟨⟨{ f with data := l }, d0.extractLsb' 52 8, d0.extractLsb' 24 4, d0.extractLsb' 20 4, bit d 19, bit d 18, d0.extractLsb' 13 5,
      d0.extractLsb' 0 13, 0⟩, opOf (bits d 63 60), bits d 51 36, bits d 35 28⟩

/-- A DREQ frame with whatever OP it carries (R113). -/
def execDreqFrame (f : Frame) (s : State) : Res :=
  whenClocked s <| .next (match dreqOf f with
    | none => s.passFrame 0x0A f
    | some q => s.dreq q false)

/-- A frame of any KIND: a KIND that the unit acts on has its own effect, and every other is forwarded, checked and counted (R58–R62). -/
def execFrameForward (kind : BitVec 5) (f : Frame) (s : State) : Res :=
  match kind.toNat with
  | 0x01 => execPos f s
  | 0x03 => execTime f s
  | 0x04 => execGeyserArm f s
  | 0x05 => execEnumDiscover f s
  | 0x07 => execEnumAssign f s
  | 0x08 => execEnumDone f s
  | 0x09 => execRingEnable f s
  | 0x0A => execDreqFrame f s
  | k => whenClocked s <| .next (s.passFrame k f)

/-! ## Instants of the Dictionary Server and restarts -/

/-- Caldera restarts: by the sealed CALDERA_RESTART, or for a cause that stands (R504, R506, R508). -/
def execCalderaRestart (cause : RestartCause) (s : State) : Res :=
  let due := fun (n : Nat) => whenOn s <| .next (if s.mgmt.restartDue = some n ∧ s.calderaClocked then s.restartNow n else s)
  match cause with
  | .powerOn => due 0
  | .chipReset => due 1
  | .watchdog => due 2
  | .blockReset => due 3
  | .host r => whenClocked s <| .next (s.dreq ⟨r, .write, 0x2B00, 5⟩ false)
  | .activate => due 5
  | .abort => due 6
  | .recover => due 7
  | .clock => due 8

/-- GROUP_TIMEOUT runs out (R124). -/
def execGroupExpire (g : Fin 16) (s : State) : Res := whenClocked s <| .next (s.expireGroup g)

/-- An open DOMAIN session has had no request for 1 s (R125). -/
def execSessionExpire (k : Fin 4) (s : State) : Res :=
  whenClocked s <| .next (if s.sessDue k then (s.updSess k (fun x => { x with st := .failed, words := [] })).inc Key.SESSION_EXPIRED else s)

/-- Has the oldest request that Caldera holds waited 10 ms (R141)? -/
def State.fwLate (s : State) (f : FwReq) : Bool := decide (f.since + 5000000 ≤ s.clk)

/-- Has Caldera what it answers request `f` with? A DOM_READ of HEAD_IDENTITY follows a read of the head's EEPROM (R317). -/
def State.fwReady (s : State) (f : FwReq) : Bool :=
  !(f.op == .domRead && decide (0x4000 ≤ f.index ∧ f.index < 0x4400 ∧ f.index % 0x40 = 0x0C))
    || (s.port ((f.index - 0x4000) / 0x40)).idRead.any (fun t => decide (f.since ≤ t))

/-- Caldera answers the oldest request that it holds (R118, R139). -/
def execFwRequestAnswered (s : State) : Res :=
  whenClocked s <| .next (match s.dict.fw with
    | [] => s
    | f :: l => if s.calderaUp ∧ s.fwReady f ∧ ¬ s.fwLate f then { s with dict := { s.dict with fw := l } }.fwAnswer f else s)

/-- Caldera has not answered the oldest request that it holds within 10 ms (R141). -/
def execFwRequestTimeout (s : State) : Res :=
  whenClocked s <| .next (match s.dict.fw with
    | [] => s
    | f :: l =>
      if s.fwLate f then
        ({ s with dict := { s.dict with fw := l } }.inc Key.FW_TIMEOUT).conclude f.req f.r.sealed ⟨St.TIMEOUT, false, false, []⟩ f.acc
      else s)

end Sys2Proof.Machine
end

