-- ==== Sys2Proof/Machine/Boundary.lean ====
section
/-! DEFINITION. What happens at the instants that position and chain time reach: the broadcast coming into force, line events with their
hand-overs, compare units, Geyser latches, and the loss of the broadcast (R29, R77, R97, R178-R190, R206-R210). -/

namespace Sys2Proof.Machine

/-! ## The broadcast (R29, R77, R179) -/

/-- A new pass has begun: its reference begins, the bank of the pass just ended is released, and carries are 0 (R179, R230, R265). -/
def State.newPass (s : State) : State :=
  ((s.passBanks).forEach (List.range s.nPorts) (fun p s => s.resetCarry p)).windows true

/-- The oldest accepted broadcast comes into force (R77), and with it perhaps a new pass (R179). -/
def execPosApply (s : State) : Res :=
  whenClocked s <| .next (if s.posApplyDue then
    let s1 := s.applyPos
    let s2 := s1.passStart
    if s2.reg Key.PASS_COUNT = s1.reg Key.PASS_COUNT then s2 else s2.newPass
  else s)

/-- Has no broadcast been accepted in 16 consecutive cycles, judged and not yet acted on (R29, R542)? -/
def State.posLossDue (s : State) : Bool :=
  s.recv.judging && decide (16 ≤ s.recv.missed) && !s.recv.lost && decide (s.power.quietTo ≤ s.clk)

/-- The broadcast is lost: every port stops at the next line boundary, cause 10, and source 0x1A is raised (R29, R314). -/
def execPosBroadcastLost (s : State) : Res :=
  whenClocked s <| .next (if s.posLossDue then
    ((s.updRecv (fun r => { r with lost := true })).forEach (List.range s.nPorts) (State.stopAtLine 10)).cause 0x1A 0 true 0
  else s)

/-! ## Geyser (R97) -/

/-- Bank `b` latches: its words, TAKEN, the chain time, and the class 0x40 event (R97, R80). -/
def State.latchBank (s : State) (b : Nat) : State :=
  let ws := s.bankWords b
  ((s.updBank b (fun k => { k with st := .taken, words := ws })).setReg (Key.GEYSER_TAKEN_CT b) s.ct).event 0x40 b BankSt.taken.code

/-- An ARMED bank latches (R97). -/
def execGeyserLatch (b : Fin 4) (s : State) : Res :=
  whenClocked s <| .next (if s.latchDue b then s.latchBank b else s)

/-! ## Compare units (R206–R210) -/

/-- The action of unit `c` (R207). -/
def State.cmpAct (s : State) (c : Nat) : State :=
  let arg := s.cmpArg c
  let skip := fun (s : State) => (s.inc (Key.CMP_SKIPPED c)).cmpFlag c 3 true
  match s.cmpAction c with
  | 1 => if bit s.camTrig 0 then skip s else (s.cmpPinAction c).triggered 0 c s.ct s.derived
  | 2 => if bit s.camTrig 1 then skip s else (s.cmpPinAction c).triggered 1 c s.ct s.derived
  | 7 => s.dmaBell arg
  | 8 => if (s.bank arg).st = .empty then s.latchBank arg else skip s
  | _ => s.cmpPinAction c

/-- What every firing records (R207). -/
def State.cmpRecord (s : State) (c : Nat) : State :=
  (((s.setReg (Key.CMP_FIRED_CT c) s.ct).setReg (Key.CMP_FIRED_POS c) s.derived).inc (Key.CMP_FIRE_COUNT c)).cmpFlag c 0 true

/-- A compare unit fires: recorded, its action, and what follows (R206–R209). -/
def execCmpFire (c : Fin 32) (s : State) : Res :=
  whenClocked s <| .next (if s.cmpDue c then ((s.cmpRecord c).cmpAct c).cmpAfter c else s)

/-! ## Line events (R178–R190) -/

/-- The classes that the line NEXT carries as a boundary (R182). -/
def State.nextClasses (s : State) : List Commit :=
  if s.nextIsSheet then [.line, .band, .sheet] else if s.nextIsBand then [.line, .band] else [.line]

/-- The queued sheet positions that line NEXT reaches leave the queue; those beyond the first are counted (R187). -/
def State.popSheets (s : State) : State :=
  if s.reg Key.SHEET_SOURCE = 1 ∨ s.reg Key.SHEET_SOURCE = 2 then
    let reached := fun (q : Nat) => atOrAhead 64 s.grid.gn (q * 65536) s.dirPrint
    let n := (s.grid.queue.takeWhile reached).length
    (s.updGrid (fun g => { g with queue := g.queue.drop n })).addReg Key.SHEET_MERGED (n - 1)
  else s

/-- The judging of line NEXT: counts, the band count, the sheet it begins (R180, R183, R184, R213). -/
def State.countLine (s : State) : State :=
  let m := s.grid.next
  let band := s.nextIsBand
  let sheet := s.nextIsSheet
  let s1 := ((s.popSheets).setReg Key.LINE_NOW m).inc Key.LINE_EVENTS
  let s2 := if s.grid.burst then s1.inc Key.LINE_BURST else s1
  let s3 := if sheet then (s2.inc Key.SHEET_COUNT).setReg Key.LAST_SHEET_LINE m else s2
  s3.updGrid (fun g => { g with
    count := if band then g.count else g.count - 1, since := if sheet then 0 else g.since + 1, first := false, passFirst := false
    lastSheet := if sheet then some g.gn else g.lastSheet, lastPos := some g.gn, evClk := some s.clk })

/-- NEXT and GN step by one line, with the pitch now in force; at a band boundary the count restarts at BAND_LEN (R176, R178, R183). -/
def State.stepGrid (s : State) (band : Bool) : State :=
  let p : Int := s.reg Key.LINE_PITCH
  let rev := s.revNow
  let s1 := s.updGrid (fun g => { g with
    next := unsgn 32 (if rev then (g.next : Int) - 1 else (g.next : Int) + 1)
    gn := unsgn 64 (if rev then (g.gn : Int) - p else (g.gn : Int) + p)
    count := if band then s.reg Key.BAND_LEN else g.count })
  s1.updGrid (fun g => { g with burst := atOrAhead 64 (s.x64 (8 * s.ct)) g.gn rev })

/-- Freeze points of the boundary just passed are done with (R188). -/
def State.thaw (s : State) (cs : List Commit) : State :=
  s.updGrid (fun g => { g with
    frozenLine := false, frozenBand := g.frozenBand && !cs.contains .band, frozenSheet := g.frozenSheet && !cs.contains .sheet })

/-- Compare units of KIND 1 whose TARGET is this line fire on this clock (R206). -/
def State.cmpLines (s : State) (m : Nat) : State :=
  s.forEach (List.range 32) (fun c s =>
    if (s.cmp c).armed ∧ s.cmpLine c ∧ s.reg (Key.CMP_TARGET c) % 2 ^ 32 = m then s.updCmp c (fun r => { r with fireAt := some s.clk })
    else s)

/-- Line-based work of the other blocks (R202, R230, R265, R314, R324, R333). -/
def State.lineWork (s : State) (m : Nat) (sheet : Bool) : State :=
  let s1 := (((s.windows false).overspeed).cmpLines m).forEach (List.range s.nPorts) State.lineStop
  let s2 := s1.recomputeAll
  s2.forEach (List.range s.nPorts) (fun p s => if sheet ∧ bit (s.reg (Key.DIFF_CTRL p)) 1 then s.resetCarry p else s)

/-- The derived position reaches line NEXT: boundaries are judged, settings handed over, the grid steps, and line-based work is done
(R178–R190). -/
def execLineEvent (s : State) : Res :=
  whenClocked s <| .next (if s.lineDue then
    let m := s.grid.next
    let cs := s.nextClasses
    let band := cs.contains .band
    let sheet := cs.contains .sheet
    let s1 := (s.countLine).handOver cs m
    let s2 := (((s1.stepGrid band).thaw cs).queueWaiting).lineWork m sheet
    (s2.pmc 2 0 1).traceRec 0x01 (fld (1 + 2 * b2n band + 4 * b2n sheet) 3 53 + fld m 32 0)
  else s)

end Sys2Proof.Machine
end

