-- ==== Sys2Proof/Machine/Dispatch.lean ====
section
/-! DEFINITION. The effect of every command on everything but the queue: one arm per row of the opcode table. -/

namespace Sys2Proof.Machine

/-- The effect of command `i`. -/
def exec (i : Instr) (s : State) : Host.Outcome State Fault Refusal :=
  match i with
  | .laneSignalDetect lane => Sys2Proof.Machine.execLaneSignalDetect lane s
  | .laneBringupTimeout lane => Sys2Proof.Machine.execLaneBringupTimeout lane s
  | .laneRetry lane => Sys2Proof.Machine.execLaneRetry lane s
  | .train lane hdr blk => Sys2Proof.Machine.execTrain lane hdr blk s
  | .fastExit link lockBlock skew refclkOk => Sys2Proof.Machine.execFastExit link lockBlock skew refclkOk s
  | .align link skew => Sys2Proof.Machine.execAlign link skew s
  | .eidle lane => Sys2Proof.Machine.execEidle lane s
  | .laneLossOfSignal lane => Sys2Proof.Machine.execLaneLossOfSignal lane s
  | .invalidSyncHeader lane hdr ty => Sys2Proof.Machine.execInvalidSyncHeader lane hdr ty s
  | .chainPortDown p => Sys2Proof.Machine.execChainPortDown p s
  | .chainPortUp p => Sys2Proof.Machine.execChainPortUp p s
  | .cycle p blk phase residence => Sys2Proof.Machine.execCycle p blk phase residence s
  | .chainActive => Sys2Proof.Machine.execChainActive s
  | .chainTimeMisaligned => Sys2Proof.Machine.execChainTimeMisaligned s
  | .probeSend p phase => Sys2Proof.Machine.execProbeSend p phase s
  | .probe p blk residence => Sys2Proof.Machine.execProbe p blk residence s
  | .pret p blk phase => Sys2Proof.Machine.execPret p blk phase s
  | .pretTimeout p => Sys2Proof.Machine.execPretTimeout p s
  | .frameEofTimeout p => Sys2Proof.Machine.execFrameEofTimeout p s
  | .frameForward kind f => Sys2Proof.Machine.execFrameForward kind f s
  | .posSend => Sys2Proof.Machine.execPosSend s
  | .pos f => Sys2Proof.Machine.execPos f s
  | .posApply => Sys2Proof.Machine.execPosApply s
  | .chainCycleEnd => Sys2Proof.Machine.execChainCycleEnd s
  | .posBroadcastLost => Sys2Proof.Machine.execPosBroadcastLost s
  | .time f => Sys2Proof.Machine.execTime f s
  | .geyserArm f => Sys2Proof.Machine.execGeyserArm f s
  | .geyserCancel f => Sys2Proof.Machine.execGeyserCancel f s
  | .geyserLatch b => Sys2Proof.Machine.execGeyserLatch b s
  | .enumDiscover f => Sys2Proof.Machine.execEnumDiscover f s
  | .enumAssign f => Sys2Proof.Machine.execEnumAssign f s
  | .enumDone f => Sys2Proof.Machine.execEnumDone f s
  | .unsolicitedEnumReport => Sys2Proof.Machine.execUnsolicitedEnumReport s
  | .stickyStore => Sys2Proof.Machine.execStickyStore s
  | .ringEnable f => Sys2Proof.Machine.execRingEnable f s
  | .ringDisable f => Sys2Proof.Machine.execRingDisable f s
  | .ringRestore f => Sys2Proof.Machine.execRingRestore f s
  | .restoreSwitch => Sys2Proof.Machine.execRestoreSwitch s
  | .forwardCycleTimeout => Sys2Proof.Machine.execForwardCycleTimeout s
  | .wrap => Sys2Proof.Machine.execWrap s
  | .eventSend => Sys2Proof.Machine.execEventSend s
  | .eventLostNotice => Sys2Proof.Machine.execEventLostNotice s
  | .read r index sub => Sys2Proof.Machine.execRead r index sub s
  | .write r index sub => Sys2Proof.Machine.execWrite r index sub s
  | .groupClose r index sub => Sys2Proof.Machine.execGroupClose r index sub s
  | .groupAbort r index sub => Sys2Proof.Machine.execGroupAbort r index sub s
  | .groupExpire g => Sys2Proof.Machine.execGroupExpire g s
  | .domOpen r index sub => Sys2Proof.Machine.execDomOpen r index sub s
  | .domWrite r index sub => Sys2Proof.Machine.execDomWrite r index sub s
  | .domCommit r index sub => Sys2Proof.Machine.execDomCommit r index sub s
  | .domAbort r index sub => Sys2Proof.Machine.execDomAbort r index sub s
  | .domRead r index sub => Sys2Proof.Machine.execDomRead r index sub s
  | .sessionExpire k => Sys2Proof.Machine.execSessionExpire k s
  | .commitNow r index sub => Sys2Proof.Machine.execCommitNow r index sub s
  | .fwRequestAnswered => Sys2Proof.Machine.execFwRequestAnswered s
  | .fwRequestTimeout => Sys2Proof.Machine.execFwRequestTimeout s
  | .sealFloorRaise => Sys2Proof.Machine.execSealFloorRaise s
  | .sealFloorCommitted => Sys2Proof.Machine.execSealFloorCommitted s
  | .encEdge level reverted => Sys2Proof.Machine.execEncEdge level reverted s
  | .encLineFault => Sys2Proof.Machine.execEncLineFault s
  | .encLineClear => Sys2Proof.Machine.execEncLineClear s
  | .encDirEdge level => Sys2Proof.Machine.execEncDirEdge level s
  | .hallEdge code => Sys2Proof.Machine.execHallEdge code s
  | .slipWindowEnd => Sys2Proof.Machine.execSlipWindowEnd s
  | .speedStop => Sys2Proof.Machine.execSpeedStop s
  | .ssiTestRead r ready => Sys2Proof.Machine.execSsiTestRead r ready s
  | .ssiRecoveryRead r ready => Sys2Proof.Machine.execSsiRecoveryRead r ready s
  | .ssiReadDone w ready => Sys2Proof.Machine.execSsiReadDone w ready s
  | .ssiRetry ready => Sys2Proof.Machine.execSsiRetry ready s
  | .encEnable r ready => Sys2Proof.Machine.execEncEnable r ready s
  | .encConfigWrite r index sub => Sys2Proof.Machine.execEncConfigWrite r index sub s
  | .posRole r => Sys2Proof.Machine.execPosRole r s
  | .roleSwitch => Sys2Proof.Machine.execRoleSwitch s
  | .posPreset r => Sys2Proof.Machine.execPosPreset r s
  | .gridEnable r => Sys2Proof.Machine.execGridEnable r s
  | .lineEvent => Sys2Proof.Machine.execLineEvent s
  | .freezePoint cls => Sys2Proof.Machine.execFreezePoint cls s
  | .cueEdge input level => Sys2Proof.Machine.execCueEdge input level s
  | .sheetAt r => Sys2Proof.Machine.execSheetAt r s
  | .assemblyStart port => Sys2Proof.Machine.execAssemblyStart port s
  | .screeningStart port asmDone tableErr => Sys2Proof.Machine.execScreeningStart port asmDone tableErr s
  | .shipStart port => Sys2Proof.Machine.execShipStart port s
  | .fireSlot port phase sense => Sys2Proof.Machine.execFireSlot port phase sense s
  | .deferredFire port phase sense => Sys2Proof.Machine.execDeferredFire port phase sense s
  | .cmpCtrl r c => Sys2Proof.Machine.execCmpCtrl r c s
  | .cmpTarget r c => Sys2Proof.Machine.execCmpTarget r c s
  | .cmpFire c => Sys2Proof.Machine.execCmpFire c s
  | .cmpPulseEnd c => Sys2Proof.Machine.execCmpPulseEnd c s
  | .rasterPacket lane hdr words crc => Sys2Proof.Machine.execRasterPacket lane hdr words crc s
  | .rasterPacketTimeout lane => Sys2Proof.Machine.execRasterPacketTimeout lane s
  | .lineComplete plane line pass => Sys2Proof.Machine.execLineComplete plane line pass s
  | .creditSend lane => Sys2Proof.Machine.execCreditSend lane s
  | .layoutWrite r index sub => Sys2Proof.Machine.execLayoutWrite r index sub s
  | .ingressReady => Sys2Proof.Machine.execIngressReady s
  | .bankClearDone plane => Sys2Proof.Machine.execBankClearDone plane s
  | .fireArm r => Sys2Proof.Machine.execFireArm r s
  | .fireDisarm r => Sys2Proof.Machine.execFireDisarm r s
  | .clearLatch port => Sys2Proof.Machine.execClearLatch port s
  | .gateAssert gate => Sys2Proof.Machine.execGateAssert gate s
  | .rampEnd port => Sys2Proof.Machine.execRampEnd port s
  | .gateRelease gate => Sys2Proof.Machine.execGateRelease gate s
  | .idleTickle port sense => Sys2Proof.Machine.execIdleTickle port sense s
  | .headIdRead port bytes => Sys2Proof.Machine.execHeadIdRead port bytes s
  | .calStart group => Sys2Proof.Machine.execCalStart group s
  | .hovFrame group => Sys2Proof.Machine.execHovFrame group s
  | .hovStrobe group => Sys2Proof.Machine.execHovStrobe group s
  | .hovVerify group reply => Sys2Proof.Machine.execHovVerify group reply s
  | .hovRestoreRetry group => Sys2Proof.Machine.execHovRestoreRetry group s
  | .measureStart group => Sys2Proof.Machine.execMeasureStart group s
  | .calRoundDone group sums refs => Sys2Proof.Machine.execCalRoundDone group sums refs s
  | .calAbort r group => Sys2Proof.Machine.execCalAbort r group s
  | .calRequest r ch => Sys2Proof.Machine.execCalRequest r ch s
  | .calSetCopy group => Sys2Proof.Machine.execCalSetCopy group s
  | .thermalScan readings => Sys2Proof.Machine.execThermalScan readings s
  | .heatPeriodStart port => Sys2Proof.Machine.execHeatPeriodStart port s
  | .frameStart cam vc number => Sys2Proof.Machine.execFrameStart cam vc number s
  | .frameEnd cam vc => Sys2Proof.Machine.execFrameEnd cam vc s
  | .csiPacket cam p => Sys2Proof.Machine.execCsiPacket cam p s
  | .frameTimeout cam => Sys2Proof.Machine.execFrameTimeout cam s
  | .camSilent cam => Sys2Proof.Machine.execCamSilent cam s
  | .camEnable r cam => Sys2Proof.Machine.execCamEnable r cam s
  | .i2cCmd r cam => Sys2Proof.Machine.execI2cCmd r cam s
  | .i2cDone cam nack data => Sys2Proof.Machine.execI2cDone cam nack data s
  | .i2cTimeout cam => Sys2Proof.Machine.execI2cTimeout cam s
  | .pipeGrant => Sys2Proof.Machine.execPipeGrant s
  | .pipeUnitDone => Sys2Proof.Machine.execPipeUnitDone s
  | .loopArm cam => Sys2Proof.Machine.execLoopArm cam s
  | .loopCheck cam => Sys2Proof.Machine.execLoopCheck cam s
  | .loopEnable r => Sys2Proof.Machine.execLoopEnable r s
  | .loopClear r port => Sys2Proof.Machine.execLoopClear r port s
  | .scratchAccess a b => Sys2Proof.Machine.execScratchAccess a b s
  | .scrubVisit => Sys2Proof.Machine.execScrubVisit s
  | .bmControl r => Sys2Proof.Machine.execBmControl r s
  | .bmTrainingDone failMask => Sys2Proof.Machine.execBmTrainingDone failMask s
  | .bmAlert => Sys2Proof.Machine.execBmAlert s
  | .bmRefresh => Sys2Proof.Machine.execBmRefresh s
  | .bmScrubRead => Sys2Proof.Machine.execBmScrubRead s
  | .bmTrackCheck moved => Sys2Proof.Machine.execBmTrackCheck moved s
  | .bmZqShort => Sys2Proof.Machine.execBmZqShort s
  | .dmaStart r ch => Sys2Proof.Machine.execDmaStart r ch s
  | .dmaPause r ch => Sys2Proof.Machine.execDmaPause r ch s
  | .dmaPauseDone ch => Sys2Proof.Machine.execDmaPauseDone ch s
  | .dmaResume r ch => Sys2Proof.Machine.execDmaResume r ch s
  | .dmaAbort r ch => Sys2Proof.Machine.execDmaAbort r ch s
  | .dmaSlot m => Sys2Proof.Machine.execDmaSlot m s
  | .dmaDescDone ch => Sys2Proof.Machine.execDmaDescDone ch s
  | .dmaReadbackDone ch => Sys2Proof.Machine.execDmaReadbackDone ch s
  | .wordData r write => Sys2Proof.Machine.execWordData r write s
  | .faultArrival raises => Sys2Proof.Machine.execFaultArrival raises s
  | .histBatchWrite => Sys2Proof.Machine.execHistBatchWrite s
  | .faultClear r => Sys2Proof.Machine.execFaultClear r s
  | .firstClear r => Sys2Proof.Machine.execFirstClear r s
  | .histClear r => Sys2Proof.Machine.execHistClear r s
  | .inject r => Sys2Proof.Machine.execInject r s
  | .injectExpire => Sys2Proof.Machine.execInjectExpire s
  | .blockReset blk => Sys2Proof.Machine.execBlockReset blk s
  | .chipReset => Sys2Proof.Machine.execChipReset s
  | .powerOnReset vaonLost => Sys2Proof.Machine.execPowerOnReset vaonLost s
  | .refclkWaitTimeout => Sys2Proof.Machine.execRefclkWaitTimeout s
  | .startupComplete => Sys2Proof.Machine.execStartupComplete s
  | .tapReset => Sys2Proof.Machine.execTapReset s
  | .calderaRestart cause => Sys2Proof.Machine.execCalderaRestart cause s
  | .calderaRunning => Sys2Proof.Machine.execCalderaRunning s
  | .wdtExpire => Sys2Proof.Machine.execWdtExpire s
  | .railTrip row => Sys2Proof.Machine.execRailTrip row s
  | .railRecover row => Sys2Proof.Machine.execRailRecover row s
  | .clockFail row => Sys2Proof.Machine.execClockFail row s
  | .clockRecover row => Sys2Proof.Machine.execClockRecover row s
  | .logProgram => Sys2Proof.Machine.execLogProgram s
  | .logWindowSeq r => Sys2Proof.Machine.execLogWindowSeq r s
  | .updateInstall r => Sys2Proof.Machine.execUpdateInstall r s
  | .updateActivate r => Sys2Proof.Machine.execUpdateActivate r s
  | .updateConfirm r => Sys2Proof.Machine.execUpdateConfirm r s
  | .updateAbort r => Sys2Proof.Machine.execUpdateAbort r s
  | .trialTimeout => Sys2Proof.Machine.execTrialTimeout s
  | .lifecycleAdvance r => Sys2Proof.Machine.execLifecycleAdvance r s
  | .lifecycleRetire r => Sys2Proof.Machine.execLifecycleRetire r s
  | .keyCommit r => Sys2Proof.Machine.execKeyCommit r s
  | .otpScan => Sys2Proof.Machine.execOtpScan s
  | .lcAdvance => Sys2Proof.Machine.execLcAdvance s
  | .lcRetire => Sys2Proof.Machine.execLcRetire s
  | .provision field data => Sys2Proof.Machine.execProvision field data s
  | .recover image => Sys2Proof.Machine.execRecover image s
  | .jtagInstruction opcode => Sys2Proof.Machine.execJtagInstruction opcode s
  | .powerReq r => Sys2Proof.Machine.execPowerReq r s
  | .powerChange => Sys2Proof.Machine.execPowerChange s
  | .wake source => Sys2Proof.Machine.execWake source s
  | .shelfWake => Sys2Proof.Machine.execShelfWake s
  | .traceMode r => Sys2Proof.Machine.execTraceMode r s
  | .traceRestart r => Sys2Proof.Machine.execTraceRestart r s
  | .traceFrame => Sys2Proof.Machine.execTraceFrame s
  | .traceSample => Sys2Proof.Machine.execTraceSample s
  | .pmcSel r k => Sys2Proof.Machine.execPmcSel r k s
  | .blockLock lane => Sys2Proof.Machine.execBlockLock lane s
  | .chipResetRelease => Sys2Proof.Machine.execChipResetRelease s
  | .pipeLineDone tableErr => Sys2Proof.Machine.execPipeLineDone tableErr s

end Sys2Proof.Machine
end

