-- ==== Sys2Proof/Machine/Tick.lean ====
section
/-! DEFINITION. One core clock of the unit while no command waits: time runs on, what runs by the clock alone runs, and the commands that
the state itself calls for on this clock are queued (log 1). Commands that carry something of the world (a reading, a bit sampled, how long
the outside or firmware took) are never queued here: they come from the sender. -/

namespace Sys2Proof.Machine

/-! ## Time (R9, R13, R72, R540) -/

/-- Chain time after one more core clock: 8, the slew of R72, or held through a backward step. -/
def Link.advance (l : Link) : Link :=
  if 8 ≤ l.hold8 then { l with hold8 := l.hold8 - 8, slew := 0 }
  else { l with ct8 := ((l.ct8 + 8 - l.hold8 : Nat) + l.slew).toNat, hold8 := 0, slew := 0 }

/-- The clock ends, with what is judged last on it (R26), and the next begins: `clk` counts while the die is supplied or not; chain time runs while the die is on and not in SLEEP (R540). -/
def State.advance (s : State) : State :=
  let s0 := if s.on then s.reactionsNow else s
  let s1 := (if s.clocked then ((((((s0.clockEnd).dmaEnd).cmpTick).geyserTick).ssiTick).queueWaiting.packetsHeld).traceEnd else s0).powerEnding
  let s2 := { s1 with clk := s1.clk + 1 }
  if s.on ∧ s.reg Key.POWER_STATE ≠ 3 then { s2 with link := s2.link.advance } else s2

/-- Programmable event 0x0A: which consumers waited for bulk memory on this clock (bits in the order of R36) is free, since R445 and the
device that is attached settle it and the spec gives no times to do so by; no value is drawn where no counter asks (R548; log 31). -/
def State.pmcWait (s : State) : State :=
  if s.reg Key.TRACE_MODE ≠ 0 ∧ (List.range 16).any (fun k => bits (s.reg (Key.PMC_SEL k)) 7 0 == 0x0A) then
    let q := (Config.freeWait s.freeT).toNat
    let t := { s with freeT := s.freeT + 1 }
    if q = 0 then t else t.pmc 0x0A q 1
  else s

/-- What runs on every clock by itself: ALIGN pairs, frames that waited for their port, counters, sense comparisons, lines whose screening has ended, the output limiter, ENC_OUT, accesses that waited for training, a
waiting HIST_CLEAR (R47, R64, R173, R275, R299, R395, R449, R485, R548). -/
def State.clockWork (s : State) : State :=
  let s0 := if s.on then (((s.faultTick).alignTick).txTick .u).txTick .d else s
  if ¬ s.clocked then s0
  else
    let s1 := (((s0.syncDir).pmc 1 0 1).pmc 0x0B 0 (b2n s0.pipe.cur.isSome)).pmcWait
    let s2 := ((s1.forEach (List.range s1.nPorts) (fun p s => (s.settleSense p).countScreened p)).outputTick).wordResume
    if s2.reg Key.ENC_OUT_MODE = 2 then s2.syncEncOut else s2

/-! ## What is due -/

/-- `[i]` where it is due. -/
def due (b : Bool) (i : Instr) : List Instr := if b then [i] else []

/-- Each of the indices below `n` that satisfies `c`, as a command. -/
def dueAll (n : Nat) (c : Fin n → Bool) (f : Fin n → Instr) : List Instr := ((List.finRange n).filter c).map f

/-- Does an instant of period `n` clocks fall on this clock? -/
def State.every (s : State) (n : Nat) : Bool := n != 0 && s.clk % n == 0

/-- Resets and fault handling that the state asks for. -/
def State.dueFaults (s : State) : List Instr :=
  due (s.on && !s.faults.raised.isEmpty) (.faultArrival [])
  ++ due (s.on && s.faults.batch.any (fun b => !b.written && decide (b.clk + 3 ≤ s.clk))) .histBatchWrite
  ++ due (s.on && s.recordDone && (s.faults.resets.contains .chip || (s.boot.cutting && !s.armed))) .chipReset
  ++ (if s.on then (s.boot.blocks ++ s.faults.resets.filterMap (fun r => match r with
        | .block k => some k
        | .chip => none)).map Instr.blockReset else [])
  ++ due (s.on && s.injDue) .injectExpire

/-- The restart of Caldera that is due (R504). -/
def State.dueRestart (s : State) : List Instr :=
  if ¬ s.on ∨ ¬ s.calderaClocked then []
  else match s.mgmt.restartDue with
    | some 0 => [.calderaRestart .powerOn]
    | some 1 => [.calderaRestart .chipReset]
    | some 2 => [.calderaRestart .watchdog]
    | some 3 => [.calderaRestart .blockReset]
    | some 5 => [.calderaRestart .activate]
    | some 6 => [.calderaRestart .abort]
    | some 7 => [.calderaRestart .recover]
    | some 8 => [.calderaRestart .clock]
    | _ => []

/-- Work of Caldera's firmware and of start-up and power. -/
def State.dueManagement (s : State) : List Instr :=
  s.dueRestart
  ++ due s.startupDone .startupComplete
  ++ due (s.on && s.powerDue) .powerChange
  ++ due (s.on && s.trialOver) .trialTimeout
  ++ due (s.on && s.logDue) .logProgram
  ++ due (s.on && s.floorDue) .sealFloorRaise
  ++ due (s.on && s.calderaUp && s.link.sticky.isSome) .stickyStore
  ++ dueAll 4 (fun g => s.on && s.calderaUp && decide (g.val < s.nGroups) && !(s.cal g).copies.isEmpty) .calSetCopy
  ++ due (s.on && s.every 500000000) .otpScan

/-- Lanes and the chain. `cycle` says that a chain cycle has just ended. -/
def State.dueChain (s : State) (cycle : Bool) : List Instr :=
  dueAll 8 (fun i => s.on && (s.lane i).timedOut s.clk) .laneBringupTimeout
  ++ dueAll 8 (fun i => s.on && (s.lane i).retryAt.any (fun t => decide (t ≤ s.clk))) .laneRetry
  ++ [ChainPort.u, .d].flatMap (fun p =>
      due (s.on && (((s.cport p).up && s.linkLost p) || (p == .u && s.cutOff))) (.chainPortDown p)
      ++ due (s.on && !(s.cport p).up && s.linkUp p) (.chainPortUp p)
      ++ due (s.clocked && (s.cport p).probes.any (fun r => decide (r.sent + 1000 < s.clk))) (.pretTimeout p))
  ++ due (s.on && s.link.switchCt.any (fun t => decide (t ≤ s.ct))) .restoreSwitch
  ++ (if ¬ s.clocked then [] else
    due (s.link.st == .enumerated && decide (16 ≤ s.link.aligned)) .chainActive
    ++ due (decide (64 ≤ s.link.misaligned)) .chainTimeMisaligned
    ++ due (s.flag Key.RING_MODE && !s.link.wrapArmed && s.revArriving) .forwardCycleTimeout
    ++ due s.link.wrapDue .wrap
    ++ due s.link.reportDue .unsolicitedEnumReport
    ++ due cycle .chainCycleEnd
    ++ due s.link.posDue.isSome .posSend
    ++ due s.eventReady .eventSend
    ++ due s.link.eventsLost .eventLostNotice)

/-- Position, the grid, its boundaries and compare units; a broadcast that comes into force, or a line event, may bring others on the same
clock, which their guards judge. Compare units act in descending order, so the lowest has the last word (R210). -/
def State.duePosition (s : State) (cycle : Bool) : List Instr :=
  let moved := s.posApplyDue || s.lineDue
  due (s.posLossDue || cycle) .posBroadcastLost
  ++ due (!s.pos.stopped && s.pos.tLast.any (fun t => decide (t + s.reg Key.STOP_TIMEOUT ≤ s.ct))) .speedStop
  ++ due (s.pos.stepRev.isSome && s.reg Key.SLIP_WINDOW != 0 && decide (s.reg Key.SLIP_WINDOW ≤ s.pos.steps)) .slipWindowEnd
  ++ due s.pos.recoverDue (.ssiRecoveryRead none s.pos.ssiReady)
  ++ due (s.pos.ssi.retryAt.any (fun t => decide (t ≤ s.clk))) (.ssiRetry s.pos.ssiReady)
  ++ due moved .lineEvent
  ++ dueAll 3 (fun c => moved || s.freezeDue (freezeClass c)) .freezePoint
  ++ dueAll 32 (fun c => s.cmpPulseDue c) .cmpPulseEnd
  ++ (dueAll 32 (fun c => (s.cmp c).armed && (moved || s.cmpDue c)) .cmpFire).reverse
  ++ dueAll 4 (fun b => (s.bank b).st == .armed && (s.posApplyDue || s.latchDue b)) .geyserLatch

/-- Ports, ingress, calibration, heaters. -/
def State.duePrint (s : State) : List Instr :=
  dueAll 16 (fun p => decide (p.val < s.nPorts) && (s.port p).rampEnd8.any (fun t => decide (t < s.at8 8))) .rampEnd
  ++ dueAll 16 (fun p => decide (p.val < s.nPorts) && s.clearDue p) .clearLatch
  ++ dueAll 16 (fun p => decide (p.val < s.nPorts) && s.shipDue p) .shipStart
  ++ (s.ingress.entries.filter (fun e => s.entryDone e)).map (fun e =>
      .lineComplete (Fin.ofNat 16 e.plane) (BitVec.ofNat 32 e.line) (BitVec.ofNat 16 e.pass))
  ++ dueAll 4 (fun i => s.creditDue i) .creditSend
  ++ dueAll 4 (fun g => decide (g.val < s.nGroups) && (s.cal g).selDue && (s.cal g).ch.isNone) .calStart
  ++ dueAll 4 (fun g => decide (g.val < s.nGroups) && (s.cal g).ch.isSome && (s.cal g).phase == .ready) .measureStart
  ++ dueAll 4 (fun g => decide (g.val < s.nGroups) && s.strobeDue g) .hovStrobe
  ++ dueAll 4 (fun g => decide (g.val < s.nGroups) && (s.canSend g || s.strobeDue g)) .hovFrame
  ++ dueAll 4 (fun g => decide (g.val < s.nGroups) && (s.cal g).unverified && (s.cal g).retryAt.any (fun t => decide (t ≤ s.clk))) .hovRestoreRetry
  ++ dueAll 16 (fun p => decide (p.val < s.nPorts) && s.heatDue p) .heatPeriodStart

/-- Cameras, the pipeline, the loop. -/
def State.dueInspection (s : State) : List Instr :=
  dueAll 2 (fun c => s.frameLate c) .frameTimeout
  ++ dueAll 2 (fun c => s.camQuiet c && !(s.src (camSource c 3)).causes.contains c.val) .camSilent
  ++ due (s.pipe.cur.any (fun c => (s.cam c).frames.head?.any s.unitOver)) .pipeUnitDone
  ++ due (s.pipe.cur.isNone && s.reg Key.POWER_STATE == 0 && s.grantee.isSome) .pipeGrant
  ++ dueAll 2 (fun c => s.loopArmDue c) .loopArm
  ++ dueAll 2 (fun c => (s.loopTests c).head?.any (fun e => e.2.phase == 1) && s.loopFrame c) .loopCheck

/-- Memories, movers, the dictionary's timeouts, the trace. -/
def State.dueService (s : State) : List Instr :=
  due (s.every (s.reg Key.SCRUB_INTERVAL)) .scrubVisit
  ++ due (s.every (if s.mem.refresh = 0 then 3900 else 1950)) .bmRefresh
  ++ due (s.every (s.reg Key.BM_SCRUB_INTERVAL)) .bmScrubRead
  ++ due (s.every 64000000) .bmZqShort
  ++ dueAll 32 (fun c => (s.dch c).pos == .readback && (s.dch c).retry.isEmpty) .dmaReadbackDone
  ++ dueAll 32 (fun c => (s.dch c).pos == .status && (s.dch c).retry.isEmpty) .dmaDescDone
  ++ dueAll 32 (fun c => (s.dch c).st == .pausing) .dmaPauseDone
  ++ dueAll 4 (fun m => s.slotDue m) .dmaSlot
  ++ dueAll 16 (fun g => s.groupDue g) .groupExpire
  ++ dueAll 4 (fun k => s.sessDue k) .sessionExpire
  ++ due (s.dict.fw.head?.any s.fwLate) .fwRequestTimeout
  ++ due s.sampleDue .traceSample
  ++ due (!s.trace.queue.isEmpty && s.every (ceilDiv 11000 (s.reg Key.TRACE_CLOCK))) .traceFrame

/-- A broadcast that comes into force, and a role that is handed over, before the cycle is sampled (R77, R168, R171). -/
def State.dueRole (s : State) : List Instr :=
  due (s.clocked && s.posApplyDue) .posApply
  ++ due (s.clocked && s.pos.newRole.any (fun e => decide (e.1 ≤ s.ct))) .roleSwitch

/-- Assemblies that fell due on the clock before: they gather with what stood at its end, so they come before what this clock hands over
(R22, R26). -/
def State.dueAssembly (s : State) : List Instr :=
  if ¬ s.clocked then []
  else (List.finRange 16).flatMap (fun (p : Fin 16) => if p.val < s.nPorts then (s.port p).asmDue.map (fun _ => .assemblyStart p) else [])

/-- The commands that the state calls for on this clock: the assemblies of the clock before, then cuts and resets. -/
def State.dueCommands (s : State) (cycle : Bool) : List Instr :=
  s.dueAssembly ++ s.dueFaults ++ s.dueManagement ++ s.dueRole ++ s.dueChain cycle
  ++ (if s.clocked then s.duePosition cycle ++ s.duePrint ++ s.dueInspection ++ s.dueService else [])

/-- One core clock. -/
def State.tick (s : State) : State :=
  let s1 := s.advance
  let s2 := s1.clockWork
  { s2 with pending := s2.pending ++ s2.dueCommands (s1.ct / 500 != s.ct / 500) }

end Sys2Proof.Machine
end

