-- ==== Sys2Proof/Safety.lean ====
section
/-! DEFINITION. What counts as a safe state and a safe run, in the terms the statements use: the canonical form, which commands the part
can be given, which need a clock, and when the dictionary accepts a request. -/

namespace Sys2Proof

/-- Commands that act on a die which is held in reset or not supplied: the releases, and what the always-on island does (R555–R567). -/
def Instr.onIsland : Instr → Bool
  | .powerOnReset _ | .chipResetRelease | .shelfWake => true
  | _ => false

end Sys2Proof

namespace Sys2Proof.Machine

/-- Scratch Banks and bulk memory are in canonical form. -/
def Mem.canon (m : Mem) : Bool := Map.wf (fun _ => 0) m.scratch && Map.wf (fun _ => none) m.bulk

/-- Registers, DOMAIN tables, Scratch Banks and bulk memory are in canonical form, so that equal contents are equal data. -/
def State.Canon (s : State) : Prop :=
  Map.wf regDefault s.regs = true ∧ Map.wf (fun _ => ({} : Tab)) s.tabs = true ∧ s.mem.canon = true

/-- Does the command name only ports and groups that the part has (R1, R4)? -/
def State.fits (s : State) : Instr → Bool
  | .assemblyStart p | .screeningStart p _ _ | .shipStart p | .fireSlot p _ _ | .deferredFire p _ _ | .clearLatch p | .rampEnd p
  | .idleTickle p _ | .headIdRead p _ | .heatPeriodStart p => decide (p.val < s.nPorts)
  | .calStart g | .hovFrame g | .hovStrobe g | .hovVerify g _ | .hovRestoreRetry g | .measureStart g | .calRoundDone g _ _
  | .calSetCopy g => decide (g.val < s.nGroups)
  | _ => true

/-- At the end of this clock port `p` alone has something to judge (log 22): no fault reacts, and no camera, pipeline job or calibration moves. -/
def State.SoleWait (s : State) (p : Nat) : Prop :=
  ((s.reactionsNow.forEach [0, 1] State.camEnd).pipeEnd).forEach (List.range s.nGroups) State.calEnd = s ∧
    (List.range s.nPorts).filter (fun k => (s.port k).waits) = [p]

/-- The DREQ frame of `q` arrives for this unit alone, intact and new; there is room; every check of R120 passes, those of the seal
included (R58–R63, R112–R120, R135). `t` is the state in which the request takes effect: the frame taken, and the sequence number of a
sealed request consumed. -/
structure State.Accepts (s : State) (q : Req) (t : State) : Prop where
  clocked : s.clocked = true
  dest : q.r.frame.dest.toNat = s.addr
  addr : s.addr ≠ 0
  single : q.bcast = false
  taken : ∃ u, s.recvSummit 0x0A q.frame true false = (u, true) ∧ u.queueFull q = false ∧ u.early q = none ∧
    (q.r.sealed = false ∧ t = u ∨ q.r.sealed = true ∧ u.sealCheck q = .taken ∧ t = u.setReg Key.SEAL_LAST q.seqNo)
  late : t.late q = none
  ready : t.wordWaits q = false

/-- The answer of status `st` to a request, with the bookkeeping that goes with it (R116, R135, R144). -/
def State.answers (t : State) (q : Req) (st : Nat) (acc : Nat) : State := t.conclude q q.r.sealed ⟨st, false, false, []⟩ acc

/-- The request that a command of the dictionary carries (R112, and the object that its row names). -/
def reqOf : Instr → Option Req
  | .read r i j => some ⟨r, .read, i.toNat, j.toNat⟩
  | .write r i j => some ⟨r, .write, i.toNat, j.toNat⟩
  | .groupClose r i j => some ⟨r, .groupClose, i.toNat, j.toNat⟩
  | .groupAbort r i j => some ⟨r, .groupAbort, i.toNat, j.toNat⟩
  | .domOpen r i j => some ⟨r, .domOpen, i.toNat, j.toNat⟩
  | .domWrite r i j => some ⟨r, .domWrite, i.toNat, j.toNat⟩
  | .domCommit r i j => some ⟨r, .domCommit, i.toNat, j.toNat⟩
  | .domAbort r i j => some ⟨r, .domAbort, i.toNat, j.toNat⟩
  | .domRead r i j => some ⟨r, .domRead, i.toNat, j.toNat⟩
  | .commitNow r i j => some ⟨r, .commitNow, i.toNat, j.toNat⟩
  | .encEnable r _ => some ⟨r, .write, 0x2000, 0⟩
  | .ssiTestRead r _ => some ⟨r, .write, 0x2006, 14⟩
  | .ssiRecoveryRead r _ => r.map fun q => ⟨q, .write, 0x2006, 14⟩
  | .encConfigWrite r i j => some ⟨r, .write, i.toNat, j.toNat⟩
  | .posRole r => some ⟨r, .write, 0x2007, 0⟩
  | .posPreset r => some ⟨r, .write, 0x2007, 3⟩
  | .gridEnable r => some ⟨r, .write, 0x2100, 0⟩
  | .sheetAt r => some ⟨r, .write, 0x2102, 7⟩
  | .cmpCtrl r c => some ⟨r, .write, 0x2140 + c.val, 0⟩
  | .cmpTarget r c => some ⟨r, .write, 0x2140 + c.val, 1⟩
  | .layoutWrite r i j => some ⟨r, .write, i.toNat, j.toNat⟩
  | .fireArm r => some ⟨r, .write, 0x2400, 0⟩
  | .fireDisarm r => some ⟨r, .write, 0x2400, 1⟩
  | .calAbort r g => some ⟨r, .write, 0x2513, g.val⟩
  | .calRequest r c => some ⟨r, .write, 0x2529, c.val⟩
  | .camEnable r c => some ⟨r, .write, 0x2710 + c.val, 0⟩
  | .i2cCmd r c => some ⟨r, .write, 0x2710 + c.val, 22⟩
  | .loopEnable r => some ⟨r, .write, 0x2800, 0⟩
  | .loopClear r p => some ⟨r, .write, 0x300A + 16 * p.val, 8⟩
  | .bmControl r => some ⟨r, .write, 0x2901, 1⟩
  | .dmaStart r c => r.map fun q => ⟨q, .write, 0x2910 + c.val, 7⟩
  | .dmaPause r c | .dmaResume r c | .dmaAbort r c => some ⟨r, .write, 0x2910 + c.val, 7⟩
  | .wordData r w => some ⟨r, if w then .write else .read, 0x2902, 3⟩
  | .faultClear r => some ⟨r, .write, 0x2A00, 4⟩
  | .firstClear r => some ⟨r, .write, 0x2A00, 5⟩
  | .histClear r => some ⟨r, .write, 0x2A00, 6⟩
  | .inject r => some ⟨r, .write, 0x2A04, 0⟩
  | .calderaRestart (.host r) => some ⟨r, .write, 0x2B00, 5⟩
  | .logWindowSeq r => some ⟨r, .write, 0x2B02, 5⟩
  | .updateInstall r | .updateActivate r | .updateConfirm r | .updateAbort r => some ⟨r, .write, 0x2B01, 1⟩
  | .lifecycleAdvance r | .lifecycleRetire r => some ⟨r, .write, 0x2C00, 1⟩
  | .keyCommit r => some ⟨r, .write, 0x2C00, 3⟩
  | .powerReq r => some ⟨r, .write, 0x2D00, 0⟩
  | .traceMode r => some ⟨r, .write, 0x2E00, 0⟩
  | .traceRestart r => some ⟨r, .write, 0x2E00, 8⟩
  | .pmcSel r k => some ⟨r, .write, 0x2E01, k.val⟩
  | _ => none

/-- Rows whose command stands for Caldera's own part of the request too (R118, R139). -/
def byCaldera : Instr → Bool
  | .logWindowSeq _ | .updateInstall _ | .updateActivate _ | .updateConfirm _ | .updateAbort _ | .lifecycleAdvance _ | .lifecycleRetire _
  | .keyCommit _ => true
  | _ => false

/-- What the rows with a read of the sensor bring of SSI_DATA (R159). -/
def State.wired (s : State) : Instr → State
  | .encEnable _ h | .ssiTestRead _ h | .ssiRecoveryRead _ h => s.updPos fun p => { p with ssiReady := h }
  | _ => s

/-- Counters of answers, lost trace records and programmable events, which any request may count (R144, R548, R551). -/
def bookKeys : List Nat :=
  [Key.REQ_COUNT, Key.REQ_ERRORS, Key.BUSY_COUNT, Key.TRACE_LOST, Key.EVENT_LOST] ++ (List.range 16).map Key.PMC

/-- Command `i` carries the ungrouped request `q`, which the dictionary accepts in `s`; it takes effect in `t`. -/
structure State.Writes (s : State) (i : Instr) (q : Req) (t : State) : Prop where
  req : reqOf i = some q
  group : q.r.group = 0
  accepts : (s.wired i).Accepts q t

end Sys2Proof.Machine
end

