-- ==== Sys2Proof/Certificates/Slice0/Obligations.lean ====
section
/-! DEFINITION. The statements about the model, for the provers. Each cites the rules of the spec it rests on; OBLIGATIONS.json lists them.
An accepted request is one for which `State.Accepts` holds (Safety.lean). -/

set_option maxRecDepth 4096

open Sys2Proof Sys2Proof.Machine

/-! ## The whole machine -/

/-- A step with commands waiting carries out the one at the front of the queue, with the queue's rest (the block's step). -/
def Obligations.StepRunsFrontCommand : Prop :=
  ∀ (s : State) (c : Instr) (rest : List Instr), s.pending = c :: rest → step s = exec c { s with pending := rest }

/-- With no command waiting a step is one core clock: the clock counts on, and the unit stays the unit it is. The model's choice (log 1). -/
def Obligations.EmptyQueuePassesOneClock : Prop :=
  ∀ (s : State), s.pending = [] → ∃ t, step s = .next t ∧ t.clk = s.clk + 1 ∧ t.ident = s.ident

/-- What reset leaves: nothing waits, no frame has been sent, every object reads its default, no lane is up, the unit has no address, no
port is armed, every group and session is free, no fault is recorded, every Scratch word reads 0 and every DOMAIN table is its default
(R559, R565). -/
def Obligations.ResetLeavesDefaults : Prop :=
  State.reset.pending = [] ∧ State.reset.out = [] ∧
  (∀ k, State.reset.reg k = (regDefault k).toNat) ∧
  (∀ i, (State.reset.lane i).st = .down) ∧ State.reset.addr = 0 ∧
  State.reset.armed = false ∧ (∀ p, (State.reset.port p).st = .disarmed) ∧
  (∀ g, (State.reset.group g).st = .free) ∧ (∀ k, (State.reset.sess k).st = .free) ∧
  (∀ k, (State.reset.src k).status = false) ∧
  (∀ x, State.reset.scratchWord x = 0) ∧ (∀ i w, State.reset.tabWord i w = tabDefault i w)

/-- Reset is in canonical form: with `EveryStepKeepsTheUnit`, every state that a run reaches is. -/
def Obligations.ResetIsCanonical : Prop := State.reset.Canon

/-- What no step undoes: the unit stays the same unit, its clock does not run backwards, no free value is drawn twice, and registers,
tables and memories keep their canonical form. -/
def Obligations.EveryStepKeepsTheUnit : Prop :=
  ∀ (s t : State), step s = .next t →
    t.ident = s.ident ∧ s.clk ≤ t.clk ∧ s.free ≤ t.free ∧ (s.Canon → t.Canon)

/-- No step un-burns the OTP: ROLLBACK_FLOOR never decreases, a burned lifecycle pair stays burned, the vendor key hash stays what it is,
and a trace or log key that is present never goes absent (R519, R529, R534, R537). -/
def Obligations.NoStepUnburnsOtp : Prop :=
  ∀ (s t : State), step s = .next t →
    s.otp.floor ≤ t.otp.floor ∧
    (∀ k < 4, pairBurned s.otp.pairs k = true → pairBurned t.otp.pairs k = true) ∧
    (∀ v, s.otp.vendor = some v → t.otp.vendor = some v) ∧
    (s.otp.ktrace.isSome = true → t.otp.ktrace.isSome = true) ∧
    (s.otp.klog.isSome = true → t.otp.klog.isSome = true)

/-- A command does not touch the queue of the commands that wait. -/
def Obligations.CommandsLeaveTheQueueAlone : Prop :=
  ∀ (i : Instr) (s t : State), exec i s = .next t → t.pending = s.pending

/-- Every command that names only ports and groups that the part has is carried out, whatever its operands: none ends in a fault or a
refusal, in any state (R1, R4). -/
def Obligations.EveryWellFormedCommandAnswers : Prop :=
  ∀ (i : Instr) (s : State), s.fits i = true → ∃ t, exec i s = .next t

/-- A command that names a port or group that the part has not stops with the fault that names it, wherever its block is clocked (R1, R4).
While the die is held in reset or is not supplied, nothing acts but the releases and the always-on island (R543, R556, R560). -/
def Obligations.CommandsThatDoNothing : Prop :=
  (∀ (i : Instr) (s : State), s.fits i = false → s.clocked = true →
      ∃ n, exec i s = .fault (.noSuchPort n) ∨ exec i s = .fault (.noSuchGroup n)) ∧
  (∀ (i : Instr) (s : State), s.on = false → s.fits i = true → i.onIsland = false → exec i s = .next s)

/-! ## Lanes and the chain -/

/-- A lane goes through the states of R47: signal, block lock, 16 acceptable TRAIN blocks in a row, 8 that say READY, for a chain lane the
same skew in two ALIGN pairs with its partner, UP. A block that is no acceptable TRAIN breaks the run; every TRAIN after lock shows its
sender's PORT_KIND (R47, R48, R102). -/
def Obligations.LaneBringUp : Prop :=
  ∀ (s : State) (lane : Fin 8), s.on = true →
    ((s.lane lane).st = .down → (s.lane lane).retryAt = none → s.laneHeld lane = false →
      exec (.laneSignalDetect lane) s = .next (s.updLane lane fun l => { l with st := .signal, since := s.clk })) ∧
    ((s.lane lane).st = .signal →
      exec (.blockLock lane) s = .next (s.updLane lane fun l => { l with st := .lock, since := s.clk, run := 0 })) ∧
    (∀ hdr blk inv b, (s.lane lane).st = .lock → readTrain (s.lane lane).polInv hdr blk = some (inv, b) →
      exec (.train lane hdr blk) s = .next (s.updLane lane (Lane.lockTrain lane s.clk inv b))) ∧
    (∀ hdr blk, (s.lane lane).st = .lock → readTrain (s.lane lane).polInv hdr blk = none →
      exec (.train lane hdr blk) s = .next (s.updLane lane fun l => { l with run := 0 })) ∧
    (∀ hdr blk inv b, (s.lane lane).st = .train → readTrain (s.lane lane).polInv hdr blk = some (inv, b) → bit b 23 = true →
      exec (.train lane hdr blk) s =
        .next (((s.updLane lane (Lane.seeKind lane b)).updLane lane fun l => { l with ready := l.ready + 1 }).trained lane)) ∧
    (∀ p skew, (∀ i ∈ linkLanes (.chain p), (s.lane i).st = .deskew ∧ (s.lane i).lastSkew ≠ some skew) →
      exec (.align (.chain p) skew) s =
        .next (s.forEach (linkLanes (.chain p)) fun i t => t.updLane i fun l => { l with lastSkew := some skew })) ∧
    (∀ p skew, skew ≤ 16 → (∀ i ∈ linkLanes (.chain p), (s.lane i).st = .deskew ∧ (s.lane i).lastSkew = some skew) →
      exec (.align (.chain p) skew) s = .next (s.forEach (linkLanes (.chain p)) fun i t =>
        t.updLane i fun l => { l with st := .up, skew := skew, fails := 0, alignFrom := s.clk })) ∧
    (∀ i skew, exec (.align (.image i) skew) s = .next s)

/-- After the timeout of SIGNAL, LOCK, TRAIN or DESKEW (50, 20, 200 and 50 µs, R47) a lane waits 1 ms and starts again from DOWN; after
the eighth failure in a row it raises lane-bring-up-failed, and from then on waits 10 ms; each failure counts in BRINGUP_FAIL (R51). A
clock is 2 ns. -/
def Obligations.LaneTimeoutWaitsAndCounts : Prop :=
  ∀ (s : State) (lane : Fin 8), s.on = true →
    (∀ n, ((s.lane lane).st, n) ∈ [(LaneSt.signal, 25000), (.lock, 10000), (.train, 100000), (.deskew, 25000)] →
      s.clk < (s.lane lane).since + n → exec (.laneBringupTimeout lane) s = .next s) ∧
    (∀ n, ((s.lane lane).st, n) ∈ [(LaneSt.signal, 25000), (.lock, 10000), (.train, 100000), (.deskew, 25000)] →
      (s.lane lane).since + n ≤ s.clk → ∃ t, exec (.laneBringupTimeout lane) s = .next t ∧
        (t.lane lane).st = .down ∧ (t.lane lane).fails = (s.lane lane).fails + 1 ∧
        (t.lane lane).retryAt = some (s.clk + if 8 ≤ (s.lane lane).fails + 1 then 5000000 else 500000) ∧
        t.reg Key.BRINGUP_FAIL = (s.reg Key.BRINGUP_FAIL + 1) % 2 ^ 32 ∧
        (∀ k, k ≠ Key.BRINGUP_FAIL → t.reg k = s.reg k) ∧
        t.faults.raised = s.faults.raised ++ (if (s.lane lane).fails + 1 = 8 then [⟨0x18, lane.val, false⟩] else []) ∧
        t.mem = s.mem ∧ t.tabs = s.tabs ∧ t.ports = s.ports ∧ t.pos = s.pos ∧ (∀ i, i ≠ lane.val → t.lane i = s.lane i)) ∧
    (∀ n, (s.lane lane).st = .down → (s.lane lane).retryAt = some n → exec (.laneSignalDetect lane) s = .next s) ∧
    (∀ n, (s.lane lane).retryAt = some n → n ≤ s.clk →
      exec (.laneRetry lane) s = .next (s.updLane lane fun l => { l with retryAt := none })) ∧
    (∀ n, (s.lane lane).retryAt = some n → s.clk < n → exec (.laneRetry lane) s = .next s)

/-- An UP lane returns to DOWN on loss of signal, on 16 invalid headers within 125 µs, and on another skew; an EIDLE block idles it with
its corrections kept; a link whose lanes are idle comes UP again by a fast exit with block lock within 64 blocks, its skew retained and
REFCLK running, and otherwise goes DOWN (R50, R52–R54). Lane commands write no object but the counters that R50, R51, R55 and R217 name
for them, and touch no memory, table, key, port or position; the lanes of other ports stay as they are. -/
def Obligations.LaneLossIdleAndFastExit : Prop :=
  (∀ (s : State) (lane : Fin 8), s.on = true →
      ((s.lane lane).st = .up → exec (.laneLossOfSignal lane) s = .next (s.loseLane lane)) ∧
      ((s.lane lane).st = .up → exec (.eidle lane) s = .next (s.updLane lane fun l => { l with st := .idle })) ∧
      (∀ hdr ty, (s.lane lane).st = .up → hdr = 0 ∨ hdr = 3 →
        ((s.lane lane).bad.filter fun t => decide (s.clk < t + 62500)).length < 15 →
        exec (.invalidSyncHeader lane hdr ty) s = .next (s.updLane lane fun l =>
          { l with bad := s.clk :: (s.lane lane).bad.filter fun t => decide (s.clk < t + 62500) })) ∧
      (∀ hdr ty, (s.lane lane).st = .up → hdr = 0 ∨ hdr = 3 →
        15 ≤ ((s.lane lane).bad.filter fun t => decide (s.clk < t + 62500)).length →
        exec (.invalidSyncHeader lane hdr ty) s = .next (s.loseLane lane)) ∧
      (∀ p skew, (∀ i ∈ linkLanes (.chain p), (s.lane i).st = .up ∧ (s.lane i).skew ≠ skew) →
        exec (.align (.chain p) skew) s = .next (s.forEach (linkLanes (.chain p)) fun i t => t.loseLane i)) ∧
      (∀ link lock skew, lock ≤ 64 → (∀ i ∈ linkLanes link, (s.lane i).st = .idle ∧ (4 ≤ i → (s.lane i).skew = skew)) →
        exec (.fastExit link lock skew true) s = .next (s.forEach (linkLanes link) fun i t =>
          t.updLane i fun l => { l with st := .up, alignFrom := s.clk })) ∧
      (∀ link lock skew ok, (ok = false ∨ 64 < lock) → (∀ i ∈ linkLanes link, (s.lane i).st = .idle) →
        exec (.fastExit link lock skew ok) s = .next (s.forEach (linkLanes link) fun i t => t.loseLane i))) ∧
  (∀ (s t : State) (lane : Fin 8) (hdr : BitVec 2) (ty : BitVec 8) (blk : Block),
      (exec (.laneSignalDetect lane) s = .next t ∨ exec (.blockLock lane) s = .next t ∨ exec (.laneBringupTimeout lane) s = .next t ∨
        exec (.laneRetry lane) s = .next t ∨ exec (.train lane hdr blk) s = .next t ∨ exec (.eidle lane) s = .next t ∨
        exec (.laneLossOfSignal lane) s = .next t ∨ exec (.invalidSyncHeader lane hdr ty) s = .next t) →
      (∀ k, k ∉ [Key.BRINGUP_FAIL, Key.LOCK_LOSS_U, Key.LOCK_LOSS_D, Key.PACKET_FORMAT, Key.KIND_UNKNOWN] → t.reg k = s.reg k) ∧
      t.mem = s.mem ∧ t.tabs = s.tabs ∧ t.otp = s.otp ∧ t.nor = s.nor ∧ t.ports = s.ports ∧ t.pos = s.pos ∧ t.recv = s.recv ∧
      t.dict = s.dict ∧ t.grid = s.grid ∧ t.out = s.out ∧ (∀ i, i ∉ portLanes lane → t.lane i = s.lane i))

/-- A chain port comes UP and goes DOWN with its two lanes; the U port moves the chain state and tells of it, and forgets what SEQ it had
seen; a U port that goes down while copies come the other way arms the wrap; a unit cut off is DETACHED; a frame with no EOF is counted
and ended as a stomped one (R58, R63, R88, R91, R94). -/
def Obligations.ChainPortsFollowTheirLanes : Prop :=
  ∀ (s : State), s.on = true →
    ((s.cport .u).up = false → s.linkUp .u = true → s.link.st = .down → s.addr ≠ 0 →
      ∃ t, exec (.chainPortUp .u) s = .next t ∧ t.link.st = .attached ∧ (t.cport .u).up = true ∧ t.link.seqHi = none ∧
        t.link.seqSeen = [] ∧ (∀ k, k ≠ Key.EVENT_LOST → t.reg k = s.reg k) ∧ t.mem = s.mem ∧ t.tabs = s.tabs ∧ t.ports = s.ports ∧
        (s.link.events.length < 64 → t.link.events.map (fun e => (e.cls, e.code)) =
          s.link.events.map (fun e => (e.cls, e.code)) ++ [(0x30, 4)])) ∧
    ((s.cport .d).up = false → (s.cport .d).was = false → s.linkUp .d = true →
      exec (.chainPortUp .d) s = .next (s.updCport .d fun c => { c with up := true, was := true, probedIn := none })) ∧
    ((s.cport .d).up = false → (s.cport .d).was = true → s.linkUp .d = true → exec (.chainPortUp .d) s =
      .next ((s.updCport .d fun c => { c with up := true, was := true, probedIn := none }).event 0x30 1 0)) ∧
    (∀ u, u = (s.updCport .u fun c => { c with up := false, probes := [], txq := [] }) → (s.cport .u).up = true → s.linkLost .u = true →
      (u.cutOff = true → u.link.st ≠ .wrapped → exec (.chainPortDown .u) s = .next u.detach) ∧
      (u.cutOff = false → u.link.st ∉ [.wrapped, .down, .detached] →
        exec (.chainPortDown .u) s = .next (u.updLink fun l => { l with wrapArmed := true })) ∧
      (u.link.st = .wrapped → exec (.chainPortDown .u) s = .next u)) ∧
    (∀ u, u = (s.updCport .d fun c => { c with up := false, probes := [], txq := [] }).event 0x30 0 0 → (s.cport .d).up = true →
      s.linkLost .d = true →
      (u.link.st = .wrapped → u.linkUp .u = false → exec (.chainPortDown .d) s = .next u.detach) ∧
      (u.link.st ≠ .wrapped ∨ u.linkUp .u = true → exec (.chainPortDown .d) s = .next u)) ∧
    (s.detach.link.st = .detached ∧ ∀ k, s.detach.reg k = s.reg k) ∧
    (s.clocked = true → s.linkUp .u = true → s.linkUp .d = true →
      exec (.frameEofTimeout .u) s = .next ((s.inc Key.CRC_ERR_U).emit (.stompEnd .d)) ∧
      exec (.frameEofTimeout .d) s = .next ((s.inc Key.CRC_ERR_D).emit (.stompEnd .u)))

/-- Probes of a port: one per chain cycle, on D only in a ring; a PROBE is answered with its PSEQ and the residence; a PRET with the PSEQ
of a probe sent at most 2 µs ago adds a sample of T4 − T1 − RES to the last 64; another is ignored, and a probe 2 µs old is given up (R57,
R69, R70). -/
def Obligations.ProbesMeasureTheLink : Prop :=
  ∀ (s : State) (p : ChainPort), s.clocked = true → s.linkUp p = true →
    (∀ phase, (p = .u ∨ s.flag Key.RING_MODE = true) → (s.cport p).probedIn ≠ some (s.ct / 500) →
      exec (.probeSend p phase) s = .next ((s.updCport p fun c => { c with
          probes := (⟨(s.cport p).pseq, s.at8 phase, s.clk⟩ :: c.probes).take 256, pseq := ((s.cport p).pseq + 1) % 256,
          probedIn := some (s.ct / 500) }).emit (.block p (BitVec.ofNat 64 (fld (s.cport p).pseq 8 8 + 0x3C))))) ∧
    (s.flag Key.RING_MODE = false → ∀ phase, p = .d → exec (.probeSend p phase) s = .next s) ∧
    (∀ blk residence, exec (.probe p blk residence) s =
        .next (s.emit (.block p (BitVec.ofNat 64 (fld residence 24 40 + fld (bits blk.toNat 15 8) 8 8 + 0x5A))))) ∧
    (∀ blk phase r, (s.cport p).probes.find? (fun r => r.pseq == bits blk.toNat 15 8) = some r → s.clk ≤ r.sent + 1000 →
      exec (.pret p blk phase) s = .next ((s.updCport p fun c => { c with
          probes := c.probes.erase r
          samples := (((s.at8 phase : Int) - (r.t1 : Int) - (bits blk.toNat 63 40 : Int)) :: c.samples).take 64 }).setDelay p)) ∧
    (∀ blk phase, (∀ r ∈ (s.cport p).probes, r.pseq = bits blk.toNat 15 8 → r.sent + 1000 < s.clk) →
      exec (.pret p blk phase) s = .next s) ∧
    exec (.pretTimeout p) s = .next (s.updCport p fun c => { c with probes := c.probes.filter fun r => decide (s.clk ≤ r.sent + 1000) })

/-- A forward CYCLE copy at the U port of a unit that follows it: it leaves D with the accumulated delay raised by the link delay and the
residence and one more hop (R67, in which HOPS is taken to saturate: the model's choice, log 34), ACC_DELAY_F records the delay on
arrival, the arrival is noted, and the position due next is that of the CYCLE's own number (R66–R68, R75, R91). -/
def Obligations.ForwardCycleIsPassedOn : Prop :=
  ∀ (s : State) (blk : Block) (phase : Fin 8) (residence : Nat), s.clocked = true → (Instr.cycle .u blk phase residence).wf = true →
    s.linkUp .u = true → s.linkUp .d = true → s.link.st = .attached → s.link.ctValid = false → s.link.timeN = none →
    bit blk.toNat 19 = false →
    ∃ t, exec (.cycle .u blk phase residence) s = .next t ∧
      t.out = .block .d (BitVec.ofNat 64 (fld (bits blk.toNat 63 40 + s.reg Key.LINK_DELAY_U + residence) 24 40
        + bits blk.toNat 39 16 * 2 ^ 16 + fld (min 255 (bits blk.toNat 15 8 + 1)) 8 8 + 0x4B)) :: s.out ∧
      t.reg Key.ACC_DELAY_F = (bits blk.toNat 63 40 + s.reg Key.LINK_DELAY_U) % 2 ^ keyWidth Key.ACC_DELAY_F ∧
      (∀ k, k ≠ Key.ACC_DELAY_F → t.reg k = s.reg k) ∧
      t.link.lastFwd = some s.ct ∧ t.link.wrapArmed = false ∧
      t.link.posDue = some (resolveCycle (bits blk.toNat 39 20) (s.ct / 500)) ∧ t.link.ct8 = s.link.ct8 ∧
      t.mem = s.mem ∧ t.tabs = s.tabs ∧ t.ports = s.ports

/-- A frame on an UP port: damaged or stomped it is passed on stomped and not acted on, an unlisted length is counted; a whole frame from
the Summit, for this unit or for all, is acted on once per SEQ, and when it comes again it is counted and passed on (R58, R60–R63). -/
def Obligations.SummitFramesAreTakenOnce : Prop :=
  ∀ (s : State) (kind : Nat) (f : Frame) (mine all : Bool), s.linkUp f.port = true →
    (f.stomp = true → s.recvSummit kind f mine all = (s.forward kind f true, false)) ∧
    (f.stomp = false → frameDamaged kind f = true → s.recvSummit kind f mine all =
      ((s.inc (match f.port with | .u => Key.CRC_ERR_U | .d => Key.CRC_ERR_D)).forward kind f true, false)) ∧
    (f.stomp = false → frameDamaged kind f = false → (f.hopmode = true → kind = 0x07) →
      (kindLen kind f.len.toNat = false → s.recvSummit kind f mine all = ((s.inc Key.KIND_UNKNOWN).forward kind f false, false)) ∧
      (kindLen kind f.len.toNat = true → f.origin = true → mine = true ∨ all = true →
        ∃ u, s.recvSummit kind f mine all = (u, s.link.seqNew f.seq.toNat) ∧
          (s.link.seqNew f.seq.toNat = true → u.recvSummit kind f mine all = ((u.inc Key.DUP_DISCARD).forward kind f false, false))))

/-- What a unit does with the frames it acts on: TIME gives the cycle number; GEYSER arms a bank, marks it MISSED when the target has been
reached, and with CANCEL empties it; ENUM_DISCOVER gives the hop and ENUM_ASSIGN the address to the unit of its hop and serial; ENUM_DONE
makes it ENUMERATED; RING sets the ring mode and the switch time (R68, R85–R87, R89, R90, R93, R96, R99). A frame of a kind that the unit
does not act on passes through whole, and is checked; a frame that arrives by its kind alone is the command of its kind (R58–R62). A whole
frame in HOPMODE that is no ENUM_ASSIGN is passed on and counted nowhere: the model's choice (log 34). -/
def Obligations.SummitFramesAct : Prop :=
  (∀ (s u : State) (f : Frame), s.clocked = true →
      (s.recvAll 0x03 f = (u, true) → exec (.time f) s = .next (u.updLink fun l => { l with timeN := some (f.payload 0 / 500) })) ∧
      (∀ i b, s.recvAll 0x04 f = (u, true) → i ∈ [Instr.geyserArm f, .geyserCancel f] → b = bits (f.payload 1) 63 62 →
        (bit (f.payload 1) 60 = false → ∀ tgt, tgt = (if bit (f.payload 1) 61 then f.payload 0 % 2 ^ 48 else f.payload 0) →
          (u.geyserReached (bit (f.payload 1) 61) tgt = true → exec i s = .next (u.updBank b fun k => { k with st := .missed })) ∧
          (u.geyserReached (bit (f.payload 1) 61) tgt = false → exec i s = .next ((u.updBank b fun _ =>
            { st := .armed, byPos := bit (f.payload 1) 61, prev := u.derived, words := [] }).setReg (Key.GEYSER_TARGET b) tgt))) ∧
        (bit (f.payload 1) 60 = true →
          ((u.bank b).st = .armed → u.latchDue b = false → exec i s = .next (u.updBank b fun k => { k with st := .empty })) ∧
          ((u.bank b).st ≠ .armed ∨ u.latchDue b = true → exec i s = .next u))) ∧
      (s.recvAll 0x05 f = (u, true) → f.port = .u → f.hops.toNat + 1 < 255 → exec (.enumDiscover f) s =
        .next (((u.setReg Key.CHAIN_HOP (f.hops.toNat + 1)).updLink fun l => { l with enumerating := true }).sendReport false)) ∧
      (s.recvAll 0x05 f = (u, true) → f.port = .u → 254 ≤ f.hops.toNat → exec (.enumDiscover f) s = .next
        ((((u.setReg Key.CHAIN_HOP 255).updLink fun l => { l with enumerating := true }).setReg Key.CHAIN_ADDR 0).sendReport false)) ∧
      (f.port = .d → exec (.enumDiscover f) s = .next (s.passFrame 0x05 f)) ∧
      (s.recvSummit 0x07 f (f.hopmode && f.dest.toNat == s.reg Key.CHAIN_HOP && decide (s.reg Key.CHAIN_HOP ≠ 0) &&
          decide (s.reg Key.CHAIN_HOP ≠ 255)) false = (u, true) →
        (f.payload 0 ≠ u.ident.serial → exec (.enumAssign f) s = .next u) ∧
        (f.payload 0 = u.ident.serial → bits (f.payload 1) 63 56 ∉ [0, 255] → u.armed = true → bits (f.payload 1) 63 56 ≠ u.addr →
          exec (.enumAssign f) s = .next (u.sendReport false)) ∧
        (f.payload 0 = u.ident.serial → bits (f.payload 1) 63 56 ∉ [0, 255] → u.armed = false ∨ bits (f.payload 1) 63 56 = u.addr →
          (bit (f.payload 1) 55 = false →
            exec (.enumAssign f) s = .next ((u.setReg Key.CHAIN_ADDR (bits (f.payload 1) 63 56)).sendReport false)) ∧
          (bit (f.payload 1) 55 = true → exec (.enumAssign f) s = .next (((u.setReg Key.CHAIN_ADDR (bits (f.payload 1) 63 56)).updLink fun l =>
            { l with sticky := some (bits (f.payload 1) 63 56) }).sendReport false)))) ∧
      (s.recvAll 0x08 f = (u, true) → u.addr ≠ 0 → u.link.st = .attached ∨ u.link.st = .active →
        exec (.enumDone f) s = .next (u.updLink fun l => { l with enumerating := false, st := .enumerated })) ∧
      (∀ i, s.recvAll 0x09 f = (u, true) → i ∈ [Instr.ringEnable f, .ringDisable f, .ringRestore f] →
        (ringOp f = 1 → exec i s = .next (u.setReg Key.RING_MODE 1)) ∧
        (ringOp f = 2 → exec i s = .next ((u.setReg Key.RING_MODE 0).updLink fun l => { l with wrapArmed := false, wrapDue := false })) ∧
        (ringOp f = 3 → exec i s = .next (u.updLink fun l => { l with switchCt := some (f.payload 1) })))) ∧
  (∀ (s : State) (kind : BitVec 5) (f : Frame), s.clocked = true → s.linkUp f.port = true →
      (ownKind kind.toNat = false → f.stomp = false → frameDamaged kind.toNat f = false →
        (kindLen kind.toNat f.len.toNat = true ∨ f.hopmode = true → exec (.frameForward kind f) s = .next (s.forward kind.toNat f false)) ∧
        (kindLen kind.toNat f.len.toNat = false → f.hopmode = false →
          exec (.frameForward kind f) s = .next ((s.inc Key.KIND_UNKNOWN).forward kind.toNat f false))) ∧
      (exec (.frameForward 0x01 f) s = exec (.pos f) s ∧ exec (.frameForward 0x03 f) s = exec (.time f) s ∧
        exec (.frameForward 0x04 f) s = exec (.geyserArm f) s ∧ exec (.frameForward 0x05 f) s = exec (.enumDiscover f) s ∧
        exec (.frameForward 0x07 f) s = exec (.enumAssign f) s ∧ exec (.frameForward 0x08 f) s = exec (.enumDone f) s ∧
        exec (.frameForward 0x09 f) s = exec (.ringEnable f) s))

/-- An assigned address is the unit's at once, no other object changes, memory, tables, keys and ports stay, and the unit reports (R85).
Own events leave both ports at once with one SEQ while the allowance is there, a notice of lost ones follows when there is room, a unit
without address reports itself once, and a sticky address is stored once Caldera runs (R81, R87–R89). -/
def Obligations.AddressAndReports : Prop :=
  (∀ (s u : State) (f : Frame), s.clocked = true → s.reg Key.CHAIN_HOP ≠ 0 → s.reg Key.CHAIN_HOP ≠ 255 → f.hopmode = true →
      f.dest.toNat = s.reg Key.CHAIN_HOP → s.recvSummit 0x07 f true false = (u, true) → f.payload 0 = s.ident.serial →
      bits (f.payload 1) 63 56 ≠ 0 → bits (f.payload 1) 63 56 ≠ 255 → s.armed = false → s.boot.phase = .running →
      ∃ t, exec (.enumAssign f) s = .next t ∧ t.addr = bits (f.payload 1) 63 56 ∧ (∀ k, k ≠ Key.CHAIN_ADDR → t.reg k = u.reg k) ∧
        t.mem = s.mem ∧ t.tabs = s.tabs ∧ t.otp = s.otp ∧ t.ports = s.ports ∧
        (s.linkUp s.activeUp = true → (u.cport s.activeUp).busyTo ≤ u.clk → (u.cport s.activeUp).txq = [] → ∃ r, t.out = .frame s.activeUp 0x06 r :: u.out ∧ r.src.toNat = bits (f.payload 1) 63 56)) ∧
  (∀ (s : State), s.clocked = true →
      (∀ e es, s.link.events = e :: es → 16 ≤ s.link.tok16 → s.link.st ≠ .down → s.link.st ≠ .detached →
        exec .eventSend s = .next (((s.updLink fun l => { l with events := es, tok16 := l.tok16 - 16 }).sendFrame .u 0x02 e.seq 0
          (eventBlocks e)).sendFrame .d 0x02 e.seq 0 (eventBlocks e))) ∧
      (s.link.tok16 < 16 → exec .eventSend s = .next s) ∧
      (s.link.eventsLost = true → s.link.events.length < 64 →
        exec .eventLostNotice s = .next ((s.updLink fun l => { l with eventsLost := false }).event 0x30 5 0)) ∧
      (s.link.reportDue = true → s.addr = 0 → s.link.ctValid = true → s.link.enumerating = false → s.boot.phase = .running →
        exec .unsolicitedEnumReport s = .next ((s.updLink fun l => { l with reportDue := false }).sendReport true)) ∧
      (s.link.reportDue = false → exec .unsolicitedEnumReport s = .next s) ∧
      (∀ a, s.link.sticky = some a → s.calderaUp = true →
        exec .stickyStore s = .next ((s.updLink fun l => { l with sticky := none }).storeSticky a)) ∧
      (∀ a, s.link.sticky = some a → s.calderaUp = false → exec .stickyStore s = .next s) ∧
      (∀ b : Fin 4, s.latchDue b = true → exec (.geyserLatch b) s = .next (s.latchBank b)) ∧
      (∀ b : Fin 4, s.latchDue b = false → exec (.geyserLatch b) s = .next s))

/-- ACTIVE is entered with an address after 16 aligned cycles; 64 misaligned cycles raise chain-time-misaligned unless a wake suspends it
(R73, R542). A ring that loses its forward copies wraps with the next reverse copy, tells of it and counts it; at SWITCH_CT it returns to
U where U is UP (R91, R93). -/
def Obligations.ChainStateAndRing : Prop :=
  (∀ (s : State), s.clocked = true →
      (s.link.st = .enumerated → s.addr ≠ 0 → 16 ≤ s.link.aligned →
        exec .chainActive s = .next (s.updLink fun l => { l with st := .active })) ∧
      (s.link.aligned < 16 → exec .chainActive s = .next s) ∧
      (64 ≤ s.link.misaligned → s.power.quietTo ≤ s.clk → exec .chainTimeMisaligned s = .next (s.cause 0x19 0 true 0)) ∧
      (s.clk < s.power.quietTo → exec .chainTimeMisaligned s = .next s)) ∧
  (∀ (s : State), s.clocked = true →
      (s.flag Key.RING_MODE = true → s.link.st ≠ .wrapped → s.link.st ≠ .down → (∀ t, s.link.lastFwd = some t → t + 1600 ≤ s.ct) →
        s.revArriving = true → exec .forwardCycleTimeout s = .next (s.updLink fun l => { l with wrapArmed := true })) ∧
      (∀ t, s.link.lastFwd = some t → s.ct < t + 1600 → exec .forwardCycleTimeout s = .next s) ∧
      (s.link.wrapDue = true → s.flag Key.RING_MODE = true → s.link.st ≠ .wrapped → ∃ t, exec .wrap s = .next t ∧ t.link.st = .wrapped ∧
        t.activeUp = .d ∧ t.link.wrapDue = false ∧ t.reg Key.WRAP_COUNT = (s.reg Key.WRAP_COUNT + 1) % 2 ^ keyWidth Key.WRAP_COUNT ∧
        (∀ k, k ≠ Key.WRAP_COUNT → k ≠ Key.EVENT_LOST → t.reg k = s.reg k) ∧ t.mem = s.mem ∧ t.tabs = s.tabs ∧ t.ports = s.ports) ∧
      (s.link.wrapDue = false ∨ s.flag Key.RING_MODE = false ∨ s.link.st = .wrapped →
        exec .wrap s = .next (s.updLink fun l => { l with wrapDue := false })) ∧
      (∀ t, s.link.switchCt = some t → t ≤ s.ct → s.link.st = .wrapped → s.linkUp .u = true → s.addr ≠ 0 → exec .restoreSwitch s =
        .next ((s.updLink fun l => { l with switchCt := none, st := .active }).event 0x30 3 0)) ∧
      (∀ t, s.link.switchCt = some t → t ≤ s.ct → s.link.st ≠ .wrapped ∨ s.linkUp .u = false → exec .restoreSwitch s =
        .next (s.updLink fun l => { l with switchCt := none })) ∧
      (∀ t, s.link.switchCt = some t → s.ct < t → exec .restoreSwitch s = .next s))

/-- POS is acted on in time, from the source wanted, once per SEQ of its source; at its apply time the oldest comes into force, with a
take-up of at most 256 ticks and a counted step beyond; 16 cycles without one stop every port and raise the loss (R29, R63, R75–R77, R168,
R169). -/
def Obligations.PositionBroadcastIsTakenUp : Prop :=
  ∀ (s : State), s.clocked = true →
    (∀ f, s.recvCheck 0x01 f = (s, .intact) → (∀ h, Map.get (fun _ => none) s.link.posSeq (bcastOf f).src = some h → diff 16 f.seq.toNat h ≤ 0) →
      Map.get (fun _ => none) s.link.posSeq (bcastOf f).src ≠ none →
      exec (.pos f) s = .next ((s.inc Key.DUP_DISCARD).forward 0x01 f false)) ∧
    (∀ f, s.recvCheck 0x01 f = (s, .intact) → (∀ h, Map.get (fun _ => none) s.link.posSeq (bcastOf f).src = some h → 0 < diff 16 f.seq.toNat h) →
      (s.offerPos (bcastOf f) false).2 = true → f.dest = 255 → s.addr ≠ 255 →
      exec (.pos f) s = .next (((s.offerPos (bcastOf f) false).1.updLink fun l =>
        { l with posSeq := Map.put (fun _ => none) l.posSeq (bcastOf f).src (some f.seq.toNat) }).forward 0x01 f false)) ∧
    (∀ f, s.recvCheck 0x01 f = (s, .intact) → (∀ h, Map.get (fun _ => none) s.link.posSeq (bcastOf f).src = some h → 0 < diff 16 f.seq.toNat h) →
      (s.offerPos (bcastOf f) false).2 = false → exec (.pos f) s = .next ((s.offerPos (bcastOf f) false).1.forward 0x01 f false)) ∧
    (∀ b own, b.sample + s.reg Key.POS_APPLY_DELAY < s.ct → (s.offerPos b own).2 = false) ∧
    (∀ b, s.reg Key.ROLE_IN_FORCE = 1 → b.src ≠ s.addr → (s.offerPos b false).2 = false) ∧
    (∀ b, s.reg Key.POS_SOURCE_ADDR ≠ 0 → b.src ≠ s.reg Key.POS_SOURCE_ADDR → (s.offerPos b false).2 = false) ∧
    (∀ b own, s.ct ≤ b.sample + s.reg Key.POS_APPLY_DELAY → s.reg Key.POS_SOURCE_ADDR = b.src → b.src ≠ 0 → s.reg Key.ROLE_IN_FORCE ≠ 1 ∨ own = true →
      (s.offerPos b own).2 = true ∧ b ∈ (s.offerPos b own).1.recv.queue ∧ (s.offerPos b own).1.recv.accepted = true ∧
        (s.offerPos b own).1.reg Key.POS_SOURCE_SEEN = b.src % 2 ^ keyWidth Key.POS_SOURCE_SEEN) ∧
    (∀ n b u, s.link.posDue = some n → s.pos.sampled = some b → b.sample / 500 = n →
      u = (s.updLink fun l => { l with
        posDue := none, txSeq := (l.txSeq + 1) % 2 ^ 16, posSeq := Map.put (fun _ => none) l.posSeq b.src (some s.link.txSeq) }) →
      exec .posSend s = .next
          ((((u.sendFrame .u 0x01 s.link.txSeq 255 (bcastBlocks b)).sendFrame .d 0x01 s.link.txSeq 255 (bcastBlocks b))).offerPos b true).1) ∧
    (s.pos.sampled = none → exec .posSend s = .next (s.updLink fun l => { l with posDue := none })) ∧
    (s.posApplyDue = true → s.applyPos.passStart.reg Key.PASS_COUNT = s.applyPos.reg Key.PASS_COUNT →
      exec .posApply s = .next s.applyPos.passStart) ∧
    (s.posApplyDue = true → s.applyPos.passStart.reg Key.PASS_COUNT ≠ s.applyPos.reg Key.PASS_COUNT →
      exec .posApply s = .next s.applyPos.passStart.newPass) ∧
    (s.posApplyDue = false → exec .posApply s = .next s) ∧
    (∀ b rest, s.recv.queue = b :: rest → ∃ d : Int, s.applyPos.recv.now = some ⟨b, b.sample + s.reg Key.POS_APPLY_DELAY, d⟩ ∧
      d.natAbs ≤ 256 * 65536 ∧ s.applyPos.recv.queue = rest) ∧
    (s.recv.judging = true → 16 ≤ s.recv.missed → s.recv.lost = false → s.power.quietTo ≤ s.clk → exec .posBroadcastLost s =
      .next (((s.updRecv fun r => { r with lost := true }).forEach (List.range s.nPorts) (State.stopAtLine 10)).cause 0x1A 0 true 0)) ∧
    (s.recv.missed < 16 → exec .posBroadcastLost s = .next s)

/-- Each chain cycle: a cycle without an accepted POS is counted while loss is judged, the event allowance grows by EVENT_RATE up to 8
events (from a full allowance, by sixteenths: the model's choice, log 34), and the position source samples the position at the cycle's
start (R29, R81, R168). -/
def Obligations.ChainCycleBookkeeping : Prop :=
  ∀ (s : State), s.clocked = true →
    ∃ t, exec .chainCycleEnd s = .next t ∧ t.link.tok16 = min 128 (s.link.tok16 + s.reg Key.EVENT_RATE) ∧ t.recv.accepted = false ∧
      (s.recv.accepted = true → t.recv.missed = 0 ∧ t.reg Key.POS_MISSED = s.reg Key.POS_MISSED) ∧
      (s.recv.accepted = false → s.recv.judging = true → s.power.quietTo ≤ s.clk →
        t.recv.missed = s.recv.missed + 1 ∧ t.reg Key.POS_MISSED = (s.reg Key.POS_MISSED + 1) % 2 ^ keyWidth Key.POS_MISSED) ∧
      (s.reg Key.ROLE_IN_FORCE ≠ 1 → t.pos.sampled = none) ∧
      (s.reg Key.ROLE_IN_FORCE = 1 → s.flag Key.POS_LOCAL_VALID = true →
        ∃ b, t.pos.sampled = some b ∧ b.sample = s.ct / 500 * 500 ∧ b.src = s.addr) ∧
      t.mem = s.mem ∧ t.tabs = s.tabs ∧ t.ports = s.ports ∧ t.out = s.out

/-! ## The Position Base -/

/-- An encoder edge that goes back within the glitch time is counted and ignored; another is taken with ENC_INVERT, stamped with the
instant at which the level changed (R145, R146). A line fault of the differential pair suspends and raises, its end ends it (R149); a
direction edge is in force 10 clocks later (R155). A counted edge moves the local position by one tick of 256 st in the direction in
force, and by its share of PENDING (R147, R152, R167); edges closer than 20 ct are counted as over-rate and raised. -/
def Obligations.EncoderEdgesMoveThePosition : Prop :=
  (∀ (s : State) (level : Bool), s.clocked = true →
      (∀ reverted, level = s.pos.raw → exec (.encEdge level reverted) s = .next s) ∧
      (level ≠ s.pos.raw → s.reg Key.ENC_GLITCH ≠ 0 → exec (.encEdge level true) s = .next (s.inc Key.TICK_GLITCH)) ∧
      (∀ reverted, level ≠ s.pos.raw → reverted = false ∨ s.reg Key.ENC_GLITCH = 0 → exec (.encEdge level reverted) s =
        .next (((s.updPos fun p => { p with raw := level }).acceptEdge (level != s.flag Key.ENC_INVERT)
          (s.ct - s.reg Key.ENC_GLITCH)).syncEncOut)) ∧
      (s.flag Key.ENC_ENABLE = true → s.reg Key.ENC_INPUT = 0 →
        exec .encLineFault s = .next ((s.updPos fun p => { p with lineBad := true }).cause 0x20 0 true 0)) ∧
      (s.flag Key.ENC_ENABLE = false ∨ s.reg Key.ENC_INPUT ≠ 0 → exec .encLineFault s = .next s) ∧
      exec .encLineClear s = .next ((s.updPos fun p => { p with lineBad := false }).cause 0x20 0 false 0) ∧
      (∀ rising t, s.flag Key.ENC_ENABLE = false ∨ s.pos.lineBad = true → s.acceptEdge rising t = s) ∧
      (∃ t, exec (.encDirEdge level) s = .next t ∧ t.pos.dirPin = level ∧ t.pos.dirAt = s.clk + 10 ∧
        t.pos.dirPrev = (if s.pos.dirAt ≤ s.clk then s.pos.dirPin else s.pos.dirPrev) ∧ t.pos.pos = s.pos.pos ∧
        (∀ k, t.reg k = s.reg k) ∧ t.mem = s.mem ∧ t.tabs = s.tabs ∧ t.ports = s.ports ∧ t.grid = s.grid)) ∧
  (∀ (s : State) (t : Nat),
      (s.countEdge t).pos.pos = unsgn 48 ((s.pos.pos : Int) + (if s.pos.rev then -256 else 256) + s.pos.tickShare) ∧
      (s.countEdge t).pos.pending = s.pos.pending - s.pos.tickShare ∧
      (s.countEdge t).pos.tLast = some t ∧ (s.countEdge t).pos.stopped = false ∧
      (s.countEdge t).pos.hist.head? = some (t, (s.countEdge t).pos.pos) ∧
      (∀ k, k ≠ Key.TICK_OVERRATE → (s.countEdge t).reg k = s.reg k) ∧
      (∀ tl, s.pos.tLast = some tl → t < tl + 20 →
        (s.countEdge t).reg Key.TICK_OVERRATE = (s.reg Key.TICK_OVERRATE + 1) % 2 ^ keyWidth Key.TICK_OVERRATE ∧
        (s.countEdge t).faults.raised = s.faults.raised ++ [⟨0x21, 0, false⟩]))

/-- A correction v is spread over N = max(64, ⌈|v|/32⌉) counted ticks and no more: none takes more than 32 st of it, none turns the motion
round, and after N ticks the position has moved by N ticks and v, with nothing pending (R152). -/
def Obligations.PendingIsSpreadExactly : Prop :=
  ∀ (p : Pos) (m : Nat) (v : Int), v ≠ 0 →
    (p.setPending v).n = max 64 (ceilDiv v.natAbs 32) ∧
    (∀ i, i < (p.setPending v).n → ((Pos.tick m)^[i] (p.setPending v)).tickShare.natAbs ≤ 32) ∧
    ((Pos.tick m)^[(p.setPending v).n] (p.setPending v)).pending = 0 ∧
    ((Pos.tick m)^[(p.setPending v).n] (p.setPending v)).n = 0 ∧
    ((Pos.tick m)^[(p.setPending v).n] (p.setPending v)).pos % 2 ^ 48 =
      unsgn 48 ((p.pos : Int) + (if p.rev then -256 else 256) * ((p.setPending v).n : Int) + v)

/-- Commutation: the first code is taken as the start; the next of the sequence is a step forward, the one before a step back, by
HALL_INVERT; a code that is neither is counted, raised, and ends the slip window (R156). A slip window of enough steps is judged while the
check is on (R158); a stop ends validation, interpolation and the window (R151, R158). An SSI read ends: a stop bit still high is a frame
error; a status bit in SSI_ERR_MASK is a sensor error; otherwise the position is that of R160 and the uses are served, after a second read
with SSI_CHECK 1 (R159–R163). A retry comes when its time has. A role switch takes effect at its time (R170). -/
def Obligations.CommutationSlipAndSsi : Prop :=
  (∀ (s : State) (code : BitVec 3), s.clocked = true →
      (code.toNat ≠ 0 → code.toNat ≠ 7 → s.pos.hall = none →
        exec (.hallEdge code) s = .next (s.updPos fun p => { p with hall := some code.toNat })) ∧
      (∀ h, s.pos.hall = some h → (h, code.toNat) ∈ [(1, 3), (3, 2), (2, 6), (6, 4), (4, 5), (5, 1)] →
        exec (.hallEdge code) s = .next (s.hallStep code.toNat (s.flag Key.HALL_INVERT))) ∧
      (∀ h, s.pos.hall = some h → (code.toNat, h) ∈ [(1, 3), (3, 2), (2, 6), (6, 4), (4, 5), (5, 1)] →
        exec (.hallEdge code) s = .next (s.hallStep code.toNat (!s.flag Key.HALL_INVERT))) ∧
      (code.toNat = 0 ∨ code.toNat = 7 ∨ (∃ h, s.pos.hall = some h ∧ 1 ≤ h ∧ h ≤ 6 ∧ code.toNat ≠ h ∧ (h, code.toNat) ∉ [(1, 3), (3, 2), (2, 6), (6, 4), (4, 5), (5, 1)] ∧
          (code.toNat, h) ∉ [(1, 3), (3, 2), (2, 6), (6, 4), (4, 5), (5, 1)]) →
        exec (.hallEdge code) s = .next
          (((s.inc Key.HALL_INVALID).updPos fun p => { p with stepRev := none, steps := 0, stepTicks := 0 }).raise 0x24 0)) ∧
      (s.reg Key.DIR_SOURCE = 0 → s.reg Key.SLIP_STEP_TICKS ≠ 0 → s.reg Key.SLIP_WINDOW ≤ s.pos.steps →
        ((((s.pos.stepTicks * 65536 : Nat) : Int) - ((s.reg Key.SLIP_WINDOW * s.reg Key.SLIP_STEP_TICKS : Nat) : Int)).natAbs * 100 ≤
            s.reg Key.SLIP_TOL * (s.reg Key.SLIP_WINDOW * s.reg Key.SLIP_STEP_TICKS) →
          exec .slipWindowEnd s = .next (s.updPos fun p => { p with steps := 0, stepTicks := 0 })) ∧
        (s.reg Key.SLIP_TOL * (s.reg Key.SLIP_WINDOW * s.reg Key.SLIP_STEP_TICKS) <
            (((s.pos.stepTicks * 65536 : Nat) : Int) - ((s.reg Key.SLIP_WINDOW * s.reg Key.SLIP_STEP_TICKS : Nat) : Int)).natAbs * 100 →
          exec .slipWindowEnd s = .next (((s.updPos fun p => { p with steps := 0, stepTicks := 0 }).inc Key.SLIP_EVENTS).raise
            (if s.pos.stepTicks = 0 then 0x26 else 0x25) 0))) ∧
      (s.reg Key.DIR_SOURCE ≠ 0 → exec .slipWindowEnd s = .next s) ∧
      (s.pos.stopped = false → ∃ t, exec .speedStop s = .next t ∧ t.pos.stopped = true ∧ t.pos.tValid = false ∧ t.pos.ivals = [] ∧
        t.pos.steps = 0 ∧ (∀ c, t.speedAt c = 0) ∧ t.mem = s.mem ∧ t.tabs = s.tabs ∧ t.ports = s.ports ∧ t.grid = s.grid) ∧
      (s.pos.stopped = true → exec .speedStop s = .next s)) ∧
  (∀ (s : State) (w : SsiWire) (ready : Option Nat), s.clocked = true →
      (s.pos.ssi.busy = false ∨ s.pos.ssi.wait ≠ none → exec (.ssiReadDone w ready) s = .next s) ∧
      (∀ u, u = ((s.setReg Key.SSI_RAW (w.word.toNat % 2 ^ s.reg Key.SSI_BITS)).updPos fun p =>
          { p with ssiReady := ready, ssi := { p.ssi with freeAt := s.clk + 500 * s.reg Key.SSI_MONOFLOP } }) →
        s.pos.ssi.busy = true → s.pos.ssi.wait = none →
        (w.stopLow = false → exec (.ssiReadDone w ready) s = .next (u.ssiEnd .frameError 0)) ∧
        (w.stopLow = true → ∃ (v : State) (d : Int) (c : Bool × Nat), c = s.ssiConvert (w.word.toNat % 2 ^ s.reg Key.SSI_BITS) ∧
          v = (u.setReg Key.SSI_POS c.2).setRegI Key.SSI_DIFF (clampI (-(2 ^ 31)) (2 ^ 31 - 1) d) ∧
          (c.1 = false → exec (.ssiReadDone w ready) s = .next (v.ssiEnd .sensorError d)) ∧
          (c.1 = true → s.reg Key.SSI_CHECK = 0 → exec (.ssiReadDone w ready) s = .next (v.ssiEnd .ok d)) ∧
          (c.1 = true → s.reg Key.SSI_CHECK ≠ 0 → s.pos.ssi.first = none →
            exec (.ssiReadDone w ready) s = .next (v.ssiBegin (some { s.pos.ssi.shot with pos := c.2 }))) ∧
          (∀ a, c.1 = true → s.reg Key.SSI_CHECK ≠ 0 → s.pos.ssi.first = some a → exec (.ssiReadDone w ready) s = .next (v.ssiEnd
            (if ssiAgree (s.reg Key.SSI_MODULUS) (s.reg Key.SSI_SCALE) a { s.pos.ssi.shot with pos := c.2 } then .ok else .disagree) d)))) ∧
      (∀ n, s.pos.ssi.retryAt = some n → n ≤ s.clk → exec (.ssiRetry ready) s = .next ((s.updPos fun p => { p with
        ssiReady := ready, ssi := { p.ssi with tries := p.ssi.tries + 1 } }).ssiBegin none)) ∧
      (∀ n, s.pos.ssi.retryAt = some n → s.clk < n → exec (.ssiRetry ready) s = .next s) ∧
      (∀ t v, s.pos.newRole = some (t, v) → t ≤ s.ct → v < 2 → ∃ u, exec .roleSwitch s = .next u ∧ u.reg Key.ROLE_IN_FORCE = v ∧
        u.pos.newRole = none ∧ (∀ k, k ≠ Key.ROLE_IN_FORCE → u.reg k = s.reg k) ∧ u.mem = s.mem ∧
        u.tabs = s.tabs ∧ u.ports = s.ports) ∧
      (∀ t v, s.pos.newRole = some (t, v) → s.ct < t → exec .roleSwitch s = .next s))

/-! ## The object dictionary -/

/-- A row of the dictionary is the arrival of the request that it carries (R112); with a read of the sensor it brings SSI_DATA (R159). An
accepted request that is not left to Caldera is carried out and answered in the same step; one of a firmware-backed object waits for
Caldera, unless it is staged in a group (R116, R118, R121). -/
def Obligations.RequestsAreCarriedOut : Prop :=
  (∀ (i : Instr) (s : State) (q : Req), reqOf i = some q → s.clocked = true →
      exec i s = .next ((s.wired i).dreq q (byCaldera i))) ∧
  (∀ (i : Instr) (s t : State) (q : Req), reqOf i = some q → byCaldera i = false → (s.wired i).Accepts q t →
      (t.fwNamed q = false ∨ (q.op = .write ∧ q.r.group ≠ 0) →
        exec i s = .next ((t.perform q).1.conclude q q.r.sealed (t.perform q).2 t.ct)) ∧
      (t.fwNamed q = true → ¬ (q.op = .write ∧ q.r.group ≠ 0) → exec i s = .next
        { t with dict := { t.dict with fw := t.dict.fw ++ [⟨q.r, q.op, q.index, q.sub, t.clk, t.ct⟩] } }))

/-- The checks of a request in their order: BUSY on arrival, those before the seal, the seal, STATE and RANGE; the first failure answers,
and only a seal that passes consumes its number (R118, R120, R135, R138). -/
def Obligations.RequestChecksAnswerInOrder : Prop :=
  ∀ (i : Instr) (s u : State) (q : Req), reqOf i = some q → s.clocked = true → q.bcast = false → s.addr ≠ 0 →
    q.r.frame.dest.toNat = s.addr → (s.wired i).recvSummit 0x0A q.frame true false = (u, true) →
    (u.queueFull q = true → exec i s = .next (u.finish q false ⟨St.BUSY, false, false, []⟩ u.ct)) ∧
    (u.queueFull q = false → ∀ st, u.early q = some st → exec i s = .next (u.conclude q false ⟨st, false, false, []⟩ u.ct)) ∧
    (u.queueFull q = false → u.early q = none → q.r.sealed = true →
      (∀ st, u.sealCheck q = .refused st → exec i s = .next ((u.sealRefused st).conclude q false ⟨st, false, false, []⟩ u.ct)) ∧
      (∀ r, u.sealCheck q = .again r → exec i s = .next (u.conclude q false ⟨r.status, true, r.late, []⟩ u.ct)) ∧
      (∀ st, u.sealCheck q = .taken → (u.setReg Key.SEAL_LAST q.seqNo).late q = some st → exec i s = .next
        (((u.setReg Key.SEAL_LAST q.seqNo).refuseLate q st).conclude q true ⟨st, false, false, []⟩ u.ct))) ∧
    (u.queueFull q = false → u.early q = none → q.r.sealed = false → ∀ st, u.late q = some st →
      exec i s = .next ((u.refuseLate q st).conclude q false ⟨st, false, false, []⟩ u.ct))

/-- DOM_OPEN, DOM_WRITE, DOM_COMMIT and DOM_ABORT of a DOMAIN object of class RWA or WOA must be sealed, and DOM_READ of a WOA table
receives WRITE_ONLY (R131). -/
def Obligations.SealedTablesNeedTheirSeal : Prop :=
  ∀ (s u : State) (r : Dreq) (index : BitVec 16) (sub : BitVec 8) (o : Obj) (op : Op) (i : Instr), s.clocked = true →
    (op, i) ∈ [(Op.domOpen, Instr.domOpen r index sub), (.domWrite, .domWrite r index sub), (.domCommit, .domCommit r index sub),
      (.domAbort, .domAbort r index sub), (.domRead, .domRead r index sub)] →
    r.frame.dest.toNat = s.addr → s.addr ≠ 0 → r.frame.dest ≠ 255 → (s.recvSummit 0x0A (Req.mk r op index.toNat sub.toNat).frame true false) = (u, true) →
    u.queueFull (Req.mk r op index.toNat sub.toNat) = false → (Req.mk r op index.toNat sub.toNat).step1 = none →
    u.hasIndex index.toNat = true → u.object (index.toNat * 256 + sub.toNat) = some o → o.ty = .dom →
    (op ≠ .domRead → o.access = .rwa ∨ o.access = .woa → r.sealed = false → exec i s = .next
      (u.conclude (Req.mk r op index.toNat sub.toNat) false ⟨St.SEAL_REQUIRED, false, false, []⟩ u.ct)) ∧
    (op = .domRead → o.access = .woa → exec i s = .next
      (u.conclude (Req.mk r op index.toNat sub.toNat) false ⟨St.WRITE_ONLY, false, false, []⟩ u.ct))

/-- A read answers the value in force, or with SHADOW the pending one, and changes nothing but the counts of answers; the answer leaves at
once where the active upstream port is idle and no frame waits for it (R64, R107, R109, R116). -/
def Obligations.ReadAnswersAndChangesNothing : Prop :=
  ∀ (s t : State) (r : Dreq) (index : BitVec 16) (sub : BitVec 8) (o : Obj), r.count.toNat ≤ 1 → index.toNat * 256 + sub.toNat ≠ Key.WORD_DATA →
    s.Accepts ⟨r, .read, index.toNat, sub.toNat⟩ t → t.object (index.toNat * 256 + sub.toNat) = some o → o.fw = false →
    ∃ u, exec (.read r index sub) s = .next u ∧
      (t.linkUp t.activeUp = true → (t.cport t.activeUp).busyTo ≤ t.clk → (t.cport t.activeUp).txq = [] → ∃ f, u.out = .frame t.activeUp 0x0B f :: t.out ∧ f.data =
        BitVec.ofNat 64 (drspD0 ⟨r, .read, index.toNat, sub.toNat⟩ ⟨St.OK, false, false, []⟩) :: BitVec.ofNat 64 t.ct ::
          valueBlocks o.ty (if r.shadow then t.pendOr (index.toNat * 256 + sub.toNat) else t.objValue (index.toNat * 256 + sub.toNat))) ∧
      (∀ k, k ∉ bookKeys → u.reg k = t.reg k) ∧ u.mem = t.mem ∧ u.tabs = t.tabs ∧ u.dict = t.dict ∧ u.ports = t.ports ∧ u.otp = t.otp ∧
      u.pos = t.pos ∧ u.grid = t.grid ∧ u.faults = t.faults

/-- A write of an IMMEDIATE object takes effect at its acceptance, before its answer; one of another class is held pending, in the order
of acceptance, and the value in force stays (R107, R109, R110). -/
def Obligations.WritesTakeEffectOrWait : Prop :=
  ∀ (s t : State) (r : Dreq) (index : BitVec 16) (sub : BitVec 8) (o : Obj), r.group = 0 →
    s.Accepts ⟨r, .write, index.toNat, sub.toNat⟩ t → t.object (index.toNat * 256 + sub.toNat) = some o → o.fw = false →
    (o.commit = .imm → exec (.write r index sub) s = .next
      ((t.applyWrite (index.toNat * 256 + sub.toNat) (t.valueOf ⟨r, .write, index.toNat, sub.toNat⟩)).answers
        ⟨r, .write, index.toNat, sub.toNat⟩ St.OK t.ct)) ∧
    (o.commit ≠ .imm → ∃ u, exec (.write r index sub) s = .next u ∧ u.dict.shadows = t.dict.shadows ++
        [⟨index.toNat * 256 + sub.toNat, t.valueOf ⟨r, .write, index.toNat, sub.toNat⟩, o.commit, t.dict.order, t.frozen o.commit, t.clk⟩] ∧
      u.dict.order = t.dict.order + 1 ∧ (∀ k, k ∉ bookKeys → u.reg k = t.reg k) ∧ u.mem = t.mem ∧ u.tabs = t.tabs ∧ u.ports = t.ports ∧
      u.pos = t.pos ∧ u.grid = t.grid ∧ u.dict.groups = t.dict.groups ∧ u.dict.sessions = t.dict.sessions)

/-- A write into a group is staged: a FREE group opens with it and takes its class, an OPEN one takes up to 64 of its class, another class
or a CLOSED or POISONED group does not take it, and no object changes (R121, R122). A refusal poisons an OPEN or FREE group, not a CLOSED. -/
def Obligations.GroupedWritesAreStaged : Prop :=
  (∀ (t : State) (g : Nat) (c : Commit) (e : Entry),
    ((t.group g).st ∈ [GroupSt.free, .applied, .discarded] → t.groupEntry g c e =
      (t.updGroup g fun _ => { st := .opened, cls := c, entries := [e], since := t.ct }, St.OK_PENDING)) ∧
    ((t.group g).st = .opened → (t.group g).cls = c → (t.group g).entries.length < 64 → t.groupEntry g c e =
      (t.updGroup g fun x => { x with entries := x.entries ++ [e] }, St.OK_PENDING)) ∧
    ((t.group g).st = .opened → (t.group g).cls = c → 64 ≤ (t.group g).entries.length → t.groupEntry g c e = (t, St.GROUP_FULL)) ∧
    ((t.group g).st = .opened → (t.group g).cls ≠ c → t.groupEntry g c e = (t, St.GROUP_CLASS)) ∧
    ((t.group g).st = .closed → t.groupEntry g c e = (t, St.GROUP_NOT_OPEN)) ∧
    ((t.group g).st = .poisoned → t.groupEntry g c e = (t, St.GROUP_FAILED)) ∧
    ((t.group g).st ≠ .closed → ((t.poison g).group g).st = .poisoned) ∧ ((t.group g).st = .closed → t.poison g = t)) ∧
  (∀ (s t : State) (r : Dreq) (index : BitVec 16) (sub : BitVec 8) (o : Obj), r.group ≠ 0 →
    s.Accepts ⟨r, .write, index.toNat, sub.toNat⟩ t → t.object (index.toNat * 256 + sub.toNat) = some o →
    (t.group r.group.toNat).st = .free →
    ∃ u, exec (.write r index sub) s = .next u ∧ (u.group r.group.toNat).st = .opened ∧ (u.group r.group.toNat).cls = o.commit ∧
      (u.group r.group.toNat).entries =
        [.write (index.toNat * 256 + sub.toNat) (t.valueOf ⟨r, .write, index.toNat, sub.toNat⟩)] ∧
      (∀ g, g ≠ r.group.toNat → u.group g = t.group g) ∧ (∀ k, k ∉ bookKeys → u.reg k = t.reg k) ∧ u.mem = t.mem ∧ u.tabs = t.tabs ∧
      u.ports = t.ports)

/-- GROUP_CLOSE of an OPEN group: one of class IMMEDIATE applies at once and answers OK (one whose entries together would break the range
of an object is refused with RANGE and POISONED, the model's choice, log 37), another waits for a boundary of its class and answers
OK_PENDING; a POISONED group is discarded with GROUP_FAILED. GROUP_ABORT discards a group before its freeze point and is late after it. An
OPEN or POISONED group past GROUP_TIMEOUT is discarded and counted, whatever closes it (R122–R124). GROUP_CLOSE, GROUP_ABORT, COMMIT_NOW
and the operations on DOMAIN tables, accepted, complete with the effect of their operation, and are answered in the same step (R111, R116,
R121–R130); those of a firmware-backed table wait for Caldera. -/
def Obligations.GroupsCloseAbortAndExpire : Prop :=
  ((∀ (s : State) (g : Nat), s.groupDue g = false →
      ((s.group g).st = .opened → (s.group g).cls ≠ .imm → (s.closeGroup g).2 = St.OK_PENDING ∧ ((s.closeGroup g).1.group g).st = .closed ∧
        ((s.closeGroup g).1.group g).entries = (s.group g).entries ∧ (∀ k, (s.closeGroup g).1.reg k = s.reg k)) ∧
      ((s.group g).st = .opened → (s.group g).cls = .imm → s.groupFits g = true → (s.closeGroup g).2 = St.OK ∧ (s.closeGroup g).1 =
        ((s.applyItems s.lineNow false [.group g]).traceRec 0x03 (fld s.lineNow 32 0)).windows false) ∧
      ((s.group g).st = .opened → (s.group g).cls = .imm → s.groupFits g = false →
        s.closeGroup g = (s.updGroup g fun x => { x with st := .poisoned }, St.RANGE)) ∧
      ((s.group g).st = .poisoned → s.closeGroup g = (s.discardGroup g .failed, St.GROUP_FAILED)) ∧
      ((s.group g).st ∈ [GroupSt.opened, .poisoned] → s.abortGroup g = (s.discardGroup g .aborted, St.OK, false)) ∧
      ((s.group g).st = .closed → s.frozen (s.group g).cls = true → (s.group g).skip = false → s.abortGroup g = (s, St.OK, true)) ∧
      ((s.group g).st = .closed → s.frozen (s.group g).cls = false ∨ (s.group g).skip = true →
        s.abortGroup g = (s.discardGroup g .aborted, St.OK, false)) ∧
      ((s.group g).st ∈ [GroupSt.free, .applied, .discarded] →
        s.closeGroup g = (s, St.GROUP_NOT_OPEN) ∧ s.abortGroup g = (s, St.GROUP_NOT_OPEN, false))) ∧
    (∀ (s : State) (g : Fin 16), s.clocked = true →
      (s.groupDue g = true → exec (.groupExpire g) s = .next ((s.discardGroup g .failed).inc Key.GROUP_EXPIRED) ∧
        (s.closeGroup g).2 = St.GROUP_NOT_OPEN) ∧
      (s.groupDue g = false → exec (.groupExpire g) s = .next s) ∧
      (s.groupDue g = true ↔ ((s.group g).st = .opened ∨ (s.group g).st = .poisoned) ∧
        (s.group g).since + s.reg Key.GROUP_TIMEOUT < s.ct))) ∧
  (∀ (s t : State) (r : Dreq) (i : BitVec 16) (j : BitVec 8) (q : Op → Req) (ans : State × Nat × Bool → Req → State),
      (∀ op, q op = ⟨r, op, i.toNat, j.toNat⟩) → (∀ x k, ans x k = x.1.conclude k r.sealed ⟨x.2.1, false, x.2.2, []⟩ t.ct) →
      (s.Accepts (q .groupClose) t → exec (.groupClose r i j) s =
        .next (ans ((t.closeGroup r.group.toNat).1, (t.closeGroup r.group.toNat).2, false) (q .groupClose))) ∧
      (s.Accepts (q .groupAbort) t → exec (.groupAbort r i j) s = .next (ans (t.abortGroup r.group.toNat) (q .groupAbort))) ∧
      (s.Accepts (q .commitNow) t → exec (.commitNow r i j) s = .next (ans (t.commitNow, St.OK, false) (q .commitNow))) ∧
      (∀ o, (∀ op, t.objects (q op) = [o]) →
        (o.fw = false →
          (s.Accepts (q .domOpen) t → exec (.domOpen r i j) s =
            .next (ans ((t.domOpen o (q .domOpen)).1, (t.domOpen o (q .domOpen)).2, false) (q .domOpen))) ∧
          (s.Accepts (q .domWrite) t → exec (.domWrite r i j) s =
            .next (ans ((t.domWrite (q .domWrite)).1, (t.domWrite (q .domWrite)).2, false) (q .domWrite))) ∧
          (s.Accepts (q .domCommit) t → exec (.domCommit r i j) s =
            .next (ans ((t.domCommit o (q .domCommit)).1, (t.domCommit o (q .domCommit)).2, false) (q .domCommit))) ∧
          (s.Accepts (q .domAbort) t → exec (.domAbort r i j) s = .next (ans (t.domAbort (q .domAbort)) (q .domAbort))) ∧
          (s.Accepts (q .domRead) t → exec (.domRead r i j) s =
            .next (t.conclude (q .domRead) r.sealed (t.doDomRead (q .domRead)) t.ct))) ∧
        (o.fw = true → ∀ op c, (op, c) ∈ [(Op.domOpen, Instr.domOpen r i j), (.domWrite, .domWrite r i j), (.domCommit, .domCommit r i j),
            (.domAbort, .domAbort r i j), (.domRead, .domRead r i j)] → s.Accepts (q op) t → exec c s = .next
          { t with dict := { t.dict with fw := t.dict.fw ++ [⟨r, op, i.toNat, j.toNat, t.clk, t.ct⟩] } })))

/-- A DOMAIN session: DOM_OPEN takes a free one of four for a table with none, DOM_WRITE stages words below LENGTH, and DOM_COMMIT needs
every word and the CRC; a table of class IMMEDIATE is then replaced at once (R125–R127). -/
def Obligations.SessionsStageAndCommit : Prop :=
  ∀ (s : State) (o : Obj) (q : Req), q.index ≠ 0x5000 →
    (∀ k, s.sessionOf q.index = none → (List.range 4).find? (fun k => !(s.sess k).st.inUse) = some k →
      (q.d1Hi ≤ o.size → s.domOpen o q = (s.updSess k fun _ =>
        { st := .opened, index := q.index, length := q.d1Hi, crc := q.d1Lo, last := s.ct, cls := o.commit }, St.OK)) ∧
      (o.size < q.d1Hi → s.domOpen o q = (s, St.DOMAIN_OFFSET))) ∧
    (∀ k, s.sessionOf q.index = some k → s.domOpen o q = (s, St.DOMAIN_BUSY)) ∧
    (∀ k, s.sessionOf q.index = some k → (s.sess k).st = .opened →
      (q.d1Hi + q.nwords ≤ (s.sess k).length → q.domWords.length = q.nwords → (s.domWrite q).2 = St.OK ∧
        (∀ i w, i < q.nwords → q.domWords[i]? = some w →
          Map.get (fun _ => none) ((s.domWrite q).1.sess k).words (q.d1Hi + i) = some (BitVec.ofNat 72 w)) ∧
        (∀ i, i < q.d1Hi ∨ q.d1Hi + q.nwords ≤ i → Map.get (fun _ => none) ((s.domWrite q).1.sess k).words i =
          Map.get (fun _ => none) (s.sess k).words i) ∧ (s.domWrite q).1.tabs = s.tabs) ∧
      ((s.sess k).length < q.d1Hi + q.nwords → (s.domWrite q).2 = St.DOMAIN_OFFSET) ∧
      (∀ st, s.groupBars q.r.group.toNat = some st → s.domCommit o q = (s, st)) ∧
      ((s.sess k).good = false → s.groupBars q.r.group.toNat = none → (s.domCommit o q).2 = St.DOMAIN_CHECK ∧ ((s.domCommit o q).1.sess k).st = .opened ∧
        (s.domCommit o q).1.tabs = s.tabs) ∧
      ((s.sess k).good = true → q.r.group = 0 → o.commit = .imm → (s.domCommit o q).2 = St.OK ∧ (s.domCommit o q).1 =
        (s.updSess k fun x => { x with last := s.ct }).applyItems s.lineNow false [.session k] ∧
        (q.index < 0x3000 ∨ 0x4400 ≤ q.index → ((s.domCommit o q).1.sess k).st = .applied ∧
          (s.domCommit o q).1.tab q.index = { (s.sess k) with last := s.ct }.image)) ∧
      ((s.sess k).good = true → q.r.group = 0 → o.commit ≠ .imm → (s.domCommit o q).2 = St.OK_PENDING ∧
        ((s.domCommit o q).1.sess k).st = .pending ∧ (s.domCommit o q).1.tabs = s.tabs))

/-- Caldera answers the requests that it holds in their order, judging state and range again (a DOM_READ of HEAD_IDENTITY once the EEPROM
has been read after it); one that has waited 10 ms is answered TIMEOUT and counted; a session without a request for 1 s ends FAILED; and
the seal floor rises by 1,024 at a time (R118, R125, R136, R137, R141, R317). -/
def Obligations.FirmwareRequestsEnd : Prop :=
  ∀ (s : State), s.clocked = true →
    (∀ f l, s.dict.fw = f :: l → s.clk < f.since + 5000000 → exec .fwRequestTimeout s = .next s ∧
      (s.calderaUp = true → s.fwReady f = true → exec .fwRequestAnswered s =
        .next ({ s with dict := { s.dict with fw := l } }.fwAnswer f)) ∧
      (s.calderaUp = false ∨ s.fwReady f = false → exec .fwRequestAnswered s = .next s)) ∧
    (s.dict.fw = [] → exec .fwRequestAnswered s = .next s ∧ exec .fwRequestTimeout s = .next s) ∧
    (∀ f l, s.dict.fw = f :: l → f.since + 5000000 ≤ s.clk → exec .fwRequestAnswered s = .next s ∧ exec .fwRequestTimeout s =
      .next (({ s with dict := { s.dict with fw := l } }.inc Key.FW_TIMEOUT).conclude f.req f.r.sealed ⟨St.TIMEOUT, false, false, []⟩ f.acc)) ∧
    (∀ k : Fin 4, (s.sess k).st = .opened → (s.sess k).last + 500000000 ≤ s.ct → exec (.sessionExpire k) s =
      .next ((s.updSess k fun x => { x with st := .failed, words := [] }).inc Key.SESSION_EXPIRED)) ∧
    (∀ k : Fin 4, (s.sess k).st ≠ .opened ∨ s.ct < (s.sess k).last + 500000000 → exec (.sessionExpire k) s = .next s) ∧
    (s.calderaUp = true → s.nor.ok = true → s.dict.floorWrite = none → s.reg Key.SEAL_FLOOR ≠ 0 → s.reg Key.SEAL_FLOOR < 0xFFFFFC00 →
      s.reg Key.SEAL_FLOOR ≤ s.reg Key.SEAL_LAST + 512 → exec .sealFloorRaise s =
        .next { s with dict := { s.dict with floorWrite := some (min (s.reg Key.SEAL_FLOOR + 1024) 0xFFFFFC00) } }) ∧
    (s.reg Key.SEAL_LAST + 512 < s.reg Key.SEAL_FLOOR → exec .sealFloorRaise s = .next s) ∧
    (∀ v, s.dict.floorWrite = some v → s.nor.ok = false → exec .sealFloorCommitted s = .next
      ({ s with dict := { s.dict with floorWrite := none } }.raise 0x14 1)) ∧
    (∀ v, s.dict.floorWrite = some v → s.nor.ok = true → exec .sealFloorCommitted s = .next
      ((({ s with dict := { s.dict with floorWrite := none } }.updNor fun n => { n with floor := some v }).setReg Key.SEAL_FLOOR v).logConfig 1
        (beBytes 4 v))) ∧
    (s.dict.floorWrite = none → exec .sealFloorCommitted s = .next s)

/-- The written objects of the Position Base act at acceptance: the encoder's configuration restarts what it concerns, SSI_COMMAND starts
a read, POS_ROLE and POS_PRESET set role and position; the row of an encoder setting is a WRITE, whatever object it names. Entering LOST
starts the recovery read (R149–R153, R163, R170, R172). The written objects of the Line Scheduler, of the ingress layout and of the Fire
Sequencer act at acceptance: the grid is set up or stopped, a sheet position is queued, compare units are set, the layout is taken, ports
are armed and disarmed (after the fire instants of the same clock, which a disarming does not reach); the row of a layout object is a
WRITE, whatever object it names (R177, R181, R186, R187, R205–R210, R229, R288, R302–R304). -/
def Obligations.PositionAndPrintWritesAct : Prop :=
  (∀ (s t : State) (q : Req) (r : Dreq) (ready : Option Nat) (index : BitVec 16) (sub : BitVec 8),
      (s.Writes (.encEnable r ready) q t → exec (.encEnable r ready) s =
        .next (((t.setReg Key.ENC_ENABLE (t.valueOf q)).encConfig Key.ENC_ENABLE (t.reg Key.ENC_ENABLE)).answers q St.OK t.ct)) ∧
      (s.Writes (.ssiTestRead r ready) q t → exec (.ssiTestRead r ready) s =
        .next ((t.setReg Key.SSI_COMMAND (t.valueOf q)).ssiCommandWrite.answers q St.OK t.ct)) ∧
      (s.Writes (.ssiRecoveryRead (some r) ready) q t → exec (.ssiRecoveryRead (some r) ready) s =
        .next ((t.setReg Key.SSI_COMMAND (t.valueOf q)).ssiCommandWrite.answers q St.OK t.ct)) ∧
      ((t.setReg Key.SSI_COMMAND 1).ssiCommandWrite = (t.setReg Key.SSI_COMMAND 1).ssiStart .test ∧
        (t.setReg Key.SSI_COMMAND 2).ssiCommandWrite = (t.setReg Key.SSI_COMMAND 2).ssiStart .recovery) ∧
      (s.clocked = true → s.pos.recoverDue = true → exec (.ssiRecoveryRead none ready) s =
        .next ((s.updPos fun p => { p with ssiReady := ready, recoverDue := false }).ssiStart .recovery)) ∧
      (s.clocked = true → s.pos.recoverDue = false → exec (.ssiRecoveryRead none ready) s = .next s) ∧
      exec (.encConfigWrite r index sub) s = exec (.write r index sub) s ∧
      (encConfigObject index.toNat sub.toNat = true → s.Writes (.encConfigWrite r index sub) q t → exec (.encConfigWrite r index sub) s =
        .next (((t.setReg q.key (t.valueOf q)).encConfig q.key (t.reg q.key)).answers q St.OK t.ct)) ∧
      (s.Writes (.posRole r) q t → exec (.posRole r) s = .next ((t.setReg Key.POS_ROLE (t.valueOf q)).posRoleWrite.answers q St.OK t.ct)) ∧
      (s.Writes (.posPreset r) q t → exec (.posPreset r) s =
        .next ((t.setReg Key.POS_PRESET (t.valueOf q)).posPresetWrite.answers q St.OK t.ct))) ∧
  (∀ (s t : State) (q : Req) (r : Dreq) (index : BitVec 16) (sub : BitVec 8) (c : Fin 32),
      (s.Writes (.gridEnable r) q t → exec (.gridEnable r) s =
        .next (((t.setReg Key.GRID_ENABLE (t.valueOf q)).gridEffect (t.reg Key.GRID_ENABLE)).answers q St.OK t.ct)) ∧
      (s.Writes (.sheetAt r) q t → exec (.sheetAt r) s =
        .next (((t.setReg Key.SHEET_AT (t.valueOf q)).queueSheet (t.valueOf q)).answers q St.OK t.ct)) ∧
      (s.Writes (.cmpCtrl r c) q t → exec (.cmpCtrl r c) s =
        .next (((t.setReg (Key.CMP_CTRL c) (t.valueOf q)).cmpCtrlWrite c (t.reg (Key.CMP_CTRL c))).answers q St.OK t.ct)) ∧
      (s.Writes (.cmpTarget r c) q t → exec (.cmpTarget r c) s =
        .next (((t.setReg (Key.CMP_TARGET c) (t.valueOf q)).cmpTargetWrite c).answers q St.OK t.ct)) ∧
      exec (.layoutWrite r index sub) s = exec (.write r index sub) s ∧
      (layoutObject index.toNat sub.toNat = true → s.Writes (.layoutWrite r index sub) q t → exec (.layoutWrite r index sub) s =
        .next (((t.setReg q.key (t.valueOf q)).relayout (layoutPlanes q.key)).answers q St.OK t.ct)) ∧
      (s.Writes (.fireArm r) q t → exec (.fireArm r) s = .next ((t.armPorts (t.valueOf q)).answers q St.OK t.ct)) ∧
      (s.Writes (.fireDisarm r) q t → exec (.fireDisarm r) s = .next ((t.disarmPorts (t.valueOf q)).lastOfClock.answers q St.OK t.ct)))

/-- The written objects of Drive Calibration, inspection, the loop, bulk memory and the DMA movers act at acceptance; those of elements
that the part has not are answered and do nothing (R4, R325, R347, R376, R377, R427, R428, R449, R459, R466–R468, R472). -/
def Obligations.UnitWritesAct : Prop :=
  ∀ (s t : State) (q : Req) (r : Dreq) (g : Fin 4) (ch : Fin 68) (cam : Fin 2) (port : Fin 16) (d : Fin 32),
    (s.Writes (.calAbort r g) q t → g.val < t.nGroups → exec (.calAbort r g) s =
      .next ((if t.valueOf q = 1 then t.calAbortWrite g else t).answers q St.OK t.ct)) ∧
    (s.Writes (.calAbort r g) q t → t.nGroups ≤ g.val → exec (.calAbort r g) s = .next (t.answers q St.OK t.ct)) ∧
    (s.Writes (.calRequest r ch) q t → t.hasChannel ch = true → exec (.calRequest r ch) s =
      .next ((t.setReg (Key.CAL_REQUEST ch) (t.valueOf q)).answers q St.OK t.ct)) ∧
    (s.Writes (.calRequest r ch) q t → t.hasChannel ch = false → exec (.calRequest r ch) s = .next (t.answers q St.OK t.ct)) ∧
    (s.Writes (.camEnable r cam) q t → exec (.camEnable r cam) s =
      .next (((t.setReg (Key.CAM_ENABLE cam) (t.valueOf q)).camEnableWrite cam (t.reg (Key.CAM_ENABLE cam))).answers q St.OK t.ct)) ∧
    (s.Writes (.i2cCmd r cam) q t → exec (.i2cCmd r cam) s =
      .next (((t.setReg (Key.I2C_CMD cam) (t.valueOf q)).i2cStart cam).answers q St.OK t.ct)) ∧
    (s.Writes (.loopEnable r) q t → exec (.loopEnable r) s =
      .next ((t.setReg Key.LOOP_ENABLE (t.valueOf q)).loopEnableWrite.answers q St.OK t.ct)) ∧
    (s.Writes (.loopClear r port) q t → exec (.loopClear r port) s =
      .next (((t.setReg (Key.LOOP_CLEAR port) (t.valueOf q)).loopClearWrite port (t.reg (Key.LOOP_CLEAR port))).answers q St.OK t.ct)) ∧
    (s.Writes (.bmControl r) q t → exec (.bmControl r) s = .next ((t.setReg Key.BM_CONTROL (t.valueOf q)).bmRestart.answers q St.OK t.ct)) ∧
    (s.Writes (.dmaStart (some r) d) q t → exec (.dmaStart (some r) d) s = .next ((t.dmaCmd d (t.valueOf q)).answers q St.OK t.ct)) ∧
    (s.clocked = true → exec (.dmaStart none d) s = .next (s.dmaBell d)) ∧
    (s.Writes (.dmaPause r d) q t → exec (.dmaPause r d) s = .next ((t.dmaCmd d (t.valueOf q)).answers q St.OK t.ct)) ∧
    (s.Writes (.dmaResume r d) q t → exec (.dmaResume r d) s = .next ((t.dmaCmd d (t.valueOf q)).answers q St.OK t.ct)) ∧
    (s.Writes (.dmaAbort r d) q t → exec (.dmaAbort r d) s = .next ((t.dmaCmd d (t.valueOf q)).answers q St.OK t.ct)) ∧
    (s.Writes (.wordData r true) q t → exec (.wordData r true) s = .next ((t.wordWrite (t.valueOf q)).answers q St.OK t.ct)) ∧
    (s.Accepts ⟨r, .read, 0x2902, 3⟩ t → r.count.toNat ≤ 1 → exec (.wordData r false) s = .next (t.wordRead.1.conclude ⟨r, .read, 0x2902, 3⟩ false
      ⟨St.OK, false, false, valueBlocks .w72 t.wordRead.2⟩ t.ct))

/-- The sealed commands of the Fault Collector, of Caldera, of updates, lifecycle, keys, power and trace act at acceptance; those that
Caldera carries out wait behind the requests that it already holds (R118, R481, R485, R492, R495, R504, R516, R523, R524, R530, R533,
R534, R541, R546, R548, R550). -/
def Obligations.ManagementWritesAct : Prop :=
  ∀ (s t : State) (q : Req) (r : Dreq) (k : Fin 16),
    (s.Writes (.faultClear r) q t → exec (.faultClear r) s = .next ((t.faultClear (t.valueOf q)).answers q St.OK t.ct)) ∧
    (s.Writes (.firstClear r) q t → exec (.firstClear r) s =
      .next ((if t.valueOf q = 1 then t.firstClear else t).answers q St.OK t.ct)) ∧
    (s.Writes (.histClear r) q t → exec (.histClear r) s = .next ((if t.valueOf q = 1 then t.histClear else t).answers q St.OK t.ct)) ∧
    (s.Writes (.inject r) q t → exec (.inject r) s = .next ((t.injectArm (t.valueOf q)).answers q St.OK t.ct)) ∧
    (s.Writes (.calderaRestart (.host r)) q t → exec (.calderaRestart (.host r)) s = .next
      (((t.updMgmt fun m => { m with hostAt := some t.clk }).restartNow (if t.mgmt.wdtAt = some t.clk then 2 else 4)).answers q St.OK t.ct)) ∧
    (s.Writes (.logWindowSeq r) q t → t.dict.fw = [] → exec (.logWindowSeq r) s =
      .next ((t.setReg Key.LOG_WINDOW_SEQ (t.valueOf q)).answers q St.OK t.ct)) ∧
    (∀ i ∈ [Instr.updateInstall r, .updateActivate r, .updateConfirm r, .updateAbort r], s.Writes i q t → t.dict.fw = [] →
      exec i s = .next ((match t.valueOf q with
        | 1 => t.updateInstall
        | 2 => t.updateActivate
        | 3 => t.updateConfirm
        | _ => t.updateAbort).answers q St.OK t.ct)) ∧
    (∀ i ∈ [Instr.lifecycleAdvance r, .lifecycleRetire r], s.Writes i q t → t.dict.fw = [] → exec i s =
      .next ((if t.valueOf q = 1 then t.lifeTo (t.reg Key.LIFECYCLE + 1) else t.retire).answers q St.OK t.ct)) ∧
    (s.Writes (.keyCommit r) q t → t.dict.fw = [] → exec (.keyCommit r) s = .next (t.keyInstall.answers q St.OK t.ct)) ∧
    (∀ i ∈ [Instr.logWindowSeq r, .updateInstall r, .updateActivate r, .updateConfirm r, .updateAbort r, .lifecycleAdvance r,
        .lifecycleRetire r, .keyCommit r], s.Writes i q t → t.dict.fw ≠ [] → exec i s =
      .next { t with dict := { t.dict with fw := t.dict.fw ++ [⟨q.r, q.op, q.index, q.sub, t.clk, t.ct⟩] } }) ∧
    (s.Writes (.powerReq r) q t → exec (.powerReq r) s = .next ((t.powerReqWrite (t.valueOf q)).answers q St.OK t.ct)) ∧
    (s.Writes (.traceMode r) q t → exec (.traceMode r) s =
      .next (((t.setReg Key.TRACE_MODE (t.valueOf q)).traceModeWrite (t.reg Key.TRACE_MODE)).answers q St.OK t.ct)) ∧
    (s.Writes (.traceRestart r) q t → exec (.traceRestart r) s = .next ((if (t.setReg Key.TRACE_RESTART (t.valueOf q)).flag
      Key.TRACE_RESTART then (t.setReg Key.TRACE_RESTART (t.valueOf q)).traceRestart
        else t.setReg Key.TRACE_RESTART (t.valueOf q)).answers q St.OK t.ct)) ∧
    (s.Writes (.pmcSel r k) q t → exec (.pmcSel r k) s =
      .next (((t.setReg (Key.PMC_SEL k) (t.valueOf q)).pmcSelWrite k).answers q St.OK t.ct))

/-! ## Line Scheduler, ingress and printing -/

/-- When the derived position reaches line NEXT, its boundaries are judged and counted, what is assigned to them is handed over, the grid
steps by one line in the direction in force, and the line's work is done; before that nothing happens (R178–R190). A freeze point keeps
what is accepted from then on for the boundary after; a cue edge of the selected input and polarity queues a sheet position CUE_OFFSET
from the position at its stamp, and is counted and ignored in reverse (R185, R188, R189). -/
def Obligations.LineEventsHandOver : Prop :=
  (∀ (s : State), s.clocked = true →
      (s.lineDue = true → exec .lineEvent s = .next
        (((((((s.countLine.handOver s.nextClasses s.grid.next).stepGrid (s.nextClasses.contains .band)).thaw s.nextClasses).queueWaiting).lineWork
          s.grid.next (s.nextClasses.contains .sheet)).pmc 2 0 1).traceRec 0x01 (fld (1 + 2 * b2n (s.nextClasses.contains .band) +
            4 * b2n (s.nextClasses.contains .sheet)) 3 53 + fld s.grid.next 32 0))) ∧
      (s.lineDue = false → exec .lineEvent s = .next s) ∧
      (s.flag Key.GRID_ENABLE = false → exec .lineEvent s = .next s) ∧
      s.countLine.reg Key.LINE_NOW = s.grid.next % 2 ^ keyWidth Key.LINE_NOW ∧
      (∀ (band : Bool) (u : State), (u.stepGrid band).grid.next = unsgn 32 (if u.revNow then (u.grid.next : Int) - 1 else (u.grid.next : Int) + 1) ∧
        (u.stepGrid band).grid.gn = unsgn 64 (if u.revNow then (u.grid.gn : Int) - (u.reg Key.LINE_PITCH : Int)
          else (u.grid.gn : Int) + (u.reg Key.LINE_PITCH : Int)) ∧ ∀ k, (u.stepGrid band).reg k = u.reg k) ∧
      (s.nextClasses = [.line] ∨ s.nextClasses = [.line, .band] ∨ s.nextClasses = [.line, .band, .sheet])) ∧
  (∀ (s : State), s.clocked = true →
      (∀ cls : Fin 3, s.freezeDue (freezeClass cls) = true → ∃ t, exec (.freezePoint cls) s = .next t ∧
        t.frozen (freezeClass cls) = true ∧ (∀ k, k ≠ Key.FREEZE_SHORT → t.reg k = s.reg k) ∧ t.mem = s.mem ∧ t.tabs = s.tabs ∧
        t.ports = s.ports ∧ t.grid.next = s.grid.next ∧
        t.dict.shadows = s.dict.shadows.map (fun h =>
          if h.cls = freezeClass cls then { h with skip := h.skip || decide (s.clk ≤ h.acc) } else h)) ∧
      (∀ cls : Fin 3, s.freezeDue (freezeClass cls) = false → exec (.freezePoint cls) s = .next s) ∧
      (∀ (i : Fin 2) level, s.reg Key.SHEET_SOURCE = 1 → s.reg Key.CUE_SELECT = i.val → s.reg Key.CUE_EDGE = (if level then 0 else 1) →
        (s.revNow = false → exec (.cueEdge i level) s = .next (s.queueSheet
          (unsgn 48 ((s.derivedAt (s.ct - s.reg Key.CUE_FILTER * 500) : Int) + s.regI Key.CUE_OFFSET)))) ∧
        (s.revNow = true → exec (.cueEdge i level) s = .next (s.inc Key.CUE_IGNORED))) ∧
      (∀ (i : Fin 2) level, s.reg Key.SHEET_SOURCE ≠ 1 ∨ s.reg Key.CUE_SELECT ≠ i.val → exec (.cueEdge i level) s = .next s))

/-- A compare unit that is due records its firing, acts and is armed or stepped as its mode says; its pulse ends on the output that it
drives (R206–R210). -/
def Obligations.CompareUnitsFire : Prop :=
  ∀ (s : State) (c : Fin 32), s.clocked = true →
    (s.cmpDue c = true → exec (.cmpFire c) s = .next (((s.cmpRecord c).cmpAct c).cmpAfter c)) ∧
    (s.cmpDue c = false → exec (.cmpFire c) s = .next s) ∧
    (s.cmpRecord c).reg (Key.CMP_FIRED_CT c) = s.ct % 2 ^ 64 ∧ (s.cmpRecord c).reg (Key.CMP_FIRED_POS c) = s.derived ∧
    (s.cmpRecord c).reg (Key.CMP_FIRE_COUNT c) = (s.reg (Key.CMP_FIRE_COUNT c) + 1) % 2 ^ 32 ∧
    (∀ o t, (s.cmp c).pulses.filter (fun e => decide (e.2 ≤ s.ct)) = [(o, t)] → exec (.cmpPulseEnd c) s = .next (s.clearOutput o)) ∧
    ((∀ e ∈ (s.cmp c).pulses, s.ct < e.2) → exec (.cmpPulseEnd c) s = .next s) ∧
    exec (.cmpPulseEnd c) s = .next (((s.cmp c).pulses.filter fun e => decide (e.2 ≤ s.ct)).foldl (fun u e => u.clearOutput e.1) s) ∧
    (∀ o, o < 8 → (s.clearOutput o).gpo = setBit s.gpo o false ∧ (s.clearOutput o).camTrig = s.camTrig) ∧
    (∀ o, 8 ≤ o → (s.clearOutput o).camTrig = setBit s.camTrig (o - 8) false ∧ (s.clearOutput o).gpo = s.gpo) ∧
    (∀ o k, (s.clearOutput o).reg k = s.reg k)

/-- The stages of a slot: assembly takes its oldest due slot, with what stood when it fell due; screening takes the oldest slot that is
due, once its line is whole, makes the codes and is counted when it ends, and counts ASSEMBLY_LATE once where the line is not whole in
time; shipping begins when it is due. A start of screening is carried out when its clock ends, which is at once where no command waits
(log 22) (R22, R26, R238, R239, R250, R275, R283). A fire instant and the decision on a deferred slot are carried out when their clock
ends, which is at once where no command waits (log 22). At its fire instant a held port passes the slot and counts it; another paces its
stages and judges the slot: shipped and past the minimum period it fires; late it is deferred, dropped, or dropped with the unit's halt,
as OVERRUN_POLICY says; a deferred slot fires at the first instant that serves it, within DEFER_LIMIT. Before the instant nothing happens
(R194–R203, R303, R312). -/
def Obligations.SlotsRunAndAreJudged : Prop :=
  (∀ (s : State) (p : Fin 16), s.clocked = true → p.val < s.nPorts →
      (∀ g t l, (s.port p).asmDue = (g, t) :: l → exec (.assemblyStart p) s =
        .next ((s.updPort p fun r => { r with asmDue := l, asmNext := s.lineAfterSlot g 1 }).assemble p g t)) ∧
      ((s.port p).asmDue = [] → exec (.assemblyStart p) s = .next s) ∧
      (∀ done bad, exec (.screeningStart p done bad) s =
        .next (s.updPort p fun r => { r with scrNow := r.scrNow ++ [(done, bad)] }).lastOfClock) ∧
      (∀ done bad n, n = s.updPort p (fun r => { r with scrNow := r.scrNow ++ [(done, bad)] }) → s.pending = [] → n.SoleWait p →
        (s.port p).scrNow = [] → (s.port p).fireNow = [] → (s.port p).deferNow = [] → (s.port p).tickleNow = none →
        exec (.screeningStart p done bad) s = .next (((n.updPort p fun r =>
          { r with fireNow := [], deferNow := [], tickleNow := none, scrNow := [] }).startScreening p done bad).endPort p)) ∧
      (∀ g t8 late rest a bad, (s.port p).scrDue = (g, t8, late) :: rest → (s.port p).asm.find? (fun a => a.g = g) = some a → ∃ u codes,
        (u, codes) = State.screenLine (State.barScreened ((s.updPort p fun r =>
          { r with scrDue := rest, asm := r.asm.filter fun a => a.g ≠ g }).failWords bad) p a.noz) p g a.pass a.noz ∧
        s.startScreening p true bad = u.updPort p fun r => { r with
          scr := ⟨g, (if late then s.at8 0 else t8) + 8 * s.screenClocks, a.missing, a.policy, codes⟩ :: r.scr,
          scrEnds := ((if late then s.at8 0 else t8) + 8 * s.screenClocks) :: r.scrEnds }) ∧
      (∀ g t8 rest bad, (s.port p).scrDue = (g, t8, false) :: rest → s.startScreening p false bad =
        (s.updPort p fun r => { r with scrDue := (g, t8, true) :: rest }).inc (Key.ASSEMBLY_LATE p)) ∧
      (∀ g t8 rest bad, (s.port p).scrDue = (g, t8, true) :: rest → s.startScreening p false bad = s) ∧
      (∀ b bad, (s.port p).scrDue = [] → s.startScreening p b bad = s) ∧
      (s.shipDue p = true → exec (.shipStart p) s = .next (s.beginShip p)) ∧
      (s.shipDue p = false → exec (.shipStart p) s = .next s)) ∧
  (∀ (s : State) (p : Fin 16) (ph : Fin 8) (sense : List Nat), s.clocked = true → p.val < s.nPorts →
      (exec (.fireSlot p ph sense) s = .next (s.updPort p fun r => { r with fireNow := r.fireNow ++ [(ph.val, sense)] }).lastOfClock) ∧
      (exec (.deferredFire p ph sense) s = .next (s.updPort p fun r => { r with deferNow := r.deferNow ++ [(ph.val, sense)] }).lastOfClock) ∧
      ((s.port p).fireNow = [] → (s.port p).deferNow = [] → (s.port p).tickleNow = none → (s.port p).scrNow = [] →
        s.pending = [] →
        (∀ n u, n = s.updPort p (fun r => { r with fireNow := [(ph.val, sense)] }) →
          u = n.updPort p (fun r => { r with fireNow := [], deferNow := [], tickleNow := none, scrNow := [] }) → n.SoleWait p →
          u.firesAt p ph = true →
            (n.haltsNow p = false → exec (.fireSlot p ph sense) s = .next ((u.fireInstant p (s.at8 ph) sense).endPort p)) ∧
            (n.haltsNow p = true → exec (.fireSlot p ph sense) s =
              .next ((((u.fireInstant p (s.at8 ph) sense).fireInhibit).settleSlots p).endPort p))) ∧
        (∀ n u, n = s.updPort p (fun r => { r with deferNow := [(ph.val, sense)] }) →
          u = n.updPort p (fun r => { r with fireNow := [], deferNow := [], tickleNow := none, scrNow := [] }) → n.SoleWait p →
          u.decidesAt p ph = true → n.haltsNow p = false → ∀ d, (s.port p).deferred = some d →
          exec (.deferredFire p ph sense) s = .next ((u.deferDecide p d.tg8 (s.at8 ph) sense).endPort p))) ∧
      (s.firesAt p ph = true ↔ (s.port p).evaluates = true ∧ s.firePhase p = some ph.val) ∧
      (∀ t8, (s.port p).isHeld = true → s.fireInstant p t8 sense =
        (s.inc (Key.GATE_SUPPRESSED p)).updPort p fun r => { r with slot := s.lineAfterSlot r.slot 1, since8 := t8 }) ∧
      (∀ t8, (s.port p).isHeld = false → (s.port p).st = .filling → (s.port p).fill = 0 → s.fireInstant p t8 sense =
        ((s.updPort p fun r => { r with st := .firing }).paceStages p t8).judgeSlot p t8 sense) ∧
      (∀ t8, (s.port p).isHeld = false → ¬ ((s.port p).st = .filling ∧ (s.port p).fill = 0) →
        s.fireInstant p t8 sense = (s.paceStages p t8).judgeSlot p t8 sense) ∧
      (∀ t8, (s.port p).missingDrop = none →
        (s.slotEarly p t8 = false → s.slotUnshipped p t8 = false → s.judgeSlot p t8 sense = s.fireSlot p t8 t8 sense) ∧
        (∀ u, s.slotEarly p t8 = true ∨ s.slotUnshipped p t8 = true →
          u = (if s.slotUnshipped p t8 = true then s.inc (Key.SHIP_LATE p) else s) →
          (s.reg Key.OVERRUN_POLICY = 0 → s.judgeSlot p t8 sense = u.updPort p fun r =>
            { r with deferred := some ⟨r.slot, u.slotLine p r.slot, 0, t8, 0⟩ }) ∧
          (s.reg Key.OVERRUN_POLICY = 1 → s.judgeSlot p t8 sense = u.dropSlot p t8) ∧
          (2 ≤ s.reg Key.OVERRUN_POLICY → s.judgeSlot p t8 sense = (u.dropSlot p t8).raise 0x2C p ∧ s.slotHalts p t8 = true)) ∧
        (∀ tg8, s.deferOk p t8 = true → s.deferDecide p tg8 t8 sense = s.fireSlot p tg8 t8 sense) ∧
        (∀ tg8, s.deferOk p t8 = false → s.deferDecide p tg8 t8 sense = s.dropSlot p t8)) ∧
      (∀ t8 c, (s.port p).missingDrop = some c → (c.policy ≠ 2 → s.judgeSlot p t8 sense = s.dropSlot p t8) ∧
        (c.policy = 2 → s.judgeSlot p t8 sense = (s.dropSlot p t8).raise 0x31 p ∧ s.slotHalts p t8 = true)))

/-- A raster packet on an UP image lane: it is counted; with no buffer free it is a credit violation, with a wrong CRC, sequence start or
length it is counted and its buffer is freed; otherwise its PSEQ is checked and it is taken, or waits while its bank is cleared. One of
the clock of a line event still to come is judged after that event (R218–R222, R234, R243). A line that is whole gets its tag and is
counted; an UP image lane sends credit of its next plane; INGRESS_READY follows the writing of the tags; the tags of a released bank are
written and the packets that waited for it are taken (R221, R228, R229, R234). -/
def Obligations.IngressTakesRasterData : Prop :=
  (∀ (s : State) (lane : Fin 4) (hdr : RasterHdr) (words : List Word) (crc : BitVec 32), s.clocked = true → (s.lane lane).st = .up →
      (s.lineDue = true ∨ s.posApplyDue = true → exec (.rasterPacket lane hdr words crc) s = .next
        (s.updIngress fun g => { g with held := g.held ++ [(lane, ⟨hdr, words⟩, crc)] })) ∧
      (s.lineDue = false → s.posApplyDue = false → exec (.rasterPacket lane hdr words crc) s = .next (s.packetIn lane hdr words crc)) ∧
      (32 ≤ (s.ilane lane).waiting.length → s.packetIn lane hdr words crc =
        (((s.inc (Key.LANE_PACKETS lane)).inc Key.CREDIT_VIOLATION).raise 0x32 0)) ∧
      ((s.ilane lane).waiting.length < 32 → hdr.rsop.toNat % 256 ≠ 0x87 ∨ words.length ≠ hdr.nwords ∨ crc.toNat ≠ packetCrc hdr words →
        s.packetIn lane hdr words crc = (((s.inc (Key.LANE_PACKETS lane)).inc Key.PACKET_CRC).freeBuffer lane)) ∧
      ((s.ilane lane).waiting.length < 32 → hdr.rsop.toNat % 256 = 0x87 → words.length = hdr.nwords → crc.toNat = packetCrc hdr words →
        ∃ u, u = ((if ∃ e, (s.ilane lane).pseq = some e ∧ e ≠ hdr.pseq then (s.inc (Key.LANE_PACKETS lane)).inc (Key.PSEQ_GAP lane)
            else s.inc (Key.LANE_PACKETS lane)).updIlane lane fun r => { r with pseq := some ((hdr.pseq + 1) % 256) }) ∧
          ((s.plane hdr.plane).clearing = false → s.packetIn lane hdr words crc = (u.takePacket lane hdr words)) ∧
          ((s.plane hdr.plane).clearing = true → s.planeOn hdr.plane = true → s.reg Key.GRID_DIR = 2 →
            hdr.pass = (s.reg Key.PASS_COUNT + 1) % 16 → s.packetIn lane hdr words crc =
              (u.updIlane lane fun r => { r with waiting := r.waiting ++ [⟨hdr, words⟩] }))) ∧
      exec (.rasterPacketTimeout lane) s = .next ((s.inc Key.PACKET_FORMAT).freeBuffer lane)) ∧
  (∀ (s : State), s.clocked = true →
      (∀ (q : Fin 16) (line : BitVec 32) (pass : BitVec 16) e, s.entryOf q line.toNat (pass.toNat % 16) = some e → s.entryDone e = true →
        exec (.lineComplete q line pass) s = .next (((((s.writeBulk (s.tagAddr q (s.slotOf q e.line e.pass)) (tagWord e.line e.pass true)).updIngress
          fun g => { g with
            entries := g.entries.filter fun x => x ≠ e,
            fresh := (s.clk, q.val, e.line, e.pass) :: g.fresh.filter fun x => decide (s.clk ≤ x.1 + 1) }).inc (Key.LINES_COMPLETE q)).setReg (Key.LAST_COMPLETE_LINE q) e.line))) ∧
      (∀ (q : Fin 16) (line : BitVec 32) (pass : BitVec 16), s.entryOf q line.toNat (pass.toNat % 16) = none →
        exec (.lineComplete q line pass) s = .next s) ∧
      (∀ lane : Fin 4, (s.lane lane).st = .up → ∃ t, exec (.creditSend lane) s = .next t ∧ (t.ilane lane).plane = s.nextPlane (s.ilane lane).plane ∧
        (t.ilane lane).told = (s.ilane lane).freed ∧ (t.ilane lane).toldAt = some s.clk ∧
        (∃ b, t.out = .credit lane b :: s.out ∧ b.toNat % 256 = 0xB4 ∧ b.toNat / 2 ^ 56 = (s.ilane lane).freed % 256) ∧
        (∀ k, t.reg k = s.reg k) ∧ t.mem = s.mem ∧ t.tabs = s.tabs ∧ t.ports = s.ports) ∧
      (∀ lane : Fin 4, (s.lane lane).st ≠ .up → exec (.creditSend lane) s = .next s) ∧
      (s.bmReady = true → s.flag Key.INGRESS_READY = false → exec .ingressReady s = .next
        ((((s.forEach (s.ingress.rewrite.filter s.planeOn) fun q s => s.clearTags q 0 (s.planeBanks * s.reg (Key.PLANE_DEPTH q))).updIngress
          fun g => { g with rewrite := [] }).setReg Key.INGRESS_READY 1).windows false)) ∧
      (s.bmReady = false → exec .ingressReady s = .next s) ∧
      (∀ q : Fin 16, (s.plane q).clearing = true → exec (.bankClearDone q) s = .next
        (((s.clearTags q ((s.reg Key.PASS_COUNT + 1) % 2 * s.reg (Key.PLANE_DEPTH q)) (s.reg (Key.PLANE_DEPTH q))).updPlane q fun p =>
          { p with clearing := false }).forEach (List.range 4) fun i u => ((u.ilane i).waiting.filter fun k => k.hdr.plane = q.val).foldl
            (fun v k => v.takePacket i k.hdr k.words)
            (u.updIlane i fun r => { r with waiting := (u.ilane i).waiting.filter fun k => k.hdr.plane ≠ q.val }))) ∧
      (∀ q : Fin 16, (s.plane q).clearing = false → exec (.bankClearDone q) s = .next s))

/-- A gate that asserts is counted where an armed port is covered, raises its source and cuts its ports; released, it restarts those that
were held; asserted or released again it does nothing (R307–R313). A safe ramp ends in a clear latch (none of a disarmed port), which
ships an empty line, latches it, and leaves the port disarmed or restarts it where it was held; an idle port tickles with W0, when the
clock of its tickle ends; a head's identity is kept as it was read (R304, R305, R309, R312, R314, R317). -/
def Obligations.GatesAndPortEnds : Prop :=
  (∀ (s : State) (g : Fin 4), s.on = true →
      (bit (s.reg Key.GATE_LEVEL) g = true → exec (.gateAssert g) s = .next s) ∧
      (bit (s.reg Key.GATE_LEVEL) g = false → (∀ p < s.nPorts, s.gateCovers g p = true → (s.port p).st = .disarmed) →
        exec (.gateAssert g) s = .next ((s.setRegBit Key.GATE_LEVEL g true).forEach ((List.range s.nPorts).filter fun p => s.gateCovers g p)
          fun p s => s.cutPort (2 + g) (bit (s.reg (Key.GATE_CFG g)) 9 && !s.gatedDisarm p) p)) ∧
      (∀ p, p < s.nPorts → s.gateCovers g p = true → (s.port p).st ≠ .disarmed → bit (s.reg Key.GATE_LEVEL) g = false →
        exec (.gateAssert g) s = .next ((((s.setRegBit Key.GATE_LEVEL g true).inc (Key.GATE_CUTS g)).cause (0x3C + g) g true g).forEach
          ((List.range s.nPorts).filter fun p => s.gateCovers g p)
          fun p s => s.cutPort (2 + g) (bit (s.reg (Key.GATE_CFG g)) 9 && !s.gatedDisarm p) p)) ∧
      (bit (s.reg Key.GATE_LEVEL) g = true → exec (.gateRelease g) s = .next (((s.setRegBit Key.GATE_LEVEL g false).cause (0x3C + g) g false g).forEach
        (List.range s.nPorts) State.restartHeld)) ∧
      (bit (s.reg Key.GATE_LEVEL) g = false → exec (.gateRelease g) s = .next s)) ∧
  (∀ (s : State) (p : Fin 16), s.clocked = true → p.val < s.nPorts →
      (∀ e, (s.port p).rampEnd8 = some e → e < s.at8 8 → (s.port p).st ≠ .disarmed →
        exec (.rampEnd p) s = .next ((s.updPort p fun r => { r with rampEnd8 := none, ramps := [] }).clearAfter p e)) ∧
      (∀ e, (s.port p).rampEnd8 = some e → e < s.at8 8 → (s.port p).st = .disarmed →
        exec (.rampEnd p) s = .next (s.updPort p fun r => { r with rampEnd8 := none, ramps := [] })) ∧
      (∀ e, (s.port p).rampEnd8 = some e → s.at8 8 ≤ e → exec (.rampEnd p) s = .next s) ∧
      ((s.port p).rampEnd8 = none → exec (.rampEnd p) s = .next s) ∧
      (∀ t, (s.port p).clear8 = some t → t < s.at8 8 → ∃ u, u = ((s.shipOut p (s.port p).slot (s.port p).clearLink (List.replicate 2304 0)).emit
          (.latch p t (s.port p).clearLink.width (s.port p).clearLink.low)).updPort p
            (fun r => { r with clear8 := none, release8 := t + (s.port p).clearLink.latchTime }) ∧
        ((s.port p).st = .held → exec (.clearLatch p) s = .next (u.restartHeld p)) ∧
        ((s.port p).st = .stopping → (s.port p).stopAt = true → exec (.clearLatch p) s = .next u) ∧
        ((s.port p).st ≠ .held → ¬ ((s.port p).st = .stopping ∧ (s.port p).stopAt = true) →
          exec (.clearLatch p) s = .next (u.portDisarmed p))) ∧
      ((s.port p).clear8 = none → exec (.clearLatch p) s = .next s) ∧
      (∀ t, (s.port p).clear8 = some t → s.at8 8 ≤ t → exec (.clearLatch p) s = .next s) ∧
      (∀ sense, exec (.idleTickle p sense) s = .next (s.updPort p fun r => { r with tickleNow := some sense }).lastOfClock) ∧
      (∀ sense n u, n = s.updPort p (fun r => { r with tickleNow := some sense }) → s.pending = [] → n.SoleWait p →
        (s.port p).scrNow = [] → (s.port p).fireNow = [] → (s.port p).deferNow = [] →
        u = n.updPort p (fun r => { r with fireNow := [], deferNow := [], tickleNow := none, scrNow := [] }) →
        exec (.idleTickle p sense) s = .next ((u.tickle p sense).endPort p)) ∧
      (∀ sense, s.tickleDue p = true → s.tickle p sense =
        ((s.draw p (s.at8 0) true true sense).inc (Key.IDLE_FIRES p)).updPort p fun r => { r with tickled := some s.ct }) ∧
      (∀ sense, s.tickleDue p = false → s.tickle p sense = s) ∧
      (∀ l, s.reg Key.CALDERA_STATE = 2 → l.length = 256 → exec (.headIdRead p (some l)) s = .next ((s.updPort p fun r =>
        { r with idRead := some s.clk }).setTab (0x400C + 0x40 * p) (tabOf (streamWords 29 (ofBytes ((l.map BitVec.toNat).reverse)))))) ∧
      (s.reg Key.CALDERA_STATE = 2 → exec (.headIdRead p none) s = .next ((s.updPort p fun r =>
        { r with idRead := some s.clk }).setTab (0x400C + 0x40 * p) { len := some 0 })) ∧
      (∀ l, s.reg Key.CALDERA_STATE ≠ 2 → exec (.headIdRead p l) s = .next s))

/-! ## Drive Calibration, thermal, inspection and the loop -/

/-- A group selects once after a scan: a channel that is refused is deferred, counted and raised once, one that is accepted begins with
its hand-over, a spare where it stands; a measurement begins once the swap is verified and the channel rests, with the drive temperature
of that moment, which is free where there is none (log 10) (R326, R327, R333, R337, R338). A measurement round, once its sweep is through,
ends when its clock does (at once where no command waits, log 22) with its fit: one of two rounds asks for the second, the last concludes
(R338–R345); accepted sets are copied to NOR flash while Caldera runs (R348). -/
def Obligations.CalibrationRounds : Prop :=
  (∀ (s u : State) (g : Fin 4), s.clocked = true → g.val < s.nGroups → u = s.updCal g (fun r => { r with selDue := false }) →
      ((s.cal g).selDue = false ∨ (s.cal g).ch ≠ none → exec (.calStart g) s = .next s) ∧
      ((s.cal g).selDue = true → (s.cal g).ch = none → u.calSelect g = none → exec (.calStart g) s = .next u) ∧
      (∀ c, (s.cal g).selDue = true → (s.cal g).ch = none → u.calSelect g = some c → u.calRefusal g c ≠ 0 →
        ((u.cal g).refused ≠ some (u.calRefusal g c) → exec (.calStart g) s = .next
          (((u.inc (Key.CAL_DEFERRED g)).raise 0x40 g).updCal g fun r => { r with refused := some (u.calRefusal g c) })) ∧
        ((u.cal g).refused = some (u.calRefusal g c) → exec (.calStart g) s = .next u)) ∧
      (∀ c, (s.cal g).selDue = true → (s.cal g).ch = none → u.calSelect g = some c → u.calRefusal g c = 0 →
        exec (.calStart g) s = .next (((u.setReg (Key.CAL_CHANNEL g) c).updCal g fun r => { r with
          ch := some c, refused := none, phase := if 64 ≤ c then .ready else .handOver, chDraws := true, spDraws := false
          fits := [], setDue := none, setDone := false, outcome := 0 }).queueSwap false g)) ∧
      (∀ c, (s.cal g).ch = some c → (s.cal g).phase = .ready →
        (∀ p, chPort c = some p → (s.port p).draws.any (fun d => d.ch = c ∧ s.at8 0 < d.end8) = false) →
        (∀ t, s.driveTemp g = some t → exec (.measureStart g) s = .next ((s.queueHov g (senseFrames c)).updCal g fun r =>
          { r with phase := .measure, temp := t, rest := s.restCode c })) ∧
        (s.driveTemp g = none → exec (.measureStart g) s =
          .next ({ s.queueHov g (senseFrames c) with free := s.free + 1 }.updCal g fun r =>
            { r with phase := .measure, temp := sgn 12 (Config.freeWord s.free).toNat, rest := s.restCode c }))) ∧
      (∀ c, (s.cal g).ch = some c → (s.cal g).phase ≠ .ready → exec (.measureStart g) s = .next s) ∧
      ((s.cal g).ch = none → exec (.measureStart g) s = .next s)) ∧
  (∀ (s u : State) (g : Fin 4) (c : Nat) (sums refs : List Nat) (f : Option CalFit), g.val < s.nGroups →
      f = s.calFit sums (refs.getD 0 0) (refs.getD 1 0) (refs.getD 2 0) →
      u = ((match f with
        | some x => s.setReg (Key.CAL_RESID_LAST c) (min 65535 x.resid.toNat)
        | none => s).updCal g fun r => { r with fits := f.getD CalFit.void :: r.fits, sweepAt := none }) →
      (s.reg Key.CAL_ACCEPT ≠ 0 → (s.cal g).fits = [] → s.roundDone g c sums refs = u.queueHov g (senseFrames c)) ∧
      (s.reg Key.CAL_ACCEPT = 0 ∨ (s.cal g).fits ≠ [] → s.roundDone g c sums refs = u.calConclude g c) ∧
      (s.clocked = true → s.roundOver g = false → exec (.calRoundDone g sums refs) s = .next s) ∧
      (s.clocked = true → s.roundOver g = true → exec (.calRoundDone g sums refs) s =
        .next (s.updCal g fun r => { r with roundNow := some (sums, refs) }).lastOfClock) ∧
      (s.clocked = true → s.roundOver g = true → s.pending = [] → exec (.calRoundDone g sums refs) s =
        .next (s.updCal g fun r => { r with roundNow := some (sums, refs) }).clockEnd) ∧
      ((s.cal g).ch = some c → (s.cal g).roundNow = some (sums, refs) → s.grid.evClk ≠ some s.clk → s.therm.scanClk ≠ some s.clk →
        s.calEnd g = (s.updCal g fun r => { r with roundNow := none }).roundDone g c sums refs) ∧
      (∀ w rest, s.on = true → s.calderaUp = true → (s.cal g).copies = w :: rest → exec (.calSetCopy g) s = .next
        (((s.updCal g fun r => { r with copies := rest }).norWrite 1 fun n => { n with
          sets := Map.put (fun _ => none) (Map.put (fun _ => none) n.sets (1024 * g + w) (some (BitVec.ofNat 72 (s.tabWord (0x4500 + g) w))))
            (1024 * g + w + 1) (some (BitVec.ofNat 72 (s.tabWord (0x4500 + g) (w + 1)))) }).logConfig 2
          (beBytes 9 (s.tabWord (0x4500 + g) w) ++ beBytes 9 (s.tabWord (0x4500 + g) (w + 1))))) ∧
      (s.on = false ∨ s.calderaUp = false ∨ (s.cal g).copies = [] → exec (.calSetCopy g) s = .next s))

/-- The HOV bus: the group whose frame is due sends its STATUS, else its next command, and holds the bus for 36 periods; the strobe that
falls due applies the frame; a STATUS reply that fits ends the swap or the restore, and any other counts an error, aborts and asks for
RESTORE again every 1 ms (R328–R334, R339). -/
def Obligations.HandOverBusIsVerified : Prop :=
  ∀ (s : State) (g : Fin 4) (n : Nat), s.clocked = true → g.val < s.nGroups → n = ((s.cal g).fseq + 1) % 256 →
    (s.canSend g = true → (s.cal g).status ≠ none → exec (.hovFrame g) s = .next
      ((s.emit (.hov g (hovFrame g n ⟨0, 0, 0⟩))).updCal g fun c =>
        { c with fseq := n, frameEnd := s.clk + s.hovClks 32, busTo := s.clk + s.hovClks 36, statusOut := true })) ∧
    (∀ x xs, s.canSend g = true → (s.cal g).status = none → (s.cal g).frames = x :: xs → exec (.hovFrame g) s = .next
      ((s.emit (.hov g (hovFrame g n x))).updCal g fun c => { c with
        fseq := n, frameEnd := s.clk + s.hovClks 32, busTo := s.clk + s.hovClks 36, cmdSeq := n, frames := xs, sent := some x })) ∧
    (s.canSend g = false → exec (.hovFrame g) s = .next s) ∧
    (∀ t, (s.cal g).dueClk = some t → t ≤ s.clk → (∀ k < s.nGroups, (s.cal k).busTo ≤ s.clk) →
      (∀ k < s.nGroups, k ≠ g.val → (s.cal k).dueClk = none) → s.canSend g = true) ∧
    (∀ x, (s.cal g).sent = some x → s.strobeDue g = true → exec (.hovStrobe g) s = .next
      ((s.emit (.hovStrobe g)).updCal g fun c => { c with
        sent := none, status := some x, statusOut := false, dueAt := s.clk
        dwellTo := if x.op = 3 ∧ x.sense ≠ 0 then s.clk + s.settleClks + s.dwellClks else c.dwellTo
        sweepAt := if x.op = 3 ∧ x.sense = 0 then some (s.clk + s.settleClks) else c.sweepAt
        swapped := if x.op = 1 then some x.slot else if x.op = 2 then none else c.swapped
        sense := if x.op = 3 then x.sense else if x.op = 2 then 0 else c.sense })) ∧
    (∀ x, (s.cal g).sent = some x → (s.strobeDue g = true ↔ s.strobeFrom g ≤ s.clk ∧ (x.op = 3 ∨ s.strobeOk g = true))) ∧
    (s.strobeDue g = false → exec (.hovStrobe g) s = .next s) ∧
    ((s.cal g).sent = none → exec (.hovStrobe g) s = .next s) ∧
    ((s.cal g).status = none → ∀ reply, exec (.hovVerify g reply) s = .next s) ∧
    (∀ x reply chan ok, (s.cal g).status = some x → (s.cal g).statusOut = true → (s.cal g).frameEnd ≤ s.clk →
      chan = (match reply with | some v => bits (BitVec.toNat v) 27 23 | none => s.reg (Key.HOV_STATE g) % 32) →
      (ok = true ↔ ∃ v, reply = some v ∧
        hovReplyOk g (s.cal g).cmdSeq (s.cal g).swapped { x with sense := (s.cal g).sense } v.toNat = true) →
      ∃ u, u = ((s.setReg (Key.HOV_STATE g) (128 * b2n ok + chan)).updCal g fun r =>
          { r with status := none, statusOut := false, dueAt := s.clk }) ∧
        (ok = false → exec (.hovVerify g reply) s = .next ((((u.inc (Key.HOV_ERRORS g)).raise 0x43 g).calAbort 4 g).updCal g fun r =>
          { r with frames := [⟨2, 31, 0⟩], sent := none, unverified := true, retryAt := some (s.clk + 500000), chDraws := true
                   spDraws := r.ch.isSome })) ∧
        (ok = true → x.op = 1 → exec (.hovVerify g reply) s = .next (u.updCal g fun r =>
          { r with chDraws := false, phase := if r.phase = .handOver then .ready else r.phase })) ∧
        (ok = true → x.op = 2 → (s.cal g).ch = none ∨ (s.cal g).phase ≠ .handBack → exec (.hovVerify g reply) s = .next
          (u.updCal g fun r => { r with restored := true, unverified := false, retryAt := none })) ∧
        (∀ c, ok = true → x.op = 2 → (s.cal g).ch = some c → (s.cal g).phase = .handBack → exec (.hovVerify g reply) s = .next
          ((u.updCal g fun r => { r with restored := true, unverified := false, retryAt := none }).calFinal g c)) ∧
        (ok = true → x.op ≠ 1 → x.op ≠ 2 → exec (.hovVerify g reply) s = .next u)) ∧
    (∀ reply, (s.cal g).statusOut = false ∨ s.clk < (s.cal g).frameEnd → exec (.hovVerify g reply) s = .next s) ∧
    ((s.cal g).unverified = true → (∃ t, (s.cal g).retryAt = some t ∧ t ≤ s.clk) →
      ((s.cal g).quiet = true → exec (.hovRestoreRetry g) s = .next
        ((s.queueHov g [⟨2, 31, 0⟩]).updCal g fun r => { r with retryAt := some (s.clk + 500000) })) ∧
      ((s.cal g).quiet = false → exec (.hovRestoreRetry g) s = .next (s.updCal g fun r => { r with retryAt := some (s.clk + 500000) }))) ∧
    (∀ t, (s.cal g).retryAt = some t → s.clk < t → exec (.hovRestoreRetry g) s = .next s) ∧
    ((s.cal g).unverified = false → exec (.hovRestoreRetry g) s = .next s)

/-- A scan that completes, 100 µs or more after the last, takes its 80 readings, recomputes the drive while the grid is off, and lets
every group select; each heater period, HEAT_PERIOD after the start of the one before, takes its duty, 0 where heating is forced off;
HEATp is high for HEAT_DUTY/1,024 of the period (R324, R326, R355–R369). -/
def Obligations.ThermalScansAndHeats : Prop :=
  ∀ (s : State) (readings : Vector (BitVec 32) 80) (p : Fin 16), s.clocked = true →
    (∀ u, s.scanReady = true → u = ((if (s.scan readings).flag Key.GRID_ENABLE = true then s.scan readings
        else (s.scan readings).recomputeScan).forEach (s.scan readings).allChannels State.calPassed) → exec (.thermalScan readings) s =
      .next (u.forEach (List.range u.nGroups) fun g s => (s.updCal g fun r => { r with selDue := true }).queueSwap false g)) ∧
    (s.scanReady = false → exec (.thermalScan readings) s = .next s) ∧
    (s.therm.lastScan = none → s.scanReady = true) ∧
    (∀ a b, s.therm.lastScan = some (a, b) → (s.scanReady = true ↔ a + 50000 ≤ s.ct ∨ b + 50000 ≤ s.clk)) ∧
    (∀ u, u = s.updHeat p (fun h => { h with start := some s.clk }) → p.val < s.nPorts → s.heatDue p = true → s.heatForced p = false →
      exec (.heatPeriodStart p) s = .next (u.setReg (Key.HEAT_DUTY p) (s.heatDuty p))) ∧
    (∀ u, u = s.updHeat p (fun h => { h with start := some s.clk }) → p.val < s.nPorts → s.heatDue p = true → s.heatForced p = true →
      exec (.heatPeriodStart p) s = .next (u.heatForce p)) ∧
    (∀ t, p.val < s.nPorts → (s.heat p).start = some t → s.clk < t + s.reg Key.HEAT_PERIOD * 500 → exec (.heatPeriodStart p) s = .next s) ∧
    (∀ t, (s.heat p).start = some t → t + s.reg Key.HEAT_PERIOD * 500 ≤ s.clk → s.heatDue p = true) ∧
    (∀ t, (s.heat p).start = some t → (s.heatPin p = true ↔
      (s.clk - t) * 1024 < s.reg (Key.HEAT_DUTY p) * (s.reg Key.HEAT_PERIOD * 500)))

/-- Frame Start begins a frame of a camera that is on, ending one that has not ended; Frame End ends it when every exposure's has come;
FRAME_TIMEOUT ends a late one when the clock ends, which is at once where no command waits (log 22); the packets of an unknown virtual
channel are counted. Cameras do nothing outside RUN (R375, R378, R379, R403, R405). A CSI packet: header errors are counted and raised,
packets of another channel or type discarded and counted, a line taken into its frame, with its checksum judged; a corrected header is
counted and the packet taken (R375). I²C transactions end DONE, NACK or TIMEOUT, a read leaves its bytes (R377). -/
def Obligations.CamerasDeliverFrames : Prop :=
  (∀ (s : State) (cam : Fin 2) (vc : BitVec 2) (number : BitVec 16), s.clocked = true →
      (s.reg Key.POWER_STATE ≠ 0 → exec (.frameStart cam vc number) s = .next s ∧ exec (.frameEnd cam vc) s = .next s) ∧
      (s.camOn cam = true → s.exposureOf cam vc.toNat = some 0 →
        exec (.frameStart cam vc number) s = .next ((s.endFrame cam true).beginFrame cam number.toNat)) ∧
      (s.reg Key.POWER_STATE = 0 →
        (s.camOn cam = false → s.exposureOf cam vc.toNat = some 0 →
          ((s.cam cam).offAt = some s.clk → exec (.frameStart cam vc number) s = .next (s.inc (Key.OUT_OF_FRAME cam))) ∧
          ((s.cam cam).offAt ≠ some s.clk → exec (.frameStart cam vc number) s = .next s)) ∧
        (∀ e, s.exposureOf cam vc.toNat = some (e + 1) → exec (.frameStart cam vc number) s = .next s) ∧
        (s.exposureOf cam vc.toNat = none →
          exec (.frameStart cam vc number) s = .next (s.inc (Key.VC_DISCARDED cam)) ∧
          exec (.frameEnd cam vc) s = .next (s.inc (Key.VC_DISCARDED cam))) ∧
        (∀ e, s.exposureOf cam vc.toNat = some e → (s.cam cam).receiving = none → exec (.frameEnd cam vc) s = .next s) ∧
        (∀ e f, s.exposureOf cam vc.toNat = some e → (s.cam cam).receiving = some f → f.ends.contains e = false →
          (f.ends.length + 1 = f.expo → exec (.frameEnd cam vc) s =
            .next ((s.updFrame cam fun f' => { f' with ends := e :: f.ends }).endFrame cam false)) ∧
          (f.ends.length + 1 ≠ f.expo → exec (.frameEnd cam vc) s = .next (s.updFrame cam fun f' => { f' with ends := e :: f.ends })))) ∧
      (s.pending = [] → exec (.frameTimeout cam) s = .next (s.camEnd cam)) ∧
      (s.pending ≠ [] → exec (.frameTimeout cam) s = .next s) ∧
      (∀ f, (s.cam cam).late = [] → (s.lateLines cam) = s → (s.cam cam).receiving = some f →
        f.fsCt + f.limit ≤ s.ct → s.camEnd cam = s.endFrame cam true) ∧
      ((s.lateLines cam) = s → (s.cam cam).receiving = none → s.camEnd cam = s)) ∧
  (∀ (s u : State) (cam : Fin 2) (p : CsiPacket), s.clocked = true → s.reg Key.POWER_STATE = 0 →
      u = (if p.ecc = .corrected then s.inc (Key.HDR_ECC_CORRECTED cam) else s) →
      (p.ecc = .bad → exec (.csiPacket cam p) s = .next ((s.inc (Key.HDR_ECC_ERRORS cam)).raise (camSource cam 0) cam)) ∧
      (p.ecc ≠ .bad → s.exposureOf cam p.vc.toNat = none → exec (.csiPacket cam p) s = .next (u.inc (Key.VC_DISCARDED cam))) ∧
      (∀ e, p.ecc ≠ .bad → s.exposureOf cam p.vc.toNat = some e → p.dataType.toNat ≤ 0x0F ∨ p.dataType.toNat = 0x12 →
        exec (.csiPacket cam p) s = .next u) ∧
      (∀ e f, p.ecc ≠ .bad → s.exposureOf cam p.vc.toNat = some e → 0x0F < p.dataType.toNat → p.dataType.toNat ≠ 0x12 →
        (p.dataType.toNat ≠ s.reg (Key.DATA_TYPE cam) → exec (.csiPacket cam p) s = .next (u.inc (Key.TYPE_DISCARDED cam))) ∧
        (p.dataType.toNat = s.reg (Key.DATA_TYPE cam) → (s.cam cam).receiving = none →
          exec (.csiPacket cam p) s = .next (u.inc (Key.OUT_OF_FRAME cam))) ∧
        (p.dataType.toNat = s.reg (Key.DATA_TYPE cam) → (s.cam cam).receiving = some f → p.crcOk = true →
          exec (.csiPacket cam p) s = .next (u.takeLine cam e f p.pixels true)) ∧
        (p.dataType.toNat = s.reg (Key.DATA_TYPE cam) → (s.cam cam).receiving = some f → p.crcOk = false →
          exec (.csiPacket cam p) s =
            .next (((u.takeLine cam e f p.pixels false).inc (Key.PAYLOAD_CRC cam)).raise (camSource cam 0) cam))) ∧
      (s.reg (Key.I2C_STATUS cam) = 1 → ∀ data,
        exec (.i2cDone cam true data) s = .next ((s.setReg (Key.I2C_STATUS cam) 3).raise (camSource cam 4) cam) ∧
        (bits (s.reg (Key.I2C_CMD cam)) 63 62 = 2 → exec (.i2cDone cam false data) s = .next ((s.setReg (Key.I2C_STATUS cam) 2).setReg
          (Key.I2C_DATA cam) (data.toNat % 2 ^ (8 * bits (s.reg (Key.I2C_CMD cam)) 52 50)))) ∧
        (bits (s.reg (Key.I2C_CMD cam)) 63 62 ≠ 2 → exec (.i2cDone cam false data) s = .next (s.setReg (Key.I2C_STATUS cam) 2)) ∧
        exec (.i2cTimeout cam) s = .next ((s.setReg (Key.I2C_STATUS cam) 4).raise (camSource cam 4) cam)) ∧
      (s.reg (Key.I2C_STATUS cam) ≠ 1 → ∀ nack data, exec (.i2cDone cam nack data) s = .next s ∧ exec (.i2cTimeout cam) s = .next s))

/-- The pipeline serves one camera at a time: a grant counts a change of camera, notes the instant and, when the clock ends, latches the
settings; a line that has been processed adds to its frame, and table words that fail are counted and raised; a unit that is done frees
the pipeline, counts, and finishes a whole frame; a silent camera is a condition (R381, R382, R385–R388, R400, R404). -/
def Obligations.PipelineServesCameras : Prop :=
  ∀ (s : State), s.clocked = true →
    (∀ c u, s.pipe.cur = none → s.reg Key.POWER_STATE = 0 → s.grantee = some c →
      u = (if s.pipe.last = some c then s else s.inc Key.CTX_SWITCHES).updPipe (fun p => { p with
        cur := some c, last := some c, unitEnd := ((s.cam c).frames.head?.map s.unitEndOf).getD 0, since := s.ct
        freeAt := s.clk + 64 * (if s.pipe.last = some c then 0 else 1), lineEnd := none }) →
      (s.pending = [] → exec .pipeGrant s = .next u.pipeEnd) ∧ (s.pending ≠ [] → exec .pipeGrant s = .next u)) ∧
    (∀ c f, s.pipe.cur = some c → (s.cam c).frames.head? = some f → s.pipe.lineEnd = none → f.done < s.pipe.unitEnd →
      f.lineReady f.done = true → s.pipeEnd.pipe.lineEnd = some (max s.clk s.pipe.freeAt + (f.width + 3) / 4)) ∧
    (s.grantee = none ∨ s.pipe.cur ≠ none ∨ s.reg Key.POWER_STATE ≠ 0 → exec .pipeGrant s = .next s) ∧
    (∀ c f te, s.pipe.cur = some c → (s.cam c).frames.head? = some f → s.pipe.unitEnd ≤ f.done ∨ f.lineReady f.done = false ∨
      s.pipe.lineEnd = none ∨ (∃ t, s.pipe.lineEnd = some t ∧ s.clk < t) → exec (.pipeLineDone te) s = .next s) ∧
    (s.pipe.cur = none → ∀ te, exec (.pipeLineDone te) s = .next s) ∧
    (∀ c f te t u cfg new, s.pipe.cur = some c → (s.cam c).frames.head? = some f → f.done < s.pipe.unitEnd → f.lineReady f.done = true →
      s.reg Key.POWER_STATE = 0 → s.pipe.lineEnd = some t → t ≤ s.clk → cfg = f.cfg.getD (s.pipeCfg c) →
      new = ((te.map fun e => (0x4600 + 2 * e.1.val + c, e.2)).filter (fun e => !cfg.bad.contains e)).dedup →
      u = ((s.updCam c fun m => { m with frames := modAt (fun x => { x with
        done := x.done + 1, tableErr := x.tableErr || !(new ++ cfg.bad).isEmpty, cfg := some { cfg with bad := new ++ cfg.bad } }) 0 m.frames
        }).failPipe c cfg new).updPipe (fun p => { p with freeAt := s.clk, lineEnd := none }) →
      (new ++ cfg.bad = [] → f.done < 2 → exec (.pipeLineDone te) s = .next u) ∧
      (new ++ cfg.bad = [] → 2 ≤ f.done → exec (.pipeLineDone te) s = .next (u.outputLine c (f.done - 2))) ∧
      (new ++ cfg.bad ≠ [] → f.done < 2 → exec (.pipeLineDone te) s =
        .next ((u.addReg Key.PIPE_TABLE_ERRORS (new ++ cfg.bad).length).raise 0x5A 0)) ∧
      (new ++ cfg.bad ≠ [] → 2 ≤ f.done → exec (.pipeLineDone te) s =
        .next (((u.addReg Key.PIPE_TABLE_ERRORS (new ++ cfg.bad).length).raise 0x5A 0).outputLine c (f.done - 2)))) ∧
    (∀ c f, s.pipe.cur = some c → (s.cam c).frames.head? = some f → s.unitOver f = true → ∃ u,
      u = (((s.inc Key.PIPE_UNITS).addReg Key.PIPE_BUSY_CT (s.ct - s.pipe.since)).updPipe fun p => { p with cur := none, lineEnd := none }) ∧
      (f.height ≤ f.done → exec .pipeUnitDone s = .next (u.finishFrame c f)) ∧
      (f.done < f.height → exec .pipeUnitDone s = .next u)) ∧
    (∀ c f, s.pipe.cur = some c → (s.cam c).frames.head? = some f → s.unitOver f = false → exec .pipeUnitDone s = .next s) ∧
    (s.pipe.cur = none → exec .pipeUnitDone s = .next s) ∧
    (∀ cam : Fin 2, s.camQuiet cam = true → exec (.camSilent cam) s = .next (s.cause (camSource cam 3) cam true cam)) ∧
    (∀ cam : Fin 2, s.camQuiet cam = false → exec (.camSilent cam) s = .next s)

/-- The loop arms the oldest latched test of a camera whose turn has come, gives up a lost one and goes on to the next, and checks the
block whose frame has come (R415–R417). -/
def Obligations.LoopTestsAreArmedAndChecked : Prop :=
  ∀ (s : State) (c : Fin 2), s.clocked = true →
    (∀ k t rest, s.loopTests c = (k, t) :: rest → t.phase = 0 → exec (.loopArm c) s = .next (s.armTest c k t).loopRelease) ∧
    (∀ k t, s.loopTests c = [(k, t)] → t.phase ≠ 0 → s.loopLost c = true →
      exec (.loopArm c) s = .next (s.setPhase k.n0 c 2).loopRelease) ∧
    (∀ k t k' t' rest, s.loopTests c = (k, t) :: (k', t') :: rest → t.phase ≠ 0 → s.loopLost c = true →
      exec (.loopArm c) s = .next ((s.setPhase k.n0 c 2).armTest c k' t').loopRelease) ∧
    (∀ k t rest, s.loopTests c = (k, t) :: rest → t.phase ≠ 0 → s.loopLost c = false → exec (.loopArm c) s = .next s) ∧
    (s.loopTests c = [] → exec (.loopArm c) s = .next s ∧ exec (.loopCheck c) s = .next s) ∧
    (∀ k t rest, s.loopTests c = (k, t) :: rest → t.phase = 1 → s.loopFrame c = true →
      exec (.loopCheck c) s = .next ((s.checkBlock c k t).setPhase k.n0 c 2).loopRelease) ∧
    (∀ k t rest, s.loopTests c = (k, t) :: rest → t.phase ≠ 1 ∨ s.loopFrame c = false → exec (.loopCheck c) s = .next s)

/-! ## Scratch Banks, bulk memory and DMA -/

/-- A write through the bit-set window ORs, one through the bit-clear window ANDs with the complement, one through the plain window puts
the word; a read through any of the three gives the plain word; at either port, and no other word changes (R436, R438, R439). -/
def Obligations.AliasWindowsSetAndClear : Prop :=
  ∀ (s : State) (portB : Bool) (x k : Nat) (v : Word) (acc : ScratchAcc) (i : Instr), s.clocked = true → x < 0x100000 → k < 3 →
    acc.addr = x + 0x100000 * k → acc.data = v → s.scratchBad x < 2 →
    (portB = false ∧ i = .scratchAccess (some acc) none ∨ portB = true ∧ i = .scratchAccess none (some acc)) →
    (acc.write = true → ∃ t, exec i s = .next t ∧ t.out = .scratch portB .done :: s.out ∧ t.scratchBad x = 0 ∧
      t.scratchWord x = (if k = 0 then v else if k = 1 then s.scratchWord x ||| v else s.scratchWord x &&& ~~~v) ∧
      (∀ y, y ≠ x → t.scratchWord y = s.scratchWord y ∧ t.scratchBad y = s.scratchBad y) ∧ t.mem.bulk = s.mem.bulk ∧
      (∀ r, r ∉ bookKeys → r ≠ Key.SCRATCH_CE → t.reg r = s.reg r) ∧ t.tabs = s.tabs ∧ t.ports = s.ports ∧ t.pos = s.pos ∧ t.grid = s.grid) ∧
    (acc.write = false → ∃ t, exec i s = .next t ∧ t.out = .scratch portB (.word (s.scratchWord x)) :: s.out ∧ t.mem = s.mem ∧
      (∀ r, r ∉ bookKeys → r ≠ Key.SCRATCH_CE → t.reg r = s.reg r) ∧ t.tabs = s.tabs ∧ t.ports = s.ports ∧ t.pos = s.pos ∧ t.grid = s.grid)

/-- Two writes of one word on one clock: port B's stands, port A is told COLLIDED, and that is counted. A read beside a write of the word
sees it as it stood before. A reserved address is a bus error. An uncorrectable word is counted, noted and raised, reads as 0 at port B,
and an alias write of it writes nothing (R436, R440, R441). -/
def Obligations.PortsMeetAtAWord : Prop :=
  ∀ (s : State) (a b : ScratchAcc) (x : Nat), s.clocked = true → a.addr % 0x100000 = x → b.addr % 0x100000 = x → b.addr < 0x300000 →
    (a.addr < 0x300000 → a.write = true → b.write = true → ∃ t u r, exec (.scratchAccess (some a) (some b)) s = .next t ∧
      exec (.scratchAccess none (some b)) s = .next u ∧ (∀ y, t.scratchWord y = u.scratchWord y) ∧ u.out = .scratch true r :: s.out ∧
      t.out = .scratch true r :: .scratch false .collided :: s.out ∧
      t.reg Key.SCRATCH_COLLISIONS = (s.reg Key.SCRATCH_COLLISIONS + 1) % 2 ^ keyWidth Key.SCRATCH_COLLISIONS) ∧
    (a.addr < 0x300000 → s.scratchBad x = 0 → a.write = false → b.write = true → ∃ t, exec (.scratchAccess (some a) (some b)) s = .next t ∧
      t.out = .scratch true .done :: .scratch false (.word (s.scratchWord x)) :: s.out ∧
      t.reg Key.SCRATCH_COLLISIONS = s.reg Key.SCRATCH_COLLISIONS) ∧
    (a.addr < 0x300000 → s.scratchBad x = 0 → a.write = true → b.write = false → ∃ t, exec (.scratchAccess (some a) (some b)) s = .next t ∧
      t.out = .scratch true (.word (s.scratchWord x)) :: .scratch false .done :: s.out) ∧
    (0x300000 ≤ a.addr → exec (.scratchAccess (some a) none) s = .next (s.emit (.scratch false .busError))) ∧
    (s.scratchBad x = 2 → b.write = false ∨ 0x100000 ≤ b.addr → exec (.scratchAccess none (some b)) s = .next
      ((((((s.inc Key.SCRATCH_UE).setReg Key.SCRATCH_LAST_ERR x).raise 0x5D 0).loopWord x 0).emit (.scratch true (.word 0))).markB
        (some b))) ∧
    (x < 0xE0000 → ∀ (u : State) (w : Word), u.loopWord x w = u) ∧
    exec (.scratchAccess none none) s = .next s

/-- The scrubber steps to the next word and changes no word's value: a correctable error is counted and mended, an uncorrectable one
counted and left (R441, R442). The bulk memory scrubber reads 8 words and steps through the capacity, a refresh takes up its rate, a
tracking check counts a moved eye and ends the wait after a rest, unless a training begins with it, a ZQ calibration changes nothing
(R448, R450, R451, R542). Training ends READY with the capacity of its density, and the writes that waited are made in order, or FAILED
with the lanes that failed and source 0x62; four alerts within 500,000 clocks raise source 0x61 (R444, R446, R449). -/
def Obligations.MemoryIsKeptUp : Prop :=
  (∀ (s : State), s.clocked = true →
      (∃ t, exec .scrubVisit s = .next t ∧ t.mem.scrubAddr = (s.mem.scrubAddr + 1) % 0x100000 ∧ (∀ y, t.scratchWord y = s.scratchWord y) ∧
        (∀ y, t.scratchBad y = if y = s.mem.scrubAddr ∧ s.scratchBad y = 1 then 0 else s.scratchBad y) ∧
        (s.scratchBad s.mem.scrubAddr = 0 → t = s.updMem fun m => { m with scrubAddr := (m.scrubAddr + 1) % 0x100000 }) ∧
        (s.scratchBad s.mem.scrubAddr = 1 → t.reg Key.SCRATCH_CE = (s.reg Key.SCRATCH_CE + 1) % 2 ^ keyWidth Key.SCRATCH_CE) ∧
        (∀ k, k ∉ [Key.SCRATCH_CE, Key.SCRATCH_UE, Key.SCRATCH_LAST_ERR] → t.reg k = s.reg k) ∧ t.mem.bulk = s.mem.bulk ∧ t.tabs = s.tabs) ∧
      (s.bmReady = true → s.reg Key.BM_SCRUB_INTERVAL ≠ 0 → ∃ t, exec .bmScrubRead s = .next t ∧
        t.mem.scrubBurst = (if s.reg Key.BM_CAPACITY ≤ s.mem.scrubBurst + 8 then 0 else s.mem.scrubBurst + 8) ∧
        (∀ y, t.bulkWord y = s.bulkWord y) ∧ t.mem.scratch = s.mem.scratch ∧ t.tabs = s.tabs ∧
        (∀ k, k ∉ [Key.BM_CE, Key.BM_UE, Key.BM_LAST_ERR, Key.BM_OUT_OF_RANGE] → t.reg k = s.reg k)) ∧
      (s.bmReady = false ∨ s.reg Key.BM_SCRUB_INTERVAL = 0 → exec .bmScrubRead s = .next s) ∧
      (s.bmReady = true → exec .bmRefresh s = .next (s.updMem fun m => { m with refresh := s.reg Key.BM_REFRESH })) ∧
      (s.bmReady = false → exec .bmRefresh s = .next s) ∧
      (∀ moved u, u = (if moved = true then s.inc Key.BM_TRACK_ADJ else s) → s.bmReady = true → s.trainsNow = false →
        (s.mem.checkDue = false → exec (.bmTrackCheck moved) s = .next u) ∧ (s.mem.checkDue = true → exec (.bmTrackCheck moved) s = .next u.bmServe)) ∧
      (∀ moved, s.bmReady = false ∨ s.trainsNow = true → exec (.bmTrackCheck moved) s = .next s) ∧ exec .bmZqShort s = .next s) ∧
  (∀ (s : State), s.clocked = true →
      (s.bmTraining = true → exec (.bmTrainingDone 0) s = .next ((((((s.setReg Key.BM_CONTROL 0).setReg Key.BM_STATE 2).setReg Key.BM_TRAIN_FAIL 0).setReg
        Key.BM_CAPACITY (bmCapacityOf s.mem.density)).bmServe).cause 0x62 0 false 0)) ∧
      (∀ u : State, u.mem.waiting = [] → ∃ t, u.bmServe = t ∧ t.mem = { u.mem with checkDue := false } ∧ (∀ k, t.reg k = u.reg k) ∧
        t.tabs = u.tabs ∧ t.ports = u.ports ∧ t.faults = u.faults) ∧
      (∀ (u : State) a w l, u.mem.waiting = (a, w) :: l → u.bmReady = true → u.mem.checkDue = false → a < u.reg Key.BM_CAPACITY →
        u.bmServe = ((u.putBulk a w).updMem fun m => { m with waiting := l }).bmServe) ∧
      (∀ fail : BitVec 10, s.bmTraining = true → fail ≠ 0 → ∃ t, exec (.bmTrainingDone fail) s = .next t ∧ t.reg Key.BM_STATE = 3 ∧
        t.reg Key.BM_TRAIN_FAIL = fail.toNat ∧ (t.src 0x62).causes.contains 0 = true ∧
        ((s.src 0x62).causes.contains 0 = false → t.faults.raised = s.faults.raised ++ [⟨0x62, 0, false⟩]) ∧
        t.reg Key.BM_CONTROL = 0 ∧ (∀ k, k ∉ [Key.BM_CONTROL, Key.BM_STATE, Key.BM_TRAIN_FAIL] → t.reg k = s.reg k) ∧ t.mem = { s.mem with waiting := [], checkDue := false } ∧
        t.tabs = s.tabs) ∧
      (∀ fail, s.bmTraining = false → exec (.bmTrainingDone fail) s = .next s) ∧
      (∀ l, l = s.clk :: s.mem.alerts.filter (fun t => decide (s.clk < t + 500000)) →
        (l.length < 4 → exec .bmAlert s = .next ((s.inc Key.BM_PAR_RETRY).updMem fun m => { m with alerts := l })) ∧
        (4 ≤ l.length → exec .bmAlert s = .next (((s.inc Key.BM_PAR_RETRY).updMem fun m => { m with alerts := [] }).raise 0x61 0))))

/-- A slot of a mover serves it once: its running channel makes at most one read, none past its share; a link is read first and takes no
slot (R461, R462). A read-back that fails makes the outcome BAD; a direct transfer ends with CH_STATUS; a descriptor ends with its status
through the bit-set window and its OWN through the bit-clear window, and the chain goes on, stops, or ends on a failed write; where port B
writes one of the two words on that clock the writes are tried again; a pausing channel is PAUSED, before a fetch with CH_CUR at the next
descriptor (R440, R459, R463–R466). -/
def Obligations.MoversRunAndComplete : Prop :=
  (∀ (s u : State) (m : Fin 4) (c : Nat), s.clocked = true →
      u = (s.updMover m fun x => { x with slot := some (s.ct / 72) }).selectMover m → c = u.moverChannel m →
      (s.slotDue m = false → exec (.dmaSlot m) s = .next s) ∧
      (s.slotDue m = true → c = 0xFF ∨ (u.dch c).st ≠ .running → exec (.dmaSlot m) s = .next u) ∧
      (∀ used, s.slotDue m = true → c ≠ 0xFF → (u.dch c).st = .running →
        used = (if (u.dch c).win = u.ct / 4608 then (u.dch c).used else 0) →
        ((u.dch c).pos = .run → u.dmaShare c ≤ used → exec (.dmaSlot m) s = .next u) ∧
        ((u.dch c).pos = .run → used < u.dmaShare c → exec (.dmaSlot m) s = .next
          (((u.updDch c fun r => { r with win := u.ct / 4608, used := used + 1 }).updDch c fun r => { r with begun := true }).dmaStep c)) ∧
        (∀ d, (u.dch c).pos = .fetch d → used < u.dmaShare c → exec (.dmaSlot m) s = .next
          ((u.updDch c fun r => { r with win := u.ct / 4608, used := used + 1 }).dmaFetch c d)) ∧
        ((u.dch c).pos = .readback ∨ (u.dch c).pos = .status → exec (.dmaSlot m) s = .next u) ∧
        (∀ d, (u.dch c).pos = .link d → ((u.dmaLink c d false).dch c).st ≠ .running → exec (.dmaSlot m) s = .next (u.dmaLink c d false)) ∧
        (∀ d, (u.dch c).pos = .link d → ((u.dmaLink c d false).dch c).st = .running → exec (.dmaSlot m) s = .next ((u.dmaLink c d false).dmaRead c)))) ∧
  (∀ (s : State) (ch : Fin 32), s.clocked = true →
      (∀ a r, (s.dch ch).pos = .readback → (s.dch ch).retry = [] → (s.dch ch).lastDst = some a → r = s.moverRead (if inScratch a then a % 0x100000 else a) →
        (r.2.isSome = true → exec (.dmaReadbackDone ch) s = .next (r.1.updDch ch fun r => { r with pos := .status })) ∧
        (r.2.isSome = false → exec (.dmaReadbackDone ch) s =
          .next (r.1.updDch ch fun r => { r with pos := .status, ending := 3, endErr := 2 }))) ∧
      ((s.dch ch).pos = .readback → (s.dch ch).retry = [] → (s.dch ch).lastDst = none → exec (.dmaReadbackDone ch) s =
        .next (s.updDch ch fun r => { r with pos := .status })) ∧
      ((s.dch ch).pos ≠ .readback ∨ (s.dch ch).retry ≠ [] → exec (.dmaReadbackDone ch) s = .next s) ∧
      ((s.dch ch).pos ≠ .status ∨ (s.dch ch).retry ≠ [] → exec (.dmaDescDone ch) s = .next s) ∧
      ((s.dch ch).pos = .status → (s.dch ch).retry = [] → s.reg (Key.CH_MODE ch) = 0 → exec (.dmaDescDone ch) s = .next
        (((s.dmaOutcome ch).updDch ch fun r => { r with st := .idle, pos := .none, late := false, stop := false }).selectMover (moverOf ch))) ∧
      ((s.dch ch).pos = .status → (s.dch ch).retry = [] → s.reg (Key.CH_MODE ch) ≠ 0 →
        s.portBHits (s.reg (Key.CH_CUR ch) + 3) = true ∨ s.portBHits (s.reg (Key.CH_CUR ch)) = true → exec (.dmaDescDone ch) s =
          .next (s.statusCollides ch (s.reg (Key.CH_CUR ch)))) ∧
      (∀ d w a b u, (s.dch ch).pos = .status → (s.dch ch).retry = [] → s.reg (Key.CH_MODE ch) ≠ 0 → d = s.reg (Key.CH_CUR ch) →
        s.portBHits (d + 3) = false → s.portBHits d = false →
        w = fld (s.dch ch).ending 2 70 + b2n (s.dch ch).late * 2 ^ 69 + fld (s.dch ch).endErr 2 67 +
          fld (min 16777215 (s.reg (Key.CH_DONE ch))) 24 40 →
        a = (s.updDch ch fun r => { r with tries := 0 }).moverWrite (d + 3 + 0x100000) w → b = a.1.moverWrite (d + 0x200000) (2 ^ 71) →
        u = (b.1.dmaOutcome ch).inc (Key.CH_DESC_DONE ch) →
        (a.2 = false → exec (.dmaDescDone ch) s = .next (a.1.chainError ch d)) ∧
        (a.2 = true → b.2 = false → exec (.dmaDescDone ch) s = .next (b.1.chainError ch d)) ∧
        (a.2 = true → b.2 = true → (s.dch ch).ending ≠ 2 → (s.dch ch).stop = false → exec (.dmaDescDone ch) s =
          .next (u.dmaLink ch d (s.dch ch).last)) ∧
        (a.2 = true → b.2 = true → (s.dch ch).ending = 2 ∨ (s.dch ch).stop = true → exec (.dmaDescDone ch) s = .next ((u.updDch ch fun r =>
          { r with st := .idle, pos := .none, after := decide ((s.dch ch).ending ≠ 2), late := false, stop := false }).selectMover (moverOf ch)))) ∧
      ((s.dch ch).st ≠ .pausing → exec (.dmaPauseDone ch) s = .next s) ∧
      (∀ d, (s.dch ch).st = .pausing → (s.dch ch).pos = .fetch d → exec (.dmaPauseDone ch) s = .next
        (((s.updDch ch fun r => { r with st := .paused }).setReg (Key.CH_CUR ch) d).selectMover (moverOf ch))) ∧
      ((s.dch ch).st = .pausing → (∀ d, (s.dch ch).pos ≠ .fetch d) → exec (.dmaPauseDone ch) s = .next
        ((s.updDch ch fun r => { r with st := .paused }).selectMover (moverOf ch))))

/-- A burst of a direct transfer within clean Scratch Banks, of which port B writes none meanwhile, copies its words in place and moves
CH_SRC, CH_DST, CH_COUNT and CH_DONE on by them; the last burst leaves the transfer to its status (R456, R464). -/
def Obligations.DirectBurstCopiesWords : Prop :=
  ∀ (s : State) (c src dst n : Nat), src = s.reg (Key.CH_SRC c) → dst = s.reg (Key.CH_DST c) → c < 32 → 1 ≤ n → n ≤ 32 →
    src + n ≤ 0x100000 → dst + n ≤ 0x100000 → src + n ≤ dst ∨ dst + n ≤ src → (∀ k < n, s.scratchBad (src + k) = 0) →
    (s.dch c).indexed = false → n ≤ s.reg (Key.CH_COUNT c) → s.reg (Key.CH_COUNT c) < 2 ^ 32 → s.reg Key.TRACE_MODE = 0 →
    (∀ k < n, s.portBHits (dst + k) = false) →
    ∃ t, s.dmaBurstMove c src n = t ∧ (∀ k < n, t.scratchWord (dst + k) = s.scratchWord (src + k)) ∧
      (∀ y, y < dst ∨ dst + n ≤ y → t.scratchWord y = s.scratchWord y) ∧ t.reg (Key.CH_SRC c) = src + n ∧ t.reg (Key.CH_DST c) = dst + n ∧
      t.reg (Key.CH_COUNT c) = s.reg (Key.CH_COUNT c) - n ∧
      t.reg (Key.CH_DONE c) = (s.reg (Key.CH_DONE c) + n) % 2 ^ keyWidth (Key.CH_DONE c) ∧
      (s.reg (Key.CH_COUNT c) ≠ n → (t.dch c).pos = (s.dch c).pos) ∧
      (s.reg (Key.CH_COUNT c) = n → (t.dch c).ending = 1 ∧ (t.dch c).endErr = 0 ∧
        (t.dch c).pos = if s.ident.part = .px7216 then .readback else .status) ∧
      t.mem.bulk = s.mem.bulk ∧ t.tabs = s.tabs ∧ t.ports = s.ports

/-! ## Faults, resets, Caldera, lifecycle, power, trace -/

/-- The raises of a cycle that stand set STATUS of their sources, one arrival a source: the first since FIRST_CLEAR is kept as
FIRST_FAULT, an injection that was pending is used, and the arrivals form the batch of their cycle, or are lost and counted while that of
an earlier cycle is being written; reactions wait for the clock's other commands, and are issued when none waits (R478, R480–R483, R488,
R495; log 22). -/
def Obligations.ArrivalsAreCollected : Prop :=
  ∀ (s : State) (rs : List RaiseIn) (l : List Raise), s.on = true →
    l = s.standing (s.faults.raised ++ rs.map fun r => ⟨r.src.val, r.detail.toNat, r.inj⟩) →
    (l = [] → exec (.faultArrival rs) s = .next (s.updFaults fun f => { f with raised := [] })) ∧
    (l ≠ [] → ∃ t, exec (.faultArrival rs) s = .next t ∧ (∀ r ∈ l, (t.src r.src).status = true) ∧ t.flag Key.FIRST_VALID = true ∧
      (s.flag Key.FIRST_VALID = true → t.reg (Key.FIRST_FAULT 0) = s.reg (Key.FIRST_FAULT 0) ∧
        t.reg (Key.FIRST_FAULT 1) = s.reg (Key.FIRST_FAULT 1)) ∧
      (s.flag Key.FIRST_VALID = false → ∃ r ∈ l, t.reg (Key.FIRST_FAULT 0) = fld s.ct 64 8 + fld r.src 8 0) ∧
      (l.any Raise.inj = true → t.reg Key.INJ_PENDING = 0xFF ∧ t.faults.injAt = none) ∧
      (s.batchBusy = false → t.faults.lostMark = false ∧ t.reg Key.HIST_LOST = s.reg Key.HIST_LOST ∧ ∃ b, t.faults.batch = some b ∧
        b.clk = s.clk ∧ b.written = false ∧ b.entries.length = (l.map Raise.src).dedup.length) ∧
      (∀ b, s.faults.batch = some b → b.clk = s.clk → t.reg Key.HIST_LOST = s.reg Key.HIST_LOST ∧ ∃ es, t.faults.batch = some ⟨s.clk, b.entries ++ es, false⟩ ∧
        es.length = (l.map Raise.src).dedup.length) ∧
      (s.batchLate = true → t.faults.lostMark = true ∧ t.faults.batch = s.faults.batch ∧
        t.reg Key.HIST_LOST = (s.reg Key.HIST_LOST + (l.map Raise.src).dedup.length) % 2 ^ keyWidth Key.HIST_LOST) ∧
      (s.pending = [] → t.faults.now = []) ∧
      (s.pending ≠ [] → t.faults.now.length = s.faults.now.length + (l.map Raise.src).dedup.length ∧ t.faults.resets = s.faults.resets ∧
        t.out = s.out ∧ t.ports = s.ports))

/-- On the fourth cycle of a batch its entries are in the ring, at their entry numbers modulo 16, and HIST_COUNT has advanced by them; not
before, and once only (R482). An injection that has stood 1 s of chain time unused expires (R495). FAULT_CLEAR of a source clears its
STATUS, its escalation and its window, and nothing of another source; an arrival of the same clock wins; 0xFFFF clears what a single clear
would (R492). HIST_CLEAR empties every entry, or waits for the batch write in progress, and keeps HIST_COUNT and HIST_LOST (R485).
FIRST_CLEAR clears FIRST_VALID, and acts before the arrivals of its clock (R481). -/
def Obligations.HistoryAndClearing : Prop :=
  (∀ (s : State), s.on = true →
      (∀ b, s.faults.batch = some b → b.written = false → b.clk + 3 ≤ s.clk → ∃ t, exec .histBatchWrite s = .next t ∧
        t.reg Key.HIST_COUNT = (s.reg Key.HIST_COUNT + b.entries.length) % 2 ^ keyWidth Key.HIST_COUNT ∧
        t.faults.batch = some { b with written := true } ∧ t.mem = s.mem ∧ t.tabs = s.tabs ∧ t.ports = s.ports ∧
        (∀ j e, b.entries[j]? = some e → b.entries.length ≤ j + 16 →
          t.reg (Key.HISTORY (2 * ((s.reg Key.HIST_COUNT + j) % 16))) = e.1 % 2 ^ 72 ∧
          t.reg (Key.HISTORY (2 * ((s.reg Key.HIST_COUNT + j) % 16) + 1)) = e.2 % 2 ^ 72) ∧
        (∀ k, k ≠ Key.HIST_COUNT → (∀ i < 32, k ≠ Key.HISTORY i) → t.reg k = s.reg k)) ∧
      (∀ b, s.faults.batch = some b → b.written = true ∨ s.clk < b.clk + 3 → exec .histBatchWrite s = .next s) ∧
      (s.faults.batch = none → exec .histBatchWrite s = .next s) ∧
      (s.injDue = true → exec .injectExpire s = .next
        (((s.setReg Key.INJ_PENDING 0xFF).inc Key.INJ_EXPIRED).updFaults fun f => { f with injAt := none })) ∧
      (s.injDue = false → exec .injectExpire s = .next s)) ∧
  (∀ (s : State),
      (∀ k < 256, (∀ a, (s.src k).lastArr = some a → a.1 ≠ s.clk) → ((s.faultClear k).src k).status = false ∧
        (s.faultClear k).srcClass k = srcBase k ∧ ((s.faultClear k).src k).winOpen = false ∧
        ((s.faultClear k).src k).latched = (s.src k).latched ∧ (∀ j, j ≠ k → (s.faultClear k).src j = s.src j) ∧
        (s.faultClear k).regs = s.regs) ∧
      (∀ k < 256, ∀ real, (s.src k).lastArr = some (s.clk, real) → ((s.faultClear k).src k).status = (s.src k).status ∧
        (s.faultClear k).srcClass k = srcBase k ∧ ((s.faultClear k).src k).winOpen = real ∧
        ((s.faultClear k).src k).winCount = b2n real) ∧
      (∀ k < 256, ((s.faultClear 0xFFFF).src k) = if s.clearable k = true then (State.clearSrc k s).src k else s.src k) ∧
      (s.batchBusy = false → (∀ k < 32, s.histClear.reg (Key.HISTORY k) = 0) ∧ s.histClear.faults.clearWait = false ∧
        (∀ k, (∀ i < 32, k ≠ Key.HISTORY i) → s.histClear.reg k = s.reg k)) ∧
      (s.batchBusy = true → s.histClear.faults.clearWait = true ∧ s.histClear.regs = s.regs) ∧
      ((∀ e, s.faults.firstNow = some e → e.1 ≠ s.clk) → s.firstClear.flag Key.FIRST_VALID = false ∧
        ∀ k, k ≠ Key.FIRST_VALID → s.firstClear.reg k = s.reg k) ∧
      (∀ w0 w1, s.faults.firstNow = some (s.clk, w0, w1) → s.firstClear.flag Key.FIRST_VALID = true ∧
        s.firstClear.reg (Key.FIRST_FAULT 0) = w0 % 2 ^ 72 ∧ s.firstClear.reg (Key.FIRST_FAULT 1) = w1 % 2 ^ 72 ∧
        ∀ k, k ∉ [Key.FIRST_VALID, Key.FIRST_FAULT 0, Key.FIRST_FAULT 1] → s.firstClear.reg k = s.reg k))

/-- A block reset that a reaction asks for waits for the record; one that cuts first sets the fire inhibit and waits until every port is
DISARMED (R488, R562–R564). What block resets discard and keep: the Dictionary Server, chain ports, Position Base, Line Scheduler, TAP,
Scratch Bank and mover rows (R63, R470, R563). -/
def Obligations.BlockResets : Prop :=
  (∀ (s : State) (src b : Nat), s.on = true → src < 256 → b = blockOf src →
      (s.boot.blocks.contains b = true → s.armed = true → exec (.blockReset src) s = .next s) ∧
      (s.boot.blocks.contains b = true → s.armed = false → exec (.blockReset src) s = .next ((s.resetMet b).resetBlock b)) ∧
      (s.boot.blocks.contains b = false → s.blockAsked b = false → exec (.blockReset src) s = .next s) ∧
      (s.boot.blocks.contains b = false → s.blockAsked b = true → cutsFirst b = false →
        exec (.blockReset src) s = .next ((s.resetMet b).resetBlock b)) ∧
      (s.boot.blocks.contains b = false → s.blockAsked b = true → cutsFirst b = true → s.fireInhibit.armed = true → exec (.blockReset src) s =
        .next ((s.fireInhibit.resetMet b).updBoot fun x => { x with blocks := b :: x.blocks })) ∧
      (s.boot.blocks.contains b = false → s.blockAsked b = true → cutsFirst b = true → s.fireInhibit.armed = false →
        exec (.blockReset src) s = .next ((s.fireInhibit.resetMet b).resetBlock b))) ∧
  (∀ (s : State),
      ((s.resetBlock 0x15).dict.fw = [] ∧ (s.resetBlock 0x15).dict.wordWait = [] ∧ (s.resetBlock 0x15).reg Key.SEAL_LAST = s.reg Key.SEAL_LAST ∧
        (∀ g, 1 ≤ g → g < 16 → ((s.resetBlock 0x15).group g).st ≠ .opened ∧ ((s.resetBlock 0x15).group g).st ≠ .poisoned) ∧
        (∀ g, (s.group g).st = .closed → ((s.resetBlock 0x15).group g) = s.group g) ∧
        (∀ k < 4, ((s.resetBlock 0x15).sess k).st ≠ .opened)) ∧
      ((s.resetBlock 0x18).link.seqHi = none ∧ (s.resetBlock 0x18).link.seqSeen = [] ∧ (s.resetBlock 0x18).link.posSeq = [] ∧ (s.resetBlock 0x18).reg Key.LINK_DELAY_U = 0 ∧ (s.resetBlock 0x18).reg Key.LINK_DELAY_D = 0) ∧
      ((s.resetBlock 0x20).pos.pending = 0 ∧ (s.resetBlock 0x20).pos.tValid = false ∧ (s.resetBlock 0x20).pos.pos = s.pos.pos ∧
        (s.resetBlock 0x20).reg Key.POS_LOCAL_VALID = s.reg Key.POS_LOCAL_VALID ∧
        (s.resetBlock 0x20).pos.ref = (if s.refKind = 0 then .off else .seeking)) ∧
      ((s.resetBlock 0x2C).reg Key.GRID_ENABLE = 0 ∧ (s.resetBlock 0x2C).grid.queue = [] ∧ (s.resetBlock 0x2C).gpo = 0 ∧ (s.resetBlock 0x2C).camTrig = 0 ∧
        (∀ c < 32, bit ((s.resetBlock 0x2C).reg (Key.CMP_CTRL c)) 0 = false ∧ ((s.resetBlock 0x2C).cmp c).armed = false)) ∧
      ((s.resetBlock 0x16).tap = {}) ∧ ((s.resetBlock 0x5C).mem.scrubAddr = 0 ∧ (s.resetBlock 0x5C).mem.scratch = s.mem.scratch) ∧
      (∀ m < 4, ∀ c < 32, (c / 8 = m → ((s.resetBlock (0x64 + m)).dch c).st = .idle ∧ (∀ d, (s.dch c).pos = .fetch d ∨ (s.dch c).pos = .link d →
          (s.resetBlock (0x64 + m)).reg (Key.CH_CUR c) = d % 2 ^ keyWidth (Key.CH_CUR c))) ∧
        (c / 8 ≠ m → (s.resetBlock (0x64 + m)).dch c = s.dch c)))

/-- RESET_N cuts every port and takes hold when all are DISARMED; what it keeps is the history, FIRST_FAULT, the latched Grave sources
with the fire inhibit, the counts that R565 names, Scratch Banks 0 to 13, and every burned or stored bit (R493, R494, R560, R561, R565).
The end of a chip reset and a power-on reset run start-up, which completes half-burned pairs; a power-on reset notes the last Grave source
in GRAVE_PRIOR unless VAON was lost, and leaves SHELF only when supplied; WAKE_N in SHELF, or in the entry to it, wakes the unit; a
missing REFCLK is source 0x05; start-up is complete when training and the Caldera start have ended, and leaves READY (R493, R529, R543,
R545, R555–R557, R567). -/
def Obligations.ChipResetAndStartUp : Prop :=
  (∀ (s u : State), s.on = true → u = (if s.boot.cutting then s else s.forEach (List.range s.nPorts) (State.cutPort 6 false)) →
      (u.armed = true → exec .chipReset s = .next (u.updBoot fun x => { x with cutting := true })) ∧
      (u.armed = false → ∃ t, exec .chipReset s = .next t ∧ t.boot.phase = .held ∧ t.mgmt.restartDue = some 1 ∧
        (∀ k ∈ keptKeys, t.reg k = u.reg k % 2 ^ keyWidth k) ∧
        (∀ k, k ∉ keptKeys → k ≠ Key.LIFECYCLE → k ≠ Key.FIRE_INHIBIT → t.reg k = (regDefault k).toNat) ∧
        t.reg Key.LIFECYCLE = lifeOf u.otp.pairs ∧
        (∀ k < 256, (u.src k).latched = true → (t.src k).latched = true ∧ (t.src k).status = true) ∧
        (∀ k < 256, (u.src k).latched = false → t.src k = {}) ∧
        (t.reg Key.FIRE_INHIBIT = b2n ((List.range 256).any fun k => (u.src k).latched)) ∧
        (∀ x < 0xE0000, t.scratchWord x = u.scratchWord x) ∧ t.otp = u.otp ∧ t.otp2 = u.otp2 ∧ t.nor = u.nor ∧ t.link = {} ∧ t.ports = [] ∧
        t.dict = {} ∧ t.pos = {} ∧ t.grid = {}) ∧
      exec .tapReset s = .next { s with tap := {} }) ∧
  (∀ (s : State),
      (s.boot.phase = .held → exec .chipResetRelease s = .next s.startUp) ∧
      (s.boot.phase ≠ .held → exec .chipResetRelease s = .next s) ∧
      (s.boot.phase = .shelf → s.power.pwrEn = false → exec (.powerOnReset false) s = .next s) ∧
      (∀ lost, s.boot.phase ≠ .shelf ∨ s.power.pwrEn = true ∨ lost = true → ∃ t, exec (.powerOnReset lost) s = .next t ∧
        t.boot.phase = .starting ∧ t.mgmt.restartDue = some 0 ∧ t.otp.pairs = (completePairs s.otp.pairs) ∧
        (∀ k, (t.src k).status = false ∧ (t.src k).latched = false) ∧
        (lost = false → t.reg Key.GRAVE_PRIOR = s.faults.lastGrave.getD 0xFF % 256 ∧
          t.reg Key.SHELF_COUNT = s.reg Key.SHELF_COUNT % 2 ^ keyWidth Key.SHELF_COUNT ∧ t.mgmt.actPending = s.mgmt.actPending) ∧
        (lost = true → t.reg Key.GRAVE_PRIOR = 0xFF ∧ t.reg Key.SHELF_COUNT = 0 ∧ t.mgmt.actPending = false ∧ t.aonTime = 0) ∧
        t.mem.scratch = [] ∧ t.mem.bulk = [] ∧ t.ports = [] ∧ t.nor.log = s.nor.log ∧ t.nor.commits = s.nor.commits) ∧
      (s.boot.phase = .starting → exec .refclkWaitTimeout s = .next ((s.setRegBit Key.CLOCK_STATUS 1 true).cause 0x05 0 true 0)) ∧
      (s.boot.phase ≠ .starting → exec .refclkWaitTimeout s = .next s ∧ exec .startupComplete s = .next s) ∧
      (s.boot.phase = .starting → 2 ≤ s.reg Key.BM_STATE → s.reg Key.CALDERA_STATE = 2 ∨ s.reg Key.CALDERA_STATE = 3 →
        exec .startupComplete s = .next ((s.updBoot fun x => { x with phase := .running }).setReg Key.POWER_STATE 1)) ∧
      (s.boot.phase = .starting → s.reg Key.BM_STATE < 2 ∨ s.reg Key.CALDERA_STATE < 2 → exec .startupComplete s = .next s) ∧
      (s.boot.phase = .shelf → exec .shelfWake s = .next ((s.updPower fun p => { p with pwrEn := true }).setReg Key.WAKE_CAUSE 3)) ∧
      (s.boot.phase ≠ .shelf → s.powerDue = true → s.power.req.any (fun e => e.1 == 4) = true →
        exec .shelfWake s = .next (s.updPower fun p => { p with woken := true })) ∧
      (s.boot.phase ≠ .shelf → s.powerDue = false ∨ s.power.req.any (fun e => e.1 == 4) = false → exec .shelfWake s = .next s))

/-- Each cause of a restart that is due begins it: CALDERA_STATE BOOTING, the cause, one more restart, and what firmware held is gone; no
other block is touched. The watchdog is source 0x11, once firmware has run WDT_PERIOD (R504–R506). The boot ROM establishes the seal
floor, then runs a recovered image, or the bank that the commit records choose, or halts with source 0x14; a floor that cannot be
established is source 0x14 too (R136, R505, R509, R521, R539). Rails and clocks are conditions with a status bit each; Caldera stops while
its PLL is unlocked and restarts with cause 8 (R507, R508). A trial that outlasts TRIAL_TIMEOUT is aborted with DETAIL 2 (R524). -/
def Obligations.CalderaRestartsAndBoots : Prop :=
  (∀ (s : State) (c : RestartCause) (n : Nat), s.on = true →
      (c, n) ∈ [(RestartCause.powerOn, 0), (.chipReset, 1), (.watchdog, 2), (.blockReset, 3), (.activate, 5), (.abort, 6), (.recover, 7),
        (.clock, 8)] →
      (s.mgmt.restartDue ≠ some n ∨ s.calderaClocked = false → exec (.calderaRestart c) s = .next s) ∧
      (s.mgmt.restartDue = some n → s.calderaClocked = true → ∃ t, exec (.calderaRestart c) s = .next t ∧ t.reg Key.CALDERA_STATE = 1 ∧
        t.reg Key.RESTART_CAUSE = n ∧ t.reg Key.CALDERA_RESTARTS = (s.reg Key.CALDERA_RESTARTS + 1) % 2 ^ keyWidth Key.CALDERA_RESTARTS ∧
        t.mgmt.restartDue = none ∧ t.mgmt.queue = [] ∧ t.dict.fw = [] ∧ (n ≠ 7 → t.mgmt.image = none) ∧
        (∀ k, k ∉ bookKeys → k ∉ [Key.CALDERA_STATE, Key.RESTART_CAUSE, Key.CALDERA_RESTARTS, Key.BCAST_REFUSED, Key.BCAST_LAST_STATUS] →
          t.reg k = s.reg k) ∧
        t.ports = s.ports ∧ t.pos = s.pos ∧ t.grid = s.grid ∧ t.mem = s.mem ∧ t.tabs = s.tabs ∧ t.dma = s.dma ∧ t.cals = s.cals ∧
        t.cams = s.cams ∧ t.loop = s.loop ∧ t.nor = s.nor ∧ t.otp = s.otp) ∧
      (s.calderaUp = true ∨ s.mgmt.hostAt = some s.clk → s.mgmt.wdtFrom + 500000 * s.reg Key.WDT_PERIOD ≤ s.clk →
        exec .wdtExpire s = .next ((s.updMgmt fun m => { m with wdtAt := some s.clk }).raise 0x11 0)) ∧
      (s.calderaUp = false ∧ s.mgmt.hostAt ≠ some s.clk ∨ s.clk < s.mgmt.wdtFrom + 500000 * s.reg Key.WDT_PERIOD → exec .wdtExpire s = .next s)) ∧
  (∀ (s u v : State), s.on = true → u = s.bootFloor → v = (u.reportBank 0).reportBank 1 →
      (s.reg Key.CALDERA_STATE ≠ 1 ∨ s.calderaClocked = false → exec .calderaRunning s = .next s) ∧
      (∀ img, s.reg Key.CALDERA_STATE = 1 → s.calderaClocked = true → u.mgmt.image = some img → exec .calderaRunning s = .next
        ((if u.reg Key.SEAL_FLOOR = 0 then u.raise 0x14 1 else u).firmwareStart 0xFF (hdr32 img 12) (hdr32 img 8) false)) ∧
      (s.reg Key.CALDERA_STATE = 1 → s.calderaClocked = true → u.mgmt.image = none → u.nor.ok = false →
        exec .calderaRunning s = .next (u.haltCaldera 0)) ∧
      (∀ w, s.reg Key.CALDERA_STATE = 1 → s.calderaClocked = true → u.mgmt.image = none → u.nor.ok = true → v.pickBank = (w, none) →
        exec .calderaRunning s = .next (w.haltCaldera 2)) ∧
      (∀ w b trial, s.reg Key.CALDERA_STATE = 1 → s.calderaClocked = true → u.mgmt.image = none → u.nor.ok = true →
        v.pickBank = (w, some (b, trial)) → exec .calderaRunning s = .next (w.firmwareStart b (w.bankVersion b) (w.bankSvn b) trial))) ∧
  (∀ (s : State) (r : Fin 9) (c : Fin 5), s.on = true →
      exec (.railTrip r) s = .next ((s.setRegBit Key.RAIL_STATUS r true).cause (railSource r) 0 true 0) ∧
      exec (.railRecover r) s = .next ((s.setRegBit Key.RAIL_STATUS r false).cause (railSource r) 0 false 0) ∧
      (c.val ≠ 4 → exec (.clockFail c) s = .next ((s.setRegBit Key.CLOCK_STATUS c true).cause (clockSource c) 0 true 0)) ∧
      (c.val = 4 → exec (.clockFail c) s = .next
        ((((s.setRegBit Key.CLOCK_STATUS c true).cause (clockSource c) 0 true 0).fwDown).setReg Key.CALDERA_STATE 0)) ∧
      (bit (s.reg Key.CLOCK_STATUS) c = false → exec (.clockRecover c) s = .next s) ∧
      (bit (s.reg Key.CLOCK_STATUS) c = true → c.val ≠ 4 → exec (.clockRecover c) s = .next
        ((s.setRegBit Key.CLOCK_STATUS c false).cause (clockSource c) 0 false 0)) ∧
      (bit (s.reg Key.CLOCK_STATUS) c = true → c.val = 4 → exec (.clockRecover c) s = .next
        (((s.setRegBit Key.CLOCK_STATUS c false).cause (clockSource c) 0 false 0).updMgmt fun m => { m with restartDue := some 8 })) ∧
      (s.trialOver = true → exec .trialTimeout s = .next (s.abortUpdate 2)) ∧ (s.trialOver = false → exec .trialTimeout s = .next s))

/-- Firmware programs one record a time: nothing while it is down, source 0x14 where the flash does not answer, an anchor that is due
before the queue's oldest record, and after a loss one record that tells it (R509, R511–R515). -/
def Obligations.LogRecordsAreProgrammed : Prop :=
  ∀ (s : State), s.on = true →
    (s.calderaUp = false → exec .logProgram s = .next s) ∧
    (s.calderaUp = true → s.nor.ok = false → exec .logProgram s = .next (s.raise 0x14 4)) ∧
    (s.calderaUp = true → s.nor.ok = true → s.mgmt.anchorDue = true → s.canSign = true → ∃ t, exec .logProgram s = .next t ∧
      t.nor = s.nor.program s.anchorBytes ∧ t.mgmt = { s.mgmt with anchorDue := false, since := 0 } ∧ t.free = s.free + 1 ∧
      (∀ k, k ≠ Key.EVENT_LOST → t.reg k = s.reg k) ∧ t.mem = s.mem ∧ t.tabs = s.tabs ∧ t.ports = s.ports) ∧
    (s.calderaUp = true → s.nor.ok = true → s.mgmt.anchorDue = false ∨ s.canSign = false →
      (s.mgmt.queue = [] → exec .logProgram s = .next s) ∧
      (∀ r rest, s.mgmt.queue = r :: rest → ∃ t, exec .logProgram s = .next t ∧
        t.nor = { s.nor.program (logBytes s.nor.next r 0 (s.nor.prevHash s.nor.next)) with hist := r.mark.getD s.nor.hist } ∧
        t.mgmt.since = s.mgmt.since + 1 ∧
        t.mgmt.anchorDue = (s.mgmt.anchorDue || decide (s.reg Key.LOG_ANCHOR_EVERY ≤ s.mgmt.since + 1)) ∧
        (s.mgmt.owed = 0 → t.mgmt.queue = rest ∧ t.mgmt.owed = 0) ∧
        (0 < s.mgmt.owed → rest.length < 256 → t.mgmt.owed = 0 ∧
          t.mgmt.queue = rest ++ [⟨s.ct, 0x07, 0, beBytes 4 s.mgmt.owed, none⟩]) ∧
        (∀ k, k ≠ Key.EVENT_LOST → t.reg k = s.reg k) ∧ t.mem = s.mem ∧ t.tabs = s.tabs ∧ t.ports = s.ports)) ∧
    exec .otpScan s = .next s.otpCompare

/-- The table of boundary-scan instructions and lifecycle states; a listed one that is refused acts as BYPASS, is counted and raises
source 0x16; one not listed acts as BYPASS (R536–R538, R552); EXTEST, CLAMP and HIGHZ are refused while firing is armed (R576). LC_ADVANCE
and LC_RETIRE (R530, R534). PROVISION burns a field once, in its lifecycle state; with K_cmd the sequence numbers start again; K_log is
generated by the unit (a free value, log 12); RECOVER takes a verified image and restarts with cause 7, or reports the check that failed
(R137, R518, R532, R537–R539). -/
def Obligations.BoundaryScanAndKeys : Prop :=
  (∀ (s : State) (op : BitVec 8), s.on = true →
      (jtagListed op.toNat = false → exec (.jtagInstruction op) s = .next { s with tap := ⟨0xFF, false⟩ }) ∧
      (jtagListed op.toNat = true → s.jtagAllows op.toNat = true → exec (.jtagInstruction op) s = .next { s with tap := ⟨op.toNat, false⟩ }) ∧
      (jtagListed op.toNat = true → s.jtagAllows op.toNat = false → exec (.jtagInstruction op) s = .next s.jtagRefuse) ∧
      (s.reg Key.POWER_STATE < 2 → s.reg Key.LIFECYCLE < 5 →
        (s.jtagAllows 0x02 = true) ∧ (s.jtagAllows 0x43 = true ↔ s.reg Key.LIFECYCLE ∈ [0, 1, 4]) ∧
        (∀ o ∈ [0x03, 0x04, 0x05], s.jtagAllows o = true ↔ s.reg Key.LIFECYCLE ∈ [0, 1, 4] ∧ s.armed = false) ∧
        (s.jtagAllows 0x40 = true ↔ s.reg Key.LIFECYCLE = 0) ∧ (s.jtagAllows 0x41 = true ↔ s.reg Key.LIFECYCLE ≤ 1) ∧
        (s.jtagAllows 0x44 = true ↔ s.reg Key.LIFECYCLE ≤ 1) ∧
        (s.jtagAllows 0x42 = true ↔ s.reg Key.LIFECYCLE = 1 ∨ 2 ≤ s.reg Key.LIFECYCLE ∧ s.reg Key.CALDERA_STATE = 3)) ∧
      (s.jtagAllows 0xFF = true ∧ s.jtagAllows 0x01 = true) ∧
      (s.reg Key.POWER_STATE < 2 → s.reg Key.LIFECYCLE = 0 → s.otp.vendor.isSome = true → exec .lcAdvance s = .next (s.lifeTo 1)) ∧
      (s.reg Key.LIFECYCLE ≠ 0 ∨ s.otp.vendor = none → exec .lcAdvance s = .next s.jtagRefuse) ∧
      (s.reg Key.POWER_STATE < 2 → s.reg Key.LIFECYCLE ≤ 1 → exec .lcRetire s = .next s.retire) ∧
      (1 < s.reg Key.LIFECYCLE → exec .lcRetire s = .next s.jtagRefuse)) ∧
  (∀ (s : State) (field : Nat) (data : BitVec 256), s.on = true → s.reg Key.POWER_STATE < 2 →
      (s.reg Key.LIFECYCLE = 0 → s.otp.vendor = none → exec (.provision 1 data) s = .next (s.burn fun o => { o with vendor := some data.toNat })) ∧
      (s.reg Key.LIFECYCLE = 1 → s.otp.kcmd.headD none = none → exec (.provision 2 data) s =
        .next (s.burn fun o => { o with kcmd := some (data.toNat % 2 ^ 128) :: o.kcmd.tail }).sealRestart) ∧
      (s.sealRestart.reg Key.SEAL_LAST = 0 ∧ s.sealRestart.reg Key.SEAL_FLOOR = 1024 ∧ s.sealRestart.dict.floorWrite = none ∧
        (s.nor.ok = true → s.sealRestart.nor.floor = some 1024) ∧ s.sealRestart.otp = s.otp) ∧
      (s.reg Key.LIFECYCLE = 1 → s.otp.ktrace = none → exec (.provision 3 data) s =
        .next (s.burn fun o => { o with ktrace := some (data.toNat % 2 ^ 128) })) ∧
      (s.reg Key.LIFECYCLE = 1 → s.otp.klog = none → ∃ k t, exec (.provision 4 data) s = .next t ∧ 1 ≤ k ∧ k < ecN ∧
        t = { s.burn fun o => { o with klog := some k } with free := s.free + 1 }) ∧
      ((field, s.reg Key.LIFECYCLE) ∉ [(1, 0), (2, 1), (3, 1), (4, 1)] ∨ field = 1 ∧ s.otp.vendor.isSome = true ∨
        field = 2 ∧ (s.otp.kcmd.headD none).isSome = true ∨ field = 3 ∧ s.otp.ktrace.isSome = true ∨ field = 4 ∧ s.otp.klog.isSome = true →
        exec (.provision field data) s = .next s.jtagRefuse) ∧
      (∀ (image : List (BitVec 8)) l c, l = image.map BitVec.toNat → c = s.imageCheck l.length (fun off n => (l.drop off).take n) →
        (s.jtagAllows 0x42 = false → exec (.recover image) s = .next s.jtagRefuse) ∧
        (s.jtagAllows 0x42 = true → c = 0 → exec (.recover image) s =
          .next (s.updMgmt fun m => { m with image := some l, restartDue := some 7 })) ∧
        (s.jtagAllows 0x42 = true → c ≠ 0 → exec (.recover image) s = .next (s.updateResult 3 c (hdr32 l 8)))))

/-- A change of power state that is due is judged when its clock ends: to the present state it is DONE at once; while firing is armed it
is REFUSED_ARMED; from RUN it first ends frames and calibrations and waits for RESTORED; then the state is entered: DOZE and SLEEP with
the grid off and the local position invalid (R348, R379, R541–R543, R545; log 22). An enabled source wakes a unit from DOZE or SLEEP, the
D port from DOZE alone; at the instant of entry the wake wins and the request reads WOKEN; a source that is off, or a unit awake with no
such change, is left alone (R540, R542, R544, R545). The return makes the unit READY, with 1 ms in which no loss of broadcasts is judged,
nor before one has been accepted (R29, R542). A trace frame is the oldest record, 44 nibbles with its number, sealed where its session is;
the records of a clock are queued when it ends, after them the loss that a queue with room again tells; a sample puts a record of each of
the 16 counters (R548–R551). -/
def Obligations.PowerTraceAndWake : Prop :=
  (∀ (s : State), s.on = true →
      (s.pending ≠ [] → exec .powerChange s = .next (s.updPower fun p => { p with now := true })) ∧
      (s.pending = [] → s.powerDue = false → exec .powerChange s = .next s) ∧
      (∀ v at_, s.pending = [] → s.powerDue = true → s.power.req = some (v, at_) →
        (v = s.reg Key.POWER_STATE → exec .powerChange s = .next (s.powerEnd 1)) ∧
        (v ≠ s.reg Key.POWER_STATE → s.armed = true → exec .powerChange s = .next (s.powerEnd 2)) ∧
        (v ≠ s.reg Key.POWER_STATE → s.armed = false →
          (s.reg Key.POWER_STATE = 0 → s.power.leaving = false → s.leaveRun.allRestored = false →
            exec .powerChange s = .next s.leaveRun) ∧
          (s.reg Key.POWER_STATE = 0 → s.power.leaving = true → s.allRestored = false → exec .powerChange s = .next s) ∧
          (∀ u, u = (if s.reg Key.POWER_STATE = 0 ∧ s.power.leaving = false then s.leaveRun else s) →
            s.reg Key.POWER_STATE ≠ 0 ∨ u.allRestored = true →
            (v = 0 → ∃ t, exec .powerChange s = .next t ∧ t.regs = ((u.powerEnd 1).setReg Key.POWER_STATE 0).regs ∧
              (∀ c < 2, t.cam c = { u.cam c with quietFrom := u.ct }) ∧ t.ports = u.ports ∧ t.mem = u.mem ∧ t.tabs = u.tabs) ∧
            (v = 1 → exec .powerChange s = .next ((u.powerEnd 1).setReg Key.POWER_STATE 1)) ∧
            (v = 2 ∨ v = 3 → exec .powerChange s = .next ((u.powerEnd 1).enterRest v)) ∧
            (v = 4 → exec .powerChange s = .next (u.powerEnd 1).enterShelf)))) ∧
      (∀ v, v = 2 ∨ v = 3 → (s.enterRest v).reg Key.POWER_STATE = v ∧ (s.enterRest v).reg Key.GRID_ENABLE = 0 ∧
        (s.enterRest v).reg Key.POS_LOCAL_VALID = 0 ∧ (v = 3 → (s.enterRest v).link.ctValid = false)) ∧
      (s.enterShelf.boot.phase = .shelf ∧ s.enterShelf.power.pwrEn = s.power.woken ∧ (s.power.woken = true → s.enterShelf.reg Key.WAKE_CAUSE = 3))) ∧
  (∀ (s : State) (source : Nat), s.on = true →
      (s.wakeOk source = false → exec (.wake source) s = .next s) ∧
      (s.wakeOk source = true → 2 ≤ s.reg Key.POWER_STATE → exec (.wake source) s = .next ((s.setReg Key.WAKE_CAUSE source).wakeUp)) ∧
      (1 ≤ source → source ≤ 3 → (s.wakeOk source = true ↔
        bit (s.reg Key.WAKE_ENABLE) (source - 1) = true ∧ ¬ (s.reg Key.POWER_STATE = 3 ∧ source = 2))) ∧
      (∀ v at_ u, s.wakeOk source = true → s.reg Key.POWER_STATE < 2 → s.powerDue = true → s.armed = false → s.power.req = some (v, at_) →
        u = (if s.reg Key.POWER_STATE = 0 ∧ s.power.leaving = false then s.leaveRun else s) →
        ((v = 2 ∨ v = 3) → s.reg Key.POWER_STATE = 1 ∨ u.allRestored = true →
          exec (.wake source) s = .next (((u.powerEnd 3).setReg Key.POWER_STATE 1).setReg Key.WAKE_CAUSE source)) ∧
        ((v ≠ 2 ∧ v ≠ 3) ∨ s.reg Key.POWER_STATE = 0 ∧ u.allRestored = false → exec (.wake source) s = .next s)) ∧
      (s.wakeOk source = true → s.reg Key.POWER_STATE < 2 → s.powerDue = false ∨ s.armed = true → exec (.wake source) s = .next s) ∧
      (s.wakeUp.reg Key.POWER_STATE = 1 ∧ s.wakeUp.recv.judging = false ∧ s.wakeUp.recv.accepted = false ∧
        s.wakeUp.power.quietTo = s.clk + 500000 ∧ s.wakeUp.pos.pos = 0 ∧ s.wakeUp.pos.newRole = s.pos.newRole)) ∧
  (∀ (s : State), s.clocked = true →
      (s.trace.queue = [] → exec .traceFrame s = .next s) ∧
      (∀ e rest, s.trace.queue = e :: rest → ∃ t f, exec .traceFrame s = .next t ∧ t.out = .trace f :: s.out ∧ f.length = 44 ∧
        f.take 4 = [0xA, 5, 5, 0xA] ∧ (f.drop 4).take 8 = nibbles 8 (e.no % 2 ^ 32) ∧
        t.reg Key.TRACE_RECORDS = (s.reg Key.TRACE_RECORDS + 1) % 2 ^ keyWidth Key.TRACE_RECORDS ∧
        (e.sealed = false → f.drop 12 = nibbles 32 e.rec_) ∧ t.trace = { s.trace with queue := rest } ∧
        (∀ k, k ≠ Key.TRACE_RECORDS → t.reg k = s.reg k) ∧ t.mem = s.mem ∧ t.tabs = s.tabs ∧ t.ports = s.ports) ∧
      (s.trace.lossOwed = 0 → s.trace.queue.length + s.trace.now.length ≤ 1024 → s.traceEnd.trace.now = [] ∧
        s.traceEnd.trace.queue.length = s.trace.queue.length + s.trace.now.length ∧ s.traceEnd.trace.recNo = s.trace.recNo + s.trace.now.length ∧
        s.traceEnd.trace.queue.take s.trace.queue.length = s.trace.queue) ∧
      (s.trace.lossOwed = 0 → s.trace.queue.length ≤ 1024 → 1024 < s.trace.queue.length + s.trace.now.length →
        s.traceEnd.trace.queue.length = 1024 ∧ s.traceEnd.trace.lossOwed = s.trace.queue.length + s.trace.now.length - 1024) ∧
      (s.trace.lossOwed ≠ 0 → s.trace.now = [] → s.trace.queue.length < 1024 → s.traceEnd.trace.lossOwed = 0 ∧
        s.traceEnd.trace.queue.length = s.trace.queue.length + 1) ∧
      (s.sampleDue = false → exec .traceSample s = .next s) ∧
      (s.sampleDue = true → exec .traceSample s = .next
        (({ s with trace := { s.trace with sampled := s.ct / s.reg Key.TRACE_SAMPLE } }).forEach (List.range 16) fun k s =>
          s.traceRec 0x08 (fld k 4 52 + fld (s.reg (Key.PMC k)) 48 0))))
end

