-- ==== Sys2Proof/Laws/Map.lean ====
section
/-! SUPPORT. Laws of sparse arrays: what a read gives after a write, and that every operation keeps the canonical form. -/

namespace Sys2Proof.Machine

variable {α : Type}

/-- A key that every entry lies above is not listed. -/
theorem Map.get_of_rising {d : Nat → α} : ∀ {m : Map α} {lo k : Nat}, Map.rising (some lo) m = true → k ≤ lo → Map.get d m k = d k
  | [], _, _, _, _ => rfl
  | (j, a) :: m, lo, k, h, hk => by
    simp only [Map.rising, Bool.and_eq_true, decide_eq_true_eq] at h
    have : j ≠ k := by omega
    simp only [Map.get, this, if_false]
    exact Map.get_of_rising h.2 (by omega)

theorem Map.rising_mono : ∀ {m : Map α} {a b : Nat}, a ≤ b → Map.rising (some b) m = true → Map.rising (some a) m = true
  | [], _, _, _, _ => rfl
  | (j, x) :: m, a, b, hab, h => by
    simp only [Map.rising, Bool.and_eq_true, decide_eq_true_eq] at h ⊢
    exact ⟨by omega, h.2⟩

theorem Map.rising_none : ∀ {m : Map α} {a : Nat}, Map.rising (some a) m = true → Map.rising none m = true
  | [], _, _ => rfl
  | (j, x) :: m, a, h => by
    simp only [Map.rising, Bool.and_eq_true] at h ⊢
    exact h.2

theorem Map.get_del_self {d : Nat → α} (m : Map α) (k : Nat) : Map.get d (Map.del m k) k = d k := by
  induction m with
  | nil => rfl
  | cons e m ih =>
    obtain ⟨j, a⟩ := e
    by_cases h : j = k <;> simp [Map.del, Map.get, h, ih]

theorem Map.get_del_ne {d : Nat → α} (m : Map α) {k i : Nat} (hi : i ≠ k) : Map.get d (Map.del m k) i = Map.get d m i := by
  induction m with
  | nil => rfl
  | cons e m ih =>
    obtain ⟨j, a⟩ := e
    by_cases h : j = k
    · have : j ≠ i := by omega
      have hk : k ≠ i := by omega
      simp [Map.del, Map.get, h, ih, hk]
    · simp [Map.del, Map.get, h, ih]

theorem Map.get_ins_self {d : Nat → α} (m : Map α) (k : Nat) (v : α) (h : Map.del m k = m) : Map.get d (Map.ins m k v) k = v := by
  induction m with
  | nil => simp [Map.ins, Map.get]
  | cons e m ih =>
    obtain ⟨j, a⟩ := e
    have hne : j ≠ k := by
      rintro rfl
      have hl : (Map.del m j).length ≤ m.length := by
        clear ih h
        induction m with
        | nil => simp [Map.del]
        | cons e m ih =>
          obtain ⟨i, b⟩ := e
          by_cases hi : i = j <;> simp [Map.del, hi] <;> omega
      have := congrArg List.length h
      simp [Map.del] at this
      omega
    simp only [Map.del, hne, if_false, List.cons.injEq, true_and] at h
    by_cases hk : k < j <;> simp [Map.ins, Map.get, hk, hne, ih h]

theorem Map.get_ins_ne {d : Nat → α} (m : Map α) {k i : Nat} (v : α) (hi : i ≠ k) :
    Map.get d (Map.ins m k v) i = Map.get d m i := by
  induction m with
  | nil =>
    have : k ≠ i := by omega
    simp [Map.ins, Map.get, this]
  | cons e m ih =>
    obtain ⟨j, a⟩ := e
    have : k ≠ i := by omega
    by_cases hk : k < j <;> simp [Map.ins, Map.get, hk, this, ih]

theorem Map.del_del (m : Map α) (k : Nat) : Map.del (Map.del m k) k = Map.del m k := by
  induction m with
  | nil => rfl
  | cons e m ih =>
    obtain ⟨j, a⟩ := e
    by_cases h : j = k <;> simp [Map.del, h, ih]

/-- A read of the place just written gives what was written. -/
@[simp] theorem Map.get_put_self [DecidableEq α] {d : Nat → α} (m : Map α) (k : Nat) (v : α) : Map.get d (Map.put d m k v) k = v := by
  unfold Map.put
  split
  · rename_i h
    rw [Map.get_del_self, h]
  · exact Map.get_ins_self _ _ _ (Map.del_del m k)

/-- A write leaves every other place alone. -/
theorem Map.get_put_ne [DecidableEq α] {d : Nat → α} (m : Map α) {k i : Nat} (v : α) (hi : i ≠ k) :
    Map.get d (Map.put d m k v) i = Map.get d m i := by
  unfold Map.put
  split
  · exact Map.get_del_ne m hi
  · rw [Map.get_ins_ne _ _ hi, Map.get_del_ne m hi]

theorem Map.get_put [DecidableEq α] {d : Nat → α} (m : Map α) (k i : Nat) (v : α) :
    Map.get d (Map.put d m k v) i = if i = k then v else Map.get d m i := by
  split
  · subst_vars
    simp
  · exact Map.get_put_ne m v ‹_›

/-! ## The canonical form -/

theorem Map.del_rising_some : ∀ {m : Map α} {lo k : Nat}, Map.rising (some lo) m = true → Map.rising (some lo) (Map.del m k) = true
  | [], _, _, _ => rfl
  | (j, a) :: m, lo, k, h => by
    simp only [Map.rising, Bool.and_eq_true, decide_eq_true_eq] at h
    by_cases hj : j = k
    · simp only [Map.del, hj, if_true]
      exact Map.rising_mono (by omega : lo ≤ j) (Map.del_rising_some h.2)
    · simp only [Map.del, hj, if_false, Map.rising, Bool.and_eq_true, decide_eq_true_eq]
      exact ⟨h.1, Map.del_rising_some h.2⟩

theorem Map.del_rising {m : Map α} {k : Nat} (h : Map.rising none m = true) : Map.rising none (Map.del m k) = true := by
  cases m with
  | nil => rfl
  | cons e m =>
    obtain ⟨j, a⟩ := e
    simp only [Map.rising] at h
    by_cases hj : j = k
    · simp only [Map.del, hj, if_true]
      exact Map.rising_none (Map.del_rising_some h)
    · simp only [Map.del, hj, if_false, Map.rising]
      exact Map.del_rising_some h

theorem Map.ins_rising_some : ∀ {m : Map α} {lo k : Nat} {v : α}, Map.rising (some lo) m = true → lo < k → Map.del m k = m →
    Map.rising (some lo) (Map.ins m k v) = true
  | [], lo, k, v, _, hk, _ => by simp [Map.ins, Map.rising, hk]
  | (j, a) :: m, lo, k, v, h, hk, hd => by
    simp only [Map.rising, Bool.and_eq_true, decide_eq_true_eq] at h
    by_cases hj : j = k
    · exfalso
      simp only [Map.del, hj, if_true] at hd
      have hr := Map.del_rising_some (k := k) h.2
      rw [hd, hj] at hr
      simp [Map.rising] at hr
    · simp only [Map.del, hj, if_false, List.cons.injEq, true_and] at hd
      by_cases hlt : k < j
      · simp [Map.ins, hlt, Map.rising, hk, h.2]
      · simp only [Map.ins, hlt, if_false, Map.rising, Bool.and_eq_true, decide_eq_true_eq]
        exact ⟨h.1, Map.ins_rising_some h.2 (by omega) hd⟩

theorem Map.ins_rising {m : Map α} {k : Nat} {v : α} (h : Map.rising none m = true) (hd : Map.del m k = m) :
    Map.rising none (Map.ins m k v) = true := by
  cases m with
  | nil => rfl
  | cons e m =>
    obtain ⟨j, a⟩ := e
    simp only [Map.rising] at h
    by_cases hj : j = k
    · exfalso
      simp only [Map.del, hj, if_true] at hd
      have hr := Map.del_rising_some (k := k) h
      rw [hd, hj] at hr
      simp [Map.rising] at hr
    · simp only [Map.del, hj, if_false, List.cons.injEq, true_and] at hd
      by_cases hlt : k < j
      · simp [Map.ins, hlt, Map.rising, h]
      · simp only [Map.ins, hlt, if_false, Map.rising]
        exact Map.ins_rising_some h (by omega) hd

theorem Map.del_all {m : Map α} {k : Nat} {p : Nat × α → Bool} (h : m.all p = true) : (Map.del m k).all p = true := by
  induction m with
  | nil => rfl
  | cons e m ih =>
    obtain ⟨j, a⟩ := e
    simp only [List.all_cons, Bool.and_eq_true] at h
    by_cases hj : j = k
    · simp [Map.del, hj, ih h.2]
    · simp [Map.del, hj, ih h.2]; simpa [hj] using h.1

theorem Map.ins_all {m : Map α} {k : Nat} {v : α} {p : Nat × α → Bool} (h : m.all p = true) (hv : p (k, v) = true) :
    (Map.ins m k v).all p = true := by
  induction m with
  | nil => simp [Map.ins, hv]
  | cons e m ih =>
    obtain ⟨j, a⟩ := e
    simp only [List.all_cons, Bool.and_eq_true] at h
    by_cases hj : k < j <;> simp only [Map.ins, hj, if_true, if_false, List.all_cons, Bool.and_eq_true]
    · exact ⟨hv, h⟩
    · exact ⟨h.1, ih h.2⟩

/-- A write keeps the canonical form. -/
theorem Map.put_wf [DecidableEq α] {d : Nat → α} {m : Map α} (k : Nat) (v : α) (h : Map.wf d m = true) :
    Map.wf d (Map.put d m k v) = true := by
  simp only [Map.wf, Bool.and_eq_true] at h ⊢
  unfold Map.put
  split
  · exact ⟨Map.del_rising h.1, Map.del_all h.2⟩
  · exact ⟨Map.ins_rising (Map.del_rising h.1) (Map.del_del m k), Map.ins_all (Map.del_all h.2) (by simpa using ‹_›)⟩

/-- A change of one place keeps the canonical form. -/
theorem Map.upd_wf [DecidableEq α] {d : Nat → α} {m : Map α} (k : Nat) (f : α → α) (h : Map.wf d m = true) :
    Map.wf d (Map.upd d m k f) = true := Map.put_wf k _ h

theorem Map.filter_rising_some (p : Nat × α → Bool) : ∀ {m : Map α} {lo : Nat}, Map.rising (some lo) m = true →
    Map.rising (some lo) (m.filter p) = true
  | [], _, _ => rfl
  | (j, a) :: m, lo, h => by
    simp only [Map.rising, Bool.and_eq_true, decide_eq_true_eq] at h
    by_cases hp : p (j, a) = true
    · simp only [List.filter_cons, hp, if_true, Map.rising, Bool.and_eq_true, decide_eq_true_eq]
      exact ⟨h.1, Map.filter_rising_some p h.2⟩
    · simp only [List.filter_cons, hp]
      exact Map.rising_mono (by omega : lo ≤ j) (Map.filter_rising_some p h.2)

/-- Dropping entries keeps the canonical form. -/
theorem Map.filter_wf [DecidableEq α] {d : Nat → α} {m : Map α} (p : Nat × α → Bool) (h : Map.wf d m = true) :
    Map.wf d (m.filter p) = true := by
  simp only [Map.wf, Bool.and_eq_true] at h ⊢
  refine ⟨?_, ?_⟩
  · cases m with
    | nil => rfl
    | cons e m =>
      obtain ⟨j, a⟩ := e
      have h1 := h.1
      simp only [Map.rising] at h1
      by_cases hp : p (j, a) = true
      · simp only [List.filter_cons, hp, if_true, Map.rising]
        exact Map.filter_rising_some p h1
      · simp only [List.filter_cons, hp]
        exact Map.rising_none (Map.filter_rising_some p h1)
  · have h2 := h.2
    simp only [List.all_eq_true, List.mem_filter] at h2 ⊢
    exact fun x hx => h2 x hx.1

theorem Map.get_upd [DecidableEq α] {d : Nat → α} (m : Map α) (k i : Nat) (f : α → α) :
    Map.get d (Map.upd d m k f) i = if i = k then f (Map.get d m k) else Map.get d m i :=
  Map.get_put m k i _

end Sys2Proof.Machine
end

