-- ==== Sys2Proof/Laws/Keeps.lean ====
section
/-! SUPPORT. What no operation of the model ever does, said once per operation: `Keeps s t` says that on the way from `s` to `t` the
unit stays the same unit, the queue of waiting commands is left alone, the clock does not run backwards, no free value is drawn twice, and registers and memories keep their
canonical form. One lemma per operation; a proof about a command cites the lemma of the operation it calls. -/

namespace Sys2Proof.Machine

/-- What burning never undoes: the floor does not fall, a lifecycle pair stays burned, a key or hash that is present does not go absent,
and the vendor key hash stays what it is (R519, R529, R534, R537). -/
structure Otp.Grows (a b : Otp) : Prop where
  floor : a.floor ≤ b.floor
  pair : ∀ k < 4, pairBurned a.pairs k = true → pairBurned b.pairs k = true
  vendor : ∀ v, a.vendor = some v → b.vendor = some v
  ktrace : a.ktrace.isSome = true → b.ktrace.isSome = true
  klog : a.klog.isSome = true → b.klog.isSome = true

theorem Otp.Grows.refl (a : Otp) : a.Grows a := ⟨le_rfl, fun _ _ => id, fun _ => id, id, id⟩

theorem Otp.Grows.trans {a b c : Otp} (h : a.Grows b) (k : b.Grows c) : a.Grows c :=
  ⟨h.floor.trans k.floor, fun i hi x => k.pair i hi (h.pair i hi x), fun v x => k.vendor v (h.vendor v x), k.ktrace ∘ h.ktrace, k.klog ∘ h.klog⟩

theorem bit_eq_testBit (n i : Nat) : bit n i = n.testBit i := by
  rw [Nat.testBit_eq_decide_div_mod_eq, bit]
  rfl

/-- Burning more bits leaves every burned pair burned. -/
theorem pairBurned_lor (a b k : Nat) (h : pairBurned a k = true) : pairBurned (Nat.lor a b) k = true := by
  change pairBurned (a ||| b) k = true
  simp only [pairBurned, bit_eq_testBit, Nat.testBit_or, Bool.or_eq_true] at h ⊢
  tauto

/-- Completing pairs leaves every pair burned or not as it was (R529). -/
theorem pairBurned_complete (a k : Nat) (hk : k < 4) : pairBurned (completePairs a) k = pairBurned a k := by
  simp only [completePairs, List.range, List.range.loop, List.map]
  generalize h0 : pairBurned a 0 = b0
  generalize h1 : pairBurned a 1 = b1
  generalize h2 : pairBurned a 2 = b2
  generalize h3 : pairBurned a 3 = b3
  match k, hk with
  | 0, _ => rw [h0]; revert b0 b1 b2 b3; intros; subst_vars; cases pairBurned a 0 <;> cases pairBurned a 1 <;> cases pairBurned a 2 <;> cases pairBurned a 3 <;> rfl
  | 1, _ => rw [h1]; subst_vars; cases pairBurned a 0 <;> cases pairBurned a 1 <;> cases pairBurned a 2 <;> cases pairBurned a 3 <;> rfl
  | 2, _ => rw [h2]; subst_vars; cases pairBurned a 0 <;> cases pairBurned a 1 <;> cases pairBurned a 2 <;> cases pairBurned a 3 <;> rfl
  | 3, _ => rw [h3]; subst_vars; cases pairBurned a 0 <;> cases pairBurned a 1 <;> cases pairBurned a 2 <;> cases pairBurned a 3 <;> rfl

theorem Otp.grows_pairs (a : Otp) (n : Nat) : a.Grows { a with pairs := Nat.lor a.pairs n } :=
  ⟨le_rfl, fun k _ h => pairBurned_lor _ _ k h, fun _ => id, id, id⟩

theorem Otp.grows_complete (a : Otp) : a.Grows { a with pairs := completePairs a.pairs } :=
  ⟨le_rfl, fun k hk h => (pairBurned_complete _ k hk).trans h, fun _ => id, id, id⟩

theorem Otp.grows_destroy (a : Otp) : a.Grows a.destroy := ⟨le_rfl, fun _ _ => id, fun _ => id, fun _ => rfl, fun _ => rfl⟩

theorem Otp.grows_retire (a : Otp) (n : Nat) : a.Grows { a.destroy with pairs := Nat.lor a.pairs n } :=
  ⟨le_rfl, fun k _ h => pairBurned_lor _ _ k h, fun _ => id, fun _ => rfl, fun _ => rfl⟩

theorem Otp.grows_kcmd (a : Otp) (l : List (Option Nat)) : a.Grows { a with kcmd := l } := ⟨le_rfl, fun _ _ => id, fun _ => id, id, id⟩

theorem Otp.grows_ktrace (a : Otp) (k : Nat) : a.Grows { a with ktrace := some k } := ⟨le_rfl, fun _ _ => id, fun _ => id, fun _ => rfl, id⟩

theorem Otp.grows_klog (a : Otp) (k : Nat) : a.Grows { a with klog := some k } := ⟨le_rfl, fun _ _ => id, fun _ => id, id, fun _ => rfl⟩

theorem Otp.grows_floor (a : Otp) (n : Nat) : a.Grows { a with floor := max a.floor n } :=
  ⟨le_max_left _ _, fun _ _ => id, fun _ => id, id, id⟩

theorem Otp.grows_vendor {a : Otp} (n : Nat) (h : a.vendor = none) : a.Grows { a with vendor := some n } :=
  ⟨le_rfl, fun _ _ => id, fun v hv => absurd (h.symm.trans hv) (by simp), id, id⟩

/-- See the file's comment. -/
structure State.Keeps (s t : State) : Prop where
  ident : t.ident = s.ident
  pending : t.pending = s.pending
  clk : s.clk ≤ t.clk
  free : s.free ≤ t.free
  freeT : s.freeT ≤ t.freeT
  regs : Map.wf regDefault s.regs = true → Map.wf regDefault t.regs = true
  mem : s.mem.canon = true → t.mem.canon = true
  tabs : Map.wf (fun _ => ({} : Tab)) s.tabs = true → Map.wf (fun _ => ({} : Tab)) t.tabs = true
  otp : s.otp.Grows t.otp

theorem State.Keeps.refl (s : State) : s.Keeps s := ⟨rfl, rfl, le_rfl, le_rfl, le_rfl, id, id, id, Otp.Grows.refl _⟩

theorem State.Keeps.trans {s t u : State} (h : s.Keeps t) (k : t.Keeps u) : s.Keeps u :=
  ⟨k.ident.trans h.ident, k.pending.trans h.pending, h.clk.trans k.clk, h.free.trans k.free, h.freeT.trans k.freeT, k.regs ∘ h.regs, k.mem ∘ h.mem, k.tabs ∘ h.tabs,
    h.otp.trans k.otp⟩

/-- What a command answers keeps the state. -/
def Res.Keeps (s : State) : Res → Prop
  | .next t => s.Keeps t
  | _ => True

theorem Res.keeps_next {s t : State} (h : s.Keeps t) : Res.Keeps s (.next t) := h

theorem Res.keeps_fault {s : State} (f : Fault) : Res.Keeps s (.fault f) := trivial

theorem Res.keeps_refused {s : State} (r : Refusal) : Res.Keeps s (.refused r) := trivial

theorem whenOn_keeps {s0 s : State} {r : Res} (h : s0.Keeps s) (k : Res.Keeps s0 r) : Res.Keeps s0 (whenOn s r) := by
  unfold whenOn; split; exacts [k, h]

theorem whenClocked_keeps {s0 s : State} {r : Res} (h : s0.Keeps s) (k : Res.Keeps s0 r) : Res.Keeps s0 (whenClocked s r) := by
  unfold whenClocked; split; exacts [k, h]

theorem onPort_keeps {s0 s t : State} {p : Nat} (k : s0.Keeps t) : Res.Keeps s0 (onPort p s t) := by
  unfold onPort; split; exacts [k, trivial]

theorem onGroup_keeps {s0 s t : State} {p : Nat} (k : s0.Keeps t) : Res.Keeps s0 (onGroup p s t) := by
  unfold onGroup; split; exacts [k, trivial]

theorem List.foldl_keeps {α : Type} {s0 : State} {f : State → α → State} (hf : ∀ t a, s0.Keeps t → s0.Keeps (f t a)) :
    ∀ (l : List α) {s : State}, s0.Keeps s → s0.Keeps (l.foldl f s)
  | [], _, h => h
  | a :: l, s, h => List.foldl_keeps hf l (hf s a h)

theorem List.foldl_keeps₁ {α β : Type} {s0 : State} {f : State × β → α → State × β}
    (hf : ∀ t a, s0.Keeps t.1 → s0.Keeps (f t a).1) :
    ∀ (l : List α) {s : State × β}, s0.Keeps s.1 → s0.Keeps (l.foldl f s).1
  | [], _, h => h
  | a :: l, s, h => List.foldl_keeps₁ hf l (hf s a h)

/-- A first component. -/
theorem State.Keeps.fst {β : Type} {s0 t : State} {b : β} {r : State × β} (h : s0.Keeps r.1) (e : r = (t, b)) : s0.Keeps t := by
  subst e; exact h

theorem State.forEach_keeps {s0 s : State} {l : List Nat} {f : Nat → State → State} (h : s0.Keeps s)
    (hf : ∀ i t, s0.Keeps t → s0.Keeps (f i t)) : s0.Keeps (s.forEach l f) :=
  List.foldl_keeps (fun t i => hf i t) l h

theorem ite_keeps {s0 a b : State} {c : Prop} [Decidable c] (ha : s0.Keeps a) (hb : s0.Keeps b) :
    s0.Keeps (if c then a else b) := by split; exacts [ha, hb]

theorem ite_keeps₁ {β : Type} {s0 : State} {a b : State × β} {c : Prop} [Decidable c] (ha : s0.Keeps a.1) (hb : s0.Keeps b.1) :
    s0.Keeps (if c then a else b).1 := by split; exacts [ha, hb]

theorem ite_keepsr {s0 : State} {a b : Res} {c : Prop} [Decidable c] (ha : Res.Keeps s0 a) (hb : Res.Keeps s0 b) :
    Res.Keeps s0 (if c then a else b) := by split; exacts [ha, hb]

/-- A state written out field by field. -/
theorem State.keeps_mk {s0 s : State} {clk : Nat} {free : Nat} {freeT : Nat} {out : List Out} {regs : Map Word} {tabs : Map Tab} {link : Link} {banks : Map Bank} {recv : Recv} {pos : Pos} {dict : Dict} {faults : Faults} {grid : Grid} {cmps : Map Cmp} {gpo : Nat} {camTrig : Nat} {ingress : Ingress} {ports : Map Port} {cals : Map CalGroup} {chans : Map CalChan} {therm : Therm} {cams : Map Cam} {pipe : Pipe} {loop : Loop} {mem : Mem} {dma : Dma} {trace : Trace} {otp : Otp} {otp2 : Otp} {nor : Nor} {mgmt : Mgmt} {tap : Tap} {power : Power} {boot : Boot}
    (h : s0.Keeps s) (hc : s.clk ≤ clk) (hf : s.free ≤ free) (hg : s.freeT ≤ freeT)
    (hr : Map.wf regDefault s.regs = true → Map.wf regDefault regs = true) (hm : s.mem.canon = true → mem.canon = true)
    (ht : Map.wf (fun _ => ({} : Tab)) s.tabs = true → Map.wf (fun _ => ({} : Tab)) tabs = true) (ho : s.otp.Grows otp) :
    s0.Keeps ⟨s.pending, s.ident, clk, free, freeT, out, regs, tabs, link, banks, recv, pos, dict, faults, grid, cmps, gpo, camTrig, ingress, ports, cals, chans, therm, cams, pipe, loop, mem, dma, trace, otp, otp2, nor, mgmt, tap, power, boot⟩ :=
  ⟨h.ident, h.pending, h.clk.trans hc, h.free.trans hf, h.freeT.trans hg, hr ∘ h.regs, hm ∘ h.mem, ht ∘ h.tabs, h.otp.trans ho⟩

theorem Mem.canon_lowBanks {m : Mem} (h : m.canon = true) : m.lowBanks.canon = true := by
  simp only [Mem.canon, Mem.lowBanks, Bool.and_eq_true] at h ⊢
  exact ⟨Map.filter_wf _ h.1, h.2⟩

/-- Memories with the words of another. -/
theorem Mem.canon_same {m n : Mem} (h : m.canon = true) (hs : n.scratch = m.scratch) (hb : n.bulk = m.bulk) : n.canon = true := by
  simpa only [Mem.canon, hs, hb] using h

theorem Mem.canon_putScratch {m n : Mem} (h : m.canon = true) (x : Nat) (w : Word) (hs : n.scratch = Map.put (fun _ => 0) m.scratch x w)
    (hb : n.bulk = m.bulk) : n.canon = true := by
  simp only [Mem.canon, Bool.and_eq_true] at h ⊢
  exact ⟨hs ▸ Map.put_wf _ _ h.1, hb ▸ h.2⟩

theorem Mem.canon_putBulk {m n : Mem} (h : m.canon = true) (x : Nat) (w : Option Word) (hs : n.scratch = m.scratch)
    (hb : n.bulk = Map.put (fun _ => none) m.bulk x w) : n.canon = true := by
  simp only [Mem.canon, Bool.and_eq_true] at h ⊢
  exact ⟨hs ▸ h.1, hb ▸ Map.put_wf _ _ h.2⟩

theorem Mem.canon_noBulk {m n : Mem} (h : m.canon = true) (hs : n.scratch = m.scratch) (hb : n.bulk = []) : n.canon = true := by
  simp only [Mem.canon, Bool.and_eq_true] at h ⊢
  exact ⟨hs ▸ h.1, hb ▸ rfl⟩

/-- A state that differs from `s` in no field that `Keeps` speaks of. -/
theorem State.Keeps.same {s0 s t : State} (h : s0.Keeps s) (hi : t.ident = s.ident) (hp : t.pending = s.pending) (hc : t.clk = s.clk)
    (hf : t.free = s.free) (hg : t.freeT = s.freeT) (hr : t.regs = s.regs) (hm : t.mem = s.mem) (ht : t.tabs = s.tabs) (ho : t.otp = s.otp) : s0.Keeps t :=
  ⟨hi.trans h.ident, hp.trans h.pending, hc ▸ h.clk, hf ▸ h.free, hg ▸ h.freeT, fun x => hr ▸ h.regs x, fun x => hm ▸ h.mem x,
    fun x => ht ▸ h.tabs x, ho ▸ h.otp⟩

theorem State.setReg_keeps {s0 s : State} (k v : Nat) (h : s0.Keeps s) : s0.Keeps (s.setReg k v) :=
  ⟨h.ident, h.pending, h.clk, h.free, h.freeT, fun hr => Map.put_wf _ _ (h.regs hr), h.mem, h.tabs, h.otp⟩

theorem State.setTab_keeps {s0 s : State} (k : Nat) (v : Tab) (h : s0.Keeps s) : s0.Keeps (s.setTab k v) :=
  ⟨h.ident, h.pending, h.clk, h.free, h.freeT, h.regs, h.mem, fun ht => Map.put_wf _ _ (h.tabs ht), h.otp⟩

/-- A burn that undoes nothing. -/
theorem State.burn_keeps {s0 s : State} (f : Otp → Otp) (h : s0.Keeps s) (hf : s.otp.Grows (f s.otp)) : s0.Keeps (s.burn f) :=
  ⟨h.ident, h.pending, h.clk, h.free, h.freeT, h.regs, h.mem, h.tabs, h.otp.trans hf⟩

/-! ## Shared operations -/

theorem State.setRegI_keeps {s0 s : State} (k : Nat) (v : Int) (hs : s0.Keeps s) :
    s0.Keeps (State.setRegI s k v) := by
  unfold State.setRegI
  with_reducible repeat' first | assumption | apply State.setReg_keeps

theorem State.addReg_keeps {s0 s : State} (k n : Nat) (hs : s0.Keeps s) :
    s0.Keeps (State.addReg s k n) := by
  unfold State.addReg
  with_reducible repeat' first | assumption | apply State.setReg_keeps

theorem State.inc_keeps {s0 s : State} (k : Nat) (hs : s0.Keeps s) :
    s0.Keeps (State.inc s k) := by
  unfold State.inc
  with_reducible repeat' first | assumption | apply State.addReg_keeps

theorem State.setRegBit_keeps {s0 s : State} (k i : Nat) (b : Bool) (hs : s0.Keeps s) :
    s0.Keeps (State.setRegBit s k i b) := by
  unfold State.setRegBit
  with_reducible repeat' first | assumption | apply State.setReg_keeps

theorem State.emit_keeps {s0 s : State} (o : Out) (hs : s0.Keeps s) :
    s0.Keeps (State.emit s o) :=
  hs.same rfl rfl rfl rfl rfl rfl rfl rfl rfl

theorem State.updPort_keeps {s0 s : State} (p : Nat) (f : Port → Port) (hs : s0.Keeps s) :
    s0.Keeps (State.updPort s p f) :=
  hs.same rfl rfl rfl rfl rfl rfl rfl rfl rfl

theorem State.updCal_keeps {s0 s : State} (g : Nat) (f : CalGroup → CalGroup) (hs : s0.Keeps s) :
    s0.Keeps (State.updCal s g f) :=
  hs.same rfl rfl rfl rfl rfl rfl rfl rfl rfl

theorem State.updChan_keeps {s0 s : State} (c : Nat) (f : CalChan → CalChan) (hs : s0.Keeps s) :
    s0.Keeps (State.updChan s c f) :=
  hs.same rfl rfl rfl rfl rfl rfl rfl rfl rfl

theorem State.updHeat_keeps {s0 s : State} (p : Nat) (f : HeatPort → HeatPort) (hs : s0.Keeps s) :
    s0.Keeps (State.updHeat s p f) :=
  hs.same rfl rfl rfl rfl rfl rfl rfl rfl rfl

theorem State.updCam_keeps {s0 s : State} (c : Nat) (f : Cam → Cam) (hs : s0.Keeps s) :
    s0.Keeps (State.updCam s c f) :=
  hs.same rfl rfl rfl rfl rfl rfl rfl rfl rfl

theorem State.updLport_keeps {s0 s : State} (p : Nat) (f : LoopPort → LoopPort) (hs : s0.Keeps s) :
    s0.Keeps (State.updLport s p f) :=
  hs.same rfl rfl rfl rfl rfl rfl rfl rfl rfl

theorem State.updTests_keeps {s0 s : State} (n0 : Nat) (c : LoopTest → Bool) (f : LoopTest → LoopTest) (hs : s0.Keeps s) :
    s0.Keeps (State.updTests s n0 c f) :=
  hs.same rfl rfl rfl rfl rfl rfl rfl rfl rfl

theorem State.updDch_keeps {s0 s : State} (c : Nat) (f : DmaCh → DmaCh) (hs : s0.Keeps s) :
    s0.Keeps (State.updDch s c f) :=
  hs.same rfl rfl rfl rfl rfl rfl rfl rfl rfl

theorem State.updMover_keeps {s0 s : State} (m : Nat) (f : Mover → Mover) (hs : s0.Keeps s) :
    s0.Keeps (State.updMover s m f) :=
  hs.same rfl rfl rfl rfl rfl rfl rfl rfl rfl

theorem State.updSensor_keeps {s0 s : State} (k : Nat) (f : Sensor → Sensor) (hs : s0.Keeps s) :
    s0.Keeps (State.updSensor s k f) :=
  hs.same rfl rfl rfl rfl rfl rfl rfl rfl rfl

theorem State.updLane_keeps {s0 s : State} (i : Nat) (f : Lane → Lane) (hs : s0.Keeps s) :
    s0.Keeps (State.updLane s i f) :=
  hs.same rfl rfl rfl rfl rfl rfl rfl rfl rfl

theorem State.updSrc_keeps {s0 s : State} (k : Nat) (f : Src → Src) (hs : s0.Keeps s) :
    s0.Keeps (State.updSrc s k f) :=
  hs.same rfl rfl rfl rfl rfl rfl rfl rfl rfl

theorem State.updBank_keeps {s0 s : State} (b : Nat) (f : Bank → Bank) (hs : s0.Keeps s) :
    s0.Keeps (State.updBank s b f) :=
  hs.same rfl rfl rfl rfl rfl rfl rfl rfl rfl

theorem State.updCmp_keeps {s0 s : State} (c : Nat) (f : Cmp → Cmp) (hs : s0.Keeps s) :
    s0.Keeps (State.updCmp s c f) :=
  hs.same rfl rfl rfl rfl rfl rfl rfl rfl rfl

theorem State.updCport_keeps {s0 s : State} (p : ChainPort) (f : PortLink → PortLink) (hs : s0.Keeps s) :
    s0.Keeps (State.updCport s p f) := by
  unfold State.updCport
  with_reducible repeat' first | assumption | exact le_rfl | exact id | exact Otp.Grows.refl _ | extract_lets | split | apply State.keeps_mk

theorem State.updGroup_keeps {s0 s : State} (g : Nat) (f : Group → Group) (hs : s0.Keeps s) :
    s0.Keeps (State.updGroup s g f) :=
  hs.same rfl rfl rfl rfl rfl rfl rfl rfl rfl

theorem State.updSess_keeps {s0 s : State} (k : Nat) (f : Session → Session) (hs : s0.Keeps s) :
    s0.Keeps (State.updSess s k f) :=
  hs.same rfl rfl rfl rfl rfl rfl rfl rfl rfl

theorem State.updIlane_keeps {s0 s : State} (i : Nat) (f : ImgLane → ImgLane) (hs : s0.Keeps s) :
    s0.Keeps (State.updIlane s i f) :=
  hs.same rfl rfl rfl rfl rfl rfl rfl rfl rfl

theorem State.updPlane_keeps {s0 s : State} (q : Nat) (f : Plane → Plane) (hs : s0.Keeps s) :
    s0.Keeps (State.updPlane s q f) :=
  hs.same rfl rfl rfl rfl rfl rfl rfl rfl rfl

theorem State.pmc_keeps {s0 s : State} (ev q n : Nat) (hs : s0.Keeps s) :
    s0.Keeps (State.pmc s ev q n) := by
  unfold State.pmc
  with_reducible repeat' first | assumption | intro _ | apply State.forEach_keeps | apply State.addReg_keeps | apply ite_keeps

theorem State.tracePut_keeps {s0 s : State} (sealed : Bool) (v : Nat) (hs : s0.Keeps s) :
    s0.Keeps (State.tracePut s sealed v) :=
  hs.same rfl rfl rfl rfl rfl rfl rfl rfl rfl

theorem State.traceRec_keeps {s0 s : State} (kind data : Nat) (hs : s0.Keeps s) :
    s0.Keeps (State.traceRec s kind data) := by
  unfold State.traceRec
  repeat' first
    | with_reducible assumption
    | with_reducible exact le_rfl
    | with_reducible exact id
    | with_reducible exact Otp.Grows.refl _
    | with_reducible apply ite_keeps
    | extract_lets
    | with_reducible apply State.keeps_mk

theorem State.traceEnd_keeps {s0 s : State} (hs : s0.Keeps s) :
    s0.Keeps (State.traceEnd s) := by
  unfold State.traceEnd
  repeat' first
    | with_reducible assumption
    | with_reducible exact le_rfl
    | with_reducible exact id
    | with_reducible exact Otp.Grows.refl _
    | intro _
    | with_reducible apply List.foldl_keeps
    | with_reducible apply State.tracePut_keeps
    | with_reducible apply State.addReg_keeps
    | with_reducible apply ite_keeps
    | extract_lets
    | split
    | with_reducible apply State.keeps_mk

theorem State.event_keeps {s0 s : State} (cls code arg : Nat) (hs : s0.Keeps s) :
    s0.Keeps (State.event s cls code arg) := by
  unfold State.event
  repeat' first
    | with_reducible assumption
    | with_reducible exact le_rfl
    | with_reducible exact id
    | with_reducible exact Otp.Grows.refl _
    | with_reducible apply State.inc_keeps
    | with_reducible apply ite_keeps
    | extract_lets
    | with_reducible apply State.keeps_mk

theorem State.raise_keeps {s0 s : State} (k detail : Nat) (hs : s0.Keeps s) :
    s0.Keeps (State.raise s k detail) := by
  unfold State.raise
  repeat' first
    | with_reducible assumption
    | with_reducible exact le_rfl
    | with_reducible exact id
    | with_reducible exact Otp.Grows.refl _
    | with_reducible apply ite_keeps
    | extract_lets
    | with_reducible apply State.keeps_mk

theorem State.cause_keeps {s0 s : State} (k i : Nat) (on : Bool) (detail : Nat) (hs : s0.Keeps s) :
    s0.Keeps (State.cause s k i on detail) := by
  unfold State.cause
  with_reducible repeat' first | assumption | apply State.updSrc_keeps | apply State.raise_keeps | apply ite_keeps

end Sys2Proof.Machine
end

