-- ==== Sys2Proof/Laws/KeepsChain.lean ====
section
/-! SUPPORT. `Keeps` (Laws/Keeps.lean) for lanes, the chain, position, the grid and its compare units. -/

namespace Sys2Proof.Machine

/-! ## Lanes -/

theorem State.dropImage_keeps {s0 s : State} (i : Nat) (hs : s0.Keeps s) :
    s0.Keeps (State.dropImage s i) := by
  unfold State.dropImage
  repeat' first
    | with_reducible assumption
    | with_reducible exact le_rfl
    | with_reducible exact id
    | with_reducible exact Otp.Grows.refl _
    | with_reducible apply State.updIlane_keeps
    | extract_lets
    | with_reducible apply State.keeps_mk

theorem State.loseLane_keeps {s0 s : State} (i : Nat) (hs : s0.Keeps s) :
    s0.Keeps (State.loseLane s i) := by
  unfold State.loseLane
  repeat' first
    | with_reducible assumption
    | with_reducible apply State.updLane_keeps
    | with_reducible apply State.dropImage_keeps
    | with_reducible apply State.inc_keeps
    | with_reducible apply ite_keeps

theorem State.downLane_keeps {s0 s : State} (i : Nat) (hs : s0.Keeps s) :
    s0.Keeps (State.downLane s i) := by
  unfold State.downLane
  with_reducible repeat' first | assumption | apply State.loseLane_keeps | apply State.updLane_keeps | apply ite_keeps

theorem State.restartLane_keeps {s0 s : State} (i : Nat) (hs : s0.Keeps s) :
    s0.Keeps (State.restartLane s i) := by
  unfold State.restartLane
  with_reducible repeat' first | assumption | apply State.downLane_keeps | apply State.updLane_keeps

theorem State.sendAlign_keeps {s0 s : State} (i : Nat) (hs : s0.Keeps s) :
    s0.Keeps (State.sendAlign s i) := by
  unfold State.sendAlign
  with_reducible repeat' first | assumption | apply State.emit_keeps | apply State.updLane_keeps

theorem State.alignTick_keeps {s0 s : State} (hs : s0.Keeps s) :
    s0.Keeps (State.alignTick s) := by
  unfold State.alignTick
  with_reducible repeat' first | assumption | intro _ | apply State.forEach_keeps | apply State.sendAlign_keeps | apply ite_keeps

theorem State.sendBurst_keeps {s0 s : State} (l : LinkSel) (hs : s0.Keeps s) :
    s0.Keeps (State.sendBurst s l) := by
  unfold State.sendBurst
  with_reducible repeat' first | assumption | intro _ | apply State.forEach_keeps | apply State.emit_keeps | apply State.updLane_keeps

theorem execLaneSignalDetect_keeps {s0 s : State} (lane : Fin 8) (hs : s0.Keeps s) :
    Res.Keeps s0 (execLaneSignalDetect lane s) := by
  unfold execLaneSignalDetect
  with_reducible repeat' first | assumption | apply Res.keeps_next | apply State.updLane_keeps | apply whenOn_keeps | apply ite_keeps

theorem execBlockLock_keeps {s0 s : State} (lane : Fin 8) (hs : s0.Keeps s) :
    Res.Keeps s0 (execBlockLock lane s) := by
  unfold execBlockLock
  with_reducible repeat' first | assumption | apply Res.keeps_next | apply State.updLane_keeps | apply whenOn_keeps | apply ite_keeps

theorem execLaneBringupTimeout_keeps {s0 s : State} (lane : Fin 8) (hs : s0.Keeps s) :
    Res.Keeps s0 (execLaneBringupTimeout lane s) := by
  unfold execLaneBringupTimeout
  repeat' first
    | with_reducible assumption
    | with_reducible apply Res.keeps_next
    | with_reducible apply State.updLane_keeps
    | with_reducible apply State.inc_keeps
    | with_reducible apply State.raise_keeps
    | with_reducible apply whenOn_keeps
    | with_reducible apply ite_keeps

theorem execLaneRetry_keeps {s0 s : State} (lane : Fin 8) (hs : s0.Keeps s) :
    Res.Keeps s0 (execLaneRetry lane s) := by
  unfold execLaneRetry
  with_reducible repeat' first | assumption | apply Res.keeps_next | apply State.updLane_keeps | apply whenOn_keeps | apply ite_keeps

theorem State.trained_keeps {s0 s : State} (i : Nat) (hs : s0.Keeps s) :
    s0.Keeps (State.trained s i) := by
  unfold State.trained
  with_reducible repeat' first | assumption | intro _ | apply State.updLane_keeps | apply State.forEach_keeps | apply ite_keeps

theorem execTrain_keeps {s0 s : State} (lane : Fin 8) (hdr : BitVec 2) (blk : Block) (hs : s0.Keeps s) :
    Res.Keeps s0 (execTrain lane hdr blk s) := by
  unfold execTrain
  repeat' first
    | with_reducible assumption
    | with_reducible apply Res.keeps_next
    | with_reducible apply State.updLane_keeps
    | with_reducible apply State.trained_keeps
    | with_reducible apply whenOn_keeps
    | with_reducible apply ite_keeps
    | extract_lets
    | split

theorem execAlign_keeps {s0 s : State} (link : LinkSel) (skew : Nat) (hs : s0.Keeps s) :
    Res.Keeps s0 (execAlign link skew s) := by
  unfold execAlign
  repeat' first
    | with_reducible assumption
    | intro _
    | with_reducible apply Res.keeps_next
    | with_reducible apply State.forEach_keeps
    | with_reducible apply State.updLane_keeps
    | with_reducible apply State.loseLane_keeps
    | with_reducible apply whenOn_keeps
    | with_reducible apply ite_keeps
    | extract_lets
    | split

theorem execEidle_keeps {s0 s : State} (lane : Fin 8) (hs : s0.Keeps s) :
    Res.Keeps s0 (execEidle lane s) := by
  unfold execEidle
  with_reducible repeat' first | assumption | apply Res.keeps_next | apply State.updLane_keeps | apply whenOn_keeps | apply ite_keeps

theorem execFastExit_keeps {s0 s : State} (link : LinkSel) (lockBlock : Nat) (skew : Nat) (refclkOk : Bool) (hs : s0.Keeps s) :
    Res.Keeps s0 (execFastExit link lockBlock skew refclkOk s) := by
  unfold execFastExit
  repeat' first
    | with_reducible assumption
    | intro _
    | with_reducible apply Res.keeps_next
    | with_reducible apply State.forEach_keeps
    | with_reducible apply State.updLane_keeps
    | with_reducible apply State.loseLane_keeps
    | with_reducible apply whenOn_keeps
    | with_reducible apply ite_keeps

theorem execLaneLossOfSignal_keeps {s0 s : State} (lane : Fin 8) (hs : s0.Keeps s) :
    Res.Keeps s0 (execLaneLossOfSignal lane s) := by
  unfold execLaneLossOfSignal
  with_reducible repeat' first | assumption | apply Res.keeps_next | apply State.loseLane_keeps | apply whenOn_keeps | apply ite_keeps

theorem execInvalidSyncHeader_keeps {s0 s : State} (lane : Fin 8) (hdr : BitVec 2) (ty : BitVec 8) (hs : s0.Keeps s) :
    Res.Keeps s0 (execInvalidSyncHeader lane hdr ty s) := by
  unfold execInvalidSyncHeader
  repeat' first
    | with_reducible assumption
    | with_reducible apply Res.keeps_next
    | with_reducible apply State.loseLane_keeps
    | with_reducible apply State.updLane_keeps
    | with_reducible apply State.inc_keeps
    | with_reducible apply whenOn_keeps
    | with_reducible apply ite_keeps

/-! ## The chain -/

theorem State.updLink_keeps {s0 s : State} (f : Link → Link) (hs : s0.Keeps s) :
    s0.Keeps (State.updLink s f) :=
  hs.same rfl rfl rfl rfl rfl rfl rfl rfl rfl

theorem State.putFrame_keeps {s0 s : State} (p : ChainPort) (kind : Nat) (f : Frame) (hs : s0.Keeps s) :
    s0.Keeps (State.putFrame s p kind f) := by
  unfold State.putFrame
  with_reducible repeat' first | assumption | apply State.updCport_keeps | apply State.emit_keeps

theorem State.transmit_keeps {s0 s : State} (p : ChainPort) (fwd : Bool) (kind : Nat) (f : Frame) (hs : s0.Keeps s) :
    s0.Keeps (State.transmit s p fwd kind f) := by
  unfold State.transmit
  with_reducible repeat' first | assumption | apply State.putFrame_keeps | apply State.updCport_keeps | apply ite_keeps

theorem State.txTick_keeps {s0 s : State} (p : ChainPort) (hs : s0.Keeps s) :
    s0.Keeps (State.txTick s p) := by
  unfold State.txTick
  repeat' first
    | with_reducible assumption
    | with_reducible apply State.updCport_keeps
    | with_reducible apply State.putFrame_keeps
    | with_reducible apply ite_keeps
    | extract_lets
    | split

theorem State.forward_keeps {s0 s : State} (kind : Nat) (f : Frame) (stomp : Bool) (hs : s0.Keeps s) :
    s0.Keeps (State.forward s kind f stomp) := by
  unfold State.forward
  with_reducible repeat' first | assumption | apply State.pmc_keeps | apply State.transmit_keeps | apply ite_keeps

theorem State.recvCheck_keeps {s0 s : State} (kind : Nat) (f : Frame) (hs : s0.Keeps s) :
    s0.Keeps (State.recvCheck s kind f).1 := by
  unfold State.recvCheck
  with_reducible repeat' first | assumption | apply State.forward_keeps | apply State.inc_keeps | apply ite_keeps₁

theorem State.recvSummit_keeps {s0 s : State} (kind : Nat) (f : Frame) (mine all : Bool) (hs : s0.Keeps s) :
    s0.Keeps (State.recvSummit s kind f mine all).1 := by
  unfold State.recvSummit
  repeat' first
    | with_reducible assumption
    | with_reducible exact le_rfl
    | with_reducible exact id
    | with_reducible exact Otp.Grows.refl _
    | with_reducible apply State.forward_keeps
    | with_reducible apply State.inc_keeps
    | refine State.Keeps.fst (State.recvCheck_keeps _ _ ?_) ‹_ = _›
    | with_reducible apply ite_keeps₁
    | with_reducible apply ite_keeps
    | extract_lets
    | split
    | with_reducible apply State.keeps_mk

theorem State.recvAll_keeps {s0 s : State} (kind : Nat) (f : Frame) (hs : s0.Keeps s) :
    s0.Keeps (State.recvAll s kind f).1 := by
  unfold State.recvAll
  with_reducible repeat' first | assumption | apply State.recvSummit_keeps

theorem State.sendFrame_keeps {s0 s : State} (p : ChainPort) (kind seq dest : Nat) (data : List Block) (hs : s0.Keeps s) :
    s0.Keeps (State.sendFrame s p kind seq dest data) := by
  unfold State.sendFrame
  with_reducible repeat' first | assumption | apply State.transmit_keeps | apply ite_keeps

theorem State.nextSeq_keeps {s0 s : State} (hs : s0.Keeps s) :
    s0.Keeps (State.nextSeq s).1 :=
  hs.same rfl rfl rfl rfl rfl rfl rfl rfl rfl

theorem State.passFrame_keeps {s0 s : State} (kind : Nat) (f : Frame) (hs : s0.Keeps s) :
    s0.Keeps (State.passFrame s kind f) := by
  unfold State.passFrame
  repeat' first
    | with_reducible assumption
    | with_reducible apply State.forward_keeps
    | refine State.Keeps.fst (State.recvCheck_keeps _ _ ?_) ‹_ = _›
    | split

theorem execFrameEofTimeout_keeps {s0 s : State} (p : ChainPort) (hs : s0.Keeps s) :
    Res.Keeps s0 (execFrameEofTimeout p s) := by
  unfold execFrameEofTimeout
  repeat' first
    | with_reducible assumption
    | with_reducible apply Res.keeps_next
    | with_reducible apply State.inc_keeps
    | with_reducible apply State.emit_keeps
    | with_reducible apply whenClocked_keeps
    | with_reducible apply ite_keeps

theorem State.detach_keeps {s0 s : State} (hs : s0.Keeps s) :
    s0.Keeps (State.detach s) := by
  unfold State.detach
  with_reducible repeat' first | assumption | apply State.updCport_keeps | apply State.updLink_keeps

theorem execChainPortDown_keeps {s0 s : State} (p : ChainPort) (hs : s0.Keeps s) :
    Res.Keeps s0 (execChainPortDown p s) := by
  unfold execChainPortDown
  repeat' first
    | with_reducible assumption
    | with_reducible apply Res.keeps_next
    | with_reducible apply State.updCport_keeps
    | with_reducible apply State.event_keeps
    | with_reducible apply State.detach_keeps
    | with_reducible apply State.updLink_keeps
    | with_reducible apply whenOn_keeps
    | with_reducible apply ite_keeps
    | extract_lets
    | split

theorem execChainPortUp_keeps {s0 s : State} (p : ChainPort) (hs : s0.Keeps s) :
    Res.Keeps s0 (execChainPortUp p s) := by
  unfold execChainPortUp
  repeat' first
    | with_reducible assumption
    | with_reducible apply Res.keeps_next
    | with_reducible apply State.updCport_keeps
    | with_reducible apply State.event_keeps
    | with_reducible apply State.updLink_keeps
    | with_reducible apply whenOn_keeps
    | with_reducible apply ite_keeps
    | extract_lets
    | split

theorem State.setDelay_keeps {s0 s : State} (p : ChainPort) (hs : s0.Keeps s) :
    s0.Keeps (State.setDelay s p) := by
  unfold State.setDelay
  with_reducible repeat' first | assumption | apply State.setRegI_keeps

theorem execProbeSend_keeps {s0 s : State} (p : ChainPort) (phase : Fin 8) (hs : s0.Keeps s) :
    Res.Keeps s0 (execProbeSend p phase s) := by
  unfold execProbeSend
  repeat' first
    | with_reducible assumption
    | with_reducible apply Res.keeps_next
    | with_reducible apply State.updCport_keeps
    | with_reducible apply State.emit_keeps
    | with_reducible apply whenClocked_keeps
    | with_reducible apply ite_keeps

theorem execProbe_keeps {s0 s : State} (p : ChainPort) (blk : Block) (residence : Nat) (hs : s0.Keeps s) :
    Res.Keeps s0 (execProbe p blk residence s) := by
  unfold execProbe
  with_reducible repeat' first | assumption | apply Res.keeps_next | apply State.emit_keeps | apply whenClocked_keeps | apply ite_keeps

theorem execPret_keeps {s0 s : State} (p : ChainPort) (blk : Block) (phase : Fin 8) (hs : s0.Keeps s) :
    Res.Keeps s0 (execPret p blk phase s) := by
  unfold execPret
  repeat' first
    | with_reducible assumption
    | with_reducible apply Res.keeps_next
    | with_reducible apply State.updCport_keeps
    | with_reducible apply State.setDelay_keeps
    | with_reducible apply whenClocked_keeps
    | with_reducible apply ite_keeps
    | extract_lets
    | split

theorem execPretTimeout_keeps {s0 s : State} (p : ChainPort) (hs : s0.Keeps s) :
    Res.Keeps s0 (execPretTimeout p s) := by
  unfold execPretTimeout
  with_reducible repeat' first | assumption | apply Res.keeps_next | apply State.updCport_keeps | apply whenClocked_keeps

theorem State.steer_keeps {s0 s : State} (e : Int) (hs : s0.Keeps s) :
    s0.Keeps (State.steer s e) := by
  unfold State.steer
  repeat' first
    | with_reducible assumption
    | with_reducible apply State.setRegI_keeps
    | with_reducible apply State.updLink_keeps
    | with_reducible apply State.cause_keeps
    | with_reducible apply ite_keeps

theorem State.takeTime_keeps {s0 s : State} (acc cyc phase : Nat) (l : Nat) (hs : s0.Keeps s) :
    s0.Keeps (State.takeTime s acc cyc phase l) := by
  unfold State.takeTime
  with_reducible repeat' first | assumption | apply State.updLink_keeps | apply State.steer_keeps | apply ite_keeps | extract_lets | split

theorem State.geyserCheck_keeps {s0 s : State} (valid : Bool) (b : Nat) (hs : s0.Keeps s) :
    s0.Keeps (State.geyserCheck s valid b) := by
  unfold State.geyserCheck
  with_reducible repeat' first | assumption | apply State.updBank_keeps | apply State.inc_keeps | apply ite_keeps

theorem execCycle_keeps {s0 s : State} (p : ChainPort) (blk : Block) (phase : Fin 8) (residence : Nat) (hs : s0.Keeps s) :
    Res.Keeps s0 (execCycle p blk phase residence s) := by
  unfold execCycle
  repeat' first
    | with_reducible assumption
    | with_reducible apply Res.keeps_next
    | with_reducible apply State.emit_keeps
    | with_reducible apply State.geyserCheck_keeps
    | with_reducible apply State.updLink_keeps
    | with_reducible apply State.setReg_keeps
    | with_reducible apply State.takeTime_keeps
    | with_reducible apply whenClocked_keeps
    | with_reducible apply ite_keeps
    | extract_lets
    | split

theorem execChainActive_keeps {s0 s : State} (hs : s0.Keeps s) :
    Res.Keeps s0 (execChainActive s) := by
  unfold execChainActive
  with_reducible repeat' first | assumption | apply Res.keeps_next | apply State.updLink_keeps | apply whenClocked_keeps | apply ite_keeps

theorem execChainTimeMisaligned_keeps {s0 s : State} (hs : s0.Keeps s) :
    Res.Keeps s0 (execChainTimeMisaligned s) := by
  unfold execChainTimeMisaligned
  with_reducible repeat' first | assumption | apply Res.keeps_next | apply State.cause_keeps | apply whenClocked_keeps | apply ite_keeps

theorem execTime_keeps {s0 s : State} (f : Frame) (hs : s0.Keeps s) :
    Res.Keeps s0 (execTime f s) := by
  unfold execTime
  repeat' first
    | with_reducible assumption
    | with_reducible apply Res.keeps_next
    | with_reducible apply State.updLink_keeps
    | with_reducible apply whenClocked_keeps
    | refine State.Keeps.fst (State.recvAll_keeps _ _ ?_) ‹_ = _›
    | extract_lets
    | split

theorem State.geyserTick_keeps {s0 s : State} (hs : s0.Keeps s) :
    s0.Keeps (State.geyserTick s) :=
  hs.same rfl rfl rfl rfl rfl rfl rfl rfl rfl

theorem State.geyser_keeps {s0 s : State} (d0 d1 : Nat) (hs : s0.Keeps s) :
    s0.Keeps (State.geyser s d0 d1) := by
  unfold State.geyser
  with_reducible repeat' first | assumption | apply State.updBank_keeps | apply State.setReg_keeps | apply ite_keeps

theorem State.recvGeyser_keeps {s0 s : State} (f : Frame) (hs : s0.Keeps s) :
    s0.Keeps (State.recvGeyser s f) := by
  unfold State.recvGeyser
  with_reducible repeat' first | assumption | apply State.geyser_keeps | refine State.Keeps.fst (State.recvAll_keeps _ _ ?_) ‹_ = _› | split

theorem execGeyserArm_keeps {s0 s : State} (f : Frame) (hs : s0.Keeps s) :
    Res.Keeps s0 (execGeyserArm f s) := by
  unfold execGeyserArm
  with_reducible repeat' first | assumption | apply Res.keeps_next | apply State.recvGeyser_keeps | apply whenClocked_keeps

theorem execGeyserCancel_keeps {s0 s : State} (f : Frame) (hs : s0.Keeps s) :
    Res.Keeps s0 (execGeyserCancel f s) := by
  unfold execGeyserCancel
  with_reducible repeat' first | assumption | apply Res.keeps_next | apply State.recvGeyser_keeps | apply whenClocked_keeps

theorem State.sendReport_keeps {s0 s : State} (unsolicited : Bool) (hs : s0.Keeps s) :
    s0.Keeps (State.sendReport s unsolicited) := by
  unfold State.sendReport
  with_reducible repeat' first | assumption | apply State.nextSeq_keeps | apply State.sendFrame_keeps | apply ite_keeps

theorem execEnumDiscover_keeps {s0 s : State} (f : Frame) (hs : s0.Keeps s) :
    Res.Keeps s0 (execEnumDiscover f s) := by
  unfold execEnumDiscover
  repeat' first
    | with_reducible assumption
    | with_reducible apply Res.keeps_next
    | with_reducible apply State.passFrame_keeps
    | with_reducible apply State.setReg_keeps
    | with_reducible apply State.updLink_keeps
    | with_reducible apply State.sendReport_keeps
    | with_reducible apply whenClocked_keeps
    | refine State.Keeps.fst (State.recvAll_keeps _ _ ?_) ‹_ = _›
    | with_reducible apply ite_keeps
    | extract_lets
    | split

theorem execEnumAssign_keeps {s0 s : State} (f : Frame) (hs : s0.Keeps s) :
    Res.Keeps s0 (execEnumAssign f s) := by
  unfold execEnumAssign
  repeat' first
    | with_reducible assumption
    | with_reducible apply Res.keeps_next
    | with_reducible apply State.sendReport_keeps
    | with_reducible apply State.setReg_keeps
    | with_reducible apply State.updLink_keeps
    | with_reducible apply whenClocked_keeps
    | refine State.Keeps.fst (State.recvSummit_keeps _ _ _ _ ?_) ‹_ = _›
    | with_reducible apply ite_keeps
    | extract_lets
    | split

theorem execEnumDone_keeps {s0 s : State} (f : Frame) (hs : s0.Keeps s) :
    Res.Keeps s0 (execEnumDone f s) := by
  unfold execEnumDone
  repeat' first
    | with_reducible assumption
    | with_reducible apply Res.keeps_next
    | with_reducible apply State.updLink_keeps
    | with_reducible apply whenClocked_keeps
    | refine State.Keeps.fst (State.recvAll_keeps _ _ ?_) ‹_ = _›
    | extract_lets
    | split

theorem execUnsolicitedEnumReport_keeps {s0 s : State} (hs : s0.Keeps s) :
    Res.Keeps s0 (execUnsolicitedEnumReport s) := by
  unfold execUnsolicitedEnumReport
  repeat' first
    | with_reducible assumption
    | with_reducible apply Res.keeps_next
    | with_reducible apply State.updLink_keeps
    | with_reducible apply State.sendReport_keeps
    | with_reducible apply whenClocked_keeps
    | with_reducible apply ite_keeps

theorem State.ring_keeps {s0 s : State} (op switchCt : Nat) (hs : s0.Keeps s) :
    s0.Keeps (State.ring s op switchCt) := by
  unfold State.ring
  with_reducible repeat' first | assumption | apply State.setReg_keeps | apply State.updLink_keeps | split

theorem State.recvRing_keeps {s0 s : State} (f : Frame) (hs : s0.Keeps s) :
    s0.Keeps (State.recvRing s f) := by
  unfold State.recvRing
  with_reducible repeat' first | assumption | apply State.ring_keeps | refine State.Keeps.fst (State.recvAll_keeps _ _ ?_) ‹_ = _› | split

theorem execRingEnable_keeps {s0 s : State} (f : Frame) (hs : s0.Keeps s) :
    Res.Keeps s0 (execRingEnable f s) := by
  unfold execRingEnable
  with_reducible repeat' first | assumption | apply Res.keeps_next | apply State.recvRing_keeps | apply whenClocked_keeps

theorem execRingDisable_keeps {s0 s : State} (f : Frame) (hs : s0.Keeps s) :
    Res.Keeps s0 (execRingDisable f s) := by
  unfold execRingDisable
  with_reducible repeat' first | assumption | apply Res.keeps_next | apply State.recvRing_keeps | apply whenClocked_keeps

theorem execRingRestore_keeps {s0 s : State} (f : Frame) (hs : s0.Keeps s) :
    Res.Keeps s0 (execRingRestore f s) := by
  unfold execRingRestore
  with_reducible repeat' first | assumption | apply Res.keeps_next | apply State.recvRing_keeps | apply whenClocked_keeps

theorem execRestoreSwitch_keeps {s0 s : State} (hs : s0.Keeps s) :
    Res.Keeps s0 (execRestoreSwitch s) := by
  unfold execRestoreSwitch
  repeat' first
    | with_reducible assumption
    | with_reducible apply Res.keeps_next
    | with_reducible apply State.updLink_keeps
    | with_reducible apply State.event_keeps
    | with_reducible apply whenOn_keeps
    | with_reducible apply ite_keeps
    | extract_lets
    | split

theorem execForwardCycleTimeout_keeps {s0 s : State} (hs : s0.Keeps s) :
    Res.Keeps s0 (execForwardCycleTimeout s) := by
  unfold execForwardCycleTimeout
  with_reducible repeat' first | assumption | apply Res.keeps_next | apply State.updLink_keeps | apply whenClocked_keeps | apply ite_keeps

theorem execWrap_keeps {s0 s : State} (hs : s0.Keeps s) :
    Res.Keeps s0 (execWrap s) := by
  unfold execWrap
  repeat' first
    | with_reducible assumption
    | with_reducible apply Res.keeps_next
    | with_reducible apply State.updLink_keeps
    | with_reducible apply State.event_keeps
    | with_reducible apply State.inc_keeps
    | with_reducible apply whenClocked_keeps
    | with_reducible apply ite_keeps

theorem execEventSend_keeps {s0 s : State} (hs : s0.Keeps s) :
    Res.Keeps s0 (execEventSend s) := by
  unfold execEventSend
  repeat' first
    | with_reducible assumption
    | with_reducible apply Res.keeps_next
    | with_reducible apply State.updLink_keeps
    | with_reducible apply State.sendFrame_keeps
    | with_reducible apply whenClocked_keeps
    | with_reducible apply ite_keeps
    | extract_lets
    | split

theorem execEventLostNotice_keeps {s0 s : State} (hs : s0.Keeps s) :
    Res.Keeps s0 (execEventLostNotice s) := by
  unfold execEventLostNotice
  repeat' first
    | with_reducible assumption
    | with_reducible apply Res.keeps_next
    | with_reducible apply State.updLink_keeps
    | with_reducible apply State.event_keeps
    | with_reducible apply whenClocked_keeps
    | with_reducible apply ite_keeps

/-! ## Position -/

theorem State.updPos_keeps {s0 s : State} (f : Pos → Pos) (hs : s0.Keeps s) :
    s0.Keeps (State.updPos s f) :=
  hs.same rfl rfl rfl rfl rfl rfl rfl rfl rfl

theorem State.countEdge_keeps {s0 s : State} (t : Nat) (hs : s0.Keeps s) :
    s0.Keeps (State.countEdge s t) := by
  unfold State.countEdge
  repeat' first
    | with_reducible assumption
    | with_reducible apply State.inc_keeps
    | with_reducible apply State.raise_keeps
    | with_reducible apply State.updPos_keeps
    | with_reducible apply ite_keeps
    | extract_lets
    | split

theorem State.restartTicks_keeps {s0 s : State} (hs : s0.Keeps s) :
    s0.Keeps (State.restartTicks s) := by
  unfold State.restartTicks
  with_reducible repeat' first | assumption | intro _ | apply List.foldl_keeps | apply State.countEdge_keeps | apply State.updPos_keeps

theorem State.syncDir_keeps {s0 s : State} (hs : s0.Keeps s) :
    s0.Keeps (State.syncDir s) := by
  unfold State.syncDir
  with_reducible repeat' first | assumption | apply State.restartTicks_keeps | apply State.updPos_keeps | apply ite_keeps

theorem State.seekRef_keeps {s0 s : State} (hs : s0.Keeps s) :
    s0.Keeps (State.seekRef s) := by
  unfold State.seekRef
  with_reducible repeat' first | assumption | apply State.updPos_keeps

theorem State.reference_keeps {s0 s : State} (hs : s0.Keeps s) :
    s0.Keeps (State.reference s) := by
  unfold State.reference
  repeat' first
    | with_reducible assumption
    | with_reducible apply State.setRegI_keeps
    | with_reducible apply State.addReg_keeps
    | with_reducible apply State.inc_keeps
    | with_reducible apply State.updPos_keeps
    | with_reducible apply State.setReg_keeps
    | with_reducible apply State.raise_keeps
    | with_reducible apply State.cause_keeps
    | with_reducible apply ite_keeps

theorem State.addGap_keeps {s0 s : State} (n : Nat) (hs : s0.Keeps s) :
    s0.Keeps (State.addGap s n) := by
  unfold State.addGap
  with_reducible repeat' first | assumption | apply State.updPos_keeps

theorem State.classify_keeps {s0 s : State} (i t : Nat) (counted : Bool) (hs : s0.Keeps s) :
    s0.Keeps (State.classify s i t counted) := by
  unfold State.classify
  repeat' first
    | with_reducible assumption
    | with_reducible apply State.countEdge_keeps
    | with_reducible apply State.updPos_keeps
    | with_reducible apply State.addGap_keeps
    | with_reducible apply State.reference_keeps
    | with_reducible apply State.inc_keeps
    | with_reducible apply ite_keeps

theorem State.risingEdge_keeps {s0 s : State} (t : Nat) (counted : Bool) (hs : s0.Keeps s) :
    s0.Keeps (State.risingEdge s t counted) := by
  unfold State.risingEdge
  repeat' first
    | with_reducible assumption
    | intro _
    | with_reducible apply List.foldl_keeps
    | with_reducible apply State.countEdge_keeps
    | with_reducible apply State.updPos_keeps
    | with_reducible apply State.classify_keeps
    | with_reducible apply State.reference_keeps
    | with_reducible apply State.inc_keeps
    | with_reducible apply ite_keeps
    | extract_lets
    | split

theorem State.acceptEdge_keeps {s0 s : State} (rising : Bool) (t : Nat) (hs : s0.Keeps s) :
    s0.Keeps (State.acceptEdge s rising t) := by
  unfold State.acceptEdge
  repeat' first
    | with_reducible assumption
    | with_reducible apply State.syncDir_keeps
    | with_reducible apply State.risingEdge_keeps
    | with_reducible apply State.updPos_keeps
    | with_reducible apply State.countEdge_keeps
    | with_reducible apply ite_keeps
    | extract_lets
    | split

theorem State.syncEncOut_keeps {s0 s : State} (hs : s0.Keeps s) :
    s0.Keeps (State.syncEncOut s) := by
  unfold State.syncEncOut
  with_reducible repeat' first | assumption | apply State.updPos_keeps

theorem execEncEdge_keeps {s0 s : State} (level : Bool) (reverted : Bool) (hs : s0.Keeps s) :
    Res.Keeps s0 (execEncEdge level reverted s) := by
  unfold execEncEdge
  repeat' first
    | with_reducible assumption
    | with_reducible apply Res.keeps_next
    | with_reducible apply State.updPos_keeps
    | with_reducible apply State.inc_keeps
    | with_reducible apply State.acceptEdge_keeps
    | with_reducible apply State.syncEncOut_keeps
    | with_reducible apply whenOn_keeps
    | with_reducible apply ite_keeps

theorem execEncLineFault_keeps {s0 s : State} (hs : s0.Keeps s) :
    Res.Keeps s0 (execEncLineFault s) := by
  unfold execEncLineFault
  repeat' first
    | with_reducible assumption
    | with_reducible apply Res.keeps_next
    | with_reducible apply State.updPos_keeps
    | with_reducible apply State.cause_keeps
    | with_reducible apply whenClocked_keeps
    | with_reducible apply ite_keeps

theorem execEncLineClear_keeps {s0 s : State} (hs : s0.Keeps s) :
    Res.Keeps s0 (execEncLineClear s) := by
  unfold execEncLineClear
  with_reducible repeat' first | assumption | apply Res.keeps_next | apply State.updPos_keeps | apply State.cause_keeps | apply whenOn_keeps

theorem execEncDirEdge_keeps {s0 s : State} (level : Bool) (hs : s0.Keeps s) :
    Res.Keeps s0 (execEncDirEdge level s) := by
  unfold execEncDirEdge
  with_reducible repeat' first | assumption | apply Res.keeps_next | apply State.updPos_keeps | apply whenOn_keeps

theorem State.slipRestart_keeps {s0 s : State} (hs : s0.Keeps s) :
    s0.Keeps (State.slipRestart s) := by
  unfold State.slipRestart
  with_reducible repeat' first | assumption | apply State.updPos_keeps

theorem State.hallStep_keeps {s0 s : State} (code : Nat) (rev : Bool) (hs : s0.Keeps s) :
    s0.Keeps (State.hallStep s code rev) := by
  unfold State.hallStep
  with_reducible repeat' first | assumption | apply State.updPos_keeps

theorem execHallEdge_keeps {s0 s : State} (code : BitVec 3) (hs : s0.Keeps s) :
    Res.Keeps s0 (execHallEdge code s) := by
  unfold execHallEdge
  repeat' first
    | with_reducible assumption
    | with_reducible apply Res.keeps_next
    | with_reducible apply State.inc_keeps
    | with_reducible apply State.updPos_keeps
    | with_reducible apply State.raise_keeps
    | with_reducible apply State.hallStep_keeps
    | with_reducible apply whenOn_keeps
    | with_reducible apply ite_keeps
    | extract_lets
    | split

theorem execSlipWindowEnd_keeps {s0 s : State} (hs : s0.Keeps s) :
    Res.Keeps s0 (execSlipWindowEnd s) := by
  unfold execSlipWindowEnd
  repeat' first
    | with_reducible assumption
    | with_reducible apply Res.keeps_next
    | with_reducible apply State.updPos_keeps
    | with_reducible apply State.inc_keeps
    | with_reducible apply State.raise_keeps
    | with_reducible apply whenClocked_keeps
    | with_reducible apply ite_keeps

theorem execSpeedStop_keeps {s0 s : State} (hs : s0.Keeps s) :
    Res.Keeps s0 (execSpeedStop s) := by
  unfold execSpeedStop
  repeat' first
    | with_reducible assumption
    | with_reducible apply Res.keeps_next
    | with_reducible apply State.restartTicks_keeps
    | with_reducible apply State.updPos_keeps
    | with_reducible apply whenClocked_keeps
    | with_reducible apply ite_keeps

theorem State.setLocal_keeps {s0 s : State} (x : Nat) (hs : s0.Keeps s) :
    s0.Keeps (State.setLocal s x) := by
  unfold State.setLocal
  with_reducible repeat' first | assumption | apply State.updPos_keeps

theorem State.ssiUse_keeps {s0 s : State} (diffSt : Int) (u : SsiUse) (hs : s0.Keeps s) : s0.Keeps (State.ssiUse s diffSt u) := by
  cases u with
  | test => exact hs
  | start => exact State.setReg_keeps _ _ (State.updPos_keeps _ (State.setLocal_keeps _ hs))
  | recovery => exact ite_keeps hs (ite_keeps (State.inc_keeps _ (State.updPos_keeps _ hs)) (State.raise_keeps _ _ (State.setReg_keeps _ _ hs)))

theorem State.ssiEnd_keeps {s0 s : State} (r : SsiRes) (diffSt : Int) (hs : s0.Keeps s) :
    s0.Keeps (State.ssiEnd s r diffSt) := by
  unfold State.ssiEnd
  extract_lets g fr f s1
  have h1 : s0.Keeps s1 := State.raise_keeps 0x27 0 (State.inc_keeps Key.SSI_FAILED (State.setReg_keeps Key.SSI_RESULT r.code hs))
  have idle : ∀ t, s0.Keeps t → s0.Keeps (f t) := fun t h => State.updPos_keeps _ h
  clear_value f
  refine ite_keeps (idle _ ?_) (ite_keeps (State.updPos_keeps _ hs) (idle _ ?_))
  · exact List.foldl_keeps (fun t a h => State.ssiUse_keeps _ _ h) _ (State.setReg_keeps _ _ hs)
  · exact ite_keeps (State.setReg_keeps _ _ h1) h1

theorem State.ssiBegin_keeps {s0 s : State} (first : Option SsiShot) (hs : s0.Keeps s) :
    s0.Keeps (State.ssiBegin s first) := by
  unfold State.ssiBegin
  with_reducible repeat' first | assumption | apply State.inc_keeps | apply State.updPos_keeps

theorem State.ssiTick_keeps {s0 s : State} (hs : s0.Keeps s) : s0.Keeps (State.ssiTick s) := by
  unfold State.ssiTick
  cases s.pos.ssi.wait with
  | none => exact hs
  | some w => exact ite_keeps hs (ite_keeps (State.setReg_keeps _ _ (State.updPos_keeps _ hs)) (State.ssiEnd_keeps _ _ hs))

theorem State.ssiStart_keeps {s0 s : State} (u : SsiUse) (hs : s0.Keeps s) :
    s0.Keeps (State.ssiStart s u) := by
  unfold State.ssiStart
  with_reducible repeat' first | assumption | apply State.updPos_keeps | apply State.ssiBegin_keeps | apply ite_keeps

theorem execSsiReadDone_keeps {s0 s : State} (w : SsiWire) (ready : Option Nat) (hs : s0.Keeps s) : Res.Keeps s0 (execSsiReadDone w ready s) := by
  unfold execSsiReadDone
  refine whenClocked_keeps hs (Res.keeps_next (ite_keeps hs ?_))
  extract_lets word s1 c m src shot d s2
  have h1 : s0.Keeps s1 := State.updPos_keeps _ (State.setReg_keeps _ _ hs)
  have h2 : s0.Keeps s2 := State.setRegI_keeps _ _ (State.setReg_keeps _ _ h1)
  clear_value s1 s2
  refine ite_keeps (State.ssiEnd_keeps _ _ h1) (ite_keeps (State.ssiEnd_keeps _ _ h2) (ite_keeps (State.ssiEnd_keeps _ _ h2) ?_))
  cases s.pos.ssi.first with
  | none => exact State.ssiBegin_keeps _ h2
  | some a => exact ite_keeps (State.ssiEnd_keeps _ _ h2) (State.ssiEnd_keeps _ _ h2)

theorem execSsiRetry_keeps {s0 s : State} (ready : Option Nat) (hs : s0.Keeps s) :
    Res.Keeps s0 (execSsiRetry ready s) := by
  unfold execSsiRetry
  repeat' first
    | with_reducible assumption
    | with_reducible apply Res.keeps_next
    | with_reducible apply State.updPos_keeps
    | with_reducible apply State.ssiBegin_keeps
    | with_reducible apply whenClocked_keeps
    | with_reducible apply ite_keeps

theorem State.encConfig_keeps {s0 s : State} (key old : Nat) (hs : s0.Keeps s) :
    s0.Keeps (State.encConfig s key old) := by
  unfold State.encConfig
  repeat' first
    | with_reducible assumption
    | with_reducible apply State.updPos_keeps
    | with_reducible apply State.ssiStart_keeps
    | with_reducible apply State.setReg_keeps
    | with_reducible apply State.cause_keeps
    | with_reducible apply State.seekRef_keeps
    | with_reducible apply ite_keeps

theorem State.ssiCommandWrite_keeps {s0 s : State} (hs : s0.Keeps s) :
    s0.Keeps (State.ssiCommandWrite s) := by
  unfold State.ssiCommandWrite
  with_reducible repeat' first | assumption | apply State.ssiStart_keeps | split

theorem State.dirConfig_keeps {s0 s : State} (key old : Nat) (hs : s0.Keeps s) :
    s0.Keeps (State.dirConfig s key old) := by
  unfold State.dirConfig
  with_reducible repeat' first | assumption | apply State.slipRestart_keeps | apply State.syncDir_keeps | apply ite_keeps

theorem State.ssiModulusWrite_keeps {s0 s : State} (hs : s0.Keeps s) :
    s0.Keeps (State.ssiModulusWrite s) := by
  unfold State.ssiModulusWrite
  with_reducible repeat' first | assumption | apply State.updPos_keeps

theorem State.presetLocal_keeps {s0 s : State} (x : Nat) (hs : s0.Keeps s) :
    s0.Keeps (State.presetLocal s x) := by
  unfold State.presetLocal
  with_reducible repeat' first | assumption | apply State.setLocal_keeps

theorem State.setRole_keeps {s0 s : State} (v : Nat) (hs : s0.Keeps s) :
    s0.Keeps (State.setRole s v) := by
  unfold State.setRole
  repeat' first
    | with_reducible assumption
    | with_reducible apply State.presetLocal_keeps
    | with_reducible apply State.setReg_keeps
    | with_reducible apply State.updPos_keeps
    | with_reducible apply ite_keeps

theorem State.posRoleWrite_keeps {s0 s : State} (hs : s0.Keeps s) :
    s0.Keeps (State.posRoleWrite s) := by
  unfold State.posRoleWrite
  repeat' first
    | with_reducible assumption
    | with_reducible apply State.updPos_keeps
    | with_reducible apply State.presetLocal_keeps
    | with_reducible apply State.setReg_keeps
    | with_reducible apply ite_keeps

theorem State.posPresetWrite_keeps {s0 s : State} (hs : s0.Keeps s) :
    s0.Keeps (State.posPresetWrite s) := by
  unfold State.posPresetWrite
  with_reducible repeat' first | assumption | apply State.presetLocal_keeps | apply State.setReg_keeps

theorem execRoleSwitch_keeps {s0 s : State} (hs : s0.Keeps s) :
    Res.Keeps s0 (execRoleSwitch s) := by
  unfold execRoleSwitch
  repeat' first
    | with_reducible assumption
    | with_reducible apply Res.keeps_next
    | with_reducible apply State.setRole_keeps
    | with_reducible apply whenClocked_keeps
    | with_reducible apply ite_keeps
    | extract_lets
    | split

theorem State.updRecv_keeps {s0 s : State} (f : Recv → Recv) (hs : s0.Keeps s) :
    s0.Keeps (State.updRecv s f) :=
  hs.same rfl rfl rfl rfl rfl rfl rfl rfl rfl

theorem State.dualSource_keeps {s0 s : State} (hs : s0.Keeps s) :
    s0.Keeps (State.dualSource s) := by
  unfold State.dualSource
  with_reducible repeat' first | assumption | apply State.cause_keeps | apply State.updRecv_keeps

theorem State.offerPos_keeps {s0 s : State} (b : Bcast) (own : Bool) (hs : s0.Keeps s) :
    s0.Keeps (State.offerPos s b own).1 := by
  unfold State.offerPos
  repeat' first
    | with_reducible assumption
    | with_reducible apply State.updRecv_keeps
    | with_reducible apply State.dualSource_keeps
    | with_reducible apply State.setReg_keeps
    | with_reducible apply ite_keeps₁
    | with_reducible apply ite_keeps

theorem execPos_keeps {s0 s : State} (f : Frame) (hs : s0.Keeps s) :
    Res.Keeps s0 (execPos f s) := by
  unfold execPos
  repeat' first
    | with_reducible assumption
    | with_reducible apply Res.keeps_next
    | with_reducible apply State.inc_keeps
    | with_reducible apply State.forward_keeps
    | with_reducible apply State.offerPos_keeps
    | with_reducible apply State.updLink_keeps
    | with_reducible apply whenClocked_keeps
    | refine State.Keeps.fst (State.recvCheck_keeps _ _ ?_) ‹_ = _›
    | with_reducible apply ite_keeps
    | extract_lets
    | split

theorem execPosSend_keeps {s0 s : State} (hs : s0.Keeps s) :
    Res.Keeps s0 (execPosSend s) := by
  unfold execPosSend
  repeat' first
    | with_reducible assumption
    | with_reducible apply Res.keeps_next
    | with_reducible apply State.updLink_keeps
    | with_reducible apply State.nextSeq_keeps
    | with_reducible apply State.sendFrame_keeps
    | with_reducible apply State.offerPos_keeps
    | with_reducible apply whenClocked_keeps
    | with_reducible apply ite_keeps
    | extract_lets
    | split

theorem State.samplePos_keeps {s0 s : State} (hs : s0.Keeps s) :
    s0.Keeps (State.samplePos s) := by
  unfold State.samplePos
  with_reducible repeat' first | assumption | apply State.syncDir_keeps | apply State.updPos_keeps | apply ite_keeps

theorem execChainCycleEnd_keeps {s0 s : State} (hs : s0.Keeps s) :
    Res.Keeps s0 (execChainCycleEnd s) := by
  unfold execChainCycleEnd
  repeat' first
    | with_reducible assumption
    | with_reducible apply Res.keeps_next
    | with_reducible apply State.inc_keeps
    | with_reducible apply State.updRecv_keeps
    | with_reducible apply State.cause_keeps
    | with_reducible apply State.updLink_keeps
    | with_reducible apply State.samplePos_keeps
    | with_reducible apply whenClocked_keeps
    | with_reducible apply ite_keeps
    | extract_lets
    | split

theorem State.applyPos_keeps {s0 s : State} (hs : s0.Keeps s) :
    s0.Keeps (State.applyPos s) := by
  unfold State.applyPos
  with_reducible repeat' first | assumption | apply State.updRecv_keeps | apply State.inc_keeps | apply ite_keeps | split

/-! ## Grid, boundaries, compare units -/

theorem State.updGrid_keeps {s0 s : State} (f : Grid → Grid) (hs : s0.Keeps s) :
    s0.Keeps (State.updGrid s f) :=
  hs.same rfl rfl rfl rfl rfl rfl rfl rfl rfl

theorem State.setupGrid_keeps {s0 s : State} (hs : s0.Keeps s) :
    s0.Keeps (State.setupGrid s) := by
  unfold State.setupGrid
  with_reducible repeat' first | assumption | apply State.updGrid_keeps

theorem State.markDict_keeps {s0 s : State} (c : Commit) (f : Nat → Bool → Bool) (hs : s0.Keeps s) :
    s0.Keeps (State.markDict s c f) :=
  hs.same rfl rfl rfl rfl rfl rfl rfl rfl rfl

theorem State.markPending_keeps {s0 s : State} (c : Commit) (f : Nat → Bool → Bool) (hs : s0.Keeps s) :
    s0.Keeps (State.markPending s c f) := by
  unfold State.markPending
  repeat' first
    | with_reducible assumption
    | with_reducible exact le_rfl
    | with_reducible exact id
    | with_reducible exact Otp.Grows.refl _
    | with_reducible apply State.markDict_keeps
    | extract_lets
    | split
    | with_reducible apply State.keeps_mk

theorem State.markAll_keeps {s0 s : State} (f : Nat → Bool → Bool) (hs : s0.Keeps s) :
    s0.Keeps (State.markAll s f) := by
  unfold State.markAll
  with_reducible repeat' first | assumption | apply State.markPending_keeps

theorem State.reacceptAll_keeps {s0 s : State} (hs : s0.Keeps s) :
    s0.Keeps (State.reacceptAll s) :=
  hs.same rfl rfl rfl rfl rfl rfl rfl rfl rfl

theorem State.dropFreeze_keeps {s0 s : State} (hs : s0.Keeps s) :
    s0.Keeps (State.dropFreeze s) := by
  unfold State.dropFreeze
  with_reducible repeat' first | assumption | apply State.markAll_keeps | apply State.updGrid_keeps

theorem State.gridEnableWrite_keeps {s0 s : State} (old : Nat) (hs : s0.Keeps s) :
    s0.Keeps (State.gridEnableWrite s old) := by
  unfold State.gridEnableWrite
  repeat' first
    | with_reducible assumption
    | with_reducible apply State.setupGrid_keeps
    | with_reducible apply State.setReg_keeps
    | with_reducible apply State.updGrid_keeps
    | with_reducible apply State.reacceptAll_keeps
    | with_reducible apply State.dropFreeze_keeps
    | with_reducible apply ite_keeps

theorem State.freezeNow_keeps {s0 s : State} (c : Commit) (hs : s0.Keeps s) :
    s0.Keeps (State.freezeNow s c) := by
  unfold State.freezeNow
  repeat' first
    | with_reducible assumption
    | with_reducible apply State.markPending_keeps
    | with_reducible apply State.updGrid_keeps
    | with_reducible apply State.inc_keeps
    | with_reducible apply ite_keeps

theorem State.freezeAll_keeps {s0 s : State} (hs : s0.Keeps s) :
    s0.Keeps (State.freezeAll s) := by
  unfold State.freezeAll
  with_reducible repeat' first | assumption | apply State.freezeNow_keeps

theorem execFreezePoint_keeps {s0 s : State} (cls : Fin 3) (hs : s0.Keeps s) :
    Res.Keeps s0 (execFreezePoint cls s) := by
  unfold execFreezePoint
  with_reducible repeat' first | assumption | apply Res.keeps_next | apply State.freezeNow_keeps | apply whenClocked_keeps

theorem State.queueSheetNow_keeps {s0 s : State} (q : Nat) (hs : s0.Keeps s) :
    s0.Keeps (State.queueSheetNow s q) := by
  unfold State.queueSheetNow
  repeat' first
    | with_reducible assumption
    | with_reducible apply State.inc_keeps
    | with_reducible apply State.raise_keeps
    | with_reducible apply State.updGrid_keeps
    | with_reducible apply State.freezeAll_keeps
    | with_reducible apply ite_keeps

theorem State.queueWaiting_keeps {s0 s : State} (hs : s0.Keeps s) :
    s0.Keeps (State.queueWaiting s) := by
  unfold State.queueWaiting
  with_reducible repeat' first | assumption | intro _ | apply List.foldl_keeps | apply State.queueSheetNow_keeps | apply State.updGrid_keeps

theorem State.queueSheet_keeps {s0 s : State} (q : Nat) (hs : s0.Keeps s) :
    s0.Keeps (State.queueSheet s q) := by
  unfold State.queueSheet
  with_reducible repeat' first | assumption | apply State.updGrid_keeps | apply State.queueSheetNow_keeps | apply ite_keeps

theorem execCueEdge_keeps {s0 s : State} (input : Fin 2) (level : Bool) (hs : s0.Keeps s) :
    Res.Keeps s0 (execCueEdge input level s) := by
  unfold execCueEdge
  repeat' first
    | with_reducible assumption
    | with_reducible apply Res.keeps_next
    | with_reducible apply State.inc_keeps
    | with_reducible apply State.queueSheet_keeps
    | with_reducible apply whenClocked_keeps
    | with_reducible apply ite_keeps

theorem State.overspeedPort_keeps {s0 s : State} (p : Nat) (hs : s0.Keeps s) :
    s0.Keeps (State.overspeedPort p s) := by
  unfold State.overspeedPort
  repeat' first
    | with_reducible assumption
    | with_reducible apply State.setRegBit_keeps
    | with_reducible apply State.updGrid_keeps
    | with_reducible apply State.cause_keeps
    | with_reducible apply ite_keeps

theorem State.overspeed_keeps {s0 s : State} (hs : s0.Keeps s) :
    s0.Keeps (State.overspeed s) := by
  unfold State.overspeed
  with_reducible repeat' first | assumption | intro _ | apply State.forEach_keeps | apply State.overspeedPort_keeps

theorem State.passStart_keeps {s0 s : State} (hs : s0.Keeps s) :
    s0.Keeps (State.passStart s) := by
  unfold State.passStart
  with_reducible repeat' first | assumption | apply State.inc_keeps | apply State.setupGrid_keeps | apply ite_keeps

theorem State.cmpFlag_keeps {s0 s : State} (c i : Nat) (b : Bool) (hs : s0.Keeps s) :
    s0.Keeps (State.cmpFlag s c i b) := by
  unfold State.cmpFlag
  with_reducible repeat' first | assumption | apply State.setRegBit_keeps

theorem State.cmpArm_keeps {s0 s : State} (c : Nat) (hs : s0.Keeps s) :
    s0.Keeps (State.cmpArm s c) := by
  unfold State.cmpArm
  repeat' first
    | with_reducible assumption
    | with_reducible apply State.setReg_keeps
    | with_reducible apply State.updCmp_keeps
    | with_reducible apply State.cmpFlag_keeps
    | with_reducible apply ite_keeps

theorem State.cmpCtrlWrite_keeps {s0 s : State} (c old : Nat) (hs : s0.Keeps s) :
    s0.Keeps (State.cmpCtrlWrite s c old) := by
  unfold State.cmpCtrlWrite
  with_reducible repeat' first | assumption | apply State.cmpArm_keeps | apply State.updCmp_keeps | apply ite_keeps

theorem State.cmpTargetWrite_keeps {s0 s : State} (c : Nat) (hs : s0.Keeps s) :
    s0.Keeps (State.cmpTargetWrite s c) := by
  unfold State.cmpTargetWrite
  with_reducible repeat' first | assumption | apply State.updCmp_keeps | apply State.cmpArm_keeps | apply ite_keeps

theorem State.cmpTick_keeps {s0 s : State} (hs : s0.Keeps s) :
    s0.Keeps (State.cmpTick s) :=
  hs.same rfl rfl rfl rfl rfl rfl rfl rfl rfl

theorem State.cmpAdvance_keeps {s0 s : State} (c : Nat) (hs : s0.Keeps s) :
    s0.Keeps (State.cmpAdvance s c) := by
  unfold State.cmpAdvance
  repeat' first
    | with_reducible assumption
    | with_reducible apply State.setReg_keeps
    | with_reducible apply State.updCmp_keeps
    | with_reducible apply State.addReg_keeps
    | with_reducible apply State.cmpFlag_keeps
    | with_reducible apply ite_keeps

theorem State.cmpDone_keeps {s0 s : State} (c : Nat) (hs : s0.Keeps s) :
    s0.Keeps (State.cmpDone s c) := by
  unfold State.cmpDone
  with_reducible repeat' first | assumption | apply State.setRegBit_keeps | apply State.updCmp_keeps | apply State.cmpFlag_keeps

theorem State.cmpAfter_keeps {s0 s : State} (c : Nat) (hs : s0.Keeps s) :
    s0.Keeps (State.cmpAfter s c) := by
  unfold State.cmpAfter
  repeat' first
    | with_reducible assumption
    | with_reducible apply State.cmpDone_keeps
    | with_reducible apply State.cmpAdvance_keeps
    | with_reducible apply State.updCmp_keeps
    | with_reducible apply State.setReg_keeps
    | with_reducible apply ite_keeps

theorem State.endPulses_keeps {s0 s : State} (k : Nat) (hs : s0.Keeps s) :
    s0.Keeps (State.endPulses s k) := by
  unfold State.endPulses
  with_reducible repeat' first | assumption | intro _ | apply State.forEach_keeps | apply State.updCmp_keeps | apply ite_keeps

theorem State.setGpo_keeps {s0 s : State} (k : Nat) (b : Bool) (hs : s0.Keeps s) :
    s0.Keeps (State.setGpo s k b) :=
  hs.same rfl rfl rfl rfl rfl rfl rfl rfl rfl

theorem State.setTrig_keeps {s0 s : State} (cam : Nat) (b : Bool) (hs : s0.Keeps s) :
    s0.Keeps (State.setTrig s cam b) :=
  hs.same rfl rfl rfl rfl rfl rfl rfl rfl rfl

theorem State.cmpPinAction_keeps {s0 s : State} (c : Nat) (hs : s0.Keeps s) :
    s0.Keeps (State.cmpPinAction s c) := by
  unfold State.cmpPinAction
  repeat' first
    | with_reducible assumption
    | with_reducible apply State.setGpo_keeps
    | with_reducible apply State.endPulses_keeps
    | with_reducible apply State.updCmp_keeps
    | with_reducible apply State.inc_keeps
    | with_reducible apply State.cmpFlag_keeps
    | with_reducible apply State.setTrig_keeps
    | with_reducible apply ite_keeps
    | extract_lets
    | split

theorem State.clearOutput_keeps {s0 s : State} (o : Nat) (hs : s0.Keeps s) :
    s0.Keeps (State.clearOutput s o) := by
  unfold State.clearOutput
  repeat' first
    | with_reducible assumption
    | with_reducible apply State.endPulses_keeps
    | with_reducible apply State.setGpo_keeps
    | with_reducible apply State.setTrig_keeps
    | with_reducible apply ite_keeps

theorem execCmpPulseEnd_keeps {s0 s : State} (c : Fin 32) (hs : s0.Keeps s) :
    Res.Keeps s0 (execCmpPulseEnd c s) := by
  unfold execCmpPulseEnd
  repeat' first
    | with_reducible assumption
    | intro _
    | with_reducible apply Res.keeps_next
    | with_reducible apply List.foldl_keeps
    | with_reducible apply State.clearOutput_keeps
    | with_reducible apply whenClocked_keeps

end Sys2Proof.Machine
end

