-- ==== Sys2Proof/Laws/KeepsPrint.lean ====
section
/-! SUPPORT. `Keeps` (Laws/Keeps.lean) for memories, ingress, screening, waveforms, firing, thermal control and calibration. -/

namespace Sys2Proof.Machine

/-! ## Memories -/

theorem State.updMem_keeps {s0 s : State} (f : Mem → Mem) (hs : s0.Keeps s) (hf : ∀ m : Mem, m.canon = true → (f m).canon = true) :
    s0.Keeps (State.updMem s f) :=
  ⟨hs.ident, hs.pending, hs.clk, hs.free, hs.freeT, hs.regs, fun h => hf _ (hs.mem h), hs.tabs, hs.otp⟩

theorem State.putScratch_keeps {s0 s : State} (x : Nat) (w : Word) (hs : s0.Keeps s) :
    s0.Keeps (State.putScratch s x w) := by
  unfold State.putScratch
  with_reducible repeat' first | assumption | exact fun _ h => Mem.canon_putScratch h _ _ rfl rfl | apply State.updMem_keeps

theorem State.loopWord_keeps {s0 s : State} (x : Nat) (w : Word) (hs : s0.Keeps s) : s0.Keeps (State.loopWord s x w) := by
  unfold State.loopWord
  with_reducible repeat' first | assumption | intro _ | apply State.updLport_keeps | apply State.forEach_keeps | apply ite_keeps

theorem State.readScratch_keeps {s0 s : State} (portB : Bool) (x : Nat) (hs : s0.Keeps s) :
    s0.Keeps (State.readScratch s portB x).1 := by
  unfold State.readScratch
  with_reducible repeat' first | assumption | apply State.loopWord_keeps | apply State.inc_keeps | apply State.raise_keeps | apply State.setReg_keeps | split

theorem State.writeScratch_keeps {s0 s : State} (portB : Bool) (a : Nat) (v : Word) (hs : s0.Keeps s) :
    s0.Keeps (State.writeScratch s portB a v).1 := by
  unfold State.writeScratch
  with_reducible repeat' first | assumption | apply State.loopWord_keeps | apply State.putScratch_keeps | apply State.readScratch_keeps | apply ite_keeps | apply ite_keeps₁

theorem State.portA_keeps {s0 s : State} (a : Nat) (hs : s0.Keeps s) :
    s0.Keeps (State.portA s a) := by
  unfold State.portA
  with_reducible repeat' first | assumption | apply State.pmc_keeps

theorem State.accessScratch_keeps {s0 s : State} (portB : Bool) (a : ScratchAcc) (hs : s0.Keeps s) :
    s0.Keeps (State.accessScratch s portB a).1 := by
  unfold State.accessScratch
  repeat' first
    | with_reducible assumption
    | with_reducible apply State.portA_keeps
    | with_reducible apply State.writeScratch_keeps
    | with_reducible apply State.readScratch_keeps
    | with_reducible apply ite_keeps₁
    | with_reducible apply ite_keeps

theorem State.markB_keeps {s0 s : State} (b : Option ScratchAcc) (hs : s0.Keeps s) :
    s0.Keeps (State.markB s b) := by
  unfold State.markB
  with_reducible repeat' first | assumption | exact fun _ h => Mem.canon_same h rfl rfl | apply State.updMem_keeps | split

theorem State.scratchPorts_keeps {s0 s : State} (a b : Option ScratchAcc) (hs : s0.Keeps s) :
    s0.Keeps (State.scratchPorts s a b) := by
  unfold State.scratchPorts
  repeat' first
    | with_reducible assumption
    | with_reducible apply State.accessScratch_keeps
    | with_reducible apply State.emit_keeps
    | with_reducible apply State.portA_keeps
    | with_reducible apply State.inc_keeps
    | with_reducible apply ite_keeps
    | split

theorem execScratchAccess_keeps {s0 s : State} (a : Option ScratchAcc) (b : Option ScratchAcc) (hs : s0.Keeps s) :
    Res.Keeps s0 (execScratchAccess a b s) := by
  unfold execScratchAccess
  repeat' first
    | with_reducible assumption
    | with_reducible apply Res.keeps_next
    | with_reducible apply State.scratchPorts_keeps
    | with_reducible apply State.markB_keeps
    | with_reducible apply whenClocked_keeps

theorem execScrubVisit_keeps {s0 s : State} (hs : s0.Keeps s) :
    Res.Keeps s0 (execScrubVisit s) := by
  unfold execScrubVisit
  repeat' first
    | with_reducible assumption
    | exact fun _ h => Mem.canon_same h rfl rfl
    | with_reducible apply Res.keeps_next
    | with_reducible apply State.readScratch_keeps
    | with_reducible apply State.putScratch_keeps
    | with_reducible apply State.updMem_keeps
    | with_reducible apply whenClocked_keeps
    | with_reducible apply ite_keeps

theorem State.bmOutOfRange_keeps {s0 s : State} (hs : s0.Keeps s) :
    s0.Keeps (State.bmOutOfRange s) := by
  unfold State.bmOutOfRange
  with_reducible repeat' first | assumption | apply State.inc_keeps | apply State.raise_keeps

theorem State.readBulk_keeps {s0 s : State} (a : Nat) (hs : s0.Keeps s) :
    s0.Keeps (State.readBulk s a).1 := by
  unfold State.readBulk
  repeat' first
    | with_reducible assumption
    | with_reducible apply State.bmOutOfRange_keeps
    | with_reducible apply State.inc_keeps
    | with_reducible apply State.raise_keeps
    | with_reducible apply State.setReg_keeps
    | with_reducible apply ite_keeps₁
    | extract_lets
    | split

theorem State.putBulk_keeps {s0 s : State} (a : Nat) (w : Word) (hs : s0.Keeps s) : s0.Keeps (State.putBulk s a w) :=
  State.updMem_keeps _ hs fun m h => Mem.canon_putBulk (m := m) h a (some w) rfl rfl

theorem State.writeBulk_keeps {s0 s : State} (a : Nat) (w : Word) (hs : s0.Keeps s) :
    s0.Keeps (State.writeBulk s a w) := by
  unfold State.writeBulk
  repeat' first
    | with_reducible assumption
    | exact fun _ h => Mem.canon_same h rfl rfl
    | with_reducible apply State.updMem_keeps
    | with_reducible apply State.bmOutOfRange_keeps
    | with_reducible apply State.putBulk_keeps
    | with_reducible apply ite_keeps

theorem State.writeBulks_keeps {s0 s : State} (a : Nat) (ws : List Word) (hs : s0.Keeps s) :
    s0.Keeps (State.writeBulks s a ws) := by
  unfold State.writeBulks
  with_reducible repeat' first | assumption | intro _ | apply List.foldl_keeps | apply State.writeBulk_keeps

theorem State.pmcBulk_keeps {s0 s : State} (write : Bool) (who a n : Nat) (hs : s0.Keeps s) :
    s0.Keeps (State.pmcBulk s write who a n) := by
  unfold State.pmcBulk
  with_reducible repeat' first | assumption | apply State.pmc_keeps

theorem State.bmTrainBegin_keeps {s0 s : State} (hs : s0.Keeps s) :
    s0.Keeps (State.bmTrainBegin s) := by
  unfold State.bmTrainBegin
  repeat' first
    | with_reducible assumption
    | with_reducible exact le_rfl
    | with_reducible exact id
    | with_reducible exact Otp.Grows.refl _
    | exact Nat.le_add_right _ _
    | exact fun _ h => Mem.canon_noBulk h rfl rfl
    | with_reducible apply State.cause_keeps
    | with_reducible apply State.setReg_keeps
    | with_reducible apply State.updMem_keeps
    | extract_lets
    | with_reducible apply State.keeps_mk

theorem State.bmServe_keeps {s0 s : State} (hs : s0.Keeps s) :
    s0.Keeps (State.bmServe s) := by
  unfold State.bmServe
  repeat' first
    | with_reducible assumption
    | exact fun _ h => Mem.canon_same h rfl rfl
    | intro _
    | with_reducible apply List.foldl_keeps
    | with_reducible apply State.writeBulk_keeps
    | with_reducible apply State.updMem_keeps
    | with_reducible apply State.forEach_keeps
    | with_reducible apply State.updCam_keeps

theorem execBmTrainingDone_keeps {s0 s : State} (failMask : BitVec 10) (hs : s0.Keeps s) :
    Res.Keeps s0 (execBmTrainingDone failMask s) := by
  unfold execBmTrainingDone
  repeat' first
    | with_reducible assumption
    | with_reducible apply Res.keeps_next
    | with_reducible apply State.setReg_keeps
    | with_reducible apply State.bmServe_keeps
    | with_reducible apply State.cause_keeps
    | with_reducible apply whenClocked_keeps
    | with_reducible apply ite_keeps

theorem execBmAlert_keeps {s0 s : State} (hs : s0.Keeps s) :
    Res.Keeps s0 (execBmAlert s) := by
  unfold execBmAlert
  repeat' first
    | with_reducible assumption
    | exact fun _ h => Mem.canon_same h rfl rfl
    | with_reducible apply Res.keeps_next
    | with_reducible apply State.inc_keeps
    | with_reducible apply State.updMem_keeps
    | with_reducible apply State.raise_keeps
    | with_reducible apply whenClocked_keeps
    | with_reducible apply ite_keeps

theorem execBmRefresh_keeps {s0 s : State} (hs : s0.Keeps s) :
    Res.Keeps s0 (execBmRefresh s) := by
  unfold execBmRefresh
  repeat' first
    | with_reducible assumption
    | exact fun _ h => Mem.canon_same h rfl rfl
    | with_reducible apply Res.keeps_next
    | with_reducible apply State.updMem_keeps
    | with_reducible apply whenClocked_keeps
    | with_reducible apply ite_keeps

theorem State.scrubWord_keeps {s0 s : State} (a : Nat) (hs : s0.Keeps s) :
    s0.Keeps (State.scrubWord a s) := by
  unfold State.scrubWord
  with_reducible repeat' first | assumption | apply State.readBulk_keeps | apply State.putBulk_keeps | apply ite_keeps

theorem execBmScrubRead_keeps {s0 s : State} (hs : s0.Keeps s) :
    Res.Keeps s0 (execBmScrubRead s) := by
  unfold execBmScrubRead
  repeat' first
    | with_reducible assumption
    | exact fun _ h => Mem.canon_same h rfl rfl
    | intro _
    | with_reducible apply Res.keeps_next
    | with_reducible apply State.forEach_keeps
    | with_reducible apply State.scrubWord_keeps
    | with_reducible apply State.updMem_keeps
    | with_reducible apply whenClocked_keeps
    | with_reducible apply ite_keeps

theorem execBmTrackCheck_keeps {s0 s : State} (moved : Bool) (hs : s0.Keeps s) :
    Res.Keeps s0 (execBmTrackCheck moved s) := by
  unfold execBmTrackCheck
  repeat' first
    | with_reducible assumption
    | with_reducible apply Res.keeps_next
    | with_reducible apply State.inc_keeps
    | with_reducible apply State.bmServe_keeps
    | with_reducible apply whenClocked_keeps
    | with_reducible apply ite_keeps

theorem execBmZqShort_keeps {s0 s : State} (hs : s0.Keeps s) :
    Res.Keeps s0 (execBmZqShort s) := by
  unfold execBmZqShort
  with_reducible repeat' first | assumption | apply Res.keeps_next

/-! ## Ingress -/

theorem State.updIngress_keeps {s0 s : State} (f : Ingress → Ingress) (hs : s0.Keeps s) :
    s0.Keeps (State.updIngress s f) :=
  hs.same rfl rfl rfl rfl rfl rfl rfl rfl rfl

theorem State.clearTags_keeps {s0 s : State} (q lo n : Nat) (hs : s0.Keeps s) :
    s0.Keeps (State.clearTags s q lo n) := by
  unfold State.clearTags
  with_reducible repeat' first | assumption | intro _ | apply State.forEach_keeps | apply State.writeBulk_keeps

theorem State.freeBelow_keeps {s0 s : State} (q e : Nat) (hs : s0.Keeps s) :
    s0.Keeps (State.freeBelow s q e) := by
  unfold State.freeBelow
  with_reducible repeat' first | assumption | apply State.updIngress_keeps | apply State.addReg_keeps

theorem State.setBottom_keeps {s0 s : State} (q b : Nat) (afresh : Bool) (hs : s0.Keeps s) :
    s0.Keeps (State.setBottom s q b afresh) := by
  unfold State.setBottom
  with_reducible repeat' first | assumption | apply State.updPlane_keeps | apply State.freeBelow_keeps

theorem State.windowPlane_keeps {s0 s : State} (start : Bool) (q : Nat) (hs : s0.Keeps s) :
    s0.Keeps (State.windowPlane start q s) := by
  unfold State.windowPlane
  generalize s.planePairs q = l
  extract_lets rev l' n s1 ends e f p s2 b depth sg lead m
  clear_value l'
  cases l' with
  | nil =>
    have h1 : s0.Keeps s1 := ite_keeps (State.setBottom_keeps _ _ _ hs) (State.freeBelow_keeps _ _ (State.updPlane_keeps _ _ hs))
    exact State.updPlane_keeps _ _ h1
  | cons e l =>
    have h1 : s0.Keeps s2 := ite_keeps (State.setBottom_keeps _ _ _ hs) (ite_keeps (State.setBottom_keeps _ _ _ hs) hs)
    exact State.updPlane_keeps _ _ h1

theorem State.judgeShallow_keeps {s0 s : State} (handed : Bool) (q : Nat) (hs : s0.Keeps s) :
    s0.Keeps (State.judgeShallow handed q s) := by
  unfold State.judgeShallow
  with_reducible repeat' first | assumption | apply State.cause_keeps | apply ite_keeps

theorem State.windows_keeps {s0 s : State} (start : Bool) (hs : s0.Keeps s) :
    s0.Keeps (State.windows s start) := by
  unfold State.windows
  repeat' first
    | with_reducible assumption
    | intro _
    | with_reducible apply State.forEach_keeps
    | with_reducible apply State.updPlane_keeps
    | with_reducible apply State.windowPlane_keeps
    | with_reducible apply State.judgeShallow_keeps
    | with_reducible apply ite_keeps

theorem State.windowsHanded_keeps {s0 s : State} (hs : s0.Keeps s) :
    s0.Keeps (State.windowsHanded s) := by
  unfold State.windowsHanded
  repeat' first
    | with_reducible assumption
    | intro _
    | with_reducible apply State.windows_keeps
    | with_reducible apply State.forEach_keeps
    | with_reducible apply State.judgeShallow_keeps

theorem State.relayout_keeps {s0 s : State} (l : List Nat) (hs : s0.Keeps s) :
    s0.Keeps (State.relayout s l) := by
  unfold State.relayout
  repeat' first
    | with_reducible assumption
    | intro _
    | with_reducible apply State.updIngress_keeps
    | with_reducible apply State.forEach_keeps
    | with_reducible apply State.updIlane_keeps
    | with_reducible apply State.setReg_keeps
    | with_reducible apply State.windows_keeps

theorem execIngressReady_keeps {s0 s : State} (hs : s0.Keeps s) :
    Res.Keeps s0 (execIngressReady s) := by
  unfold execIngressReady
  repeat' first
    | with_reducible assumption
    | intro _
    | with_reducible apply Res.keeps_next
    | with_reducible apply State.forEach_keeps
    | with_reducible apply State.clearTags_keeps
    | with_reducible apply State.updIngress_keeps
    | with_reducible apply State.setReg_keeps
    | with_reducible apply State.windows_keeps
    | with_reducible apply whenClocked_keeps
    | with_reducible apply ite_keeps

theorem State.laneEnableWrite_keeps {s0 s : State} (hs : s0.Keeps s) :
    s0.Keeps (State.laneEnableWrite s) := by
  unfold State.laneEnableWrite
  repeat' first
    | with_reducible assumption
    | intro _
    | with_reducible apply State.forEach_keeps
    | with_reducible apply State.downLane_keeps
    | with_reducible apply State.updLane_keeps
    | with_reducible apply ite_keeps

theorem State.passBanks_keeps {s0 s : State} (hs : s0.Keeps s) :
    s0.Keeps (State.passBanks s) := by
  unfold State.passBanks
  repeat' first
    | with_reducible assumption
    | intro _
    | with_reducible apply State.updIngress_keeps
    | with_reducible apply State.addReg_keeps
    | with_reducible apply State.forEach_keeps
    | with_reducible apply State.updPlane_keeps

theorem State.freeBuffer_keeps {s0 s : State} (lane : Nat) (hs : s0.Keeps s) :
    s0.Keeps (State.freeBuffer s lane) := by
  unfold State.freeBuffer
  with_reducible repeat' first | assumption | apply State.updIlane_keeps

theorem State.putEntry_keeps {s0 s : State} (e : InProg) (hs : s0.Keeps s) :
    s0.Keeps (State.putEntry s e) := by
  unfold State.putEntry
  with_reducible repeat' first | assumption | apply State.updIngress_keeps

theorem State.writePacket_keeps {s0 s : State} (lane : Nat) (h : RasterHdr) (ws : List Word) (e : InProg) (hs : s0.Keeps s) :
    s0.Keeps (State.writePacket s lane h ws e) := by
  unfold State.writePacket
  repeat' first
    | with_reducible assumption
    | with_reducible apply State.writeBulks_keeps
    | with_reducible apply State.pmcBulk_keeps
    | with_reducible apply State.putEntry_keeps
    | with_reducible apply State.inc_keeps

theorem State.takePacket_keeps {s0 s : State} (lane : Nat) (h : RasterHdr) (ws : List Word) (hs : s0.Keeps s) :
    s0.Keeps (State.takePacket lane h ws s) := by
  unfold State.takePacket
  repeat' first
    | with_reducible assumption
    | with_reducible apply State.freeBuffer_keeps
    | with_reducible apply State.inc_keeps
    | with_reducible apply State.raise_keeps
    | with_reducible apply State.writePacket_keeps
    | with_reducible apply State.putEntry_keeps
    | with_reducible apply ite_keeps
    | extract_lets
    | split

theorem State.packetIn_keeps {s0 s : State} (lane : Fin 4) (hdr : RasterHdr) (words : List Word) (crc : BitVec 32) (hs : s0.Keeps s) :
    s0.Keeps (State.packetIn s lane hdr words crc) := by
  unfold State.packetIn
  repeat' first
    | with_reducible assumption
    | with_reducible apply State.inc_keeps
    | with_reducible apply State.raise_keeps
    | with_reducible apply State.freeBuffer_keeps
    | with_reducible apply State.updIlane_keeps
    | with_reducible apply State.takePacket_keeps
    | with_reducible apply ite_keeps

theorem State.packetsHeld_keeps {s0 s : State} (hs : s0.Keeps s) :
    s0.Keeps (State.packetsHeld s) := by
  unfold State.packetsHeld
  with_reducible repeat' first | assumption | intro _ | apply List.foldl_keeps | apply State.packetIn_keeps | apply State.updIngress_keeps

theorem execRasterPacket_keeps {s0 s : State} (lane : Fin 4) (hdr : RasterHdr) (words : List Word) (crc : BitVec 32) (hs : s0.Keeps s) :
    Res.Keeps s0 (execRasterPacket lane hdr words crc s) := by
  unfold execRasterPacket
  repeat' first
    | with_reducible assumption
    | with_reducible apply Res.keeps_next
    | with_reducible apply State.updIngress_keeps
    | with_reducible apply State.packetIn_keeps
    | with_reducible apply whenClocked_keeps
    | with_reducible apply ite_keeps

theorem execRasterPacketTimeout_keeps {s0 s : State} (lane : Fin 4) (hs : s0.Keeps s) :
    Res.Keeps s0 (execRasterPacketTimeout lane s) := by
  unfold execRasterPacketTimeout
  repeat' first
    | with_reducible assumption
    | with_reducible apply Res.keeps_next
    | with_reducible apply State.inc_keeps
    | with_reducible apply State.freeBuffer_keeps
    | with_reducible apply whenClocked_keeps
    | with_reducible apply ite_keeps

theorem execLineComplete_keeps {s0 s : State} (plane : Fin 16) (line : BitVec 32) (pass : BitVec 16) (hs : s0.Keeps s) :
    Res.Keeps s0 (execLineComplete plane line pass s) := by
  unfold execLineComplete
  repeat' first
    | with_reducible assumption
    | with_reducible apply Res.keeps_next
    | with_reducible apply State.writeBulk_keeps
    | with_reducible apply State.updIngress_keeps
    | with_reducible apply State.inc_keeps
    | with_reducible apply State.setReg_keeps
    | with_reducible apply whenClocked_keeps
    | with_reducible apply ite_keeps
    | extract_lets
    | split

theorem execCreditSend_keeps {s0 s : State} (lane : Fin 4) (hs : s0.Keeps s) :
    Res.Keeps s0 (execCreditSend lane s) := by
  unfold execCreditSend
  repeat' first
    | with_reducible assumption
    | with_reducible apply Res.keeps_next
    | with_reducible apply State.updIlane_keeps
    | with_reducible apply State.emit_keeps
    | with_reducible apply whenClocked_keeps
    | with_reducible apply ite_keeps

theorem execBankClearDone_keeps {s0 s : State} (plane : Fin 16) (hs : s0.Keeps s) :
    Res.Keeps s0 (execBankClearDone plane s) := by
  unfold execBankClearDone
  repeat' first
    | with_reducible assumption
    | intro _
    | with_reducible apply Res.keeps_next
    | with_reducible apply List.foldl_keeps
    | with_reducible apply State.clearTags_keeps
    | with_reducible apply State.updPlane_keeps
    | with_reducible apply State.forEach_keeps
    | with_reducible apply State.updIlane_keeps
    | with_reducible apply State.takePacket_keeps
    | with_reducible apply whenClocked_keeps
    | with_reducible apply ite_keeps

theorem State.readRun_keeps {s0 s : State} (a n : Nat) (hs : s0.Keeps s) :
    s0.Keeps (State.readRun s a n).1 := by
  unfold State.readRun
  with_reducible repeat' first | assumption | intro _ | apply List.foldl_keeps₁ | apply State.readBulk_keeps | apply State.pmcBulk_keeps

theorem State.rowPresent_keeps {s0 s : State} (t q n pass : Nat) (hs : s0.Keeps s) :
    s0.Keeps (State.rowPresent s t q n pass).1 := by
  unfold State.rowPresent
  with_reducible repeat' first | assumption | apply State.readBulk_keeps | apply ite_keeps₁

theorem State.gatherRun_keeps {s0 s : State} (q pass : Nat) (present : List (Nat × Bool)) (r : List Noz) (hs : s0.Keeps s) :
    s0.Keeps (State.gatherRun s q pass present r).1 := by
  unfold State.gatherRun
  with_reducible repeat' first | assumption | apply State.readRun_keeps | apply ite_keeps₁ | extract_lets | split

theorem State.gather_keeps {s0 s : State} (p g pass t : Nat) (hs : s0.Keeps s) :
    s0.Keeps (State.gather s p g pass t).1 := by
  unfold State.gather
  with_reducible repeat' first | assumption | intro _ | apply List.foldl_keeps₁ | apply State.rowPresent_keeps | apply State.gatherRun_keeps

theorem State.missingRaster_keeps {s0 s : State} (p g n : Nat) (hs : s0.Keeps s) :
    s0.Keeps (State.missingRaster s p g n) := by
  unfold State.missingRaster
  with_reducible repeat' first | assumption | apply State.inc_keeps | apply State.setReg_keeps | apply State.raise_keeps | apply ite_keeps

/-! ## Screening -/

theorem State.failWords_keeps {s0 s : State} (l : List (Nat × Nat)) (hs : s0.Keeps s) :
    s0.Keeps (State.failWords s l) := by
  unfold State.failWords
  with_reducible repeat' first | assumption | intro _ | apply List.foldl_keeps | apply State.setTab_keeps | apply ite_keeps

theorem State.tableFails_keeps {s0 s : State} (p n : Nat) (hs : s0.Keeps s) :
    s0.Keeps (State.tableFails s p n) := by
  unfold State.tableFails
  with_reducible repeat' first | assumption | apply State.addReg_keeps | apply State.raise_keeps | apply ite_keeps

theorem State.screenLine_keeps {s0 s : State} (p g pass : Nat) (l : List Noz) (hs : s0.Keeps s) :
    s0.Keeps (State.screenLine s p g pass l).1 := by
  unfold State.screenLine
  repeat' first
    | with_reducible assumption
    | with_reducible apply State.addReg_keeps
    | with_reducible apply State.updPort_keeps
    | with_reducible apply State.tableFails_keeps
    | with_reducible apply ite_keeps₁
    | with_reducible apply ite_keeps

theorem State.countScreened_keeps {s0 s : State} (p : Nat) (hs : s0.Keeps s) :
    s0.Keeps (State.countScreened s p) := by
  unfold State.countScreened
  with_reducible repeat' first | assumption | apply State.updPort_keeps | apply State.addReg_keeps | apply ite_keeps

theorem State.resetCarry_keeps {s0 s : State} (p : Nat) (hs : s0.Keeps s) :
    s0.Keeps (State.resetCarry s p) := by
  unfold State.resetCarry
  with_reducible repeat' first | assumption | apply State.updPort_keeps

theorem State.judgeDead_keeps {s0 s : State} (p : Nat) (hs : s0.Keeps s) :
    s0.Keeps (State.judgeDead p s) := by
  unfold State.judgeDead
  with_reducible repeat' first | assumption | apply State.setReg_keeps | apply State.cause_keeps

/-! ## Waveforms -/

theorem State.refreshWave_keeps {s0 s : State} (p : Nat) (hs : s0.Keeps s) :
    s0.Keeps (State.refreshWave s p) := by
  unfold State.refreshWave
  with_reducible repeat' first | assumption | intro _ | apply State.forEach_keeps | apply State.setReg_keeps

theorem State.snapScale_keeps {s0 s : State} (p w : Nat) (hs : s0.Keeps s) :
    s0.Keeps (State.snapScale s p w) := by
  unfold State.snapScale
  with_reducible repeat' first | assumption | apply State.setReg_keeps | split

theorem State.stepScale_keeps {s0 s : State} (p w : Nat) (hs : s0.Keeps s) :
    s0.Keeps (State.stepScale s p w) := by
  unfold State.stepScale
  with_reducible repeat' first | assumption | apply State.setReg_keeps | extract_lets | split

theorem State.judgeSense_keeps {s0 s : State} (p : Nat) (k : SenseChk) (hs : s0.Keeps s) :
    s0.Keeps (State.judgeSense p s k) := by
  unfold State.judgeSense
  repeat' first
    | with_reducible assumption
    | with_reducible apply State.inc_keeps
    | with_reducible apply State.setReg_keeps
    | with_reducible apply State.setRegI_keeps
    | with_reducible apply State.raise_keeps
    | with_reducible apply State.updChan_keeps
    | with_reducible apply State.updPort_keeps
    | with_reducible apply ite_keeps

theorem State.settleSense_keeps {s0 s : State} (p : Nat) (hs : s0.Keeps s) :
    s0.Keeps (State.settleSense s p) := by
  unfold State.settleSense
  with_reducible repeat' first | assumption | intro _ | apply List.foldl_keeps | apply State.judgeSense_keeps | apply State.updPort_keeps

theorem State.draw_keeps {s0 s : State} (p t8 : Nat) (w0Only tickle : Bool) (sense : List Nat) (hs : s0.Keeps s) :
    s0.Keeps (State.draw s p t8 w0Only tickle sense) := by
  unfold State.draw
  repeat' first
    | with_reducible assumption
    | intro _
    | with_reducible apply State.stepScale_keeps
    | with_reducible apply State.forEach_keeps
    | with_reducible apply State.updPort_keeps
    | with_reducible apply State.inc_keeps
    | with_reducible apply State.raise_keeps
    | with_reducible apply ite_keeps
    | extract_lets
    | split

theorem State.shipOut_keeps {s0 s : State} (p g : Nat) (l : ShipLink) (codes : List Nat) (hs : s0.Keeps s) :
    s0.Keeps (State.shipOut s p g l codes) := by
  unfold State.shipOut
  with_reducible repeat' first | assumption | apply State.emit_keeps

/-! ## Firing -/

theorem State.beginShip_keeps {s0 s : State} (p : Nat) (hs : s0.Keeps s) :
    s0.Keeps (State.beginShip s p) := by
  unfold State.beginShip
  with_reducible repeat' first | assumption | apply State.updPort_keeps | apply State.shipOut_keeps | extract_lets | split

theorem execShipStart_keeps {s0 s : State} (port : Fin 16) (hs : s0.Keeps s) :
    Res.Keeps s0 (execShipStart port s) := by
  unfold execShipStart
  with_reducible repeat' first | assumption | apply State.beginShip_keeps | apply whenClocked_keeps | apply onPort_keeps | apply ite_keeps

theorem State.startPort_keeps {s0 s : State} (p : Nat) (hs : s0.Keeps s) :
    s0.Keeps (State.startPort p s) := by
  unfold State.startPort
  repeat' first
    | with_reducible assumption
    | intro _
    | with_reducible apply State.updPort_keeps
    | with_reducible apply State.forEach_keeps
    | with_reducible apply State.snapScale_keeps
    | with_reducible apply State.beginShip_keeps

theorem State.recordStop_keeps {s0 s : State} (p cause : Nat) (cut partial_ : Bool) (ct : Nat) (hs : s0.Keeps s) :
    s0.Keeps (State.recordStop s p cause cut partial_ ct) := by
  unfold State.recordStop
  with_reducible repeat' first | assumption | apply State.setReg_keeps | extract_lets | split

theorem State.portDisarmed_keeps {s0 s : State} (p : Nat) (hs : s0.Keeps s) :
    s0.Keeps (State.portDisarmed s p) := by
  unfold State.portDisarmed
  with_reducible repeat' first | assumption | apply State.updPort_keeps | apply State.cause_keeps | apply State.windows_keeps

theorem State.clearAfter_keeps {s0 s : State} (p t8 : Nat) (hs : s0.Keeps s) :
    s0.Keeps (State.clearAfter s p t8) := by
  unfold State.clearAfter
  with_reducible repeat' first | assumption | apply State.updPort_keeps

theorem State.endPort_keeps {s0 s : State} (p : Nat) (hs : s0.Keeps s) :
    s0.Keeps (State.endPort p s) := by
  unfold State.endPort
  with_reducible repeat' first | assumption | apply State.updPort_keeps | apply State.clearAfter_keeps | apply ite_keeps

theorem State.disarmPort_keeps {s0 s : State} (p : Nat) (hs : s0.Keeps s) :
    s0.Keeps (State.disarmPort p s) := by
  unfold State.disarmPort
  repeat' first
    | with_reducible assumption
    | with_reducible apply State.recordStop_keeps
    | with_reducible apply State.portDisarmed_keeps
    | with_reducible apply State.updPort_keeps
    | with_reducible apply ite_keeps
    | extract_lets
    | split

theorem State.lineStop_keeps {s0 s : State} (p : Nat) (hs : s0.Keeps s) :
    s0.Keeps (State.lineStop p s) := by
  unfold State.lineStop
  repeat' first
    | with_reducible assumption
    | with_reducible apply State.recordStop_keeps
    | with_reducible apply State.portDisarmed_keeps
    | with_reducible apply State.updPort_keeps
    | with_reducible apply State.clearAfter_keeps
    | with_reducible apply ite_keeps
    | extract_lets
    | split

theorem State.stopAtLine_keeps {s0 s : State} (cause p : Nat) (hs : s0.Keeps s) :
    s0.Keeps (State.stopAtLine cause p s) := by
  unfold State.stopAtLine
  repeat' first
    | with_reducible assumption
    | with_reducible apply State.updPort_keeps
    | with_reducible apply State.recordStop_keeps
    | with_reducible apply State.lineStop_keeps
    | with_reducible apply ite_keeps
    | extract_lets
    | split

theorem State.rampPort_keeps {s0 s : State} (p t8 : Nat) (hs : s0.Keeps s) :
    s0.Keeps (State.rampPort s p t8) := by
  unfold State.rampPort
  with_reducible repeat' first | assumption | apply State.updPort_keeps

theorem State.cutPort_keeps {s0 s : State} (cause : Nat) (hold : Bool) (p : Nat) (hs : s0.Keeps s) :
    s0.Keeps (State.cutPort cause hold p s) := by
  unfold State.cutPort
  repeat' first
    | with_reducible assumption
    | with_reducible apply State.rampPort_keeps
    | with_reducible apply State.updPort_keeps
    | with_reducible apply State.portDisarmed_keeps
    | with_reducible apply State.recordStop_keeps
    | with_reducible apply State.endPort_keeps
    | with_reducible apply ite_keeps
    | extract_lets
    | split

theorem State.fireInhibit_keeps {s0 s : State} (hs : s0.Keeps s) :
    s0.Keeps (State.fireInhibit s) := by
  unfold State.fireInhibit
  with_reducible repeat' first | assumption | intro _ | apply State.setReg_keeps | apply State.forEach_keeps | apply State.cutPort_keeps

theorem State.gateRise_keeps {s0 s : State} (g : Nat) (hs : s0.Keeps s) :
    s0.Keeps (State.gateRise s g) := by
  unfold State.gateRise
  repeat' first
    | with_reducible assumption
    | intro _
    | with_reducible apply State.setRegBit_keeps
    | with_reducible apply State.inc_keeps
    | with_reducible apply State.cause_keeps
    | with_reducible apply State.forEach_keeps
    | with_reducible apply State.cutPort_keeps
    | with_reducible apply ite_keeps

theorem execGateAssert_keeps {s0 s : State} (gate : Fin 4) (hs : s0.Keeps s) :
    Res.Keeps s0 (execGateAssert gate s) := by
  unfold execGateAssert
  with_reducible repeat' first | assumption | apply Res.keeps_next | apply State.gateRise_keeps | apply whenOn_keeps | apply ite_keeps

theorem State.restartHeld_keeps {s0 s : State} (p : Nat) (hs : s0.Keeps s) :
    s0.Keeps (State.restartHeld p s) := by
  unfold State.restartHeld
  with_reducible repeat' first | assumption | apply State.startPort_keeps | apply State.windows_keeps | apply ite_keeps

theorem State.gateFall_keeps {s0 s : State} (g : Nat) (hs : s0.Keeps s) :
    s0.Keeps (State.gateFall s g) := by
  unfold State.gateFall
  repeat' first
    | with_reducible assumption
    | intro _
    | with_reducible apply State.setRegBit_keeps
    | with_reducible apply State.cause_keeps
    | with_reducible apply State.forEach_keeps
    | with_reducible apply State.restartHeld_keeps

theorem execGateRelease_keeps {s0 s : State} (gate : Fin 4) (hs : s0.Keeps s) :
    Res.Keeps s0 (execGateRelease gate s) := by
  unfold execGateRelease
  with_reducible repeat' first | assumption | apply Res.keeps_next | apply State.gateFall_keeps | apply whenOn_keeps | apply ite_keeps

theorem State.gateCfgWrite_keeps {s0 s : State} (g old : Nat) (hs : s0.Keeps s) :
    s0.Keeps (State.gateCfgWrite s g old) := by
  unfold State.gateCfgWrite
  with_reducible repeat' first | assumption | apply State.gateFall_keeps | apply State.gateRise_keeps | apply ite_keeps

theorem execRampEnd_keeps {s0 s : State} (port : Fin 16) (hs : s0.Keeps s) :
    Res.Keeps s0 (execRampEnd port s) := by
  unfold execRampEnd
  repeat' first
    | with_reducible assumption
    | with_reducible apply State.updPort_keeps
    | with_reducible apply State.clearAfter_keeps
    | with_reducible apply whenClocked_keeps
    | with_reducible apply onPort_keeps
    | with_reducible apply ite_keeps
    | extract_lets
    | split

theorem execClearLatch_keeps {s0 s : State} (port : Fin 16) (hs : s0.Keeps s) :
    Res.Keeps s0 (execClearLatch port s) := by
  unfold execClearLatch
  repeat' first
    | with_reducible assumption
    | with_reducible apply State.shipOut_keeps
    | with_reducible apply State.emit_keeps
    | with_reducible apply State.updPort_keeps
    | with_reducible apply State.restartHeld_keeps
    | with_reducible apply State.portDisarmed_keeps
    | with_reducible apply whenClocked_keeps
    | with_reducible apply onPort_keeps
    | with_reducible apply ite_keeps
    | extract_lets
    | split

theorem State.slotReport_keeps {s0 s : State} (p line : Nat) (drop : Bool) (late : Nat) (hs : s0.Keeps s) :
    s0.Keeps (State.slotReport s p line drop late) := by
  unfold State.slotReport
  with_reducible repeat' first | assumption | apply State.inc_keeps | apply State.setReg_keeps | apply State.event_keeps | apply ite_keeps

theorem State.slotTrace_keeps {s0 s : State} (p line kind : Nat) (hs : s0.Keeps s) :
    s0.Keeps (State.slotTrace s p line kind) := by
  unfold State.slotTrace
  with_reducible repeat' first | assumption | apply State.pmc_keeps | apply State.traceRec_keeps | apply ite_keeps

theorem State.advanceSlot_keeps {s0 s : State} (p t8 rel8 : Nat) (hs : s0.Keeps s) :
    s0.Keeps (State.advanceSlot s p t8 rel8) := by
  unfold State.advanceSlot
  with_reducible repeat' first | assumption | apply State.updPort_keeps

theorem State.markFired_keeps {s0 s : State} (p g : Nat) (hs : s0.Keeps s) :
    s0.Keeps (State.markFired s p g) := by
  unfold State.markFired
  with_reducible repeat' first | assumption | intro _ | apply List.foldl_keeps | apply State.updTests_keeps | apply State.updPort_keeps

theorem State.dropSlot_keeps {s0 s : State} (p t8 : Nat) (hs : s0.Keeps s) :
    s0.Keeps (State.dropSlot s p t8) := by
  unfold State.dropSlot
  repeat' first
    | with_reducible assumption
    | with_reducible apply State.slotReport_keeps
    | with_reducible apply State.slotTrace_keeps
    | with_reducible apply State.advanceSlot_keeps
    | with_reducible apply ite_keeps

theorem State.fireSlot_keeps {s0 s : State} (p tg8 t8 : Nat) (sense : List Nat) (hs : s0.Keeps s) :
    s0.Keeps (State.fireSlot s p tg8 t8 sense) := by
  unfold State.fireSlot
  repeat' first
    | with_reducible assumption
    | with_reducible apply State.draw_keeps
    | with_reducible apply State.inc_keeps
    | with_reducible apply State.emit_keeps
    | with_reducible apply State.markFired_keeps
    | with_reducible apply State.updPort_keeps
    | with_reducible apply State.setReg_keeps
    | with_reducible apply State.addReg_keeps
    | with_reducible apply State.slotReport_keeps
    | with_reducible apply State.slotTrace_keeps
    | with_reducible apply State.advanceSlot_keeps
    | with_reducible apply ite_keeps

theorem State.deferDecide_keeps {s0 s : State} (p tg8 t8 : Nat) (sense : List Nat) (hs : s0.Keeps s) :
    s0.Keeps (State.deferDecide s p tg8 t8 sense) := by
  unfold State.deferDecide
  repeat' first
    | with_reducible assumption
    | with_reducible apply State.dropSlot_keeps
    | with_reducible apply State.raise_keeps
    | with_reducible apply State.fireSlot_keeps
    | with_reducible apply ite_keeps
    | split

theorem State.paceStages_keeps {s0 s : State} (p tg8 : Nat) (hs : s0.Keeps s) :
    s0.Keeps (State.paceStages s p tg8) := by
  unfold State.paceStages
  with_reducible repeat' first | assumption | apply State.updPort_keeps

theorem State.judgeSlot_keeps {s0 s : State} (p t8 : Nat) (sense : List Nat) (hs : s0.Keeps s) :
    s0.Keeps (State.judgeSlot s p t8 sense) := by
  unfold State.judgeSlot
  cases (s.port p).missingDrop with
  | some c => exact ite_keeps (State.raise_keeps _ _ (State.dropSlot_keeps _ _ hs)) (State.dropSlot_keeps _ _ hs)
  | none =>
    refine ite_keeps (State.fireSlot_keeps _ _ _ _ hs) ?_
    extract_lets s1
    have h1 : s0.Keeps s1 := ite_keeps (State.inc_keeps _ hs) hs
    clear_value s1
    generalize s.reg Key.OVERRUN_POLICY = k
    match k with
    | 0 => exact State.updPort_keeps _ _ h1
    | 1 => exact State.dropSlot_keeps _ _ h1
    | n + 2 => exact State.raise_keeps _ _ (State.dropSlot_keeps _ _ h1)

theorem State.fireInstant_keeps {s0 s : State} (p t8 : Nat) (sense : List Nat) (hs : s0.Keeps s) :
    s0.Keeps (State.fireInstant s p t8 sense) := by
  unfold State.fireInstant
  repeat' first
    | with_reducible assumption
    | with_reducible apply State.inc_keeps
    | with_reducible apply State.updPort_keeps
    | with_reducible apply State.paceStages_keeps
    | with_reducible apply State.judgeSlot_keeps
    | with_reducible apply ite_keeps

theorem State.tickle_keeps {s0 s : State} (p : Nat) (sense : List Nat) (hs : s0.Keeps s) :
    s0.Keeps (State.tickle s p sense) := by
  unfold State.tickle
  with_reducible repeat' first | assumption | apply State.draw_keeps | apply State.inc_keeps | apply State.updPort_keeps | apply ite_keeps

theorem State.armPorts_keeps {s0 s : State} (mask : Nat) (hs : s0.Keeps s) :
    s0.Keeps (State.armPorts s mask) := by
  unfold State.armPorts
  repeat' first
    | with_reducible assumption
    | intro _
    | with_reducible apply State.inc_keeps
    | with_reducible apply State.setReg_keeps
    | with_reducible apply State.forEach_keeps
    | with_reducible apply State.startPort_keeps
    | with_reducible apply State.updPort_keeps
    | with_reducible apply State.windows_keeps

theorem State.disarmPorts_keeps {s0 s : State} (mask : Nat) (hs : s0.Keeps s) :
    s0.Keeps (State.disarmPorts s mask) := by
  unfold State.disarmPorts
  with_reducible repeat' first | assumption | intro _ | apply State.forEach_keeps | apply State.disarmPort_keeps

theorem State.judgeWave_keeps {s0 s : State} (p : Nat) (hs : s0.Keeps s) :
    s0.Keeps (State.judgeWave p s) := by
  unfold State.judgeWave
  with_reducible repeat' first | assumption | apply State.cause_keeps | apply State.stopAtLine_keeps | apply ite_keeps

theorem execHeadIdRead_keeps {s0 s : State} (port : Fin 16) (bytes : Option (List (BitVec 8))) (hs : s0.Keeps s) :
    Res.Keeps s0 (execHeadIdRead port bytes s) := by
  unfold execHeadIdRead
  repeat' first
    | with_reducible assumption
    | with_reducible apply State.updPort_keeps
    | with_reducible apply State.setTab_keeps
    | with_reducible apply whenClocked_keeps
    | with_reducible apply onPort_keeps
    | with_reducible apply ite_keeps
    | extract_lets
    | split

/-! ## Thermal control -/

theorem State.scanSensor_keeps {s0 s : State} (old : State) (rd : List Reading) (vals : List (Option Int)) (k : Nat) (hs : s0.Keeps s) :
    s0.Keeps (State.scanSensor old rd vals k s) := by
  have hput : ∀ (t : State) (v : Nat) (c : Sensor), s0.Keeps t → s0.Keeps ((t.setReg (Key.SENSOR_STATE k) v).updSensor k (fun _ => c)) :=
    fun t v c h => State.updSensor_keeps _ _ (State.setReg_keeps _ _ h)
  unfold State.scanSensor
  extract_lets r lim flags nb d bad c put s1 badN far devN o s2 near recN
  refine ite_keeps (State.setRegI_keeps _ _ (hput _ _ _ hs)) ?_
  have h1 : s0.Keeps s1 := by
    unfold s1
    split
    exacts [State.setRegI_keeps _ _ hs, hs]
  clear_value s1
  split
  · have h2 : s0.Keeps s2 := ite_keeps (State.setRegI_keeps _ _ h1) h1
    clear_value s2
    exact ite_keeps (State.raise_keeps _ _ (State.inc_keeps _ (hput _ _ _ h2))) (hput _ _ _ h2)
  · exact ite_keeps (State.inc_keeps _ (hput _ _ _ h1)) (hput _ _ _ h1)

theorem State.scanDie_keeps {s0 s : State} (vals : List (Option Int)) (hs : s0.Keeps s) :
    s0.Keeps (State.scanDie s vals) := by
  unfold State.scanDie
  repeat' first
    | with_reducible assumption
    | with_reducible exact le_rfl
    | with_reducible exact id
    | with_reducible exact Otp.Grows.refl _
    | with_reducible apply State.setRegI_keeps
    | with_reducible apply State.cause_keeps
    | with_reducible apply ite_keeps
    | extract_lets
    | split
    | with_reducible apply State.keeps_mk

theorem State.scanDrive_keeps {s0 s : State} (vals : List (Option Int)) (hs : s0.Keeps s) :
    s0.Keeps (State.scanDrive s vals) := by
  unfold State.scanDrive
  with_reducible repeat' first | assumption | intro _ | apply State.forEach_keeps | apply State.cause_keeps

theorem State.scanPort_keeps {s0 s : State} (vals : List (Option Int)) (p : Nat) (hs : s0.Keeps s) :
    s0.Keeps (State.scanPort vals p s) := by
  unfold State.scanPort
  extract_lets v old had th s1 hyst
  have h1 : s0.Keeps s1 := State.cause_keeps _ _ _ _ (State.setReg_keeps _ _ (State.updHeat_keeps _ _ hs))
  clear_value v s1
  cases v with
  | nil => exact ite_keeps (State.stopAtLine_keeps _ _ h1) h1
  | cons x xs =>
    refine ite_keeps (State.cutPort_keeps _ _ _ ?h2) (ite_keeps (State.stopAtLine_keeps _ _ ?h2) ?h2)
    refine State.cause_keeps _ _ _ _ (State.cause_keeps _ _ _ _ (State.cause_keeps _ _ _ _ (State.cause_keeps _ _ _ _ ?_)))
    exact State.setReg_keeps _ _ (State.updHeat_keeps _ _ (State.setRegI_keeps _ _ (State.setRegI_keeps _ _ hs)))

theorem State.heatForce_keeps {s0 s : State} (p : Nat) (hs : s0.Keeps s) :
    s0.Keeps (State.heatForce p s) := by
  unfold State.heatForce
  with_reducible repeat' first | assumption | apply State.setReg_keeps | apply State.updHeat_keeps | apply ite_keeps

theorem State.heatStep_keeps {s0 s : State} (p : Nat) (hs : s0.Keeps s) :
    s0.Keeps (State.heatStep p s) := by
  unfold State.heatStep
  with_reducible repeat' first | assumption | apply State.updHeat_keeps | apply ite_keeps

theorem State.heatModeWrite_keeps {s0 s : State} (p old : Nat) (hs : s0.Keeps s) :
    s0.Keeps (State.heatModeWrite s p old) := by
  unfold State.heatModeWrite
  with_reducible repeat' first | assumption | apply State.updHeat_keeps | apply ite_keeps

theorem execHeatPeriodStart_keeps {s0 s : State} (port : Fin 16) (hs : s0.Keeps s) :
    Res.Keeps s0 (execHeatPeriodStart port s) := by
  unfold execHeatPeriodStart
  repeat' first
    | with_reducible assumption
    | with_reducible apply State.updHeat_keeps
    | with_reducible apply State.heatForce_keeps
    | with_reducible apply State.setReg_keeps
    | with_reducible apply whenClocked_keeps
    | with_reducible apply onPort_keeps
    | with_reducible apply ite_keeps

theorem State.scan_keeps {s0 s : State} (readings : Vector (BitVec 32) 80) (hs : s0.Keeps s) :
    s0.Keeps (State.scan s readings) := by
  unfold State.scan
  extract_lets rd vals s1 s2 s3 div step th s4 s5
  have h1 : s0.Keeps s1 := State.forEach_keeps hs (fun i t h => State.scanSensor_keeps s rd vals i h)
  have h2 : s0.Keeps s2 := State.scanDrive_keeps _ (State.scanDie_keeps _ (State.inc_keeps _ h1))
  have h3 : s0.Keeps s3 := State.forEach_keeps h2 (fun i t h => State.scanPort_keeps vals i h)
  have h4 : s0.Keeps s4 := ⟨h3.ident, h3.pending, h3.clk, h3.free, h3.freeT, h3.regs, h3.mem, h3.tabs, h3.otp⟩
  have h5 : s0.Keeps s5 := State.forEach_keeps h4 (fun i t h => State.heatForce_keeps i h)
  exact ite_keeps (State.forEach_keeps h5 (fun i t h => State.heatStep_keeps i h)) h5

/-! ## Calibration -/

theorem State.correctAt_keeps {s0 s : State} (c : Nat) (td : Option Int) (hs : s0.Keeps s) :
    s0.Keeps (State.correctAt c td s) := by
  unfold State.correctAt
  with_reducible repeat' first | assumption | apply State.setRegI_keeps | split

theorem State.recompute_keeps {s0 s : State} (c : Nat) (hs : s0.Keeps s) :
    s0.Keeps (State.recompute c s) := by
  unfold State.recompute
  with_reducible repeat' first | assumption | apply State.correctAt_keeps

theorem State.recomputeAll_keeps {s0 s : State} (hs : s0.Keeps s) :
    s0.Keeps (State.recomputeAll s) := by
  unfold State.recomputeAll
  with_reducible repeat' first | assumption | intro _ | apply State.forEach_keeps | apply State.recompute_keeps

theorem State.recomputeScan_keeps {s0 s : State} (hs : s0.Keeps s) :
    s0.Keeps (State.recomputeScan s) := by
  unfold State.recomputeScan
  with_reducible repeat' first | assumption | intro _ | apply State.forEach_keeps | apply State.correctAt_keeps

theorem State.calPassed_keeps {s0 s : State} (c : Nat) (hs : s0.Keeps s) :
    s0.Keeps (State.calPassed c s) := by
  unfold State.calPassed
  with_reducible repeat' first | assumption | apply State.updChan_keeps | apply ite_keeps

theorem State.queueHov_keeps {s0 s : State} (g : Nat) (l : List HovCmd) (hs : s0.Keeps s) :
    s0.Keeps (State.queueHov g l s) := by
  unfold State.queueHov
  with_reducible repeat' first | assumption | apply State.updCal_keeps

theorem execHovFrame_keeps {s0 s : State} (group : Fin 4) (hs : s0.Keeps s) :
    Res.Keeps s0 (execHovFrame group s) := by
  unfold execHovFrame
  repeat' first
    | with_reducible assumption
    | with_reducible apply State.emit_keeps
    | with_reducible apply State.updCal_keeps
    | with_reducible apply whenClocked_keeps
    | with_reducible apply onGroup_keeps
    | with_reducible apply ite_keeps
    | extract_lets
    | split

theorem execHovStrobe_keeps {s0 s : State} (group : Fin 4) (hs : s0.Keeps s) :
    Res.Keeps s0 (execHovStrobe group s) := by
  unfold execHovStrobe
  repeat' first
    | with_reducible assumption
    | with_reducible apply State.emit_keeps
    | with_reducible apply State.updCal_keeps
    | with_reducible apply whenClocked_keeps
    | with_reducible apply onGroup_keeps
    | with_reducible apply ite_keeps
    | extract_lets
    | split

theorem State.calFinal_keeps {s0 s : State} (g c : Nat) (hs : s0.Keeps s) :
    s0.Keeps (State.calFinal s g c) := by
  unfold State.calFinal
  with_reducible repeat' first | assumption | apply State.setReg_keeps | apply State.updCal_keeps

theorem State.writeSet_keeps {s0 s : State} (c : Nat) (temp : Int) (f : CalFit) (hs : s0.Keeps s) :
    s0.Keeps (State.writeSet s c temp f) := by
  unfold State.writeSet
  with_reducible repeat' first | assumption | apply State.setTab_keeps | apply State.updCal_keeps

theorem State.calAbort_keeps {s0 s : State} (detail g : Nat) (hs : s0.Keeps s) :
    s0.Keeps (State.calAbort detail g s) := by
  unfold State.calAbort
  repeat' first
    | with_reducible assumption
    | with_reducible apply State.updCal_keeps
    | with_reducible apply State.queueHov_keeps
    | with_reducible apply State.calFinal_keeps
    | with_reducible apply ite_keeps
    | extract_lets
    | split

theorem execHovVerify_keeps {s0 s : State} (group : Fin 4) (reply : Option (BitVec 32)) (hs : s0.Keeps s) :
    Res.Keeps s0 (execHovVerify group reply s) := by
  unfold execHovVerify
  repeat' first
    | with_reducible assumption
    | with_reducible apply State.setReg_keeps
    | with_reducible apply State.updCal_keeps
    | with_reducible apply State.inc_keeps
    | with_reducible apply State.raise_keeps
    | with_reducible apply State.calAbort_keeps
    | with_reducible apply State.calFinal_keeps
    | with_reducible apply whenClocked_keeps
    | with_reducible apply onGroup_keeps
    | with_reducible apply ite_keeps
    | extract_lets
    | split

theorem execHovRestoreRetry_keeps {s0 s : State} (group : Fin 4) (hs : s0.Keeps s) :
    Res.Keeps s0 (execHovRestoreRetry group s) := by
  unfold execHovRestoreRetry
  repeat' first
    | with_reducible assumption
    | with_reducible apply State.queueHov_keeps
    | with_reducible apply State.updCal_keeps
    | with_reducible apply whenClocked_keeps
    | with_reducible apply onGroup_keeps
    | with_reducible apply ite_keeps

theorem State.queueSwap_keeps {s0 s : State} (line : Bool) (g : Nat) (hs : s0.Keeps s) :
    s0.Keeps (State.queueSwap line g s) := by
  unfold State.queueSwap
  with_reducible repeat' first | assumption | apply State.queueHov_keeps | apply State.updCal_keeps | apply ite_keeps | extract_lets | split

theorem execCalStart_keeps {s0 s : State} (group : Fin 4) (hs : s0.Keeps s) :
    Res.Keeps s0 (execCalStart group s) := by
  unfold execCalStart
  repeat' first
    | with_reducible assumption
    | with_reducible apply State.updCal_keeps
    | with_reducible apply State.inc_keeps
    | with_reducible apply State.raise_keeps
    | with_reducible apply State.setReg_keeps
    | with_reducible apply State.queueSwap_keeps
    | with_reducible apply whenClocked_keeps
    | with_reducible apply onGroup_keeps
    | with_reducible apply ite_keeps
    | extract_lets
    | split

theorem execMeasureStart_keeps {s0 s : State} (group : Fin 4) (hs : s0.Keeps s) :
    Res.Keeps s0 (execMeasureStart group s) := by
  unfold execMeasureStart
  repeat' first
    | with_reducible assumption
    | with_reducible exact le_rfl
    | with_reducible exact id
    | with_reducible exact Otp.Grows.refl _
    | exact Nat.le_add_right _ _
    | with_reducible apply State.queueHov_keeps
    | with_reducible apply State.updCal_keeps
    | with_reducible apply whenClocked_keeps
    | with_reducible apply onGroup_keeps
    | with_reducible apply ite_keeps
    | extract_lets
    | split
    | with_reducible apply State.keeps_mk

theorem State.calConclude_keeps {s0 s : State} (g c : Nat) (hs : s0.Keeps s) :
    s0.Keeps (State.calConclude s g c) := by
  unfold State.calConclude
  repeat' first
    | with_reducible assumption
    | with_reducible apply State.setRegI_keeps
    | with_reducible apply State.updCal_keeps
    | with_reducible apply State.inc_keeps
    | with_reducible apply State.updChan_keeps
    | with_reducible apply State.raise_keeps
    | with_reducible apply State.writeSet_keeps
    | with_reducible apply State.calFinal_keeps
    | with_reducible apply ite_keeps
    | extract_lets
    | split

theorem State.roundDone_keeps {s0 s : State} (g c : Nat) (sums refs : List Nat) (hs : s0.Keeps s) :
    s0.Keeps (State.roundDone s g c sums refs) := by
  unfold State.roundDone
  repeat' first
    | with_reducible assumption
    | with_reducible apply State.setReg_keeps
    | with_reducible apply State.updCal_keeps
    | with_reducible apply State.queueHov_keeps
    | with_reducible apply State.calConclude_keeps
    | with_reducible apply ite_keeps
    | extract_lets
    | split

theorem State.handBack_keeps {s0 s : State} (g : Nat) (hs : s0.Keeps s) :
    s0.Keeps (State.handBack g s) := by
  unfold State.handBack
  repeat' first
    | with_reducible assumption
    | with_reducible apply State.updCal_keeps
    | with_reducible apply State.writeSet_keeps
    | with_reducible apply State.recompute_keeps
    | with_reducible apply State.queueHov_keeps
    | with_reducible apply ite_keeps
    | extract_lets
    | split

theorem State.calEnd_keeps {s0 s : State} (g : Nat) (hs : s0.Keeps s) :
    s0.Keeps (State.calEnd g s) := by
  unfold State.calEnd
  repeat' first
    | with_reducible assumption
    | with_reducible apply State.handBack_keeps
    | with_reducible apply State.queueSwap_keeps
    | with_reducible apply State.updCal_keeps
    | with_reducible apply State.roundDone_keeps
    | with_reducible apply ite_keeps
    | extract_lets
    | split

theorem State.calAbortWrite_keeps {s0 s : State} (g : Nat) (hs : s0.Keeps s) :
    s0.Keeps (State.calAbortWrite s g) := by
  unfold State.calAbortWrite
  repeat' first
    | with_reducible assumption
    | with_reducible apply State.setReg_keeps
    | with_reducible apply State.calAbort_keeps
    | with_reducible apply State.setRegBit_keeps
    | with_reducible apply ite_keeps
    | extract_lets
    | split

theorem State.scanDone_keeps {s0 s : State} (readings : Vector (BitVec 32) 80) (hs : s0.Keeps s) :
    s0.Keeps (State.scanDone s readings) := by
  unfold State.scanDone
  have h1 := State.scan_keeps readings hs
  extract_lets s1 s2
  have h2 : s0.Keeps s2 := State.forEach_keeps (ite_keeps h1 (State.recomputeScan_keeps h1)) (fun i t h => State.calPassed_keeps i h)
  clear_value s2
  exact State.forEach_keeps h2 (fun i t h => State.queueSwap_keeps _ _ (State.updCal_keeps _ _ h))

theorem execThermalScan_keeps {s0 s : State} (readings : Vector (BitVec 32) 80) (hs : s0.Keeps s) :
    Res.Keeps s0 (execThermalScan readings s) := by
  unfold execThermalScan
  with_reducible repeat' first | assumption | apply Res.keeps_next | apply State.scanDone_keeps | apply whenClocked_keeps | apply ite_keeps

end Sys2Proof.Machine
end

