-- ==== Sys2Proof/Laws/KeepsUnit.lean ====
section
/-! SUPPORT. `Keeps` (Laws/Keeps.lean) for cameras, the loop, the movers, faults, Caldera and the lifecycle. -/

namespace Sys2Proof.Machine

/-! ## Cameras -/

theorem State.updFrame_keeps {s0 s : State} (cam : Nat) (f : CamFrame → CamFrame) (hs : s0.Keeps s) :
    s0.Keeps (State.updFrame s cam f) := by
  unfold State.updFrame
  with_reducible repeat' first | assumption | apply State.updCam_keeps

theorem State.capture_keeps {s0 s : State} (f : CamFrame) (k e : Nat) (line : List Nat) (hs : s0.Keeps s) :
    s0.Keeps (State.capture s f k e line) := by
  unfold State.capture
  with_reducible repeat' first | assumption | apply State.writeBulks_keeps | apply State.pmcBulk_keeps | apply ite_keeps

theorem State.endFrameOf_keeps {s0 s : State} (cam : Nat) (late : Bool) (hs : s0.Keeps s) :
    s0.Keeps (State.endFrameOf s cam late) := by
  unfold State.endFrameOf
  repeat' first
    | with_reducible assumption
    | intro _
    | with_reducible apply State.forEach_keeps
    | with_reducible apply State.capture_keeps
    | with_reducible apply State.updFrame_keeps
    | with_reducible apply State.inc_keeps
    | with_reducible apply State.raise_keeps
    | with_reducible apply ite_keeps
    | split

theorem State.triggered_keeps {s0 s : State} (cam unit ct pos : Nat) (hs : s0.Keeps s) :
    s0.Keeps (State.triggered s cam unit ct pos) := by
  unfold State.triggered
  repeat' first
    | with_reducible assumption
    | with_reducible apply State.inc_keeps
    | with_reducible apply State.updFrame_keeps
    | with_reducible apply State.updCam_keeps
    | with_reducible apply ite_keeps
    | extract_lets
    | split

theorem State.beginFrame_keeps {s0 s : State} (cam number : Nat) (hs : s0.Keeps s) :
    s0.Keeps (State.beginFrame s cam number) := by
  unfold State.beginFrame
  with_reducible repeat' first | assumption | apply State.updCam_keeps | apply State.cause_keeps

theorem State.storeLine_keeps {s0 s : State} (cam e : Nat) (f : CamFrame) (pixels : List Nat) (crcOk : Bool) (hs : s0.Keeps s) :
    s0.Keeps (State.storeLine s cam e f pixels crcOk) := by
  unfold State.storeLine
  repeat' first
    | with_reducible assumption
    | with_reducible apply State.updFrame_keeps
    | with_reducible apply State.inc_keeps
    | with_reducible apply State.capture_keeps
    | with_reducible apply State.setReg_keeps
    | with_reducible apply ite_keeps

theorem State.lateLines_keeps {s0 s : State} (cam : Nat) (hs : s0.Keeps s) :
    s0.Keeps (State.lateLines cam s) := by
  unfold State.lateLines
  repeat' first
    | with_reducible assumption
    | intro _
    | with_reducible apply List.foldl_keeps
    | with_reducible apply State.storeLine_keeps
    | with_reducible apply State.updCam_keeps
    | extract_lets
    | split

theorem State.takeLine_keeps {s0 s : State} (cam e : Nat) (f : CamFrame) (pixels : List Nat) (crcOk : Bool) (hs : s0.Keeps s) :
    s0.Keeps (State.takeLine s cam e f pixels crcOk) := by
  unfold State.takeLine
  with_reducible repeat' first | assumption | apply State.updCam_keeps | apply State.storeLine_keeps | apply ite_keeps

theorem State.endFrame_keeps {s0 s : State} (cam : Nat) (late : Bool) (hs : s0.Keeps s) :
    s0.Keeps (State.endFrame s cam late) := by
  unfold State.endFrame
  with_reducible repeat' first | assumption | apply State.lateLines_keeps | apply State.endFrameOf_keeps

theorem execFrameStart_keeps {s0 s : State} (cam : Fin 2) (vc : BitVec 2) (number : BitVec 16) (hs : s0.Keeps s) :
    Res.Keeps s0 (execFrameStart cam vc number s) := by
  unfold execFrameStart
  repeat' first
    | with_reducible assumption
    | with_reducible apply Res.keeps_next
    | with_reducible apply State.inc_keeps
    | with_reducible apply State.endFrame_keeps
    | with_reducible apply State.beginFrame_keeps
    | with_reducible apply whenClocked_keeps
    | with_reducible apply ite_keeps
    | extract_lets
    | split

theorem execFrameEnd_keeps {s0 s : State} (cam : Fin 2) (vc : BitVec 2) (hs : s0.Keeps s) :
    Res.Keeps s0 (execFrameEnd cam vc s) := by
  unfold execFrameEnd
  repeat' first
    | with_reducible assumption
    | with_reducible apply Res.keeps_next
    | with_reducible apply State.inc_keeps
    | with_reducible apply State.updFrame_keeps
    | with_reducible apply State.endFrame_keeps
    | with_reducible apply whenClocked_keeps
    | with_reducible apply ite_keeps
    | extract_lets
    | split

theorem State.camEnd_keeps {s0 s : State} (cam : Nat) (hs : s0.Keeps s) :
    s0.Keeps (State.camEnd cam s) := by
  unfold State.camEnd
  with_reducible repeat' first | assumption | apply State.lateLines_keeps | apply State.endFrame_keeps | apply ite_keeps

theorem execFrameTimeout_keeps {s0 s : State} (cam : Fin 2) (hs : s0.Keeps s) :
    Res.Keeps s0 (execFrameTimeout cam s) := by
  unfold execFrameTimeout
  with_reducible repeat' first | assumption | apply Res.keeps_next | apply State.camEnd_keeps | apply whenClocked_keeps | apply ite_keeps

theorem execCamSilent_keeps {s0 s : State} (cam : Fin 2) (hs : s0.Keeps s) :
    Res.Keeps s0 (execCamSilent cam s) := by
  unfold execCamSilent
  with_reducible repeat' first | assumption | apply Res.keeps_next | apply State.cause_keeps | apply whenClocked_keeps | apply ite_keeps

theorem execCsiPacket_keeps {s0 s : State} (cam : Fin 2) (p : CsiPacket) (hs : s0.Keeps s) :
    Res.Keeps s0 (execCsiPacket cam p s) := by
  unfold execCsiPacket
  repeat' first
    | with_reducible assumption
    | with_reducible apply Res.keeps_next
    | with_reducible apply State.inc_keeps
    | with_reducible apply State.raise_keeps
    | with_reducible apply State.takeLine_keeps
    | with_reducible apply whenClocked_keeps
    | with_reducible apply ite_keeps
    | extract_lets
    | split

theorem State.unbegin_keeps {s0 s : State} (cam : Nat) (hs : s0.Keeps s) :
    s0.Keeps (State.unbegin s cam) := by
  unfold State.unbegin
  with_reducible repeat' first | assumption | apply State.updCam_keeps | apply State.inc_keeps | split

theorem State.camEnableWrite_keeps {s0 s : State} (cam old : Nat) (hs : s0.Keeps s) :
    s0.Keeps (State.camEnableWrite s cam old) := by
  unfold State.camEnableWrite
  repeat' first
    | with_reducible assumption
    | with_reducible apply State.updCam_keeps
    | with_reducible apply State.unbegin_keeps
    | with_reducible apply State.endFrame_keeps
    | with_reducible apply State.cause_keeps
    | with_reducible apply ite_keeps

theorem State.camSilentWrite_keeps {s0 s : State} (cam : Nat) (hs : s0.Keeps s) :
    s0.Keeps (State.camSilentWrite s cam) := by
  unfold State.camSilentWrite
  with_reducible repeat' first | assumption | apply State.cause_keeps | apply ite_keeps

theorem State.camsStop_keeps {s0 s : State} (hs : s0.Keeps s) :
    s0.Keeps (State.camsStop s) := by
  unfold State.camsStop
  with_reducible repeat' first | assumption | intro _ | apply State.forEach_keeps | apply State.endFrame_keeps

theorem State.i2cStart_keeps {s0 s : State} (cam : Nat) (hs : s0.Keeps s) :
    s0.Keeps (State.i2cStart s cam) := by
  unfold State.i2cStart
  with_reducible repeat' first | assumption | apply State.setReg_keeps | apply State.emit_keeps

theorem execI2cDone_keeps {s0 s : State} (cam : Fin 2) (nack : Bool) (data : BitVec 32) (hs : s0.Keeps s) :
    Res.Keeps s0 (execI2cDone cam nack data s) := by
  unfold execI2cDone
  repeat' first
    | with_reducible assumption
    | with_reducible apply Res.keeps_next
    | with_reducible apply State.setReg_keeps
    | with_reducible apply State.raise_keeps
    | with_reducible apply whenClocked_keeps
    | with_reducible apply ite_keeps

theorem execI2cTimeout_keeps {s0 s : State} (cam : Fin 2) (hs : s0.Keeps s) :
    Res.Keeps s0 (execI2cTimeout cam s) := by
  unfold execI2cTimeout
  repeat' first
    | with_reducible assumption
    | with_reducible apply Res.keeps_next
    | with_reducible apply State.setReg_keeps
    | with_reducible apply State.raise_keeps
    | with_reducible apply whenClocked_keeps
    | with_reducible apply ite_keeps

/-! ## Pipeline -/

theorem State.updPipe_keeps {s0 s : State} (f : Pipe → Pipe) (hs : s0.Keeps s) :
    s0.Keeps (State.updPipe s f) :=
  hs.same rfl rfl rfl rfl rfl rfl rfl rfl rfl

theorem State.outputLine_keeps {s0 s : State} (cam y : Nat) (hs : s0.Keeps s) :
    s0.Keeps (State.outputLine s cam y) := by
  unfold State.outputLine
  with_reducible repeat' first | assumption | apply State.updCam_keeps | apply State.inc_keeps | apply ite_keeps | extract_lets | split

theorem State.drainWord_keeps {s0 s : State} (hs : s0.Keeps s) :
    s0.Keeps (State.drainWord s) := by
  unfold State.drainWord
  extract_lets go
  have hgo : ∀ cam t, go cam = some t → s0.Keeps t := by
    intro cam t h
    simp only [go] at h
    split at h
    · cases h
    · cases h
      exact State.pmcBulk_keeps _ _ _ _ (State.writeBulk_keeps _ _ (State.updCam_keeps _ _ hs))
  clear_value go
  split
  exacts [hgo _ _ ‹_›, hgo _ _ ‹_›, hs]

theorem State.outputTick_keeps {s0 s : State} (hs : s0.Keeps s) :
    s0.Keeps (State.outputTick s) := by
  unfold State.outputTick
  with_reducible repeat' first | assumption | apply State.updPipe_keeps | apply State.drainWord_keeps | apply ite_keeps

theorem State.pipeEnd_keeps {s0 s : State} (hs : s0.Keeps s) :
    s0.Keeps (State.pipeEnd s) := by
  unfold State.pipeEnd
  with_reducible repeat' first | assumption | apply State.updCam_keeps | apply State.updPipe_keeps | apply ite_keeps | extract_lets | split

theorem execPipeGrant_keeps {s0 s : State} (hs : s0.Keeps s) :
    Res.Keeps s0 (execPipeGrant s) := by
  unfold execPipeGrant
  repeat' first
    | with_reducible assumption
    | with_reducible apply Res.keeps_next
    | with_reducible apply State.inc_keeps
    | with_reducible apply State.updPipe_keeps
    | with_reducible apply State.pipeEnd_keeps
    | with_reducible apply whenClocked_keeps
    | with_reducible apply ite_keeps
    | extract_lets
    | split

theorem State.failPipe_keeps {s0 s : State} (c : Nat) (cfg : PipeCfg) (l : List (Nat × Nat)) (hs : s0.Keeps s) :
    s0.Keeps (State.failPipe s c cfg l) := by
  unfold State.failPipe
  with_reducible repeat' first | assumption | intro _ | apply List.foldl_keeps | apply State.setTab_keeps | apply ite_keeps

theorem execPipeLineDone_keeps {s0 s : State} (tableErr : List (Fin 3 × Nat)) (hs : s0.Keeps s) :
    Res.Keeps s0 (execPipeLineDone tableErr s) := by
  unfold execPipeLineDone
  repeat' first
    | with_reducible assumption
    | with_reducible apply Res.keeps_next
    | with_reducible apply State.updCam_keeps
    | with_reducible apply State.failPipe_keeps
    | with_reducible apply State.updPipe_keeps
    | with_reducible apply State.addReg_keeps
    | with_reducible apply State.raise_keeps
    | with_reducible apply State.outputLine_keeps
    | with_reducible apply whenClocked_keeps
    | with_reducible apply ite_keeps
    | extract_lets
    | split

theorem State.finishFrame_keeps {s0 s : State} (cam : Nat) (f : CamFrame) (hs : s0.Keeps s) :
    s0.Keeps (State.finishFrame s cam f) := by
  unfold State.finishFrame
  repeat' first
    | with_reducible assumption
    | intro _
    | with_reducible apply List.foldl_keeps
    | with_reducible apply State.outputLine_keeps
    | with_reducible apply State.writeBulks_keeps
    | with_reducible apply State.pmcBulk_keeps
    | with_reducible apply State.setReg_keeps
    | with_reducible apply State.setTab_keeps
    | with_reducible apply State.inc_keeps
    | with_reducible apply State.updCam_keeps
    | with_reducible apply ite_keeps

theorem execPipeUnitDone_keeps {s0 s : State} (hs : s0.Keeps s) :
    Res.Keeps s0 (execPipeUnitDone s) := by
  unfold execPipeUnitDone
  repeat' first
    | with_reducible assumption
    | with_reducible apply Res.keeps_next
    | with_reducible apply State.inc_keeps
    | with_reducible apply State.addReg_keeps
    | with_reducible apply State.updPipe_keeps
    | with_reducible apply State.finishFrame_keeps
    | with_reducible apply whenClocked_keeps
    | with_reducible apply ite_keeps
    | extract_lets
    | split

/-! ## Nozzle-health loop -/

theorem State.skipBlock_keeps {s0 s : State} (u cam : Nat) (hs : s0.Keeps s) :
    s0.Keeps (State.skipBlock s u cam) := by
  unfold State.skipBlock
  with_reducible repeat' first | assumption | apply State.inc_keeps | apply State.event_keeps

theorem State.meetBlock_keeps {s0 s : State} (n : Nat) (hs : s0.Keeps s) :
    s0.Keeps (State.meetBlock n s) := by
  unfold State.meetBlock
  repeat' first
    | with_reducible assumption
    | with_reducible exact le_rfl
    | with_reducible exact id
    | with_reducible exact Otp.Grows.refl _
    | with_reducible apply State.skipBlock_keeps
    | with_reducible apply ite_keeps
    | extract_lets
    | with_reducible apply State.keeps_mk

theorem State.assemble_keeps {s0 s : State} (p g t : Nat) (hs : s0.Keeps s) :
    s0.Keeps (State.assemble s p g t) := by
  unfold State.assemble
  repeat' first
    | with_reducible assumption
    | intro _
    | with_reducible apply State.gather_keeps
    | with_reducible apply State.forEach_keeps
    | with_reducible apply State.meetBlock_keeps
    | with_reducible apply State.updTests_keeps
    | with_reducible apply State.updPort_keeps
    | with_reducible apply State.missingRaster_keeps

theorem execAssemblyStart_keeps {s0 s : State} (port : Fin 16) (hs : s0.Keeps s) :
    Res.Keeps s0 (execAssemblyStart port s) := by
  unfold execAssemblyStart
  repeat' first
    | with_reducible assumption
    | with_reducible apply State.updPort_keeps
    | with_reducible apply State.assemble_keeps
    | with_reducible apply whenClocked_keeps
    | with_reducible apply onPort_keeps
    | extract_lets
    | split

theorem State.barScreened_keeps {s0 s : State} (p : Nat) (l : List Noz) (hs : s0.Keeps s) :
    s0.Keeps (State.barScreened s p l) := by
  unfold State.barScreened
  repeat' first
    | with_reducible assumption
    | with_reducible exact le_rfl
    | with_reducible exact id
    | with_reducible exact Otp.Grows.refl _
    | with_reducible apply ite_keeps
    | extract_lets
    | with_reducible apply State.keeps_mk

theorem State.startScreening_keeps {s0 s : State} (p : Nat) (done : Bool) (bad : List (Nat × Nat)) (hs : s0.Keeps s) :
    s0.Keeps (State.startScreening s p done bad) := by
  unfold State.startScreening
  repeat' first
    | with_reducible assumption
    | with_reducible apply State.updPort_keeps
    | with_reducible apply State.failWords_keeps
    | with_reducible apply State.barScreened_keeps
    | with_reducible apply State.screenLine_keeps
    | with_reducible apply State.inc_keeps
    | with_reducible apply ite_keeps
    | extract_lets
    | split

theorem State.setPhase_keeps {s0 s : State} (n0 c ph : Nat) (hs : s0.Keeps s) :
    s0.Keeps (State.setPhase s n0 c ph) := by
  unfold State.setPhase
  with_reducible repeat' first | assumption | apply State.updTests_keeps

theorem State.loopRegions_keeps {s0 s : State} (c : Nat) (k : LoopBlock) (t : LoopTest) (hs : s0.Keeps s) :
    s0.Keeps (State.loopRegions s c k t) := by
  unfold State.loopRegions
  with_reducible repeat' first | assumption | intro _ | apply List.foldl_keeps | apply State.setReg_keeps

theorem State.armTest_keeps {s0 s : State} (c : Nat) (k : LoopBlock) (t : LoopTest) (hs : s0.Keeps s) :
    s0.Keeps (State.armTest s c k t) := by
  unfold State.armTest
  repeat' first
    | with_reducible assumption
    | with_reducible apply State.loopRegions_keeps
    | with_reducible apply State.setReg_keeps
    | with_reducible apply State.cmpArm_keeps
    | with_reducible apply State.setPhase_keeps
    | with_reducible apply State.skipBlock_keeps
    | with_reducible apply State.updTests_keeps
    | with_reducible apply ite_keeps

theorem State.loopOff_keeps {s0 s : State} (hs : s0.Keeps s) :
    s0.Keeps (State.loopOff s) := by
  unfold State.loopOff
  repeat' first
    | with_reducible assumption
    | intro _
    | with_reducible apply List.foldl_keeps
    | with_reducible apply State.forEach_keeps
    | with_reducible apply State.setRegBit_keeps
    | with_reducible apply State.updCmp_keeps

theorem State.loopRelease_keeps {s0 s : State} (hs : s0.Keeps s) :
    s0.Keeps (State.loopRelease s) := by
  unfold State.loopRelease
  repeat' first
    | with_reducible assumption
    | with_reducible exact le_rfl
    | with_reducible exact id
    | with_reducible exact Otp.Grows.refl _
    | with_reducible apply State.loopOff_keeps
    | with_reducible apply ite_keeps
    | extract_lets
    | with_reducible apply State.keeps_mk

theorem State.loopEnableWrite_keeps {s0 s : State} (hs : s0.Keeps s) :
    s0.Keeps (State.loopEnableWrite s) := by
  unfold State.loopEnableWrite
  repeat' first
    | with_reducible assumption
    | with_reducible exact le_rfl
    | with_reducible exact id
    | with_reducible exact Otp.Grows.refl _
    | with_reducible apply State.loopOff_keeps
    | with_reducible apply State.loopRelease_keeps
    | with_reducible apply ite_keeps
    | extract_lets
    | with_reducible apply State.keeps_mk

theorem State.loopRegrid_keeps {s0 s : State} (hs : s0.Keeps s) :
    s0.Keeps (State.loopRegrid s) := by
  unfold State.loopRegrid
  repeat' first
    | with_reducible assumption
    | with_reducible exact le_rfl
    | with_reducible exact id
    | with_reducible exact Otp.Grows.refl _
    | intro _
    | with_reducible apply List.foldl_keeps
    | with_reducible apply State.skipBlock_keeps
    | with_reducible apply State.loopRelease_keeps
    | extract_lets
    | with_reducible apply State.keeps_mk

theorem execLoopArm_keeps {s0 s : State} (cam : Fin 2) (hs : s0.Keeps s) :
    Res.Keeps s0 (execLoopArm cam s) := by
  unfold execLoopArm
  repeat' first
    | with_reducible assumption
    | with_reducible apply Res.keeps_next
    | with_reducible apply State.armTest_keeps
    | with_reducible apply State.loopRelease_keeps
    | with_reducible apply State.setPhase_keeps
    | with_reducible apply whenClocked_keeps
    | with_reducible apply ite_keeps
    | extract_lets
    | split

theorem State.judgeNozzle_keeps {s0 s : State} (u : Nat) (apply : Bool) (med i r : Nat) (hs : s0.Keeps s) :
    s0.Keeps (State.judgeNozzle s u apply med i r) := by
  unfold State.judgeNozzle
  repeat' first
    | with_reducible assumption
    | with_reducible exact le_rfl
    | with_reducible exact id
    | with_reducible exact Otp.Grows.refl _
    | exact Nat.le_add_right _ _
    | with_reducible apply State.updLport_keeps
    | with_reducible apply State.event_keeps
    | with_reducible apply State.raise_keeps
    | with_reducible apply ite_keeps
    | extract_lets
    | with_reducible apply State.keeps_mk

theorem State.loopCounts_keeps {s0 s : State} (u : Nat) (hs : s0.Keeps s) :
    s0.Keeps (State.loopCounts s u) := by
  unfold State.loopCounts
  with_reducible repeat' first | assumption | intro _ | apply State.setReg_keeps | apply State.forEach_keeps | apply State.cause_keeps

theorem State.drew_keeps {s0 s : State} (l : List (List Int)) (hs : s0.Keeps s) : s0.Keeps (State.drew s l) := by
  unfold State.drew
  repeat' first
    | with_reducible assumption
    | with_reducible exact le_rfl
    | with_reducible exact id
    | with_reducible exact Otp.Grows.refl _
    | exact Nat.le_add_right _ _
    | with_reducible apply State.keeps_mk

theorem State.loopTrims_keeps {s0 s : State} (c : Nat) (k : LoopBlock) (t : LoopTest) (paper : Int) (hs : s0.Keeps s) :
    s0.Keeps (State.loopTrims s c k t paper) := by
  unfold State.loopTrims
  repeat' first
    | with_reducible assumption
    | with_reducible apply State.drew_keeps
    | with_reducible exact le_rfl
    | with_reducible exact id
    | with_reducible exact Otp.Grows.refl _
    | exact Nat.le_add_right _ _
    | intro _
    | with_reducible apply List.foldl_keeps
    | with_reducible apply State.inc_keeps
    | with_reducible apply State.setReg_keeps
    | with_reducible apply State.updLport_keeps
    | with_reducible apply ite_keeps
    | extract_lets
    | split
    | with_reducible apply State.keeps_mk

theorem State.loopOffset_keeps {s0 s : State} (c : Nat) (k : LoopBlock) (t : LoopTest) (hs : s0.Keeps s) :
    s0.Keeps (State.loopOffset s c k t) := by
  unfold State.loopOffset
  repeat' first
    | with_reducible assumption
    | with_reducible apply State.inc_keeps
    | with_reducible apply State.setRegI_keeps
    | with_reducible apply State.updLport_keeps
    | with_reducible apply State.raise_keeps
    | with_reducible apply ite_keeps
    | extract_lets
    | split

theorem State.checkBlock_keeps {s0 s : State} (c : Nat) (k : LoopBlock) (t : LoopTest) (hs : s0.Keeps s) :
    s0.Keeps (State.checkBlock s c k t) := by
  unfold State.checkBlock
  repeat' first
    | with_reducible assumption
    | with_reducible apply State.drew_keeps
    | intro _
    | with_reducible apply List.foldl_keeps
    | with_reducible apply State.inc_keeps
    | with_reducible apply State.setReg_keeps
    | with_reducible apply State.event_keeps
    | with_reducible apply State.updLport_keeps
    | with_reducible apply State.raise_keeps
    | with_reducible apply State.judgeNozzle_keeps
    | with_reducible apply State.loopTrims_keeps
    | with_reducible apply State.loopCounts_keeps
    | with_reducible apply State.loopOffset_keeps
    | with_reducible apply ite_keeps

theorem execLoopCheck_keeps {s0 s : State} (cam : Fin 2) (hs : s0.Keeps s) :
    Res.Keeps s0 (execLoopCheck cam s) := by
  unfold execLoopCheck
  repeat' first
    | with_reducible assumption
    | with_reducible apply Res.keeps_next
    | with_reducible apply State.checkBlock_keeps
    | with_reducible apply State.setPhase_keeps
    | with_reducible apply State.loopRelease_keeps
    | with_reducible apply whenClocked_keeps
    | with_reducible apply ite_keeps
    | extract_lets
    | split

theorem State.loopClearWrite_keeps {s0 s : State} (p old : Nat) (hs : s0.Keeps s) :
    s0.Keeps (State.loopClearWrite s p old) := by
  unfold State.loopClearWrite
  with_reducible repeat' first | assumption | apply State.setReg_keeps

theorem State.loopBandPort_keeps {s0 s : State} (p : Nat) (hs : s0.Keeps s) :
    s0.Keeps (State.loopBandPort s p).1 := by
  unfold State.loopBandPort
  repeat' first
    | with_reducible assumption
    | with_reducible apply State.updLport_keeps
    | with_reducible apply State.setTab_keeps
    | with_reducible apply State.setReg_keeps
    | with_reducible apply State.loopCounts_keeps
    | with_reducible apply State.event_keeps
    | with_reducible apply ite_keeps₁

theorem State.loopSheetPort_keeps {s0 s : State} (p : Nat) (hs : s0.Keeps s) :
    s0.Keeps (State.loopSheetPort s p).1 := by
  unfold State.loopSheetPort
  repeat' first
    | with_reducible assumption
    | with_reducible apply State.updLport_keeps
    | with_reducible apply State.setRegI_keeps
    | with_reducible apply State.setReg_keeps
    | with_reducible apply State.cause_keeps
    | with_reducible apply State.event_keeps
    | with_reducible apply ite_keeps₁

theorem State.loopHandOver_keeps {s0 s : State} (c : Commit) (hs : s0.Keeps s) :
    s0.Keeps (State.loopHandOver s c).1 := by
  unfold State.loopHandOver
  refine List.foldl_keeps₁ (fun t a h => ?_) _ hs
  cases c with
  | band => exact State.loopBandPort_keeps _ h
  | sheet => exact State.loopSheetPort_keeps _ h
  | _ => exact h

/-! ## Movers -/

theorem State.moverRead_keeps {s0 s : State} (a : Nat) (hs : s0.Keeps s) :
    s0.Keeps (State.moverRead s a).1 := by
  unfold State.moverRead
  repeat' first
    | with_reducible assumption
    | with_reducible apply State.portA_keeps
    | with_reducible apply State.readScratch_keeps
    | with_reducible apply State.pmcBulk_keeps
    | with_reducible apply State.readBulk_keeps
    | with_reducible apply ite_keeps₁
    | extract_lets
    | split

theorem State.moverWrite_keeps {s0 s : State} (a v : Nat) (hs : s0.Keeps s) :
    s0.Keeps (State.moverWrite s a v).1 := by
  unfold State.moverWrite
  repeat' first
    | with_reducible assumption
    | with_reducible apply State.portA_keeps
    | with_reducible apply State.writeScratch_keeps
    | with_reducible apply State.pmcBulk_keeps
    | with_reducible apply State.writeBulk_keeps
    | with_reducible apply ite_keeps₁
    | extract_lets
    | split

theorem State.moverReads_keeps {s0 s : State} (a n : Nat) (hs : s0.Keeps s) :
    s0.Keeps (State.moverReads s a n).1 := by
  unfold State.moverReads
  with_reducible repeat' first | assumption | intro _ | apply List.foldl_keeps₁ | apply State.moverRead_keeps

theorem State.moverWrites_keeps {s0 s : State} (a : Nat) (ws : List Nat) (hs : s0.Keeps s) :
    s0.Keeps (State.moverWrites s a ws).1 := by
  unfold State.moverWrites
  with_reducible repeat' first | assumption | intro _ | apply List.foldl_keeps₁ | apply State.moverWrite_keeps

theorem State.collided_keeps {s0 s : State} (n : Nat) (hs : s0.Keeps s) :
    s0.Keeps (State.collided s n) := by
  unfold State.collided
  with_reducible repeat' first | assumption | apply State.addReg_keeps

theorem State.burstWrite_keeps {s0 s : State} (c a : Nat) (ws : List Nat) (hs : s0.Keeps s) :
    s0.Keeps (State.burstWrite s c a ws).1 := by
  unfold State.burstWrite
  repeat' first
    | with_reducible assumption
    | intro _
    | with_reducible apply List.foldl_keeps₁
    | with_reducible apply State.moverWrite_keeps
    | with_reducible apply State.collided_keeps
    | with_reducible apply State.updDch_keeps
    | with_reducible apply ite_keeps₁

theorem State.selectMover_keeps {s0 s : State} (m : Nat) (hs : s0.Keeps s) :
    s0.Keeps (State.selectMover s m) := by
  unfold State.selectMover
  repeat' first
    | with_reducible assumption
    | intro _
    | with_reducible apply List.foldl_keeps₁
    | with_reducible apply State.updDch_keeps
    | with_reducible apply State.updMover_keeps
    | with_reducible apply ite_keeps
    | extract_lets
    | split

theorem State.dmaUnhold_keeps {s0 s : State} (hs : s0.Keeps s) :
    s0.Keeps (State.dmaUnhold s) := by
  unfold State.dmaUnhold
  repeat' first
    | with_reducible assumption
    | intro _
    | with_reducible apply State.forEach_keeps
    | with_reducible apply State.updDch_keeps
    | with_reducible apply State.selectMover_keeps
    | with_reducible apply ite_keeps

theorem State.dmaHold_keeps {s0 s : State} (hs : s0.Keeps s) :
    s0.Keeps (State.dmaHold s) := by
  unfold State.dmaHold
  with_reducible repeat' first | assumption | intro _ | apply State.forEach_keeps | apply State.updDch_keeps | apply ite_keeps

theorem State.dmaEnqueue_keeps {s0 s : State} (c : Nat) (pos : DmaAt) (hs : s0.Keeps s) :
    s0.Keeps (State.dmaEnqueue s c pos) := by
  unfold State.dmaEnqueue
  with_reducible repeat' first | assumption | apply State.updDch_keeps | apply State.selectMover_keeps

theorem State.chainError_keeps {s0 s : State} (c d : Nat) (hs : s0.Keeps s) :
    s0.Keeps (State.chainError s c d) := by
  unfold State.chainError
  repeat' first
    | with_reducible assumption
    | with_reducible apply State.setReg_keeps
    | with_reducible apply State.updDch_keeps
    | with_reducible apply State.raise_keeps
    | with_reducible apply State.selectMover_keeps

theorem State.dmaIrq_keeps {s0 s : State} (c : Nat) (hs : s0.Keeps s) :
    s0.Keeps (State.dmaIrq s c) := by
  unfold State.dmaIrq
  with_reducible repeat' first | assumption | apply State.emit_keeps | apply State.setRegBit_keeps | apply ite_keeps

theorem State.dmaBell_keeps {s0 s : State} (c : Nat) (hs : s0.Keeps s) :
    s0.Keeps (State.dmaBell s c) := by
  unfold State.dmaBell
  repeat' first
    | with_reducible assumption
    | with_reducible apply State.inc_keeps
    | with_reducible apply State.updDch_keeps
    | with_reducible apply State.setReg_keeps
    | with_reducible apply State.dmaEnqueue_keeps
    | with_reducible apply State.chainError_keeps
    | with_reducible apply State.traceRec_keeps
    | with_reducible apply State.dmaIrq_keeps
    | with_reducible apply ite_keeps

theorem State.dmaFinish_keeps {s0 s : State} (c outcome err : Nat) (hs : s0.Keeps s) :
    s0.Keeps (State.dmaFinish s c outcome err) := by
  unfold State.dmaFinish
  with_reducible repeat' first | assumption | apply State.updDch_keeps

theorem State.dmaUnused_keeps {s0 s : State} (c : Nat) (hs : s0.Keeps s) : s0.Keeps (State.dmaUnused s c) := State.updDch_keeps _ _ hs

theorem State.dmaBurstMove_keeps {s0 s : State} (c src n : Nat) (hs : s0.Keeps s) :
    s0.Keeps (State.dmaBurstMove s c src n) := by
  unfold State.dmaBurstMove
  repeat' first
    | with_reducible assumption
    | with_reducible apply State.dmaUnused_keeps
    | with_reducible apply State.moverReads_keeps
    | with_reducible apply State.dmaFinish_keeps
    | with_reducible apply State.pmc_keeps
    | with_reducible apply State.burstWrite_keeps
    | with_reducible apply State.setReg_keeps
    | with_reducible apply State.addReg_keeps
    | with_reducible apply State.updDch_keeps
    | with_reducible apply ite_keeps
    | extract_lets
    | split

theorem State.dmaStep_keeps {s0 s : State} (c : Nat) (hs : s0.Keeps s) :
    s0.Keeps (State.dmaStep s c) := by
  unfold State.dmaStep
  extract_lets r idx k hold
  have hidx : ∀ k (f : State → Nat → State), (∀ t w, s0.Keeps t → s0.Keeps (f t w)) → s0.Keeps (idx k f) := by
    intro k f hf
    unfold idx
    refine ite_keeps (State.dmaUnused_keeps _ hs) ?_
    have ha := State.moverRead_keeps (r.table + k) hs
    extract_lets a
    split
    exacts [State.dmaFinish_keeps _ _ _ ha, hf _ _ ha]
  clear_value idx hold
  refine ite_keeps (State.dmaBurstMove_keeps _ _ _ hs) (ite_keeps (hidx _ _ fun t w h => State.updDch_keeps _ _ (State.setReg_keeps _ _ h)) ?_)
  cases hold with
  | none => exact hidx _ _ fun t w h => State.updDch_keeps _ _ h
  | some e => exact State.dmaBurstMove_keeps _ _ _ hs

theorem State.dmaFetch_keeps {s0 s : State} (c d : Nat) (hs : s0.Keeps s) :
    s0.Keeps (State.dmaFetch s c d) := by
  unfold State.dmaFetch
  repeat' first
    | with_reducible assumption
    | with_reducible apply State.updDch_keeps
    | with_reducible apply State.moverReads_keeps
    | with_reducible apply State.chainError_keeps
    | with_reducible apply State.setReg_keeps
    | with_reducible apply State.selectMover_keeps
    | with_reducible apply State.dmaFinish_keeps
    | with_reducible apply ite_keeps
    | extract_lets
    | split

theorem State.dmaLink_keeps {s0 s : State} (c d : Nat) (yield : Bool) (hs : s0.Keeps s) :
    s0.Keeps (State.dmaLink s c d yield) := by
  unfold State.dmaLink
  repeat' first
    | with_reducible assumption
    | with_reducible apply State.updDch_keeps
    | with_reducible apply State.moverRead_keeps
    | with_reducible apply State.chainError_keeps
    | with_reducible apply State.setReg_keeps
    | with_reducible apply State.selectMover_keeps
    | with_reducible apply ite_keeps
    | extract_lets
    | split

theorem State.dmaRead_keeps {s0 s : State} (c : Nat) (hs : s0.Keeps s) :
    s0.Keeps (State.dmaRead s c) := by
  unfold State.dmaRead
  repeat' first
    | with_reducible assumption
    | with_reducible apply State.updDch_keeps
    | with_reducible apply State.dmaFetch_keeps
    | with_reducible apply State.dmaStep_keeps
    | with_reducible apply ite_keeps
    | extract_lets
    | split

theorem execDmaSlot_keeps {s0 s : State} (m : Fin 4) (hs : s0.Keeps s) :
    Res.Keeps s0 (execDmaSlot m s) := by
  unfold execDmaSlot
  repeat' first
    | with_reducible assumption
    | with_reducible apply Res.keeps_next
    | with_reducible apply State.updMover_keeps
    | with_reducible apply State.selectMover_keeps
    | with_reducible apply State.dmaLink_keeps
    | with_reducible apply State.dmaRead_keeps
    | with_reducible apply whenClocked_keeps
    | with_reducible apply ite_keeps
    | extract_lets
    | split

theorem execDmaReadbackDone_keeps {s0 s : State} (ch : Fin 32) (hs : s0.Keeps s) :
    Res.Keeps s0 (execDmaReadbackDone ch s) := by
  unfold execDmaReadbackDone
  repeat' first
    | with_reducible assumption
    | with_reducible apply Res.keeps_next
    | with_reducible apply State.updDch_keeps
    | with_reducible apply State.moverRead_keeps
    | with_reducible apply whenClocked_keeps
    | with_reducible apply ite_keeps
    | extract_lets
    | split

theorem State.dmaOutcome_keeps {s0 s : State} (c : Nat) (hs : s0.Keeps s) :
    s0.Keeps (State.dmaOutcome s c) := by
  unfold State.dmaOutcome
  repeat' first
    | with_reducible assumption
    | with_reducible apply State.traceRec_keeps
    | with_reducible apply State.updDch_keeps
    | with_reducible apply State.dmaIrq_keeps
    | with_reducible apply State.inc_keeps
    | with_reducible apply State.raise_keeps
    | with_reducible apply ite_keeps

theorem State.statusCollides_keeps {s0 s : State} (c d : Nat) (hs : s0.Keeps s) :
    s0.Keeps (State.statusCollides s c d) := by
  unfold State.statusCollides
  repeat' first
    | with_reducible assumption
    | with_reducible apply State.collided_keeps
    | with_reducible apply State.updDch_keeps
    | with_reducible apply State.chainError_keeps
    | with_reducible apply State.inc_keeps
    | with_reducible apply ite_keeps

theorem State.retryChannel_keeps {s0 s : State} (c : Nat) (hs : s0.Keeps s) :
    s0.Keeps (State.retryChannel s c) := by
  unfold State.retryChannel
  repeat' first
    | with_reducible assumption
    | intro _
    | with_reducible apply List.foldl_keeps₁
    | with_reducible apply State.addReg_keeps
    | with_reducible apply State.collided_keeps
    | with_reducible apply State.moverWrite_keeps
    | with_reducible apply State.updDch_keeps
    | with_reducible apply State.dmaFinish_keeps
    | with_reducible apply ite_keeps

theorem State.dmaEnd_keeps {s0 s : State} (hs : s0.Keeps s) :
    s0.Keeps (State.dmaEnd s) := by
  unfold State.dmaEnd
  with_reducible repeat' first | assumption | intro _ | apply State.forEach_keeps | apply State.retryChannel_keeps

theorem execDmaDescDone_keeps {s0 s : State} (ch : Fin 32) (hs : s0.Keeps s) :
    Res.Keeps s0 (execDmaDescDone ch s) := by
  unfold execDmaDescDone
  repeat' first
    | with_reducible assumption
    | with_reducible apply Res.keeps_next
    | with_reducible apply State.dmaOutcome_keeps
    | with_reducible apply State.updDch_keeps
    | with_reducible apply State.selectMover_keeps
    | with_reducible apply State.statusCollides_keeps
    | with_reducible apply State.moverWrite_keeps
    | with_reducible apply State.chainError_keeps
    | with_reducible apply State.inc_keeps
    | with_reducible apply State.dmaLink_keeps
    | with_reducible apply whenClocked_keeps
    | with_reducible apply ite_keeps

theorem State.dmaPauseCh_keeps {s0 s : State} (c : Nat) (hs : s0.Keeps s) :
    s0.Keeps (State.dmaPauseCh s c) := by
  unfold State.dmaPauseCh
  with_reducible repeat' first | assumption | apply State.updDch_keeps | apply ite_keeps | extract_lets | split

theorem execDmaPauseDone_keeps {s0 s : State} (ch : Fin 32) (hs : s0.Keeps s) :
    Res.Keeps s0 (execDmaPauseDone ch s) := by
  unfold execDmaPauseDone
  repeat' first
    | with_reducible assumption
    | with_reducible apply Res.keeps_next
    | with_reducible apply State.updDch_keeps
    | with_reducible apply State.setReg_keeps
    | with_reducible apply State.selectMover_keeps
    | with_reducible apply whenClocked_keeps
    | with_reducible apply ite_keeps
    | extract_lets
    | split

theorem State.dmaResumeCh_keeps {s0 s : State} (c : Nat) (hs : s0.Keeps s) :
    s0.Keeps (State.dmaResumeCh s c) := by
  unfold State.dmaResumeCh
  with_reducible repeat' first | assumption | apply State.updDch_keeps | apply State.selectMover_keeps | apply ite_keeps

theorem State.dmaAbortCh_keeps {s0 s : State} (c : Nat) (hs : s0.Keeps s) :
    s0.Keeps (State.dmaAbortCh s c) := by
  unfold State.dmaAbortCh
  repeat' first
    | with_reducible assumption
    | with_reducible apply State.updDch_keeps
    | with_reducible apply State.selectMover_keeps
    | with_reducible apply State.setReg_keeps
    | with_reducible apply State.dmaFinish_keeps
    | with_reducible apply State.dmaOutcome_keeps
    | with_reducible apply ite_keeps
    | extract_lets
    | split

theorem State.dmaCmd_keeps {s0 s : State} (c v : Nat) (hs : s0.Keeps s) :
    s0.Keeps (State.dmaCmd s c v) := by
  unfold State.dmaCmd
  repeat' first
    | with_reducible assumption
    | with_reducible apply State.dmaBell_keeps
    | with_reducible apply State.dmaPauseCh_keeps
    | with_reducible apply State.dmaResumeCh_keeps
    | with_reducible apply State.dmaAbortCh_keeps
    | split

theorem State.wordWrite_keeps {s0 s : State} (v : Nat) (hs : s0.Keeps s) :
    s0.Keeps (State.wordWrite s v) := by
  unfold State.wordWrite
  repeat' first
    | with_reducible assumption
    | with_reducible apply State.collided_keeps
    | with_reducible apply State.inc_keeps
    | with_reducible apply State.moverWrite_keeps
    | with_reducible apply State.setReg_keeps
    | with_reducible apply ite_keeps

theorem State.wordRead_keeps {s0 s : State} (hs : s0.Keeps s) :
    s0.Keeps (State.wordRead s).1 := by
  unfold State.wordRead
  with_reducible repeat' first | assumption | apply State.moverRead_keeps | apply State.setReg_keeps

/-! ## Answers -/

theorem State.countAnswer_keeps {s0 s : State} (q : Req) (st : Nat) (hs : s0.Keeps s) :
    s0.Keeps (State.countAnswer s q st) := by
  unfold State.countAnswer
  with_reducible repeat' first | assumption | apply State.inc_keeps | apply State.pmc_keeps | apply State.traceRec_keeps | apply ite_keeps

theorem State.answer_keeps {s0 s : State} (q : Req) (p : Reply) (acc : Nat) (hs : s0.Keeps s) :
    s0.Keeps (State.answer s q p acc) := by
  unfold State.answer
  with_reducible repeat' first | assumption | apply State.countAnswer_keeps | apply State.nextSeq_keeps | apply State.sendFrame_keeps

theorem State.bcastDone_keeps {s0 s : State} (st : Nat) (hs : s0.Keeps s) :
    s0.Keeps (State.bcastDone s st) := by
  unfold State.bcastDone
  with_reducible repeat' first | assumption | apply State.inc_keeps | apply State.setReg_keeps | apply ite_keeps

theorem State.finish_keeps {s0 s : State} (q : Req) (took : Bool) (p : Reply) (acc : Nat) (hs : s0.Keeps s) :
    s0.Keeps (State.finish s q took p acc) := by
  unfold State.finish
  repeat' first
    | with_reducible assumption
    | with_reducible exact le_rfl
    | with_reducible exact id
    | with_reducible exact Otp.Grows.refl _
    | with_reducible apply State.bcastDone_keeps
    | with_reducible apply State.answer_keeps
    | with_reducible apply ite_keeps
    | extract_lets
    | with_reducible apply State.keeps_mk

theorem State.poison_keeps {s0 s : State} (g : Nat) (hs : s0.Keeps s) :
    s0.Keeps (State.poison s g) := by
  unfold State.poison
  with_reducible repeat' first | assumption | apply State.updGroup_keeps | split

theorem State.conclude_keeps {s0 s : State} (q : Req) (took : Bool) (p : Reply) (acc : Nat) (hs : s0.Keeps s) :
    s0.Keeps (State.conclude s q took p acc) := by
  unfold State.conclude
  with_reducible repeat' first | assumption | apply State.poison_keeps | apply State.finish_keeps | apply ite_keeps

theorem State.fwDown_keeps {s0 s : State} (hs : s0.Keeps s) :
    s0.Keeps (State.fwDown s) := by
  unfold State.fwDown
  repeat' first
    | with_reducible assumption
    | with_reducible exact le_rfl
    | with_reducible exact id
    | with_reducible exact Otp.Grows.refl _
    | intro _
    | with_reducible apply List.foldl_keeps
    | with_reducible apply State.forEach_keeps
    | with_reducible apply State.updSess_keeps
    | with_reducible apply State.conclude_keeps
    | with_reducible apply ite_keeps
    | extract_lets
    | with_reducible apply State.keeps_mk

/-! ## Event log -/

theorem State.updMgmt_keeps {s0 s : State} (f : Mgmt → Mgmt) (hs : s0.Keeps s) :
    s0.Keeps (State.updMgmt s f) :=
  hs.same rfl rfl rfl rfl rfl rfl rfl rfl rfl

theorem State.updNor_keeps {s0 s : State} (f : Nor → Nor) (hs : s0.Keeps s) :
    s0.Keeps (State.updNor s f) :=
  hs.same rfl rfl rfl rfl rfl rfl rfl rfl rfl

theorem State.norWrite_keeps {s0 s : State} (region : Nat) (f : Nor → Nor) (hs : s0.Keeps s) :
    s0.Keeps (State.norWrite s region f) := by
  unfold State.norWrite
  with_reducible repeat' first | assumption | apply State.updNor_keeps | apply State.raise_keeps | apply ite_keeps

theorem State.calderaEvent_keeps {s0 s : State} (code arg : Nat) (hs : s0.Keeps s) :
    s0.Keeps (State.calderaEvent s code arg) := by
  unfold State.calderaEvent
  with_reducible repeat' first | assumption | apply State.event_keeps

theorem State.logAdd_keeps {s0 s : State} (kind code : Nat) (payload : List Nat) (mark : Option Nat := none) (hs : s0.Keeps s) :
    s0.Keeps (State.logAdd s kind code payload mark) := by
  unfold State.logAdd
  with_reducible repeat' first | assumption | apply State.updMgmt_keeps | apply ite_keeps

theorem State.logConfig_keeps {s0 s : State} (kind : Nat) (payload : List Nat) (hs : s0.Keeps s) :
    s0.Keeps (State.logConfig s kind payload) := by
  unfold State.logConfig
  with_reducible repeat' first | assumption | apply State.logAdd_keeps

theorem State.histCopy_keeps {s0 s : State} (hs : s0.Keeps s) :
    s0.Keeps (State.histCopy s) := by
  unfold State.histCopy
  repeat' first
    | with_reducible assumption
    | intro _
    | with_reducible apply List.foldl_keeps
    | with_reducible apply State.logAdd_keeps
    | with_reducible apply State.updMgmt_keeps
    | with_reducible apply ite_keeps

theorem execLogProgram_keeps {s0 s : State} (hs : s0.Keeps s) :
    Res.Keeps s0 (execLogProgram s) := by
  unfold execLogProgram
  repeat' first
    | with_reducible assumption
    | with_reducible exact le_rfl
    | with_reducible exact id
    | with_reducible exact Otp.Grows.refl _
    | exact Nat.le_add_right _ _
    | with_reducible apply Res.keeps_next
    | with_reducible apply State.raise_keeps
    | with_reducible apply State.updNor_keeps
    | with_reducible apply State.updMgmt_keeps
    | with_reducible apply State.calderaEvent_keeps
    | with_reducible apply State.logAdd_keeps
    | with_reducible apply whenOn_keeps
    | with_reducible apply ite_keeps
    | extract_lets
    | split
    | with_reducible apply State.keeps_mk

/-! ## Fault Collector -/

theorem State.updFaults_keeps {s0 s : State} (f : Faults → Faults) (hs : s0.Keeps s) :
    s0.Keeps (State.updFaults s f) :=
  hs.same rfl rfl rfl rfl rfl rfl rfl rfl rfl

theorem State.escalate_keeps {s0 s : State} (k : Nat) (hs : s0.Keeps s) :
    s0.Keeps (State.escalate s k).1 := by
  unfold State.escalate
  with_reducible repeat' first | assumption | apply State.updSrc_keeps | apply ite_keeps₁

theorem State.escalateAll_keeps {s0 s : State} (l : List Arrival) (hs : s0.Keeps s) :
    s0.Keeps (State.escalateAll s l).1 := by
  unfold State.escalateAll
  repeat' first
    | with_reducible assumption
    | intro _
    | with_reducible apply List.foldl_keeps₁
    | with_reducible apply State.escalate_keeps
    | with_reducible apply State.updSrc_keeps
    | with_reducible apply ite_keeps₁

theorem State.record_keeps {s0 s : State} (l : List Arrival) (hs : s0.Keeps s) :
    s0.Keeps (State.record s l) := by
  unfold State.record
  with_reducible repeat' first | assumption | apply State.addReg_keeps | apply State.updFaults_keeps | apply ite_keeps

theorem State.react_keeps {s0 s : State} (hlost : Bool) (a : Arrival) (hs : s0.Keeps s) :
    s0.Keeps (State.react hlost a s) := by
  unfold State.react
  repeat' first
    | with_reducible assumption
    | with_reducible apply State.updSrc_keeps
    | with_reducible apply State.inc_keeps
    | with_reducible apply State.updFaults_keeps
    | with_reducible apply State.pmc_keeps
    | with_reducible apply State.traceRec_keeps
    | with_reducible apply State.event_keeps
    | with_reducible apply ite_keeps

theorem State.issue_keeps {s0 s : State} (e : Nat × Bool) (hs : s0.Keeps s) :
    s0.Keeps (State.issue s e) := by
  unfold State.issue
  repeat' first
    | with_reducible assumption
    | with_reducible apply State.emit_keeps
    | with_reducible apply State.updFaults_keeps
    | with_reducible apply State.fireInhibit_keeps
    | with_reducible apply ite_keeps

theorem State.reactionsNow_keeps {s0 s : State} (hs : s0.Keeps s) :
    s0.Keeps (State.reactionsNow s) := by
  unfold State.reactionsNow
  repeat' first
    | with_reducible assumption
    | intro _
    | with_reducible apply List.foldl_keeps
    | with_reducible apply State.issue_keeps
    | with_reducible apply State.updFaults_keeps
    | with_reducible apply ite_keeps

theorem State.putFirst_keeps {s0 s : State} (w : Nat × Nat) (hs : s0.Keeps s) :
    s0.Keeps (State.putFirst s w) := by
  unfold State.putFirst
  with_reducible repeat' first | assumption | apply State.setReg_keeps

theorem State.first_keeps {s0 s : State} (a : Arrival) (hs : s0.Keeps s) :
    s0.Keeps (State.first s a) := by
  unfold State.first
  with_reducible repeat' first | assumption | apply State.updFaults_keeps | apply State.putFirst_keeps | apply ite_keeps

theorem execFaultArrival_keeps {s0 s : State} (raises : List RaiseIn) (hs : s0.Keeps s) :
    Res.Keeps s0 (execFaultArrival raises s) := by
  unfold execFaultArrival
  repeat' first
    | with_reducible assumption
    | intro _
    | with_reducible apply Res.keeps_next
    | with_reducible apply List.foldl_keeps
    | with_reducible apply State.updFaults_keeps
    | with_reducible apply State.setReg_keeps
    | with_reducible apply State.escalateAll_keeps
    | with_reducible apply State.first_keeps
    | with_reducible apply State.record_keeps
    | with_reducible apply State.react_keeps
    | with_reducible apply State.reactionsNow_keeps
    | with_reducible apply whenOn_keeps
    | with_reducible apply ite_keeps
    | extract_lets
    | split

theorem execHistBatchWrite_keeps {s0 s : State} (hs : s0.Keeps s) :
    Res.Keeps s0 (execHistBatchWrite s) := by
  unfold execHistBatchWrite
  repeat' first
    | with_reducible assumption
    | intro _
    | with_reducible apply Res.keeps_next
    | with_reducible apply List.foldl_keeps
    | with_reducible apply State.setReg_keeps
    | with_reducible apply State.addReg_keeps
    | with_reducible apply State.updFaults_keeps
    | with_reducible apply State.histCopy_keeps
    | with_reducible apply whenOn_keeps
    | with_reducible apply ite_keeps
    | extract_lets
    | split

theorem State.clearSrc_keeps {s0 s : State} (k : Nat) (hs : s0.Keeps s) :
    s0.Keeps (State.clearSrc k s) := by
  unfold State.clearSrc
  with_reducible repeat' first | assumption | apply State.updSrc_keeps | split

theorem State.faultClear_keeps {s0 s : State} (v : Nat) (hs : s0.Keeps s) :
    s0.Keeps (State.faultClear s v) := by
  unfold State.faultClear
  with_reducible repeat' first | assumption | intro _ | apply State.forEach_keeps | apply State.clearSrc_keeps | apply ite_keeps

theorem State.firstClear_keeps {s0 s : State} (hs : s0.Keeps s) :
    s0.Keeps (State.firstClear s) := by
  unfold State.firstClear
  with_reducible repeat' first | assumption | apply State.putFirst_keeps | apply State.setReg_keeps | split

theorem State.emptyHistory_keeps {s0 s : State} (hs : s0.Keeps s) :
    s0.Keeps (State.emptyHistory s) := by
  unfold State.emptyHistory
  with_reducible repeat' first | assumption | intro _ | apply State.forEach_keeps | apply State.setReg_keeps | apply State.updFaults_keeps

theorem State.histClear_keeps {s0 s : State} (hs : s0.Keeps s) :
    s0.Keeps (State.histClear s) := by
  unfold State.histClear
  with_reducible repeat' first | assumption | apply State.updFaults_keeps | apply State.emptyHistory_keeps | apply ite_keeps

theorem State.faultTick_keeps {s0 s : State} (hs : s0.Keeps s) :
    s0.Keeps (State.faultTick s) := by
  unfold State.faultTick
  with_reducible repeat' first | assumption | apply State.emptyHistory_keeps | apply ite_keeps

theorem State.injectArm_keeps {s0 s : State} (k : Nat) (hs : s0.Keeps s) :
    s0.Keeps (State.injectArm s k) := by
  unfold State.injectArm
  with_reducible repeat' first | assumption | apply State.setReg_keeps | apply State.updFaults_keeps

theorem execInjectExpire_keeps {s0 s : State} (hs : s0.Keeps s) :
    Res.Keeps s0 (execInjectExpire s) := by
  unfold execInjectExpire
  repeat' first
    | with_reducible assumption
    | with_reducible apply Res.keeps_next
    | with_reducible apply State.setReg_keeps
    | with_reducible apply State.inc_keeps
    | with_reducible apply State.updFaults_keeps
    | with_reducible apply whenOn_keeps
    | with_reducible apply ite_keeps

/-! ## The end of a clock for the slots -/

theorem State.decideNow_keeps {s0 s : State} (p : Nat) (e : Nat × List Nat) (hs : s0.Keeps s) :
    s0.Keeps (State.decideNow p s e) := by
  unfold State.decideNow
  with_reducible repeat' first | assumption | apply State.deferDecide_keeps | apply ite_keeps | split

theorem State.instantNow_keeps {s0 s : State} (p : Nat) (e : Nat × List Nat) (hs : s0.Keeps s) :
    s0.Keeps (State.instantNow p s e) := by
  unfold State.instantNow
  with_reducible repeat' first | assumption | apply State.fireInstant_keeps | apply ite_keeps

theorem State.settleSlots_keeps {s0 s : State} (p : Nat) (hs : s0.Keeps s) :
    s0.Keeps (State.settleSlots p s) := by
  unfold State.settleSlots
  repeat' first
    | with_reducible assumption
    | intro _
    | with_reducible apply List.foldl_keeps
    | with_reducible apply State.updPort_keeps
    | with_reducible apply State.instantNow_keeps
    | with_reducible apply State.decideNow_keeps
    | with_reducible apply State.tickle_keeps
    | with_reducible apply State.startScreening_keeps
    | extract_lets
    | split

theorem State.clockEnd_keeps {s0 s : State} (hs : s0.Keeps s) :
    s0.Keeps (State.clockEnd s) := by
  unfold State.clockEnd
  repeat' first
    | with_reducible assumption
    | intro _
    | with_reducible apply State.reactionsNow_keeps
    | with_reducible apply State.forEach_keeps
    | with_reducible apply State.camEnd_keeps
    | with_reducible apply State.pipeEnd_keeps
    | with_reducible apply State.calEnd_keeps
    | with_reducible apply State.settleSlots_keeps
    | with_reducible apply State.fireInhibit_keeps
    | with_reducible apply State.endPort_keeps
    | with_reducible apply ite_keeps

theorem State.lastOfClock_keeps {s0 s : State} (hs : s0.Keeps s) :
    s0.Keeps (State.lastOfClock s) := by
  unfold State.lastOfClock
  with_reducible repeat' first | assumption | apply State.clockEnd_keeps | apply ite_keeps

theorem execFireSlot_keeps {s0 s : State} (port : Fin 16) (phase : Fin 8) (sense : List Nat) (hs : s0.Keeps s) :
    Res.Keeps s0 (execFireSlot port phase sense s) := by
  unfold execFireSlot
  repeat' first
    | with_reducible assumption
    | with_reducible apply State.updPort_keeps
    | with_reducible apply State.lastOfClock_keeps
    | with_reducible apply whenClocked_keeps
    | with_reducible apply onPort_keeps

theorem execDeferredFire_keeps {s0 s : State} (port : Fin 16) (phase : Fin 8) (sense : List Nat) (hs : s0.Keeps s) :
    Res.Keeps s0 (execDeferredFire port phase sense s) := by
  unfold execDeferredFire
  repeat' first
    | with_reducible assumption
    | with_reducible apply State.updPort_keeps
    | with_reducible apply State.lastOfClock_keeps
    | with_reducible apply whenClocked_keeps
    | with_reducible apply onPort_keeps

theorem execIdleTickle_keeps {s0 s : State} (port : Fin 16) (sense : List Nat) (hs : s0.Keeps s) :
    Res.Keeps s0 (execIdleTickle port sense s) := by
  unfold execIdleTickle
  repeat' first
    | with_reducible assumption
    | with_reducible apply State.updPort_keeps
    | with_reducible apply State.lastOfClock_keeps
    | with_reducible apply whenClocked_keeps
    | with_reducible apply onPort_keeps

theorem execScreeningStart_keeps {s0 s : State} (port : Fin 16) (asmDone : Bool) (tableErr : List (Nat × Nat)) (hs : s0.Keeps s) :
    Res.Keeps s0 (execScreeningStart port asmDone tableErr s) := by
  unfold execScreeningStart
  repeat' first
    | with_reducible assumption
    | with_reducible apply State.updPort_keeps
    | with_reducible apply State.lastOfClock_keeps
    | with_reducible apply whenClocked_keeps
    | with_reducible apply onPort_keeps

theorem execCalRoundDone_keeps {s0 s : State} (group : Fin 4) (sums : List Nat) (refs : List Nat) (hs : s0.Keeps s) :
    Res.Keeps s0 (execCalRoundDone group sums refs s) := by
  exact whenClocked_keeps hs (onGroup_keeps (ite_keeps (State.lastOfClock_keeps (State.updCal_keeps _ _ hs)) hs))

/-! ## Caldera -/

theorem State.reportBank_keeps {s0 s : State} (b : Nat) (hs : s0.Keeps s) :
    s0.Keeps (State.reportBank b s) := by
  unfold State.reportBank
  with_reducible repeat' first | assumption | apply State.setReg_keeps | apply ite_keeps

theorem State.updateState_keeps {s0 s : State} (st b : Nat) (hs : s0.Keeps s) :
    s0.Keeps (State.updateState s st b) := by
  unfold State.updateState
  with_reducible repeat' first | assumption | apply State.setReg_keeps | apply State.logAdd_keeps | apply State.calderaEvent_keeps

theorem State.updateResult_keeps {s0 s : State} (outcome detail svn : Nat) (hs : s0.Keeps s) :
    s0.Keeps (State.updateResult s outcome detail svn) := by
  unfold State.updateResult
  with_reducible repeat' first | assumption | apply State.setReg_keeps

theorem State.commitRecord_keeps {s0 s : State} (b : Nat) (trial other : Bool) (st : Nat) (hs : s0.Keeps s) :
    s0.Keeps (State.commitRecord s b trial other st) := by
  unfold State.commitRecord
  with_reducible repeat' first | assumption | apply State.norWrite_keeps

theorem State.updBank2_keeps {s0 s : State} (b : Nat) (f : FwBank → FwBank) (hs : s0.Keeps s) :
    s0.Keeps (State.updBank2 s b f) := by
  unfold State.updBank2
  with_reducible repeat' first | assumption | apply State.norWrite_keeps

theorem State.imageOpen_keeps {s0 s : State} (len : Nat) (hs : s0.Keeps s) :
    s0.Keeps (State.imageOpen s len) := by
  unfold State.imageOpen
  repeat' first
    | with_reducible assumption
    | with_reducible apply State.updBank2_keeps
    | with_reducible apply State.reportBank_keeps
    | with_reducible apply State.setReg_keeps
    | with_reducible apply State.updateState_keeps

theorem State.imageWrite_keeps {s0 s : State} (off : Nat) (ws : List Nat) (hs : s0.Keeps s) :
    s0.Keeps (State.imageWrite s off ws) := by
  unfold State.imageWrite
  with_reducible repeat' first | assumption | apply State.updBank2_keeps

theorem State.imageStaged_keeps {s0 s : State} (hs : s0.Keeps s) :
    s0.Keeps (State.imageStaged s) := by
  unfold State.imageStaged
  with_reducible repeat' first | assumption | apply State.updateState_keeps

theorem State.endStaging_keeps {s0 s : State} (hs : s0.Keeps s) :
    s0.Keeps (State.endStaging s) := by
  unfold State.endStaging
  with_reducible repeat' first | assumption | apply State.updBank2_keeps

theorem State.updateInstall_keeps {s0 s : State} (hs : s0.Keeps s) :
    s0.Keeps (State.updateInstall s) := by
  unfold State.updateInstall
  repeat' first
    | with_reducible assumption
    | with_reducible apply State.updateState_keeps
    | with_reducible apply State.updateResult_keeps
    | with_reducible apply State.endStaging_keeps
    | with_reducible apply State.setReg_keeps
    | with_reducible apply State.commitRecord_keeps
    | with_reducible apply State.reportBank_keeps
    | with_reducible apply ite_keeps

theorem State.updateActivate_keeps {s0 s : State} (hs : s0.Keeps s) :
    s0.Keeps (State.updateActivate s) := by
  unfold State.updateActivate
  with_reducible repeat' first | assumption | apply State.updMgmt_keeps

theorem State.burnFloor_keeps {s0 s : State} (v : Nat) (hs : s0.Keeps s) : s0.Keeps (s.burnFloor v) := by
  have h := State.setReg_keeps Key.ROLLBACK_FLOOR (max s.otp.floor v) hs
  exact ⟨h.ident, h.pending, h.clk, h.free, h.freeT, h.regs, h.mem, h.tabs, h.otp.trans (Otp.grows_floor _ _)⟩

theorem State.updateConfirm_keeps {s0 s : State} (hs : s0.Keeps s) :
    s0.Keeps (State.updateConfirm s) := by
  unfold State.updateConfirm
  repeat' first
    | with_reducible assumption
    | with_reducible apply State.commitRecord_keeps
    | with_reducible apply State.burnFloor_keeps
    | with_reducible apply State.updMgmt_keeps
    | with_reducible apply State.updateResult_keeps
    | with_reducible apply State.updateState_keeps

theorem State.abortUpdate_keeps {s0 s : State} (d : Nat) (hs : s0.Keeps s) :
    s0.Keeps (State.abortUpdate s d) := by
  unfold State.abortUpdate
  repeat' first
    | with_reducible assumption
    | with_reducible apply State.commitRecord_keeps
    | with_reducible apply State.updMgmt_keeps
    | with_reducible apply State.updateResult_keeps
    | with_reducible apply State.updateState_keeps
    | with_reducible apply State.endStaging_keeps
    | with_reducible apply State.updBank2_keeps
    | with_reducible apply State.reportBank_keeps
    | extract_lets
    | split

theorem State.updateAbort_keeps {s0 s : State} (hs : s0.Keeps s) :
    s0.Keeps (State.updateAbort s) := by
  unfold State.updateAbort
  with_reducible repeat' first | assumption | apply State.setRegBit_keeps | apply State.abortUpdate_keeps | apply ite_keeps

theorem execTrialTimeout_keeps {s0 s : State} (hs : s0.Keeps s) :
    Res.Keeps s0 (execTrialTimeout s) := by
  unfold execTrialTimeout
  with_reducible repeat' first | assumption | apply Res.keeps_next | apply State.abortUpdate_keeps | apply whenOn_keeps | apply ite_keeps

theorem State.restartNow_keeps {s0 s : State} (cause : Nat) (hs : s0.Keeps s) :
    s0.Keeps (State.restartNow s cause) := by
  unfold State.restartNow
  repeat' first
    | with_reducible assumption
    | with_reducible exact le_rfl
    | with_reducible exact id
    | with_reducible exact Otp.Grows.refl _
    | with_reducible apply State.fwDown_keeps
    | with_reducible apply State.setReg_keeps
    | with_reducible apply State.inc_keeps
    | with_reducible apply State.updMgmt_keeps
    | extract_lets
    | with_reducible apply State.keeps_mk

theorem State.bootFloor_keeps {s0 s : State} (hs : s0.Keeps s) :
    s0.Keeps (State.bootFloor s) := by
  unfold State.bootFloor
  with_reducible repeat' first | assumption | apply State.updNor_keeps | apply State.setReg_keeps | apply ite_keeps

theorem State.pickBank_keeps {s0 s : State} (hs : s0.Keeps s) :
    s0.Keeps (State.pickBank s).1 := by
  unfold State.pickBank
  repeat' first
    | with_reducible assumption
    | with_reducible apply State.updMgmt_keeps
    | with_reducible apply State.commitRecord_keeps
    | with_reducible apply ite_keeps₁
    | extract_lets
    | split

theorem State.restoreSets_keeps {s0 s : State} (g : Nat) (hs : s0.Keeps s) :
    s0.Keeps (State.restoreSets g s) := by
  unfold State.restoreSets
  with_reducible repeat' first | assumption | apply State.setTab_keeps | apply ite_keeps

theorem State.resumeUpdate_keeps {s0 s : State} (trial : Bool) (bank : Nat) (hs : s0.Keeps s) :
    s0.Keeps (State.resumeUpdate s trial bank) := by
  unfold State.resumeUpdate
  repeat' first
    | with_reducible assumption
    | with_reducible apply State.updMgmt_keeps
    | with_reducible apply State.updateState_keeps
    | with_reducible apply State.updBank2_keeps
    | with_reducible apply State.reportBank_keeps
    | with_reducible apply State.updateResult_keeps
    | with_reducible apply ite_keeps

theorem State.heldTraps_keeps {s0 s : State} (hs : s0.Keeps s) :
    s0.Keeps (State.heldTraps s) := by
  unfold State.heldTraps
  with_reducible repeat' first | assumption | intro _ | apply List.foldl_keeps | apply State.emit_keeps | apply State.updFaults_keeps

theorem State.firmwareStart_keeps {s0 s : State} (bank version svn : Nat) (trial : Bool) (hs : s0.Keeps s) :
    s0.Keeps (State.firmwareStart s bank version svn trial) := by
  unfold State.firmwareStart
  repeat' first
    | with_reducible assumption
    | intro _
    | with_reducible apply State.setReg_keeps
    | with_reducible apply State.updMgmt_keeps
    | with_reducible apply State.calderaEvent_keeps
    | with_reducible apply State.logAdd_keeps
    | with_reducible apply State.histCopy_keeps
    | with_reducible apply State.forEach_keeps
    | with_reducible apply State.restoreSets_keeps
    | with_reducible apply State.heldTraps_keeps
    | with_reducible apply State.dmaUnhold_keeps
    | with_reducible apply State.resumeUpdate_keeps
    | with_reducible apply ite_keeps
    | extract_lets
    | split

theorem State.haltCaldera_keeps {s0 s : State} (region : Nat) (hs : s0.Keeps s) :
    s0.Keeps (State.haltCaldera s region) := by
  unfold State.haltCaldera
  with_reducible repeat' first | assumption | apply State.setReg_keeps | apply State.raise_keeps | apply State.calderaEvent_keeps

theorem execCalderaRunning_keeps {s0 s : State} (hs : s0.Keeps s) :
    Res.Keeps s0 (execCalderaRunning s) := by
  unfold execCalderaRunning
  repeat' first
    | with_reducible assumption
    | with_reducible apply Res.keeps_next
    | with_reducible apply State.bootFloor_keeps
    | with_reducible apply State.raise_keeps
    | with_reducible apply State.firmwareStart_keeps
    | with_reducible apply State.haltCaldera_keeps
    | with_reducible apply State.reportBank_keeps
    | with_reducible apply whenOn_keeps
    | refine State.Keeps.fst (State.pickBank_keeps  ?_) ‹_ = _›
    | with_reducible apply ite_keeps
    | extract_lets
    | split

theorem execWdtExpire_keeps {s0 s : State} (hs : s0.Keeps s) :
    Res.Keeps s0 (execWdtExpire s) := by
  unfold execWdtExpire
  repeat' first
    | with_reducible assumption
    | with_reducible apply Res.keeps_next
    | with_reducible apply State.updMgmt_keeps
    | with_reducible apply State.raise_keeps
    | with_reducible apply whenOn_keeps
    | with_reducible apply ite_keeps

theorem execRailTrip_keeps {s0 s : State} (row : Fin 9) (hs : s0.Keeps s) :
    Res.Keeps s0 (execRailTrip row s) := by
  unfold execRailTrip
  repeat' first
    | with_reducible assumption
    | with_reducible apply Res.keeps_next
    | with_reducible apply State.setRegBit_keeps
    | with_reducible apply State.cause_keeps
    | with_reducible apply whenOn_keeps

theorem execRailRecover_keeps {s0 s : State} (row : Fin 9) (hs : s0.Keeps s) :
    Res.Keeps s0 (execRailRecover row s) := by
  unfold execRailRecover
  repeat' first
    | with_reducible assumption
    | with_reducible apply Res.keeps_next
    | with_reducible apply State.setRegBit_keeps
    | with_reducible apply State.cause_keeps
    | with_reducible apply whenOn_keeps

theorem execClockFail_keeps {s0 s : State} (row : Fin 5) (hs : s0.Keeps s) :
    Res.Keeps s0 (execClockFail row s) := by
  unfold execClockFail
  repeat' first
    | with_reducible assumption
    | with_reducible apply Res.keeps_next
    | with_reducible apply State.setRegBit_keeps
    | with_reducible apply State.cause_keeps
    | with_reducible apply State.fwDown_keeps
    | with_reducible apply State.setReg_keeps
    | with_reducible apply whenOn_keeps
    | with_reducible apply ite_keeps

theorem execClockRecover_keeps {s0 s : State} (row : Fin 5) (hs : s0.Keeps s) :
    Res.Keeps s0 (execClockRecover row s) := by
  unfold execClockRecover
  repeat' first
    | with_reducible assumption
    | with_reducible apply Res.keeps_next
    | with_reducible apply State.setRegBit_keeps
    | with_reducible apply State.cause_keeps
    | with_reducible apply State.updMgmt_keeps
    | with_reducible apply whenOn_keeps
    | with_reducible apply ite_keeps

theorem State.storeSticky_keeps {s0 s : State} (a : Nat) (hs : s0.Keeps s) :
    s0.Keeps (State.storeSticky s a) := by
  unfold State.storeSticky
  repeat' first
    | with_reducible assumption
    | with_reducible apply State.norWrite_keeps
    | with_reducible apply State.setReg_keeps
    | with_reducible apply State.logConfig_keeps
    | with_reducible apply ite_keeps

theorem execStickyStore_keeps {s0 s : State} (hs : s0.Keeps s) :
    Res.Keeps s0 (execStickyStore s) := by
  unfold execStickyStore
  repeat' first
    | with_reducible assumption
    | with_reducible apply Res.keeps_next
    | with_reducible apply State.updLink_keeps
    | with_reducible apply State.storeSticky_keeps
    | with_reducible apply whenOn_keeps
    | with_reducible apply ite_keeps
    | extract_lets
    | split

theorem execSealFloorRaise_keeps {s0 s : State} (hs : s0.Keeps s) :
    Res.Keeps s0 (execSealFloorRaise s) := by
  unfold execSealFloorRaise
  repeat' first
    | with_reducible assumption
    | with_reducible exact le_rfl
    | with_reducible exact id
    | with_reducible exact Otp.Grows.refl _
    | with_reducible apply Res.keeps_next
    | with_reducible apply whenOn_keeps
    | with_reducible apply ite_keeps
    | extract_lets
    | with_reducible apply State.keeps_mk

theorem execSealFloorCommitted_keeps {s0 s : State} (hs : s0.Keeps s) :
    Res.Keeps s0 (execSealFloorCommitted s) := by
  unfold execSealFloorCommitted
  repeat' first
    | with_reducible assumption
    | with_reducible exact le_rfl
    | with_reducible exact id
    | with_reducible exact Otp.Grows.refl _
    | with_reducible apply Res.keeps_next
    | with_reducible apply State.updNor_keeps
    | with_reducible apply State.setReg_keeps
    | with_reducible apply State.logConfig_keeps
    | with_reducible apply State.raise_keeps
    | with_reducible apply whenOn_keeps
    | with_reducible apply ite_keeps
    | extract_lets
    | split
    | with_reducible apply State.keeps_mk

theorem execCalSetCopy_keeps {s0 s : State} (group : Fin 4) (hs : s0.Keeps s) :
    Res.Keeps s0 (execCalSetCopy group s) := by
  unfold execCalSetCopy
  repeat' first
    | with_reducible assumption
    | with_reducible apply State.updCal_keeps
    | with_reducible apply State.norWrite_keeps
    | with_reducible apply State.logConfig_keeps
    | with_reducible apply onGroup_keeps
    | extract_lets
    | split

/-! ## Lifecycle, test access, trace, power -/

theorem State.traceStart_keeps {s0 s : State} (hs : s0.Keeps s) :
    s0.Keeps (State.traceStart s) := by
  unfold State.traceStart
  repeat' first
    | with_reducible assumption
    | with_reducible exact le_rfl
    | with_reducible exact id
    | with_reducible exact Otp.Grows.refl _
    | exact Nat.le_add_right _ _
    | with_reducible apply State.setReg_keeps
    | with_reducible apply State.tracePut_keeps
    | extract_lets
    | with_reducible apply State.keeps_mk

theorem State.traceTo_keeps {s0 s : State} (m : Nat) (hs : s0.Keeps s) :
    s0.Keeps (State.traceTo s m) := by
  unfold State.traceTo
  repeat' first
    | with_reducible assumption
    | with_reducible exact le_rfl
    | with_reducible exact id
    | with_reducible exact Otp.Grows.refl _
    | with_reducible apply State.setReg_keeps
    | with_reducible apply State.traceStart_keeps
    | with_reducible apply ite_keeps
    | extract_lets
    | with_reducible apply State.keeps_mk

theorem State.traceModeWrite_keeps {s0 s : State} (old : Nat) (hs : s0.Keeps s) :
    s0.Keeps (State.traceModeWrite s old) := by
  unfold State.traceModeWrite
  with_reducible repeat' first | assumption | apply State.traceTo_keeps | apply ite_keeps

theorem State.traceRestart_keeps {s0 s : State} (hs : s0.Keeps s) :
    s0.Keeps (State.traceRestart s) := by
  unfold State.traceRestart
  with_reducible repeat' first | assumption | apply State.setReg_keeps | apply State.traceStart_keeps | apply ite_keeps

theorem execTraceFrame_keeps {s0 s : State} (hs : s0.Keeps s) :
    Res.Keeps s0 (execTraceFrame s) := by
  unfold execTraceFrame
  repeat' first
    | with_reducible assumption
    | with_reducible exact le_rfl
    | with_reducible exact id
    | with_reducible exact Otp.Grows.refl _
    | with_reducible apply Res.keeps_next
    | with_reducible apply State.emit_keeps
    | with_reducible apply State.inc_keeps
    | with_reducible apply whenClocked_keeps
    | extract_lets
    | split
    | with_reducible apply State.keeps_mk

theorem execTraceSample_keeps {s0 s : State} (hs : s0.Keeps s) :
    Res.Keeps s0 (execTraceSample s) := by
  unfold execTraceSample
  repeat' first
    | with_reducible assumption
    | with_reducible exact le_rfl
    | with_reducible exact id
    | with_reducible exact Otp.Grows.refl _
    | intro _
    | with_reducible apply Res.keeps_next
    | with_reducible apply State.forEach_keeps
    | with_reducible apply State.traceRec_keeps
    | with_reducible apply whenClocked_keeps
    | with_reducible apply ite_keeps
    | extract_lets
    | with_reducible apply State.keeps_mk

theorem State.pmcSelWrite_keeps {s0 s : State} (k : Nat) (hs : s0.Keeps s) :
    s0.Keeps (State.pmcSelWrite s k) := by
  unfold State.pmcSelWrite
  with_reducible repeat' first | assumption | apply State.setReg_keeps

theorem State.syncLife_keeps {s0 s : State} (hs : s0.Keeps s) :
    s0.Keeps (State.syncLife s) := by
  unfold State.syncLife
  with_reducible repeat' first | assumption | apply State.setReg_keeps

theorem State.lifeTo_keeps {s0 s : State} (lc : Nat) (hs : s0.Keeps s) :
    s0.Keeps (State.lifeTo s lc) := by
  unfold State.lifeTo
  repeat' first
    | with_reducible assumption
    | exact Otp.grows_pairs _ _
    | with_reducible apply State.burn_keeps
    | with_reducible apply State.syncLife_keeps
    | with_reducible apply State.traceTo_keeps
    | with_reducible apply State.logAdd_keeps
    | with_reducible apply ite_keeps

theorem State.retire_keeps {s0 s : State} (hs : s0.Keeps s) :
    s0.Keeps (State.retire s) := by
  unfold State.retire
  repeat' first
    | with_reducible assumption
    | exact Otp.grows_retire _ _
    | with_reducible apply State.burn_keeps
    | with_reducible apply State.syncLife_keeps
    | with_reducible apply State.traceTo_keeps
    | with_reducible apply State.logAdd_keeps
    | with_reducible apply ite_keeps

theorem State.sealRestart_keeps {s0 s : State} (hs : s0.Keeps s) :
    s0.Keeps (State.sealRestart s) := by
  unfold State.sealRestart
  repeat' first
    | with_reducible assumption
    | with_reducible exact le_rfl
    | with_reducible exact id
    | with_reducible exact Otp.Grows.refl _
    | with_reducible apply State.setReg_keeps
    | with_reducible apply State.norWrite_keeps
    | extract_lets
    | with_reducible apply State.keeps_mk

theorem State.keyInstall_keeps {s0 s : State} (hs : s0.Keeps s) :
    s0.Keeps (State.keyInstall s) := by
  unfold State.keyInstall
  repeat' first
    | with_reducible assumption
    | exact Otp.grows_kcmd _ _
    | with_reducible apply State.burn_keeps
    | with_reducible apply State.sealRestart_keeps
    | with_reducible apply State.logAdd_keeps
    | split

theorem State.otpCompare_keeps {s0 s : State} (hs : s0.Keeps s) :
    s0.Keeps (State.otpCompare s) := by
  unfold State.otpCompare
  with_reducible repeat' first | assumption | apply State.raise_keeps | apply ite_keeps

theorem execOtpScan_keeps {s0 s : State} (hs : s0.Keeps s) :
    Res.Keeps s0 (execOtpScan s) := by
  unfold execOtpScan
  with_reducible repeat' first | assumption | apply Res.keeps_next | apply State.otpCompare_keeps | apply whenOn_keeps

theorem State.jtagRefuse_keeps {s0 s : State} (hs : s0.Keeps s) :
    s0.Keeps (State.jtagRefuse s) := by
  unfold State.jtagRefuse
  repeat' first
    | with_reducible assumption
    | with_reducible exact le_rfl
    | with_reducible exact id
    | with_reducible exact Otp.Grows.refl _
    | with_reducible apply State.inc_keeps
    | with_reducible apply State.raise_keeps
    | extract_lets
    | with_reducible apply State.keeps_mk

theorem execJtagInstruction_keeps {s0 s : State} (opcode : BitVec 8) (hs : s0.Keeps s) :
    Res.Keeps s0 (execJtagInstruction opcode s) := by
  unfold execJtagInstruction
  repeat' first
    | with_reducible assumption
    | with_reducible exact le_rfl
    | with_reducible exact id
    | with_reducible exact Otp.Grows.refl _
    | with_reducible apply Res.keeps_next
    | with_reducible apply State.jtagRefuse_keeps
    | with_reducible apply whenOn_keeps
    | with_reducible apply ite_keeps
    | extract_lets
    | with_reducible apply State.keeps_mk

theorem execLcAdvance_keeps {s0 s : State} (hs : s0.Keeps s) :
    Res.Keeps s0 (execLcAdvance s) := by
  unfold execLcAdvance
  repeat' first
    | with_reducible assumption
    | with_reducible apply Res.keeps_next
    | with_reducible apply State.lifeTo_keeps
    | with_reducible apply State.jtagRefuse_keeps
    | with_reducible apply whenOn_keeps
    | with_reducible apply ite_keeps

theorem execLcRetire_keeps {s0 s : State} (hs : s0.Keeps s) :
    Res.Keeps s0 (execLcRetire s) := by
  unfold execLcRetire
  repeat' first
    | with_reducible assumption
    | with_reducible apply Res.keeps_next
    | with_reducible apply State.retire_keeps
    | with_reducible apply State.jtagRefuse_keeps
    | with_reducible apply whenOn_keeps
    | with_reducible apply ite_keeps

theorem execProvision_keeps {s0 s : State} (field : Nat) (data : BitVec 256) (hs : s0.Keeps s) :
    Res.Keeps s0 (execProvision field data s) := by
  unfold execProvision
  refine whenOn_keeps hs (Res.keeps_next (ite_keeps (State.jtagRefuse_keeps hs) ?_))
  split
  · by_cases hv : s.otp.vendor.isSome
    · rw [if_pos hv]
      exact State.jtagRefuse_keeps hs
    · rw [if_neg hv]
      exact State.burn_keeps _ hs (Otp.grows_vendor _ (Option.not_isSome_iff_eq_none.mp hv))
  · exact ite_keeps (State.jtagRefuse_keeps hs) (State.sealRestart_keeps (State.burn_keeps _ hs (Otp.grows_kcmd _ _)))
  · exact ite_keeps (State.jtagRefuse_keeps hs) (State.burn_keeps _ hs (Otp.grows_ktrace _ _))
  · have h := State.burn_keeps (fun o => { o with klog := some (logKey (Config.kLog s.free).toNat) }) hs (Otp.grows_klog _ _)
    exact ite_keeps (State.jtagRefuse_keeps hs) ⟨h.ident, h.pending, h.clk, h.free.trans (Nat.le_succ _), h.freeT, h.regs, h.mem, h.tabs, h.otp⟩
  · exact State.jtagRefuse_keeps hs

theorem execRecover_keeps {s0 s : State} (image : List (BitVec 8)) (hs : s0.Keeps s) :
    Res.Keeps s0 (execRecover image s) := by
  unfold execRecover
  repeat' first
    | with_reducible assumption
    | with_reducible apply Res.keeps_next
    | with_reducible apply State.jtagRefuse_keeps
    | with_reducible apply State.updMgmt_keeps
    | with_reducible apply State.updateResult_keeps
    | with_reducible apply whenOn_keeps
    | with_reducible apply ite_keeps

theorem execTapReset_keeps {s0 s : State} (hs : s0.Keeps s) :
    Res.Keeps s0 (execTapReset s) := by
  unfold execTapReset
  repeat' first
    | with_reducible assumption
    | with_reducible exact le_rfl
    | with_reducible exact id
    | with_reducible exact Otp.Grows.refl _
    | with_reducible apply Res.keeps_next
    | with_reducible apply whenOn_keeps
    | extract_lets
    | with_reducible apply State.keeps_mk

theorem State.updPower_keeps {s0 s : State} (f : Power → Power) (hs : s0.Keeps s) :
    s0.Keeps (State.updPower s f) :=
  hs.same rfl rfl rfl rfl rfl rfl rfl rfl rfl

theorem State.powerReqWrite_keeps {s0 s : State} (v : Nat) (hs : s0.Keeps s) :
    s0.Keeps (State.powerReqWrite s v) := by
  unfold State.powerReqWrite
  with_reducible repeat' first | assumption | apply State.updPower_keeps

theorem State.powerEnd_keeps {s0 s : State} (r : Nat) (hs : s0.Keeps s) :
    s0.Keeps (State.powerEnd s r) := by
  unfold State.powerEnd
  with_reducible repeat' first | assumption | apply State.updPower_keeps | apply State.setReg_keeps

theorem State.leaveRun_keeps {s0 s : State} (hs : s0.Keeps s) :
    s0.Keeps (State.leaveRun s) := by
  unfold State.leaveRun
  repeat' first
    | with_reducible assumption
    | intro _
    | with_reducible apply State.camsStop_keeps
    | with_reducible apply State.forEach_keeps
    | with_reducible apply State.calAbort_keeps
    | with_reducible apply State.updPower_keeps

theorem State.idleLanes_keeps {s0 s : State} (hs : s0.Keeps s) :
    s0.Keeps (State.idleLanes s) := by
  unfold State.idleLanes
  repeat' first
    | with_reducible assumption
    | intro _
    | with_reducible apply List.foldl_keeps
    | with_reducible apply State.forEach_keeps
    | with_reducible apply State.updLane_keeps
    | with_reducible apply State.emit_keeps
    | with_reducible apply ite_keeps

theorem State.enterRest_keeps {s0 s : State} (v : Nat) (hs : s0.Keeps s) :
    s0.Keeps (State.enterRest s v) := by
  unfold State.enterRest
  repeat' first
    | with_reducible assumption
    | intro _
    | with_reducible apply State.idleLanes_keeps
    | with_reducible apply State.setReg_keeps
    | with_reducible apply State.gridEnableWrite_keeps
    | with_reducible apply State.dmaHold_keeps
    | with_reducible apply State.forEach_keeps
    | with_reducible apply State.heatForce_keeps
    | with_reducible apply State.updLink_keeps
    | with_reducible apply ite_keeps

theorem State.enterShelf_keeps {s0 s : State} (hs : s0.Keeps s) :
    s0.Keeps (State.enterShelf s) := by
  unfold State.enterShelf
  extract_lets s1 woken s2
  have h1 : s0.Keeps s1 := by
    refine List.foldl_keeps (fun t a h => ite_keeps ?_ h) _ hs
    have k := execLogProgram_keeps h
    generalize execLogProgram t = r at k
    cases r with
    | next t => exact k
    | fault f => exact h
    | refused f => exact h
  have h2 : s0.Keeps (if woken = true then s2.setReg Key.WAKE_CAUSE 3 else s2) :=
    ite_keeps (State.setReg_keeps _ _ (State.setReg_keeps _ _ (State.inc_keeps _ h1))) (State.setReg_keeps _ _ (State.inc_keeps _ h1))
  clear_value s1 s2 woken
  exact ⟨h2.ident, h2.pending, h2.clk, h2.free, h2.freeT, h2.regs, h2.mem, h2.tabs, h2.otp⟩

theorem State.powerStep_keeps {s0 s : State} (hs : s0.Keeps s) :
    s0.Keeps (State.powerStep s) := by
  unfold State.powerStep
  repeat' first
    | with_reducible assumption
    | intro _
    | with_reducible apply State.powerEnd_keeps
    | with_reducible apply State.leaveRun_keeps
    | with_reducible apply State.setReg_keeps
    | with_reducible apply State.forEach_keeps
    | with_reducible apply State.updCam_keeps
    | with_reducible apply State.enterShelf_keeps
    | with_reducible apply State.enterRest_keeps
    | with_reducible apply ite_keeps
    | extract_lets
    | split

theorem State.powerEnding_keeps {s0 s : State} (hs : s0.Keeps s) :
    s0.Keeps (State.powerEnding s) := by
  unfold State.powerEnding
  with_reducible repeat' first | assumption | apply State.updPower_keeps | apply State.powerStep_keeps | apply ite_keeps

theorem execPowerChange_keeps {s0 s : State} (hs : s0.Keeps s) :
    Res.Keeps s0 (execPowerChange s) := by
  unfold execPowerChange
  repeat' first
    | with_reducible assumption
    | with_reducible apply Res.keeps_next
    | with_reducible apply State.powerStep_keeps
    | with_reducible apply State.updPower_keeps
    | with_reducible apply whenOn_keeps
    | with_reducible apply ite_keeps

theorem State.wakeBank_keeps {s0 s : State} (b : Nat) (hs : s0.Keeps s) :
    s0.Keeps (State.wakeBank b s) := by
  unfold State.wakeBank
  with_reducible repeat' first | assumption | apply State.updBank_keeps | apply ite_keeps

theorem State.clearPosition_keeps {s0 s : State} (hs : s0.Keeps s) :
    s0.Keeps (State.clearPosition s) := by
  unfold State.clearPosition
  repeat' first
    | with_reducible assumption
    | with_reducible apply State.updPos_keeps
    | with_reducible apply State.syncEncOut_keeps
    | with_reducible apply State.cause_keeps
    | with_reducible apply State.seekRef_keeps
    | with_reducible apply State.ssiStart_keeps
    | with_reducible apply State.setReg_keeps
    | with_reducible apply ite_keeps

theorem State.wakeUp_keeps {s0 s : State} (hs : s0.Keeps s) :
    s0.Keeps (State.wakeUp s) := by
  unfold State.wakeUp
  repeat' first
    | with_reducible assumption
    | exact fun _ h => Mem.canon_same h rfl rfl
    | intro _
    | with_reducible apply State.updRecv_keeps
    | with_reducible apply State.setReg_keeps
    | with_reducible apply State.updPower_keeps
    | with_reducible apply State.forEach_keeps
    | with_reducible apply State.wakeBank_keeps
    | with_reducible apply State.clearPosition_keeps
    | with_reducible apply State.updMem_keeps
    | with_reducible apply State.dmaUnhold_keeps
    | with_reducible apply State.downLane_keeps
    | with_reducible apply State.sendBurst_keeps
    | with_reducible apply State.traceStart_keeps
    | with_reducible apply ite_keeps

theorem execWake_keeps {s0 s : State} (source : Nat) (hs : s0.Keeps s) :
    Res.Keeps s0 (execWake source s) := by
  unfold execWake
  repeat' first
    | with_reducible assumption
    | with_reducible apply Res.keeps_next
    | with_reducible apply State.setReg_keeps
    | with_reducible apply State.wakeUp_keeps
    | with_reducible apply State.leaveRun_keeps
    | with_reducible apply State.powerEnd_keeps
    | with_reducible apply whenOn_keeps
    | with_reducible apply ite_keeps
    | extract_lets
    | split

theorem execShelfWake_keeps {s0 s : State} (hs : s0.Keeps s) :
    Res.Keeps s0 (execShelfWake s) := by
  unfold execShelfWake
  with_reducible repeat' first | assumption | apply Res.keeps_next | apply State.updPower_keeps | apply State.setReg_keeps | apply ite_keeps

end Sys2Proof.Machine
end

