-- ==== Sys2Proof/Laws/KeepsStep.lean ====
section
/-! SUPPORT. `Keeps` (Laws/Keeps.lean) for resets, the dictionary, requests, line events, every command and the clock. -/

namespace Sys2Proof.Machine

/-! ## Resets -/

theorem State.updBoot_keeps {s0 s : State} (f : Boot → Boot) (hs : s0.Keeps s) :
    s0.Keeps (State.updBoot s f) :=
  hs.same rfl rfl rfl rfl rfl rfl rfl rfl rfl

theorem State.discardGroup_keeps {s0 s : State} (g : Nat) (st : SessSt) (hs : s0.Keeps s) :
    s0.Keeps (State.discardGroup s g st) := by
  unfold State.discardGroup
  repeat' first
    | with_reducible assumption
    | intro _
    | with_reducible apply List.foldl_keeps
    | with_reducible apply State.updSess_keeps
    | with_reducible apply State.updGroup_keeps
    | extract_lets
    | split

theorem State.dropFrames_keeps {s0 s : State} (cam : Nat) (hs : s0.Keeps s) :
    s0.Keeps (State.dropFrames cam s) := by
  unfold State.dropFrames
  repeat' first
    | with_reducible assumption
    | with_reducible apply State.updCam_keeps
    | with_reducible apply State.addReg_keeps
    | with_reducible apply State.updPipe_keeps
    | with_reducible apply ite_keeps

theorem State.bmRestart_keeps {s0 s : State} (hs : s0.Keeps s) :
    s0.Keeps (State.bmRestart s) := by
  unfold State.bmRestart
  repeat' first
    | with_reducible assumption
    | intro _
    | with_reducible apply State.bmTrainBegin_keeps
    | with_reducible apply State.relayout_keeps
    | with_reducible apply State.forEach_keeps
    | with_reducible apply State.dropFrames_keeps

theorem State.resetCaldera_keeps {s0 s : State} (c : Nat) (hs : s0.Keeps s) :
    s0.Keeps (State.resetCaldera s c) := by
  unfold State.resetCaldera
  with_reducible repeat' first | assumption | apply State.setReg_keeps | apply State.updMgmt_keeps | apply ite_keeps

theorem State.resetDict_keeps {s0 s : State} (hs : s0.Keeps s) :
    s0.Keeps (State.resetDict s) := by
  unfold State.resetDict
  repeat' first
    | with_reducible assumption
    | with_reducible exact le_rfl
    | with_reducible exact id
    | with_reducible exact Otp.Grows.refl _
    | intro _
    | with_reducible apply State.forEach_keeps
    | with_reducible apply State.discardGroup_keeps
    | with_reducible apply State.inc_keeps
    | with_reducible apply State.updSess_keeps
    | with_reducible apply ite_keeps
    | extract_lets
    | with_reducible apply State.keeps_mk

theorem State.resetPorts_keeps {s0 s : State} (hs : s0.Keeps s) :
    s0.Keeps (State.resetPorts s) := by
  unfold State.resetPorts
  repeat' first
    | with_reducible assumption
    | intro _
    | with_reducible apply List.foldl_keeps
    | with_reducible apply State.forEach_keeps
    | with_reducible apply State.restartLane_keeps
    | with_reducible apply State.updLink_keeps
    | with_reducible apply State.updCport_keeps
    | with_reducible apply State.setReg_keeps

theorem State.resetPosition_keeps {s0 s : State} (hs : s0.Keeps s) :
    s0.Keeps (State.resetPosition s) := by
  unfold State.resetPosition
  with_reducible repeat' first | assumption | apply State.updPos_keeps | apply State.cause_keeps | apply State.seekRef_keeps

theorem State.resetScheduler_keeps {s0 s : State} (hs : s0.Keeps s) :
    s0.Keeps (State.resetScheduler s) := by
  unfold State.resetScheduler
  repeat' first
    | with_reducible assumption
    | with_reducible exact le_rfl
    | with_reducible exact id
    | with_reducible exact Otp.Grows.refl _
    | intro _
    | with_reducible apply State.setReg_keeps
    | with_reducible apply State.gridEnableWrite_keeps
    | with_reducible apply State.updGrid_keeps
    | with_reducible apply State.forEach_keeps
    | with_reducible apply State.setRegBit_keeps
    | with_reducible apply State.updCmp_keeps
    | extract_lets
    | with_reducible apply State.keeps_mk

theorem State.resetIngress_keeps {s0 s : State} (hs : s0.Keeps s) :
    s0.Keeps (State.resetIngress s) := by
  unfold State.resetIngress
  repeat' first
    | with_reducible assumption
    | intro _
    | with_reducible apply State.forEach_keeps
    | with_reducible apply State.restartLane_keeps
    | with_reducible apply State.updIlane_keeps
    | with_reducible apply State.updIngress_keeps
    | with_reducible apply State.relayout_keeps

theorem State.resetFire_keeps {s0 s : State} (hs : s0.Keeps s) :
    s0.Keeps (State.resetFire s) := by
  unfold State.resetFire
  repeat' first
    | with_reducible assumption
    | intro _
    | with_reducible apply State.forEach_keeps
    | with_reducible apply State.updChan_keeps
    | with_reducible apply State.updPort_keeps
    | with_reducible apply State.snapScale_keeps

theorem State.resetThermal_keeps {s0 s : State} (hs : s0.Keeps s) :
    s0.Keeps (State.resetThermal s) := by
  unfold State.resetThermal
  repeat' first
    | with_reducible assumption
    | with_reducible exact le_rfl
    | with_reducible exact id
    | with_reducible exact Otp.Grows.refl _
    | intro _
    | with_reducible apply State.forEach_keeps
    | with_reducible apply State.setReg_keeps
    | with_reducible apply ite_keeps
    | extract_lets
    | with_reducible apply State.keeps_mk

theorem State.resetCamera_keeps {s0 s : State} (cam : Nat) (hs : s0.Keeps s) :
    s0.Keeps (State.resetCamera cam s) := by
  unfold State.resetCamera
  repeat' first
    | with_reducible assumption
    | with_reducible apply State.endFrame_keeps
    | with_reducible apply State.dropFrames_keeps
    | with_reducible apply State.setReg_keeps
    | with_reducible apply State.raise_keeps
    | with_reducible apply ite_keeps

theorem State.resetMover_keeps {s0 s : State} (m : Nat) (hs : s0.Keeps s) :
    s0.Keeps (State.resetMover m s) := by
  unfold State.resetMover
  repeat' first
    | with_reducible assumption
    | intro _
    | with_reducible apply State.forEach_keeps
    | with_reducible apply State.setReg_keeps
    | with_reducible apply State.updDch_keeps
    | with_reducible apply State.updMover_keeps
    | extract_lets
    | split

theorem State.resetLoop_keeps {s0 s : State} (hs : s0.Keeps s) :
    s0.Keeps (State.resetLoop s) := by
  unfold State.resetLoop
  repeat' first
    | with_reducible assumption
    | with_reducible exact le_rfl
    | with_reducible exact id
    | with_reducible exact Otp.Grows.refl _
    | exact fun _ h => Mem.canon_lowBanks h
    | intro _
    | with_reducible apply State.loopOff_keeps
    | with_reducible apply State.updMem_keeps
    | with_reducible apply State.loopRelease_keeps
    | with_reducible apply State.forEach_keeps
    | with_reducible apply State.updLport_keeps
    | with_reducible apply State.loopCounts_keeps
    | extract_lets
    | split
    | with_reducible apply State.keeps_mk

theorem State.resetBlock_keeps {s0 s : State} (b : Nat) (hs : s0.Keeps s) :
    s0.Keeps (State.resetBlock s b) := by
  unfold State.resetBlock
  repeat' first
    | with_reducible assumption
    | with_reducible exact le_rfl
    | with_reducible exact id
    | with_reducible exact Otp.Grows.refl _
    | exact fun _ h => Mem.canon_same h rfl rfl
    | intro _
    | with_reducible apply State.resetCaldera_keeps
    | with_reducible apply State.resetDict_keeps
    | with_reducible apply State.resetPorts_keeps
    | with_reducible apply State.resetPosition_keeps
    | with_reducible apply State.resetScheduler_keeps
    | with_reducible apply State.resetIngress_keeps
    | with_reducible apply State.forEach_keeps
    | with_reducible apply State.resetCarry_keeps
    | with_reducible apply State.resetFire_keeps
    | with_reducible apply State.calAbort_keeps
    | with_reducible apply State.resetThermal_keeps
    | with_reducible apply State.resetCamera_keeps
    | with_reducible apply State.updMem_keeps
    | with_reducible apply State.bmRestart_keeps
    | with_reducible apply State.resetLoop_keeps
    | with_reducible apply State.resetMover_keeps
    | with_reducible apply ite_keeps
    | split
    | with_reducible apply State.keeps_mk

theorem State.resetMet_keeps {s0 s : State} (b : Nat) (hs : s0.Keeps s) :
    s0.Keeps (State.resetMet s b) := by
  unfold State.resetMet
  with_reducible repeat' first | assumption | apply State.updFaults_keeps | apply State.updBoot_keeps

theorem execBlockReset_keeps {s0 s : State} (blk : Nat) (hs : s0.Keeps s) :
    Res.Keeps s0 (execBlockReset blk s) := by
  unfold execBlockReset
  repeat' first
    | with_reducible assumption
    | with_reducible apply Res.keeps_next
    | with_reducible apply State.resetMet_keeps
    | with_reducible apply State.resetBlock_keeps
    | with_reducible apply State.fireInhibit_keeps
    | with_reducible apply State.updBoot_keeps
    | with_reducible apply whenOn_keeps
    | with_reducible apply ite_keeps

theorem State.blank_keeps {s0 s : State} (hs : s0.Keeps s) :
    s0.Keeps (State.blank s) := by
  unfold State.blank
  refine State.syncLife_keeps ?_
  exact ⟨hs.ident, hs.pending, hs.clk, hs.free.trans (Nat.le_succ _), hs.freeT, fun _ => rfl, fun _ => rfl, fun _ => rfl, hs.otp⟩

theorem State.chipHold_keeps {s0 s : State} (hs : s0.Keeps s) :
    s0.Keeps (State.chipHold s) := by
  unfold State.chipHold
  extract_lets grave s1 s2 s3 low
  have h1 : s0.Keeps s1 := List.foldl_keeps (fun t a h => State.setReg_keeps _ _ h) _ (State.blank_keeps hs)
  have h2 : s0.Keeps s2 := List.foldl_keeps (fun t a h => State.updSrc_keeps _ _ h) _ h1
  have h3 : s0.Keeps s3 := ite_keeps h2 (State.setReg_keeps _ _ h2)
  clear_value s3
  refine ⟨h3.ident, h3.pending, h3.clk, h3.free, h3.freeT, h3.regs, fun h => ?_, h3.tabs, h3.otp⟩
  have hl := Mem.canon_lowBanks (hs.mem h)
  have h4 := h3.mem h
  simp only [Mem.canon, Bool.and_eq_true] at hl h4 ⊢
  exact ⟨hl.1, h4.2⟩

theorem execChipReset_keeps {s0 s : State} (hs : s0.Keeps s) :
    Res.Keeps s0 (execChipReset s) := by
  unfold execChipReset
  repeat' first
    | with_reducible assumption
    | intro _
    | with_reducible apply Res.keeps_next
    | with_reducible apply State.forEach_keeps
    | with_reducible apply State.cutPort_keeps
    | with_reducible apply State.updBoot_keeps
    | with_reducible apply State.chipHold_keeps
    | with_reducible apply whenOn_keeps
    | with_reducible apply ite_keeps

theorem State.startUp_keeps {s0 s : State} (hs : s0.Keeps s) :
    s0.Keeps (State.startUp s) := by
  unfold State.startUp
  repeat' first
    | with_reducible assumption
    | exact Otp.grows_complete _
    | exact Otp.grows_destroy _
    | with_reducible apply State.burn_keeps
    | with_reducible apply State.syncLife_keeps
    | with_reducible apply State.raise_keeps
    | with_reducible apply State.updBoot_keeps
    | with_reducible apply State.otpCompare_keeps
    | with_reducible apply ite_keeps

theorem execChipResetRelease_keeps {s0 s : State} (hs : s0.Keeps s) :
    Res.Keeps s0 (execChipResetRelease s) := by
  unfold execChipResetRelease
  with_reducible repeat' first | assumption | apply Res.keeps_next | apply State.startUp_keeps | apply ite_keeps

theorem State.keepIsland_keeps {s0 t : State} (s : State) (ht : s0.Keeps t) :
    s0.Keeps (State.keepIsland s t) := by
  exact State.setReg_keeps _ _ (State.setReg_keeps _ _ (State.setReg_keeps _ _ ht))

theorem execPowerOnReset_keeps {s0 s : State} (vaonLost : Bool) (hs : s0.Keeps s) :
    Res.Keeps s0 (execPowerOnReset vaonLost s) := by
  unfold execPowerOnReset
  refine Res.keeps_next (ite_keeps hs ?_)
  extract_lets t p m t1
  have ht : s0.Keeps t := State.updNor_keeps _ (State.blank_keeps hs)
  have h1 : s0.Keeps t1 := ite_keeps ⟨ht.ident, ht.pending, ht.clk, ht.free, ht.freeT, ht.regs, ht.mem, ht.tabs, ht.otp⟩ (State.keepIsland_keeps s ht)
  exact State.startUp_keeps (State.updMgmt_keeps _ h1)

theorem execRefclkWaitTimeout_keeps {s0 s : State} (hs : s0.Keeps s) :
    Res.Keeps s0 (execRefclkWaitTimeout s) := by
  unfold execRefclkWaitTimeout
  with_reducible repeat' first | assumption | apply Res.keeps_next | apply State.setRegBit_keeps | apply State.cause_keeps | apply ite_keeps

theorem execStartupComplete_keeps {s0 s : State} (hs : s0.Keeps s) :
    Res.Keeps s0 (execStartupComplete s) := by
  unfold execStartupComplete
  with_reducible repeat' first | assumption | apply Res.keeps_next | apply State.updBoot_keeps | apply State.setReg_keeps | apply ite_keeps

/-! ## Effects of objects -/

theorem State.armRefused_keeps {s0 s : State} (v : Nat) (hs : s0.Keeps s) :
    s0.Keeps (State.armRefused s v) := by
  unfold State.armRefused
  with_reducible repeat' first | assumption | apply State.setReg_keeps

theorem State.waveChanged_keeps {s0 s : State} (p : Nat) (hs : s0.Keeps s) :
    s0.Keeps (State.waveChanged s p) := by
  unfold State.waveChanged
  with_reducible repeat' first | assumption | apply State.refreshWave_keeps | apply State.judgeWave_keeps

theorem State.settleKeys_keeps {s0 s : State} (keys : List Nat) (hs : s0.Keeps s) :
    s0.Keeps (State.settleKeys s keys) := by
  unfold State.settleKeys
  repeat' first
    | with_reducible assumption
    | intro _
    | with_reducible apply State.windowsHanded_keeps
    | with_reducible apply State.forEach_keeps
    | with_reducible apply State.judgeDead_keeps
    | with_reducible apply State.waveChanged_keeps
    | with_reducible apply State.snapScale_keeps
    | with_reducible apply ite_keeps

theorem State.portEffect_keeps {s0 s : State} (p sub9 sub old key : Nat) (hs : s0.Keeps s) :
    s0.Keeps (State.portEffect s p sub9 sub old key) := by
  unfold State.portEffect
  repeat' first
    | with_reducible assumption
    | with_reducible apply State.resetCarry_keeps
    | with_reducible apply State.heatModeWrite_keeps
    | with_reducible apply State.loopClearWrite_keeps
    | with_reducible apply ite_keeps
    | split

theorem State.posEffect_keeps {s0 s : State} (key old : Nat) (hs : s0.Keeps s) :
    s0.Keeps (State.posEffect s key old) := by
  unfold State.posEffect
  repeat' first
    | with_reducible assumption
    | with_reducible apply State.ssiCommandWrite_keeps
    | with_reducible apply State.ssiModulusWrite_keeps
    | with_reducible apply State.posRoleWrite_keeps
    | with_reducible apply State.posPresetWrite_keeps
    | with_reducible apply State.syncEncOut_keeps
    | with_reducible apply State.dirConfig_keeps
    | with_reducible apply State.encConfig_keeps
    | with_reducible apply ite_keeps

theorem State.gridEffect_keeps {s0 s : State} (old : Nat) (hs : s0.Keeps s) :
    s0.Keeps (State.gridEffect s old) := by
  unfold State.gridEffect
  repeat' first
    | with_reducible assumption
    | with_reducible apply State.gridEnableWrite_keeps
    | with_reducible apply State.loopRegrid_keeps
    | with_reducible apply State.windows_keeps
    | with_reducible apply ite_keeps

theorem State.schedEffect_keeps {s0 s : State} (key old : Nat) (hs : s0.Keeps s) :
    s0.Keeps (State.schedEffect s key old) := by
  unfold State.schedEffect
  repeat' first
    | with_reducible assumption
    | with_reducible apply State.gridEffect_keeps
    | with_reducible apply State.queueSheet_keeps
    | with_reducible apply State.freezeAll_keeps
    | with_reducible apply State.cmpCtrlWrite_keeps
    | with_reducible apply State.cmpTargetWrite_keeps
    | with_reducible apply ite_keeps
    | extract_lets
    | split

theorem State.ingressEffect_keeps {s0 s : State} (key : Nat) (hs : s0.Keeps s) :
    s0.Keeps (State.ingressEffect s key) := by
  unfold State.ingressEffect
  repeat' first
    | with_reducible assumption
    | with_reducible apply State.relayout_keeps
    | with_reducible apply State.laneEnableWrite_keeps
    | with_reducible apply ite_keeps
    | extract_lets
    | split

theorem State.camEffect_keeps {s0 s : State} (key old : Nat) (hs : s0.Keeps s) :
    s0.Keeps (State.camEffect s key old) := by
  unfold State.camEffect
  repeat' first
    | with_reducible assumption
    | with_reducible apply State.inc_keeps
    | with_reducible apply State.camEnableWrite_keeps
    | with_reducible apply State.camSilentWrite_keeps
    | with_reducible apply State.i2cStart_keeps
    | with_reducible apply ite_keeps
    | extract_lets
    | split

theorem State.objEffect_keeps {s0 s : State} (key old : Nat) (hs : s0.Keeps s) :
    s0.Keeps (State.objEffect s key old) := by
  unfold State.objEffect
  repeat' first
    | with_reducible assumption
    | with_reducible apply State.posEffect_keeps
    | with_reducible apply State.schedEffect_keeps
    | with_reducible apply State.ingressEffect_keeps
    | with_reducible apply State.gateCfgWrite_keeps
    | with_reducible apply State.camEffect_keeps
    | with_reducible apply State.loopEnableWrite_keeps
    | with_reducible apply State.bmRestart_keeps
    | with_reducible apply State.updDch_keeps
    | with_reducible apply State.traceModeWrite_keeps
    | with_reducible apply State.traceRestart_keeps
    | with_reducible apply State.pmcSelWrite_keeps
    | with_reducible apply State.portEffect_keeps
    | with_reducible apply ite_keeps

/-- A write of a command object (R107). -/
theorem State.command_keeps {s0 s t : State} {key v : Nat} (hs : s0.Keeps s) (h : s.command key v = some t) : s0.Keeps t := by
  have step : ∀ {c : Prop} [Decidable c] {a b : Option State}, (∀ t, a = some t → s0.Keeps t) → (∀ t, b = some t → s0.Keeps t) →
      ∀ t, (if c then a else b) = some t → s0.Keeps t := by
    intro c _ a b ha hb t h
    split at h
    exacts [ha t h, hb t h]
  have one : ∀ {a : State}, s0.Keeps a → ∀ t, some a = some t → s0.Keeps t := by
    intro a ha t h
    cases h
    exact ha
  suffices H : ∀ t, s.command key v = some t → s0.Keeps t from H t h
  unfold State.command
  extract_lets idx
  refine step (one (State.armPorts_keeps _ hs)) (step (one (State.lastOfClock_keeps (State.disarmPorts_keeps _ hs))) (step (one ?_) (step (one (State.setReg_keeps _ _ hs))
    (step (one (State.wordWrite_keeps _ hs)) (step (one (State.dmaCmd_keeps _ _ hs)) (step (one (State.faultClear_keeps _ hs))
    (step (one ?_) (step (one ?_) (step (one (State.injectArm_keeps _ hs)) (step (one ?_) (step (one ?_) (step (one ?_)
    (step (one (State.keyInstall_keeps hs)) (step (one (State.storeSticky_keeps _ hs)) (step (one (State.powerReqWrite_keeps _ hs))
    (fun t h => by cases h))))))))))))))))
  · exact ite_keeps (State.calAbortWrite_keeps _ hs) hs
  · exact ite_keeps (State.firstClear_keeps hs) hs
  · exact ite_keeps (State.histClear_keeps hs) hs
  · exact State.restartNow_keeps _ (State.updMgmt_keeps _ hs)
  · split
    exacts [State.updateInstall_keeps hs, State.updateActivate_keeps hs, State.updateConfirm_keeps hs, State.updateAbort_keeps hs]
  · exact ite_keeps (State.lifeTo_keeps _ hs) (State.retire_keeps hs)

theorem State.putWrite_keeps {s0 s : State} (key v : Nat) (hs : s0.Keeps s) :
    s0.Keeps (State.putWrite s key v) := by
  unfold State.putWrite
  refine ite_keeps hs ?_
  split
  · next t h => exact State.command_keeps hs h
  · exact State.objEffect_keeps _ _ (State.setReg_keeps _ _ hs)

theorem State.applyWrite_keeps {s0 s : State} (key v : Nat) (hs : s0.Keeps s) :
    s0.Keeps (State.applyWrite s key v) := by
  exact State.settleKeys_keeps _ (State.putWrite_keeps _ _ hs)

theorem State.setsReplaced_keeps {s0 s : State} (g : Nat) (hs : s0.Keeps s) :
    s0.Keeps (State.setsReplaced s g) := by
  unfold State.setsReplaced
  with_reducible repeat' first | assumption | apply State.updCal_keeps | apply State.calAbort_keeps | apply ite_keeps

theorem State.tableEffect_keeps {s0 s : State} (index : Nat) (hs : s0.Keeps s) :
    s0.Keeps (State.tableEffect s index) := by
  unfold State.tableEffect
  repeat' first
    | with_reducible assumption
    | with_reducible apply State.resetCarry_keeps
    | with_reducible apply State.setsReplaced_keeps
    | with_reducible apply State.inc_keeps
    | with_reducible apply ite_keeps
    | extract_lets
    | split

theorem State.applySession_keeps {s0 s : State} (k : Nat) (hs : s0.Keeps s) :
    s0.Keeps (State.applySession s k) := by
  unfold State.applySession
  with_reducible repeat' first | assumption | apply State.setTab_keeps | apply State.tableEffect_keeps | apply ite_keeps

/-! ## Dictionary -/

theorem State.sessionDone_keeps {s0 s : State} (line : Nat) (forced : Bool) (k : Nat) (hs : s0.Keeps s) :
    s0.Keeps (State.sessionDone s line forced k) := by
  unfold State.sessionDone
  with_reducible repeat' first | assumption | apply State.applySession_keeps | apply State.updSess_keeps | apply State.setReg_keeps

theorem State.applyEntry_keeps {s0 s : State} (line : Nat) (forced : Bool) (e : Entry) (hs : s0.Keeps s) :
    s0.Keeps (State.applyEntry line forced s e) := by
  cases e with
  | write k v => exact State.putWrite_keeps _ _ hs
  | session k => exact State.sessionDone_keeps _ _ _ hs

theorem State.applyGroup_keeps {s0 s : State} (line : Nat) (forced : Bool) (g : Nat) (hs : s0.Keeps s) :
    s0.Keeps (State.applyGroup s line forced g) := by
  unfold State.applyGroup
  repeat' first
    | with_reducible assumption
    | intro _
    | with_reducible apply List.foldl_keeps
    | with_reducible apply State.applyEntry_keeps
    | with_reducible apply State.updGroup_keeps
    | with_reducible apply State.setReg_keeps
    | with_reducible apply State.event_keeps

theorem State.applyItem_keeps {s0 s : State} (line : Nat) (forced : Bool) (i : Item) (hs : s0.Keeps s) :
    s0.Keeps (State.applyItem line forced s i) := by
  cases i with
  | shadow h => exact State.putWrite_keeps _ _ ⟨hs.ident, hs.pending, hs.clk, hs.free, hs.freeT, hs.regs, hs.mem, hs.tabs, hs.otp⟩
  | group g => exact State.applyGroup_keeps _ _ _ hs
  | session k => exact State.sessionDone_keeps _ _ _ hs

theorem State.applyItems_keeps {s0 s : State} (line : Nat) (forced : Bool) (l : List Item) (hs : s0.Keeps s) :
    s0.Keeps (State.applyItems s line forced l) := by
  unfold State.applyItems
  with_reducible repeat' first | assumption | intro _ | apply List.foldl_keeps | apply State.applyItem_keeps | apply State.settleKeys_keeps

theorem State.markHandOver_keeps {s0 s : State} (c : Commit) (line : Nat) (hs : s0.Keeps s) :
    s0.Keeps (State.markHandOver s c line) := by
  unfold State.markHandOver
  with_reducible repeat' first | assumption | apply State.pmc_keeps | apply State.traceRec_keeps

theorem State.epochLast_keeps {s0 s : State} (c : Commit) (line : Nat) (hs : s0.Keeps s) :
    s0.Keeps (State.epochLast s c line) := by
  unfold State.epochLast
  with_reducible repeat' first | assumption | apply State.setReg_keeps

theorem State.handOver_keeps {s0 s : State} (cs : List Commit) (line : Nat) (hs : s0.Keeps s) :
    s0.Keeps (State.handOver s cs line) := by
  unfold State.handOver
  repeat' first
    | with_reducible assumption
    | intro _
    | with_reducible apply List.foldl_keeps
    | with_reducible apply State.applyItem_keeps
    | with_reducible apply State.markDict_keeps
    | with_reducible apply State.loopHandOver_keeps
    | with_reducible apply State.epochLast_keeps
    | with_reducible apply State.markHandOver_keeps
    | with_reducible apply State.settleKeys_keeps
    | with_reducible apply ite_keeps

theorem State.commitNow_keeps {s0 s : State} (hs : s0.Keeps s) :
    s0.Keeps (State.commitNow s) := by
  unfold State.commitNow
  repeat' first
    | with_reducible assumption
    | intro _
    | with_reducible apply List.foldl_keeps
    | with_reducible apply State.applyItems_keeps
    | with_reducible apply State.epochLast_keeps
    | with_reducible apply State.markHandOver_keeps
    | with_reducible apply State.windows_keeps
    | with_reducible apply ite_keeps

theorem State.nextOrder_keeps {s0 s : State} (hs : s0.Keeps s) :
    s0.Keeps (State.nextOrder s).1 :=
  hs.same rfl rfl rfl rfl rfl rfl rfl rfl rfl

theorem State.groupEntry_keeps {s0 s : State} (g : Nat) (c : Commit) (e : Entry) (hs : s0.Keeps s) :
    s0.Keeps (State.groupEntry s g c e).1 := by
  unfold State.groupEntry
  with_reducible repeat' first | assumption | apply State.updGroup_keeps | apply ite_keeps₁ | extract_lets | split

theorem State.expireGroup_keeps {s0 s : State} (g : Nat) (hs : s0.Keeps s) :
    s0.Keeps (State.expireGroup s g) := by
  unfold State.expireGroup
  with_reducible repeat' first | assumption | apply State.discardGroup_keeps | apply State.inc_keeps | apply ite_keeps

theorem State.withGroup_keeps {s0 s : State} (g : Nat) (hs : s0.Keeps s) :
    s0.Keeps (State.withGroup s g) := by
  unfold State.withGroup
  repeat' first
    | with_reducible assumption
    | intro _
    | with_reducible apply List.foldl_keeps
    | with_reducible apply State.setReg_keeps
    | with_reducible apply ite_keeps
    | extract_lets
    | split

theorem State.closeGroup_keeps {r0 s0 : State} (g : Nat) (hs : r0.Keeps s0) :
    r0.Keeps (State.closeGroup s0 g).1 := by
  unfold State.closeGroup
  repeat' first
    | with_reducible assumption
    | intro _
    | with_reducible apply List.foldl_keeps
    | with_reducible apply State.expireGroup_keeps
    | with_reducible apply State.discardGroup_keeps
    | with_reducible apply State.updGroup_keeps
    | with_reducible apply State.applyItems_keeps
    | with_reducible apply State.traceRec_keeps
    | with_reducible apply State.windows_keeps
    | with_reducible apply State.nextOrder_keeps
    | with_reducible apply State.updSess_keeps
    | with_reducible apply ite_keeps₁
    | extract_lets
    | split

theorem State.abortGroup_keeps {r0 s0 : State} (g : Nat) (hs : r0.Keeps s0) :
    r0.Keeps (State.abortGroup s0 g).1 := by
  unfold State.abortGroup
  repeat' first
    | with_reducible assumption
    | with_reducible apply State.expireGroup_keeps
    | with_reducible apply State.discardGroup_keeps
    | with_reducible apply ite_keeps₁
    | extract_lets
    | split

theorem State.domOpen_keeps {s0 s : State} (o : Obj) (q : Req) (hs : s0.Keeps s) :
    s0.Keeps (State.domOpen s o q).1 := by
  unfold State.domOpen
  repeat' first
    | with_reducible assumption
    | with_reducible apply State.updSess_keeps
    | with_reducible apply State.imageOpen_keeps
    | with_reducible apply ite_keeps₁
    | with_reducible apply ite_keeps
    | split

theorem State.domWrite_keeps {s0 s : State} (q : Req) (hs : s0.Keeps s) :
    s0.Keeps (State.domWrite s q).1 := by
  unfold State.domWrite
  repeat' first
    | with_reducible assumption
    | with_reducible apply State.updSess_keeps
    | with_reducible apply State.imageWrite_keeps
    | with_reducible apply ite_keeps₁
    | with_reducible apply ite_keeps
    | split

theorem State.commitSession_keeps {s0 s : State} (o : Obj) (g k : Nat) (hs : s0.Keeps s) :
    s0.Keeps (State.commitSession s o g k).1 := by
  unfold State.commitSession
  repeat' first
    | with_reducible assumption
    | with_reducible apply State.groupEntry_keeps
    | with_reducible apply State.updSess_keeps
    | with_reducible apply State.applyItems_keeps
    | with_reducible apply State.imageStaged_keeps
    | with_reducible apply State.nextOrder_keeps
    | with_reducible apply ite_keeps₁
    | with_reducible apply ite_keeps

theorem State.domCommit_keeps {s0 s : State} (o : Obj) (q : Req) (hs : s0.Keeps s) :
    s0.Keeps (State.domCommit s o q).1 := by
  unfold State.domCommit
  with_reducible repeat' first | assumption | apply State.updSess_keeps | apply State.commitSession_keeps | apply ite_keeps₁ | split

theorem State.sessAborted_keeps {s0 s : State} (k : Nat) (hs : s0.Keeps s) :
    s0.Keeps (State.sessAborted s k) := by
  unfold State.sessAborted
  with_reducible repeat' first | assumption | apply State.updSess_keeps

theorem State.abortEntry_keeps {s0 s : State} (k : Nat) (hs : s0.Keeps s) :
    s0.Keeps (State.abortEntry s k).1 := by
  unfold State.abortEntry
  repeat' first
    | with_reducible assumption
    | with_reducible apply State.discardGroup_keeps
    | with_reducible apply State.updGroup_keeps
    | with_reducible apply State.sessAborted_keeps
    | with_reducible apply ite_keeps₁
    | extract_lets
    | split

theorem State.domAbort_keeps {s0 s : State} (q : Req) (hs : s0.Keeps s) :
    s0.Keeps (State.domAbort s q).1 := by
  unfold State.domAbort
  repeat' first
    | with_reducible assumption
    | with_reducible apply State.sessAborted_keeps
    | with_reducible apply State.abortUpdate_keeps
    | with_reducible apply State.abortEntry_keeps
    | with_reducible apply ite_keeps₁
    | with_reducible apply ite_keeps
    | split

theorem State.sealRefused_keeps {s0 s : State} (st : Nat) (hs : s0.Keeps s) :
    s0.Keeps (State.sealRefused s st) := by
  unfold State.sealRefused
  with_reducible repeat' first | assumption | apply State.inc_keeps | apply State.raise_keeps | apply ite_keeps

theorem State.readValue_keeps {s0 : State} {r : State × List Block} (q : Req) (i : Nat) (hr : s0.Keeps r.1) :
    s0.Keeps (State.readValue q r i).1 := by
  unfold State.readValue
  extract_lets key ty x
  exact ite_keeps₁ (State.wordRead_keeps hr) hr

theorem State.doRead_keeps {s0 s : State} (q : Req) (hs : s0.Keeps s) :
    s0.Keeps (State.doRead s q).1 := by
  exact List.foldl_keeps₁ (fun t a h => State.readValue_keeps q a h) _ hs

theorem State.doWrite_keeps {s0 s : State} (o : Obj) (q : Req) (hs : s0.Keeps s) :
    s0.Keeps (State.doWrite s o q).1 := by
  unfold State.doWrite
  refine ite_keeps₁ (State.applyWrite_keeps _ _ hs) ?_
  have hn := State.nextOrder_keeps hs
  exact ⟨hn.ident, hn.pending, hn.clk, hn.free, hn.freeT, hn.regs, hn.mem, hn.tabs, hn.otp⟩

theorem reply_keeps {s0 : State} {r : State × Nat} (h : s0.Keeps r.1) : s0.Keeps (reply r).1 := h

theorem replyLate_keeps {s0 : State} {r : State × Nat × Bool} (h : s0.Keeps r.1) : s0.Keeps (replyLate r).1 := h

theorem State.perform_keeps {s0 s : State} (q : Req) (hs : s0.Keeps s) :
    s0.Keeps (State.perform s q).1 := by
  unfold State.perform
  split
  · with_reducible refine reply_keeps ?_
    with_reducible exact State.closeGroup_keeps _ hs
  · with_reducible refine replyLate_keeps ?_
    with_reducible exact State.abortGroup_keeps _ hs
  · with_reducible exact State.commitNow_keeps hs
  · with_reducible exact State.doRead_keeps _ hs
  · with_reducible refine ite_keeps₁ (reply_keeps ?_) (reply_keeps ?_)
    exacts [State.groupEntry_keeps _ _ _ hs, State.doWrite_keeps _ _ hs]
  · with_reducible refine reply_keeps ?_
    with_reducible exact State.domOpen_keeps _ _ hs
  · with_reducible refine reply_keeps ?_
    with_reducible exact State.domWrite_keeps _ hs
  · with_reducible refine reply_keeps ?_
    with_reducible exact State.domCommit_keeps _ _ hs
  · with_reducible refine replyLate_keeps ?_
    with_reducible exact State.domAbort_keeps _ hs
  · with_reducible exact hs
  · with_reducible exact hs
  · with_reducible exact hs

theorem State.refuseLate_keeps {s0 s : State} (q : Req) (st : Nat) (hs : s0.Keeps s) :
    s0.Keeps (State.refuseLate s q st) := by
  unfold State.refuseLate
  with_reducible repeat' first | assumption | apply State.armRefused_keeps | apply ite_keeps

theorem State.run_keeps {s0 s : State} (q : Req) (took direct : Bool) (hs : s0.Keeps s) :
    s0.Keeps (State.run s q took direct) := by
  unfold State.run
  repeat' first
    | with_reducible assumption
    | with_reducible exact le_rfl
    | with_reducible exact id
    | with_reducible exact Otp.Grows.refl _
    | with_reducible apply State.refuseLate_keeps
    | with_reducible apply State.conclude_keeps
    | with_reducible apply State.perform_keeps
    | with_reducible apply ite_keeps
    | extract_lets
    | split
    | with_reducible apply State.keeps_mk

theorem State.serve_keeps {s0 s : State} (q : Req) (direct : Bool) (hs : s0.Keeps s) :
    s0.Keeps (State.serve s q direct) := by
  unfold State.serve
  repeat' first
    | with_reducible assumption
    | with_reducible apply State.conclude_keeps
    | with_reducible apply State.run_keeps
    | with_reducible apply State.sealRefused_keeps
    | with_reducible apply State.setReg_keeps
    | with_reducible apply ite_keeps
    | extract_lets
    | split

theorem State.request_keeps {s0 s : State} (q : Req) (direct : Bool) (hs : s0.Keeps s) :
    s0.Keeps (State.request s q direct) := by
  unfold State.request
  repeat' first
    | with_reducible assumption
    | with_reducible apply State.bcastDone_keeps
    | with_reducible apply State.finish_keeps
    | with_reducible apply State.serve_keeps
    | with_reducible apply ite_keeps

theorem State.dreq_keeps {s0 s : State} (q : Req) (direct : Bool) (hs : s0.Keeps s) :
    s0.Keeps (State.dreq s q direct) := by
  unfold State.dreq
  with_reducible repeat' first | assumption | apply State.recvSummit_keeps | apply State.request_keeps | apply ite_keeps

theorem State.fwAnswer_keeps {s0 s : State} (f : FwReq) (hs : s0.Keeps s) :
    s0.Keeps (State.fwAnswer s f) := by
  unfold State.fwAnswer
  with_reducible repeat' first | assumption | apply State.conclude_keeps | apply State.perform_keeps | extract_lets | split

theorem State.wordResume_keeps {s0 s : State} (hs : s0.Keeps s) :
    s0.Keeps (State.wordResume s) := by
  unfold State.wordResume
  repeat' first
    | with_reducible assumption
    | with_reducible exact le_rfl
    | with_reducible exact id
    | with_reducible exact Otp.Grows.refl _
    | intro _
    | with_reducible apply List.foldl_keeps
    | with_reducible apply State.perform_keeps
    | with_reducible apply State.conclude_keeps
    | with_reducible apply ite_keeps
    | extract_lets
    | with_reducible apply State.keeps_mk

/-! ## Requests -/

theorem execRead_keeps {s0 s : State} (r : Dreq) (index : BitVec 16) (sub : BitVec 8) (hs : s0.Keeps s) :
    Res.Keeps s0 (execRead r index sub s) := by
  unfold execRead
  with_reducible repeat' first | assumption | apply Res.keeps_next | apply State.dreq_keeps | apply whenClocked_keeps

theorem execWrite_keeps {s0 s : State} (r : Dreq) (index : BitVec 16) (sub : BitVec 8) (hs : s0.Keeps s) :
    Res.Keeps s0 (execWrite r index sub s) := by
  unfold execWrite
  with_reducible repeat' first | assumption | apply Res.keeps_next | apply State.dreq_keeps | apply whenClocked_keeps

theorem execGroupClose_keeps {s0 s : State} (r : Dreq) (index : BitVec 16) (sub : BitVec 8) (hs : s0.Keeps s) :
    Res.Keeps s0 (execGroupClose r index sub s) := by
  unfold execGroupClose
  with_reducible repeat' first | assumption | apply Res.keeps_next | apply State.dreq_keeps | apply whenClocked_keeps

theorem execGroupAbort_keeps {s0 s : State} (r : Dreq) (index : BitVec 16) (sub : BitVec 8) (hs : s0.Keeps s) :
    Res.Keeps s0 (execGroupAbort r index sub s) := by
  unfold execGroupAbort
  with_reducible repeat' first | assumption | apply Res.keeps_next | apply State.dreq_keeps | apply whenClocked_keeps

theorem execDomOpen_keeps {s0 s : State} (r : Dreq) (index : BitVec 16) (sub : BitVec 8) (hs : s0.Keeps s) :
    Res.Keeps s0 (execDomOpen r index sub s) := by
  unfold execDomOpen
  with_reducible repeat' first | assumption | apply Res.keeps_next | apply State.dreq_keeps | apply whenClocked_keeps

theorem execDomWrite_keeps {s0 s : State} (r : Dreq) (index : BitVec 16) (sub : BitVec 8) (hs : s0.Keeps s) :
    Res.Keeps s0 (execDomWrite r index sub s) := by
  unfold execDomWrite
  with_reducible repeat' first | assumption | apply Res.keeps_next | apply State.dreq_keeps | apply whenClocked_keeps

theorem execDomCommit_keeps {s0 s : State} (r : Dreq) (index : BitVec 16) (sub : BitVec 8) (hs : s0.Keeps s) :
    Res.Keeps s0 (execDomCommit r index sub s) := by
  unfold execDomCommit
  with_reducible repeat' first | assumption | apply Res.keeps_next | apply State.dreq_keeps | apply whenClocked_keeps

theorem execDomAbort_keeps {s0 s : State} (r : Dreq) (index : BitVec 16) (sub : BitVec 8) (hs : s0.Keeps s) :
    Res.Keeps s0 (execDomAbort r index sub s) := by
  unfold execDomAbort
  with_reducible repeat' first | assumption | apply Res.keeps_next | apply State.dreq_keeps | apply whenClocked_keeps

theorem execDomRead_keeps {s0 s : State} (r : Dreq) (index : BitVec 16) (sub : BitVec 8) (hs : s0.Keeps s) :
    Res.Keeps s0 (execDomRead r index sub s) := by
  unfold execDomRead
  with_reducible repeat' first | assumption | apply Res.keeps_next | apply State.dreq_keeps | apply whenClocked_keeps

theorem execCommitNow_keeps {s0 s : State} (r : Dreq) (index : BitVec 16) (sub : BitVec 8) (hs : s0.Keeps s) :
    Res.Keeps s0 (execCommitNow r index sub s) := by
  unfold execCommitNow
  with_reducible repeat' first | assumption | apply Res.keeps_next | apply State.dreq_keeps | apply whenClocked_keeps

theorem execEncEnable_keeps {s0 s : State} (r : Dreq) (ready : Option Nat) (hs : s0.Keeps s) :
    Res.Keeps s0 (execEncEnable r ready s) := by
  unfold execEncEnable
  repeat' first
    | with_reducible assumption
    | with_reducible apply Res.keeps_next
    | with_reducible apply State.updPos_keeps
    | with_reducible apply State.dreq_keeps
    | with_reducible apply whenClocked_keeps

theorem execSsiTestRead_keeps {s0 s : State} (r : Dreq) (ready : Option Nat) (hs : s0.Keeps s) :
    Res.Keeps s0 (execSsiTestRead r ready s) := by
  unfold execSsiTestRead
  repeat' first
    | with_reducible assumption
    | with_reducible apply Res.keeps_next
    | with_reducible apply State.updPos_keeps
    | with_reducible apply State.dreq_keeps
    | with_reducible apply whenClocked_keeps

theorem execSsiRecoveryRead_keeps {s0 s : State} (r : Option Dreq) (ready : Option Nat) (hs : s0.Keeps s) :
    Res.Keeps s0 (execSsiRecoveryRead r ready s) := by
  unfold execSsiRecoveryRead
  repeat' first
    | with_reducible assumption
    | with_reducible apply Res.keeps_next
    | with_reducible apply State.updPos_keeps
    | with_reducible apply State.dreq_keeps
    | with_reducible apply State.ssiStart_keeps
    | with_reducible apply whenClocked_keeps
    | with_reducible apply ite_keeps
    | extract_lets
    | split

theorem execEncConfigWrite_keeps {s0 s : State} (r : Dreq) (index : BitVec 16) (sub : BitVec 8) (hs : s0.Keeps s) :
    Res.Keeps s0 (execEncConfigWrite r index sub s) := by
  unfold execEncConfigWrite
  with_reducible repeat' first | assumption | apply Res.keeps_next | apply State.dreq_keeps | apply whenClocked_keeps

theorem execPosRole_keeps {s0 s : State} (r : Dreq) (hs : s0.Keeps s) :
    Res.Keeps s0 (execPosRole r s) := by
  unfold execPosRole
  with_reducible repeat' first | assumption | apply Res.keeps_next | apply State.dreq_keeps | apply whenClocked_keeps

theorem execPosPreset_keeps {s0 s : State} (r : Dreq) (hs : s0.Keeps s) :
    Res.Keeps s0 (execPosPreset r s) := by
  unfold execPosPreset
  with_reducible repeat' first | assumption | apply Res.keeps_next | apply State.dreq_keeps | apply whenClocked_keeps

theorem execGridEnable_keeps {s0 s : State} (r : Dreq) (hs : s0.Keeps s) :
    Res.Keeps s0 (execGridEnable r s) := by
  unfold execGridEnable
  with_reducible repeat' first | assumption | apply Res.keeps_next | apply State.dreq_keeps | apply whenClocked_keeps

theorem execSheetAt_keeps {s0 s : State} (r : Dreq) (hs : s0.Keeps s) :
    Res.Keeps s0 (execSheetAt r s) := by
  unfold execSheetAt
  with_reducible repeat' first | assumption | apply Res.keeps_next | apply State.dreq_keeps | apply whenClocked_keeps

theorem execCmpCtrl_keeps {s0 s : State} (r : Dreq) (c : Fin 32) (hs : s0.Keeps s) :
    Res.Keeps s0 (execCmpCtrl r c s) := by
  unfold execCmpCtrl
  with_reducible repeat' first | assumption | apply Res.keeps_next | apply State.dreq_keeps | apply whenClocked_keeps

theorem execCmpTarget_keeps {s0 s : State} (r : Dreq) (c : Fin 32) (hs : s0.Keeps s) :
    Res.Keeps s0 (execCmpTarget r c s) := by
  unfold execCmpTarget
  with_reducible repeat' first | assumption | apply Res.keeps_next | apply State.dreq_keeps | apply whenClocked_keeps

theorem execLayoutWrite_keeps {s0 s : State} (r : Dreq) (index : BitVec 16) (sub : BitVec 8) (hs : s0.Keeps s) :
    Res.Keeps s0 (execLayoutWrite r index sub s) := by
  unfold execLayoutWrite
  with_reducible repeat' first | assumption | apply Res.keeps_next | apply State.dreq_keeps | apply whenClocked_keeps

theorem execFireArm_keeps {s0 s : State} (r : Dreq) (hs : s0.Keeps s) :
    Res.Keeps s0 (execFireArm r s) := by
  unfold execFireArm
  with_reducible repeat' first | assumption | apply Res.keeps_next | apply State.dreq_keeps | apply whenClocked_keeps

theorem execFireDisarm_keeps {s0 s : State} (r : Dreq) (hs : s0.Keeps s) :
    Res.Keeps s0 (execFireDisarm r s) := by
  unfold execFireDisarm
  with_reducible repeat' first | assumption | apply Res.keeps_next | apply State.dreq_keeps | apply whenClocked_keeps

theorem execCalAbort_keeps {s0 s : State} (r : Dreq) (group : Fin 4) (hs : s0.Keeps s) :
    Res.Keeps s0 (execCalAbort r group s) := by
  unfold execCalAbort
  with_reducible repeat' first | assumption | apply Res.keeps_next | apply State.dreq_keeps | apply whenClocked_keeps

theorem execCalRequest_keeps {s0 s : State} (r : Dreq) (ch : Fin 68) (hs : s0.Keeps s) :
    Res.Keeps s0 (execCalRequest r ch s) := by
  unfold execCalRequest
  with_reducible repeat' first | assumption | apply Res.keeps_next | apply State.dreq_keeps | apply whenClocked_keeps

theorem execCamEnable_keeps {s0 s : State} (r : Dreq) (cam : Fin 2) (hs : s0.Keeps s) :
    Res.Keeps s0 (execCamEnable r cam s) := by
  unfold execCamEnable
  with_reducible repeat' first | assumption | apply Res.keeps_next | apply State.dreq_keeps | apply whenClocked_keeps

theorem execI2cCmd_keeps {s0 s : State} (r : Dreq) (cam : Fin 2) (hs : s0.Keeps s) :
    Res.Keeps s0 (execI2cCmd r cam s) := by
  unfold execI2cCmd
  with_reducible repeat' first | assumption | apply Res.keeps_next | apply State.dreq_keeps | apply whenClocked_keeps

theorem execLoopEnable_keeps {s0 s : State} (r : Dreq) (hs : s0.Keeps s) :
    Res.Keeps s0 (execLoopEnable r s) := by
  unfold execLoopEnable
  with_reducible repeat' first | assumption | apply Res.keeps_next | apply State.dreq_keeps | apply whenClocked_keeps

theorem execLoopClear_keeps {s0 s : State} (r : Dreq) (port : Fin 16) (hs : s0.Keeps s) :
    Res.Keeps s0 (execLoopClear r port s) := by
  unfold execLoopClear
  with_reducible repeat' first | assumption | apply Res.keeps_next | apply State.dreq_keeps | apply whenClocked_keeps

theorem execBmControl_keeps {s0 s : State} (r : Dreq) (hs : s0.Keeps s) :
    Res.Keeps s0 (execBmControl r s) := by
  unfold execBmControl
  with_reducible repeat' first | assumption | apply Res.keeps_next | apply State.dreq_keeps | apply whenClocked_keeps

theorem execDmaStart_keeps {s0 s : State} (r : Option Dreq) (ch : Fin 32) (hs : s0.Keeps s) :
    Res.Keeps s0 (execDmaStart r ch s) := by
  unfold execDmaStart
  repeat' first
    | with_reducible assumption
    | with_reducible apply Res.keeps_next
    | with_reducible apply State.dreq_keeps
    | with_reducible apply State.dmaBell_keeps
    | with_reducible apply whenClocked_keeps
    | extract_lets
    | split

theorem execDmaPause_keeps {s0 s : State} (r : Dreq) (ch : Fin 32) (hs : s0.Keeps s) :
    Res.Keeps s0 (execDmaPause r ch s) := by
  unfold execDmaPause
  with_reducible repeat' first | assumption | apply Res.keeps_next | apply State.dreq_keeps | apply whenClocked_keeps

theorem execDmaResume_keeps {s0 s : State} (r : Dreq) (ch : Fin 32) (hs : s0.Keeps s) :
    Res.Keeps s0 (execDmaResume r ch s) := by
  unfold execDmaResume
  with_reducible repeat' first | assumption | apply Res.keeps_next | apply State.dreq_keeps | apply whenClocked_keeps

theorem execDmaAbort_keeps {s0 s : State} (r : Dreq) (ch : Fin 32) (hs : s0.Keeps s) :
    Res.Keeps s0 (execDmaAbort r ch s) := by
  unfold execDmaAbort
  with_reducible repeat' first | assumption | apply Res.keeps_next | apply State.dreq_keeps | apply whenClocked_keeps

theorem execWordData_keeps {s0 s : State} (r : Dreq) (write : Bool) (hs : s0.Keeps s) :
    Res.Keeps s0 (execWordData r write s) := by
  unfold execWordData
  with_reducible repeat' first | assumption | apply Res.keeps_next | apply State.dreq_keeps | apply whenClocked_keeps

theorem execFaultClear_keeps {s0 s : State} (r : Dreq) (hs : s0.Keeps s) :
    Res.Keeps s0 (execFaultClear r s) := by
  unfold execFaultClear
  with_reducible repeat' first | assumption | apply Res.keeps_next | apply State.dreq_keeps | apply whenClocked_keeps

theorem execFirstClear_keeps {s0 s : State} (r : Dreq) (hs : s0.Keeps s) :
    Res.Keeps s0 (execFirstClear r s) := by
  unfold execFirstClear
  with_reducible repeat' first | assumption | apply Res.keeps_next | apply State.dreq_keeps | apply whenClocked_keeps

theorem execHistClear_keeps {s0 s : State} (r : Dreq) (hs : s0.Keeps s) :
    Res.Keeps s0 (execHistClear r s) := by
  unfold execHistClear
  with_reducible repeat' first | assumption | apply Res.keeps_next | apply State.dreq_keeps | apply whenClocked_keeps

theorem execInject_keeps {s0 s : State} (r : Dreq) (hs : s0.Keeps s) :
    Res.Keeps s0 (execInject r s) := by
  unfold execInject
  with_reducible repeat' first | assumption | apply Res.keeps_next | apply State.dreq_keeps | apply whenClocked_keeps

theorem execLogWindowSeq_keeps {s0 s : State} (r : Dreq) (hs : s0.Keeps s) :
    Res.Keeps s0 (execLogWindowSeq r s) := by
  unfold execLogWindowSeq
  with_reducible repeat' first | assumption | apply Res.keeps_next | apply State.dreq_keeps | apply whenClocked_keeps

theorem execUpdateInstall_keeps {s0 s : State} (r : Dreq) (hs : s0.Keeps s) :
    Res.Keeps s0 (execUpdateInstall r s) := by
  unfold execUpdateInstall
  with_reducible repeat' first | assumption | apply Res.keeps_next | apply State.dreq_keeps | apply whenClocked_keeps

theorem execUpdateActivate_keeps {s0 s : State} (r : Dreq) (hs : s0.Keeps s) :
    Res.Keeps s0 (execUpdateActivate r s) := by
  unfold execUpdateActivate
  with_reducible repeat' first | assumption | apply Res.keeps_next | apply State.dreq_keeps | apply whenClocked_keeps

theorem execUpdateConfirm_keeps {s0 s : State} (r : Dreq) (hs : s0.Keeps s) :
    Res.Keeps s0 (execUpdateConfirm r s) := by
  unfold execUpdateConfirm
  with_reducible repeat' first | assumption | apply Res.keeps_next | apply State.dreq_keeps | apply whenClocked_keeps

theorem execUpdateAbort_keeps {s0 s : State} (r : Dreq) (hs : s0.Keeps s) :
    Res.Keeps s0 (execUpdateAbort r s) := by
  unfold execUpdateAbort
  with_reducible repeat' first | assumption | apply Res.keeps_next | apply State.dreq_keeps | apply whenClocked_keeps

theorem execLifecycleAdvance_keeps {s0 s : State} (r : Dreq) (hs : s0.Keeps s) :
    Res.Keeps s0 (execLifecycleAdvance r s) := by
  unfold execLifecycleAdvance
  with_reducible repeat' first | assumption | apply Res.keeps_next | apply State.dreq_keeps | apply whenClocked_keeps

theorem execLifecycleRetire_keeps {s0 s : State} (r : Dreq) (hs : s0.Keeps s) :
    Res.Keeps s0 (execLifecycleRetire r s) := by
  unfold execLifecycleRetire
  with_reducible repeat' first | assumption | apply Res.keeps_next | apply State.dreq_keeps | apply whenClocked_keeps

theorem execKeyCommit_keeps {s0 s : State} (r : Dreq) (hs : s0.Keeps s) :
    Res.Keeps s0 (execKeyCommit r s) := by
  unfold execKeyCommit
  with_reducible repeat' first | assumption | apply Res.keeps_next | apply State.dreq_keeps | apply whenClocked_keeps

theorem execPowerReq_keeps {s0 s : State} (r : Dreq) (hs : s0.Keeps s) :
    Res.Keeps s0 (execPowerReq r s) := by
  unfold execPowerReq
  with_reducible repeat' first | assumption | apply Res.keeps_next | apply State.dreq_keeps | apply whenClocked_keeps

theorem execTraceMode_keeps {s0 s : State} (r : Dreq) (hs : s0.Keeps s) :
    Res.Keeps s0 (execTraceMode r s) := by
  unfold execTraceMode
  with_reducible repeat' first | assumption | apply Res.keeps_next | apply State.dreq_keeps | apply whenClocked_keeps

theorem execTraceRestart_keeps {s0 s : State} (r : Dreq) (hs : s0.Keeps s) :
    Res.Keeps s0 (execTraceRestart r s) := by
  unfold execTraceRestart
  with_reducible repeat' first | assumption | apply Res.keeps_next | apply State.dreq_keeps | apply whenClocked_keeps

theorem execPmcSel_keeps {s0 s : State} (r : Dreq) (k : Fin 16) (hs : s0.Keeps s) :
    Res.Keeps s0 (execPmcSel r k s) := by
  unfold execPmcSel
  with_reducible repeat' first | assumption | apply Res.keeps_next | apply State.dreq_keeps | apply whenClocked_keeps

theorem execDreqFrame_keeps {s0 s : State} (f : Frame) (hs : s0.Keeps s) :
    Res.Keeps s0 (execDreqFrame f s) := by
  unfold execDreqFrame
  repeat' first
    | with_reducible assumption
    | with_reducible apply Res.keeps_next
    | with_reducible apply State.passFrame_keeps
    | with_reducible apply State.dreq_keeps
    | with_reducible apply whenClocked_keeps
    | extract_lets
    | split

theorem execFrameForward_keeps {s0 s : State} (kind : BitVec 5) (f : Frame) (hs : s0.Keeps s) :
    Res.Keeps s0 (execFrameForward kind f s) := by
  unfold execFrameForward
  repeat' first
    | with_reducible assumption
    | with_reducible apply Res.keeps_next
    | with_reducible apply execPos_keeps
    | with_reducible apply execTime_keeps
    | with_reducible apply execGeyserArm_keeps
    | with_reducible apply execEnumDiscover_keeps
    | with_reducible apply execEnumAssign_keeps
    | with_reducible apply execEnumDone_keeps
    | with_reducible apply execRingEnable_keeps
    | with_reducible apply execDreqFrame_keeps
    | with_reducible apply State.passFrame_keeps
    | with_reducible apply whenClocked_keeps
    | split

theorem execCalderaRestart_keeps {s0 s : State} (cause : RestartCause) (hs : s0.Keeps s) :
    Res.Keeps s0 (execCalderaRestart cause s) := by
  unfold execCalderaRestart
  repeat' first
    | with_reducible assumption
    | with_reducible apply Res.keeps_next
    | with_reducible apply State.restartNow_keeps
    | with_reducible apply State.dreq_keeps
    | with_reducible apply whenOn_keeps
    | with_reducible apply whenClocked_keeps
    | with_reducible apply ite_keeps
    | extract_lets
    | split

theorem execGroupExpire_keeps {s0 s : State} (g : Fin 16) (hs : s0.Keeps s) :
    Res.Keeps s0 (execGroupExpire g s) := by
  unfold execGroupExpire
  with_reducible repeat' first | assumption | apply Res.keeps_next | apply State.expireGroup_keeps | apply whenClocked_keeps

theorem execSessionExpire_keeps {s0 s : State} (k : Fin 4) (hs : s0.Keeps s) :
    Res.Keeps s0 (execSessionExpire k s) := by
  unfold execSessionExpire
  repeat' first
    | with_reducible assumption
    | with_reducible apply Res.keeps_next
    | with_reducible apply State.updSess_keeps
    | with_reducible apply State.inc_keeps
    | with_reducible apply whenClocked_keeps
    | with_reducible apply ite_keeps

theorem execFwRequestAnswered_keeps {s0 s : State} (hs : s0.Keeps s) :
    Res.Keeps s0 (execFwRequestAnswered s) := by
  unfold execFwRequestAnswered
  repeat' first
    | with_reducible assumption
    | with_reducible exact le_rfl
    | with_reducible exact id
    | with_reducible exact Otp.Grows.refl _
    | with_reducible apply Res.keeps_next
    | with_reducible apply State.fwAnswer_keeps
    | with_reducible apply whenClocked_keeps
    | with_reducible apply ite_keeps
    | extract_lets
    | split
    | with_reducible apply State.keeps_mk

theorem execFwRequestTimeout_keeps {s0 s : State} (hs : s0.Keeps s) :
    Res.Keeps s0 (execFwRequestTimeout s) := by
  unfold execFwRequestTimeout
  repeat' first
    | with_reducible assumption
    | with_reducible exact le_rfl
    | with_reducible exact id
    | with_reducible exact Otp.Grows.refl _
    | with_reducible apply Res.keeps_next
    | with_reducible apply State.inc_keeps
    | with_reducible apply State.conclude_keeps
    | with_reducible apply whenClocked_keeps
    | with_reducible apply ite_keeps
    | extract_lets
    | split
    | with_reducible apply State.keeps_mk

/-! ## Line events -/

theorem State.newPass_keeps {s0 s : State} (hs : s0.Keeps s) :
    s0.Keeps (State.newPass s) := by
  unfold State.newPass
  repeat' first
    | with_reducible assumption
    | intro _
    | with_reducible apply State.passBanks_keeps
    | with_reducible apply State.forEach_keeps
    | with_reducible apply State.resetCarry_keeps
    | with_reducible apply State.windows_keeps

theorem execPosApply_keeps {s0 s : State} (hs : s0.Keeps s) :
    Res.Keeps s0 (execPosApply s) := by
  unfold execPosApply
  repeat' first
    | with_reducible assumption
    | with_reducible apply Res.keeps_next
    | with_reducible apply State.applyPos_keeps
    | with_reducible apply State.passStart_keeps
    | with_reducible apply State.newPass_keeps
    | with_reducible apply whenClocked_keeps
    | with_reducible apply ite_keeps

theorem execPosBroadcastLost_keeps {s0 s : State} (hs : s0.Keeps s) :
    Res.Keeps s0 (execPosBroadcastLost s) := by
  unfold execPosBroadcastLost
  repeat' first
    | with_reducible assumption
    | intro _
    | with_reducible apply Res.keeps_next
    | with_reducible apply State.updRecv_keeps
    | with_reducible apply State.forEach_keeps
    | with_reducible apply State.stopAtLine_keeps
    | with_reducible apply State.cause_keeps
    | with_reducible apply whenClocked_keeps
    | with_reducible apply ite_keeps

theorem State.latchBank_keeps {s0 s : State} (b : Nat) (hs : s0.Keeps s) :
    s0.Keeps (State.latchBank s b) := by
  unfold State.latchBank
  with_reducible repeat' first | assumption | apply State.updBank_keeps | apply State.setReg_keeps | apply State.event_keeps

theorem execGeyserLatch_keeps {s0 s : State} (b : Fin 4) (hs : s0.Keeps s) :
    Res.Keeps s0 (execGeyserLatch b s) := by
  unfold execGeyserLatch
  with_reducible repeat' first | assumption | apply Res.keeps_next | apply State.latchBank_keeps | apply whenClocked_keeps | apply ite_keeps

theorem State.cmpAct_keeps {s0 s : State} (c : Nat) (hs : s0.Keeps s) :
    s0.Keeps (State.cmpAct s c) := by
  unfold State.cmpAct
  repeat' first
    | with_reducible assumption
    | with_reducible apply State.inc_keeps
    | with_reducible apply State.cmpFlag_keeps
    | with_reducible apply State.cmpPinAction_keeps
    | with_reducible apply State.triggered_keeps
    | with_reducible apply State.dmaBell_keeps
    | with_reducible apply State.latchBank_keeps
    | with_reducible apply ite_keeps
    | extract_lets
    | split

theorem State.cmpRecord_keeps {s0 s : State} (c : Nat) (hs : s0.Keeps s) :
    s0.Keeps (State.cmpRecord s c) := by
  unfold State.cmpRecord
  with_reducible repeat' first | assumption | apply State.setReg_keeps | apply State.inc_keeps | apply State.cmpFlag_keeps

theorem execCmpFire_keeps {s0 s : State} (c : Fin 32) (hs : s0.Keeps s) :
    Res.Keeps s0 (execCmpFire c s) := by
  unfold execCmpFire
  repeat' first
    | with_reducible assumption
    | with_reducible apply Res.keeps_next
    | with_reducible apply State.cmpRecord_keeps
    | with_reducible apply State.cmpAct_keeps
    | with_reducible apply State.cmpAfter_keeps
    | with_reducible apply whenClocked_keeps
    | with_reducible apply ite_keeps

theorem State.popSheets_keeps {s0 s : State} (hs : s0.Keeps s) :
    s0.Keeps (State.popSheets s) := by
  unfold State.popSheets
  with_reducible repeat' first | assumption | apply State.updGrid_keeps | apply State.addReg_keeps | apply ite_keeps

theorem State.countLine_keeps {s0 s : State} (hs : s0.Keeps s) :
    s0.Keeps (State.countLine s) := by
  unfold State.countLine
  repeat' first
    | with_reducible assumption
    | with_reducible apply State.popSheets_keeps
    | with_reducible apply State.setReg_keeps
    | with_reducible apply State.inc_keeps
    | with_reducible apply State.updGrid_keeps
    | with_reducible apply ite_keeps

theorem State.stepGrid_keeps {s0 s : State} (band : Bool) (hs : s0.Keeps s) :
    s0.Keeps (State.stepGrid s band) := by
  unfold State.stepGrid
  with_reducible repeat' first | assumption | apply State.updGrid_keeps

theorem State.thaw_keeps {s0 s : State} (cs : List Commit) (hs : s0.Keeps s) :
    s0.Keeps (State.thaw s cs) := by
  unfold State.thaw
  with_reducible repeat' first | assumption | apply State.updGrid_keeps

theorem State.cmpLines_keeps {s0 s : State} (m : Nat) (hs : s0.Keeps s) :
    s0.Keeps (State.cmpLines s m) := by
  unfold State.cmpLines
  with_reducible repeat' first | assumption | intro _ | apply State.forEach_keeps | apply State.updCmp_keeps | apply ite_keeps

theorem State.lineWork_keeps {s0 s : State} (m : Nat) (sheet : Bool) (hs : s0.Keeps s) :
    s0.Keeps (State.lineWork s m sheet) := by
  unfold State.lineWork
  repeat' first
    | with_reducible assumption
    | intro _
    | with_reducible apply State.windows_keeps
    | with_reducible apply State.overspeed_keeps
    | with_reducible apply State.cmpLines_keeps
    | with_reducible apply State.forEach_keeps
    | with_reducible apply State.lineStop_keeps
    | with_reducible apply State.recomputeAll_keeps
    | with_reducible apply State.resetCarry_keeps
    | with_reducible apply ite_keeps

theorem execLineEvent_keeps {s0 s : State} (hs : s0.Keeps s) :
    Res.Keeps s0 (execLineEvent s) := by
  unfold execLineEvent
  repeat' first
    | with_reducible assumption
    | with_reducible apply Res.keeps_next
    | with_reducible apply State.countLine_keeps
    | with_reducible apply State.handOver_keeps
    | with_reducible apply State.stepGrid_keeps
    | with_reducible apply State.thaw_keeps
    | with_reducible apply State.queueWaiting_keeps
    | with_reducible apply State.lineWork_keeps
    | with_reducible apply State.pmc_keeps
    | with_reducible apply State.traceRec_keeps
    | with_reducible apply whenClocked_keeps
    | with_reducible apply ite_keeps

/-! ## Every command -/

/-- What holds of every command. -/
theorem exec_keeps {s0 s : State} (i : Instr) (hs : s0.Keeps s) : Res.Keeps s0 (exec i s) := by
  cases i with
  | laneSignalDetect lane => exact execLaneSignalDetect_keeps lane hs
  | laneBringupTimeout lane => exact execLaneBringupTimeout_keeps lane hs
  | laneRetry lane => exact execLaneRetry_keeps lane hs
  | train lane hdr blk => exact execTrain_keeps lane hdr blk hs
  | fastExit link lockBlock skew refclkOk => exact execFastExit_keeps link lockBlock skew refclkOk hs
  | align link skew => exact execAlign_keeps link skew hs
  | eidle lane => exact execEidle_keeps lane hs
  | laneLossOfSignal lane => exact execLaneLossOfSignal_keeps lane hs
  | invalidSyncHeader lane hdr ty => exact execInvalidSyncHeader_keeps lane hdr ty hs
  | chainPortDown p => exact execChainPortDown_keeps p hs
  | chainPortUp p => exact execChainPortUp_keeps p hs
  | cycle p blk phase residence => exact execCycle_keeps p blk phase residence hs
  | chainActive => exact execChainActive_keeps hs
  | chainTimeMisaligned => exact execChainTimeMisaligned_keeps hs
  | probeSend p phase => exact execProbeSend_keeps p phase hs
  | probe p blk residence => exact execProbe_keeps p blk residence hs
  | pret p blk phase => exact execPret_keeps p blk phase hs
  | pretTimeout p => exact execPretTimeout_keeps p hs
  | frameEofTimeout p => exact execFrameEofTimeout_keeps p hs
  | frameForward kind f => exact execFrameForward_keeps kind f hs
  | posSend => exact execPosSend_keeps hs
  | pos f => exact execPos_keeps f hs
  | posApply => exact execPosApply_keeps hs
  | chainCycleEnd => exact execChainCycleEnd_keeps hs
  | posBroadcastLost => exact execPosBroadcastLost_keeps hs
  | time f => exact execTime_keeps f hs
  | geyserArm f => exact execGeyserArm_keeps f hs
  | geyserCancel f => exact execGeyserCancel_keeps f hs
  | geyserLatch b => exact execGeyserLatch_keeps b hs
  | enumDiscover f => exact execEnumDiscover_keeps f hs
  | enumAssign f => exact execEnumAssign_keeps f hs
  | enumDone f => exact execEnumDone_keeps f hs
  | unsolicitedEnumReport => exact execUnsolicitedEnumReport_keeps hs
  | stickyStore => exact execStickyStore_keeps hs
  | ringEnable f => exact execRingEnable_keeps f hs
  | ringDisable f => exact execRingDisable_keeps f hs
  | ringRestore f => exact execRingRestore_keeps f hs
  | restoreSwitch => exact execRestoreSwitch_keeps hs
  | forwardCycleTimeout => exact execForwardCycleTimeout_keeps hs
  | wrap => exact execWrap_keeps hs
  | eventSend => exact execEventSend_keeps hs
  | eventLostNotice => exact execEventLostNotice_keeps hs
  | read r index sub => exact execRead_keeps r index sub hs
  | write r index sub => exact execWrite_keeps r index sub hs
  | groupClose r index sub => exact execGroupClose_keeps r index sub hs
  | groupAbort r index sub => exact execGroupAbort_keeps r index sub hs
  | groupExpire g => exact execGroupExpire_keeps g hs
  | domOpen r index sub => exact execDomOpen_keeps r index sub hs
  | domWrite r index sub => exact execDomWrite_keeps r index sub hs
  | domCommit r index sub => exact execDomCommit_keeps r index sub hs
  | domAbort r index sub => exact execDomAbort_keeps r index sub hs
  | domRead r index sub => exact execDomRead_keeps r index sub hs
  | sessionExpire k => exact execSessionExpire_keeps k hs
  | commitNow r index sub => exact execCommitNow_keeps r index sub hs
  | fwRequestAnswered => exact execFwRequestAnswered_keeps hs
  | fwRequestTimeout => exact execFwRequestTimeout_keeps hs
  | sealFloorRaise => exact execSealFloorRaise_keeps hs
  | sealFloorCommitted => exact execSealFloorCommitted_keeps hs
  | encEdge level reverted => exact execEncEdge_keeps level reverted hs
  | encLineFault => exact execEncLineFault_keeps hs
  | encLineClear => exact execEncLineClear_keeps hs
  | encDirEdge level => exact execEncDirEdge_keeps level hs
  | hallEdge code => exact execHallEdge_keeps code hs
  | slipWindowEnd => exact execSlipWindowEnd_keeps hs
  | speedStop => exact execSpeedStop_keeps hs
  | ssiTestRead r ready => exact execSsiTestRead_keeps r ready hs
  | ssiRecoveryRead r ready => exact execSsiRecoveryRead_keeps r ready hs
  | ssiReadDone w ready => exact execSsiReadDone_keeps w ready hs
  | ssiRetry ready => exact execSsiRetry_keeps ready hs
  | encEnable r ready => exact execEncEnable_keeps r ready hs
  | encConfigWrite r index sub => exact execEncConfigWrite_keeps r index sub hs
  | posRole r => exact execPosRole_keeps r hs
  | roleSwitch => exact execRoleSwitch_keeps hs
  | posPreset r => exact execPosPreset_keeps r hs
  | gridEnable r => exact execGridEnable_keeps r hs
  | lineEvent => exact execLineEvent_keeps hs
  | freezePoint cls => exact execFreezePoint_keeps cls hs
  | cueEdge input level => exact execCueEdge_keeps input level hs
  | sheetAt r => exact execSheetAt_keeps r hs
  | assemblyStart port => exact execAssemblyStart_keeps port hs
  | screeningStart port asmDone tableErr => exact execScreeningStart_keeps port asmDone tableErr hs
  | shipStart port => exact execShipStart_keeps port hs
  | fireSlot port phase sense => exact execFireSlot_keeps port phase sense hs
  | deferredFire port phase sense => exact execDeferredFire_keeps port phase sense hs
  | cmpCtrl r c => exact execCmpCtrl_keeps r c hs
  | cmpTarget r c => exact execCmpTarget_keeps r c hs
  | cmpFire c => exact execCmpFire_keeps c hs
  | cmpPulseEnd c => exact execCmpPulseEnd_keeps c hs
  | rasterPacket lane hdr words crc => exact execRasterPacket_keeps lane hdr words crc hs
  | rasterPacketTimeout lane => exact execRasterPacketTimeout_keeps lane hs
  | lineComplete plane line pass => exact execLineComplete_keeps plane line pass hs
  | creditSend lane => exact execCreditSend_keeps lane hs
  | layoutWrite r index sub => exact execLayoutWrite_keeps r index sub hs
  | ingressReady => exact execIngressReady_keeps hs
  | bankClearDone plane => exact execBankClearDone_keeps plane hs
  | fireArm r => exact execFireArm_keeps r hs
  | fireDisarm r => exact execFireDisarm_keeps r hs
  | clearLatch port => exact execClearLatch_keeps port hs
  | gateAssert gate => exact execGateAssert_keeps gate hs
  | rampEnd port => exact execRampEnd_keeps port hs
  | gateRelease gate => exact execGateRelease_keeps gate hs
  | idleTickle port sense => exact execIdleTickle_keeps port sense hs
  | headIdRead port bytes => exact execHeadIdRead_keeps port bytes hs
  | calStart group => exact execCalStart_keeps group hs
  | hovFrame group => exact execHovFrame_keeps group hs
  | hovStrobe group => exact execHovStrobe_keeps group hs
  | hovVerify group reply => exact execHovVerify_keeps group reply hs
  | hovRestoreRetry group => exact execHovRestoreRetry_keeps group hs
  | measureStart group => exact execMeasureStart_keeps group hs
  | calRoundDone group sums refs => exact execCalRoundDone_keeps group sums refs hs
  | calAbort r group => exact execCalAbort_keeps r group hs
  | calRequest r ch => exact execCalRequest_keeps r ch hs
  | calSetCopy group => exact execCalSetCopy_keeps group hs
  | thermalScan readings => exact execThermalScan_keeps readings hs
  | heatPeriodStart port => exact execHeatPeriodStart_keeps port hs
  | frameStart cam vc number => exact execFrameStart_keeps cam vc number hs
  | frameEnd cam vc => exact execFrameEnd_keeps cam vc hs
  | csiPacket cam p => exact execCsiPacket_keeps cam p hs
  | frameTimeout cam => exact execFrameTimeout_keeps cam hs
  | camSilent cam => exact execCamSilent_keeps cam hs
  | camEnable r cam => exact execCamEnable_keeps r cam hs
  | i2cCmd r cam => exact execI2cCmd_keeps r cam hs
  | i2cDone cam nack data => exact execI2cDone_keeps cam nack data hs
  | i2cTimeout cam => exact execI2cTimeout_keeps cam hs
  | pipeGrant => exact execPipeGrant_keeps hs
  | pipeUnitDone => exact execPipeUnitDone_keeps hs
  | loopArm cam => exact execLoopArm_keeps cam hs
  | loopCheck cam => exact execLoopCheck_keeps cam hs
  | loopEnable r => exact execLoopEnable_keeps r hs
  | loopClear r port => exact execLoopClear_keeps r port hs
  | scratchAccess a b => exact execScratchAccess_keeps a b hs
  | scrubVisit => exact execScrubVisit_keeps hs
  | bmControl r => exact execBmControl_keeps r hs
  | bmTrainingDone failMask => exact execBmTrainingDone_keeps failMask hs
  | bmAlert => exact execBmAlert_keeps hs
  | bmRefresh => exact execBmRefresh_keeps hs
  | bmScrubRead => exact execBmScrubRead_keeps hs
  | bmTrackCheck moved => exact execBmTrackCheck_keeps moved hs
  | bmZqShort => exact execBmZqShort_keeps hs
  | dmaStart r ch => exact execDmaStart_keeps r ch hs
  | dmaPause r ch => exact execDmaPause_keeps r ch hs
  | dmaPauseDone ch => exact execDmaPauseDone_keeps ch hs
  | dmaResume r ch => exact execDmaResume_keeps r ch hs
  | dmaAbort r ch => exact execDmaAbort_keeps r ch hs
  | dmaSlot m => exact execDmaSlot_keeps m hs
  | dmaDescDone ch => exact execDmaDescDone_keeps ch hs
  | dmaReadbackDone ch => exact execDmaReadbackDone_keeps ch hs
  | wordData r write => exact execWordData_keeps r write hs
  | faultArrival raises => exact execFaultArrival_keeps raises hs
  | histBatchWrite => exact execHistBatchWrite_keeps hs
  | faultClear r => exact execFaultClear_keeps r hs
  | firstClear r => exact execFirstClear_keeps r hs
  | histClear r => exact execHistClear_keeps r hs
  | inject r => exact execInject_keeps r hs
  | injectExpire => exact execInjectExpire_keeps hs
  | blockReset blk => exact execBlockReset_keeps blk hs
  | chipReset => exact execChipReset_keeps hs
  | powerOnReset vaonLost => exact execPowerOnReset_keeps vaonLost hs
  | refclkWaitTimeout => exact execRefclkWaitTimeout_keeps hs
  | startupComplete => exact execStartupComplete_keeps hs
  | tapReset => exact execTapReset_keeps hs
  | calderaRestart cause => exact execCalderaRestart_keeps cause hs
  | calderaRunning => exact execCalderaRunning_keeps hs
  | wdtExpire => exact execWdtExpire_keeps hs
  | railTrip row => exact execRailTrip_keeps row hs
  | railRecover row => exact execRailRecover_keeps row hs
  | clockFail row => exact execClockFail_keeps row hs
  | clockRecover row => exact execClockRecover_keeps row hs
  | logProgram => exact execLogProgram_keeps hs
  | logWindowSeq r => exact execLogWindowSeq_keeps r hs
  | updateInstall r => exact execUpdateInstall_keeps r hs
  | updateActivate r => exact execUpdateActivate_keeps r hs
  | updateConfirm r => exact execUpdateConfirm_keeps r hs
  | updateAbort r => exact execUpdateAbort_keeps r hs
  | trialTimeout => exact execTrialTimeout_keeps hs
  | lifecycleAdvance r => exact execLifecycleAdvance_keeps r hs
  | lifecycleRetire r => exact execLifecycleRetire_keeps r hs
  | keyCommit r => exact execKeyCommit_keeps r hs
  | otpScan => exact execOtpScan_keeps hs
  | lcAdvance => exact execLcAdvance_keeps hs
  | lcRetire => exact execLcRetire_keeps hs
  | provision field data => exact execProvision_keeps field data hs
  | recover image => exact execRecover_keeps image hs
  | jtagInstruction opcode => exact execJtagInstruction_keeps opcode hs
  | powerReq r => exact execPowerReq_keeps r hs
  | powerChange => exact execPowerChange_keeps hs
  | wake source => exact execWake_keeps source hs
  | shelfWake => exact execShelfWake_keeps hs
  | traceMode r => exact execTraceMode_keeps r hs
  | traceRestart r => exact execTraceRestart_keeps r hs
  | traceFrame => exact execTraceFrame_keeps hs
  | traceSample => exact execTraceSample_keeps hs
  | pmcSel r k => exact execPmcSel_keeps r k hs
  | blockLock lane => exact execBlockLock_keeps lane hs
  | chipResetRelease => exact execChipResetRelease_keeps hs
  | pipeLineDone tableErr => exact execPipeLineDone_keeps tableErr hs

/-! ## The clock -/

theorem State.advance_keeps {s0 s : State} (hs : s0.Keeps s) :
    s0.Keeps (State.advance s) := by
  unfold State.advance
  repeat' first
    | with_reducible assumption
    | with_reducible exact le_rfl
    | with_reducible exact id
    | with_reducible exact Otp.Grows.refl _
    | exact Nat.le_add_right _ _
    | with_reducible apply State.reactionsNow_keeps
    | with_reducible apply State.clockEnd_keeps
    | with_reducible apply State.dmaEnd_keeps
    | with_reducible apply State.cmpTick_keeps
    | with_reducible apply State.geyserTick_keeps
    | with_reducible apply State.ssiTick_keeps
    | with_reducible apply State.queueWaiting_keeps
    | with_reducible apply State.packetsHeld_keeps
    | with_reducible apply State.traceEnd_keeps
    | with_reducible apply State.powerEnding_keeps
    | with_reducible apply ite_keeps
    | extract_lets
    | split
    | with_reducible apply State.keeps_mk

theorem State.pmcWait_keeps {s0 s : State} (hs : s0.Keeps s) :
    s0.Keeps (State.pmcWait s) := by
  unfold State.pmcWait
  repeat' first
    | with_reducible assumption
    | with_reducible exact le_rfl
    | with_reducible exact id
    | with_reducible exact Otp.Grows.refl _
    | exact Nat.le_add_right _ _
    | with_reducible apply State.pmc_keeps
    | with_reducible apply ite_keeps
    | extract_lets
    | with_reducible apply State.keeps_mk

theorem State.clockWork_keeps {s0 s : State} (hs : s0.Keeps s) :
    s0.Keeps (State.clockWork s) := by
  unfold State.clockWork
  repeat' first
    | with_reducible assumption
    | intro _
    | with_reducible apply State.faultTick_keeps
    | with_reducible apply State.alignTick_keeps
    | with_reducible apply State.txTick_keeps
    | with_reducible apply State.syncDir_keeps
    | with_reducible apply State.pmc_keeps
    | with_reducible apply State.pmcWait_keeps
    | with_reducible apply State.forEach_keeps
    | with_reducible apply State.settleSense_keeps
    | with_reducible apply State.countScreened_keeps
    | with_reducible apply State.outputTick_keeps
    | with_reducible apply State.wordResume_keeps
    | with_reducible apply State.syncEncOut_keeps
    | with_reducible apply ite_keeps

theorem State.tick_keeps {s0 s : State} (hs : s0.Keeps s) : s0.Keeps { s.tick with pending := s.pending } := by
  have h := State.clockWork_keeps (State.advance_keeps hs)
  exact ⟨h.ident, hs.pending, h.clk, h.free, h.freeT, h.regs, h.mem, h.tabs, h.otp⟩

end Sys2Proof.Machine
end

