-- ==== Sys2Proof/Laws/PerInstr.lean ====
section
/-! SUPPORT. A law of every command as syntax, one lemma per constructor: the request that a row carries fits the fields of a DREQ frame
(R112): an index of 16 bits and a subindex of 8. -/

namespace Sys2Proof.Laws.ReqFits

open Sys2Proof.Machine

/-- The request that the command carries, if it carries one, names an index of 16 bits and a subindex of 8 (R112). -/
def Statement (i : Instr) : Prop := ∀ q, reqOf i = some q → q.index < 2 ^ 16 ∧ q.sub < 2 ^ 8

/-- A command that carries no request. -/
theorem of_none {i : Instr} (h : reqOf i = none) : Statement i := fun q e => by rw [h] at e; cases e

/-- A command that carries the request `q`. -/
theorem of_some {i : Instr} {q : Req} (h : reqOf i = some q) (x : q.index < 2 ^ 16) (y : q.sub < 2 ^ 8) : Statement i :=
  fun p e => by rw [h] at e; cases e; exact ⟨x, y⟩

theorem laneSignalDetect (lane : Fin 8) : Statement (.laneSignalDetect lane) := of_none rfl
theorem laneBringupTimeout (lane : Fin 8) : Statement (.laneBringupTimeout lane) := of_none rfl
theorem laneRetry (lane : Fin 8) : Statement (.laneRetry lane) := of_none rfl
theorem train (lane : Fin 8) (hdr : BitVec 2) (blk : Block) : Statement (.train lane hdr blk) := of_none rfl
theorem fastExit (link : LinkSel) (lockBlock : Nat) (skew : Nat) (refclkOk : Bool) : Statement (.fastExit link lockBlock skew refclkOk) := of_none rfl
theorem align (link : LinkSel) (skew : Nat) : Statement (.align link skew) := of_none rfl
theorem eidle (lane : Fin 8) : Statement (.eidle lane) := of_none rfl
theorem laneLossOfSignal (lane : Fin 8) : Statement (.laneLossOfSignal lane) := of_none rfl
theorem invalidSyncHeader (lane : Fin 8) (hdr : BitVec 2) (ty : BitVec 8) : Statement (.invalidSyncHeader lane hdr ty) := of_none rfl
theorem chainPortDown (p : ChainPort) : Statement (.chainPortDown p) := of_none rfl
theorem chainPortUp (p : ChainPort) : Statement (.chainPortUp p) := of_none rfl
theorem cycle (p : ChainPort) (blk : Block) (phase : Fin 8) (residence : Nat) : Statement (.cycle p blk phase residence) := of_none rfl
theorem chainActive : Statement (.chainActive) := of_none rfl
theorem chainTimeMisaligned : Statement (.chainTimeMisaligned) := of_none rfl
theorem probeSend (p : ChainPort) (phase : Fin 8) : Statement (.probeSend p phase) := of_none rfl
theorem probe (p : ChainPort) (blk : Block) (residence : Nat) : Statement (.probe p blk residence) := of_none rfl
theorem pret (p : ChainPort) (blk : Block) (phase : Fin 8) : Statement (.pret p blk phase) := of_none rfl
theorem pretTimeout (p : ChainPort) : Statement (.pretTimeout p) := of_none rfl
theorem frameEofTimeout (p : ChainPort) : Statement (.frameEofTimeout p) := of_none rfl
theorem frameForward (kind : BitVec 5) (f : Frame) : Statement (.frameForward kind f) := of_none rfl
theorem posSend : Statement (.posSend) := of_none rfl
theorem pos (f : Frame) : Statement (.pos f) := of_none rfl
theorem posApply : Statement (.posApply) := of_none rfl
theorem chainCycleEnd : Statement (.chainCycleEnd) := of_none rfl
theorem posBroadcastLost : Statement (.posBroadcastLost) := of_none rfl
theorem time (f : Frame) : Statement (.time f) := of_none rfl
theorem geyserArm (f : Frame) : Statement (.geyserArm f) := of_none rfl
theorem geyserCancel (f : Frame) : Statement (.geyserCancel f) := of_none rfl
theorem geyserLatch (b : Fin 4) : Statement (.geyserLatch b) := of_none rfl
theorem enumDiscover (f : Frame) : Statement (.enumDiscover f) := of_none rfl
theorem enumAssign (f : Frame) : Statement (.enumAssign f) := of_none rfl
theorem enumDone (f : Frame) : Statement (.enumDone f) := of_none rfl
theorem unsolicitedEnumReport : Statement (.unsolicitedEnumReport) := of_none rfl
theorem stickyStore : Statement (.stickyStore) := of_none rfl
theorem ringEnable (f : Frame) : Statement (.ringEnable f) := of_none rfl
theorem ringDisable (f : Frame) : Statement (.ringDisable f) := of_none rfl
theorem ringRestore (f : Frame) : Statement (.ringRestore f) := of_none rfl
theorem restoreSwitch : Statement (.restoreSwitch) := of_none rfl
theorem forwardCycleTimeout : Statement (.forwardCycleTimeout) := of_none rfl
theorem wrap : Statement (.wrap) := of_none rfl
theorem eventSend : Statement (.eventSend) := of_none rfl
theorem eventLostNotice : Statement (.eventLostNotice) := of_none rfl
theorem read (r : Dreq) (index : BitVec 16) (sub : BitVec 8) : Statement (.read r index sub) := of_some rfl index.isLt sub.isLt
theorem write (r : Dreq) (index : BitVec 16) (sub : BitVec 8) : Statement (.write r index sub) := of_some rfl index.isLt sub.isLt
theorem groupClose (r : Dreq) (index : BitVec 16) (sub : BitVec 8) : Statement (.groupClose r index sub) := of_some rfl index.isLt sub.isLt
theorem groupAbort (r : Dreq) (index : BitVec 16) (sub : BitVec 8) : Statement (.groupAbort r index sub) := of_some rfl index.isLt sub.isLt
theorem groupExpire (g : Fin 16) : Statement (.groupExpire g) := of_none rfl
theorem domOpen (r : Dreq) (index : BitVec 16) (sub : BitVec 8) : Statement (.domOpen r index sub) := of_some rfl index.isLt sub.isLt
theorem domWrite (r : Dreq) (index : BitVec 16) (sub : BitVec 8) : Statement (.domWrite r index sub) := of_some rfl index.isLt sub.isLt
theorem domCommit (r : Dreq) (index : BitVec 16) (sub : BitVec 8) : Statement (.domCommit r index sub) := of_some rfl index.isLt sub.isLt
theorem domAbort (r : Dreq) (index : BitVec 16) (sub : BitVec 8) : Statement (.domAbort r index sub) := of_some rfl index.isLt sub.isLt
theorem domRead (r : Dreq) (index : BitVec 16) (sub : BitVec 8) : Statement (.domRead r index sub) := of_some rfl index.isLt sub.isLt
theorem sessionExpire (k : Fin 4) : Statement (.sessionExpire k) := of_none rfl
theorem commitNow (r : Dreq) (index : BitVec 16) (sub : BitVec 8) : Statement (.commitNow r index sub) := of_some rfl index.isLt sub.isLt
theorem fwRequestAnswered : Statement (.fwRequestAnswered) := of_none rfl
theorem fwRequestTimeout : Statement (.fwRequestTimeout) := of_none rfl
theorem sealFloorRaise : Statement (.sealFloorRaise) := of_none rfl
theorem sealFloorCommitted : Statement (.sealFloorCommitted) := of_none rfl
theorem encEdge (level : Bool) (reverted : Bool) : Statement (.encEdge level reverted) := of_none rfl
theorem encLineFault : Statement (.encLineFault) := of_none rfl
theorem encLineClear : Statement (.encLineClear) := of_none rfl
theorem encDirEdge (level : Bool) : Statement (.encDirEdge level) := of_none rfl
theorem hallEdge (code : BitVec 3) : Statement (.hallEdge code) := of_none rfl
theorem slipWindowEnd : Statement (.slipWindowEnd) := of_none rfl
theorem speedStop : Statement (.speedStop) := of_none rfl
theorem ssiTestRead (r : Dreq) (ready : Option Nat) : Statement (.ssiTestRead r ready) := of_some rfl (by norm_num) (by norm_num)
theorem ssiRecoveryRead (r : Option Dreq) (ready : Option Nat) : Statement (.ssiRecoveryRead r ready) := by
  cases r with
  | none => exact of_none rfl
  | some r => exact of_some rfl (by norm_num) (by norm_num)
theorem ssiReadDone (w : SsiWire) (ready : Option Nat) : Statement (.ssiReadDone w ready) := of_none rfl
theorem ssiRetry (ready : Option Nat) : Statement (.ssiRetry ready) := of_none rfl
theorem encEnable (r : Dreq) (ready : Option Nat) : Statement (.encEnable r ready) := of_some rfl (by norm_num) (by norm_num)
theorem encConfigWrite (r : Dreq) (index : BitVec 16) (sub : BitVec 8) : Statement (.encConfigWrite r index sub) := of_some rfl index.isLt sub.isLt
theorem posRole (r : Dreq) : Statement (.posRole r) := of_some rfl (by norm_num) (by norm_num)
theorem roleSwitch : Statement (.roleSwitch) := of_none rfl
theorem posPreset (r : Dreq) : Statement (.posPreset r) := of_some rfl (by norm_num) (by norm_num)
theorem gridEnable (r : Dreq) : Statement (.gridEnable r) := of_some rfl (by norm_num) (by norm_num)
theorem lineEvent : Statement (.lineEvent) := of_none rfl
theorem freezePoint (cls : Fin 3) : Statement (.freezePoint cls) := of_none rfl
theorem cueEdge (input : Fin 2) (level : Bool) : Statement (.cueEdge input level) := of_none rfl
theorem sheetAt (r : Dreq) : Statement (.sheetAt r) := of_some rfl (by norm_num) (by norm_num)
theorem assemblyStart (port : Fin 16) : Statement (.assemblyStart port) := of_none rfl
theorem screeningStart (port : Fin 16) (asmDone : Bool) (tableErr : List (Nat × Nat)) : Statement (.screeningStart port asmDone tableErr) := of_none rfl
theorem shipStart (port : Fin 16) : Statement (.shipStart port) := of_none rfl
theorem fireSlot (port : Fin 16) (phase : Fin 8) (sense : List Nat) : Statement (.fireSlot port phase sense) := of_none rfl
theorem deferredFire (port : Fin 16) (phase : Fin 8) (sense : List Nat) : Statement (.deferredFire port phase sense) := of_none rfl
theorem cmpCtrl (r : Dreq) (c : Fin 32) : Statement (.cmpCtrl r c) := of_some rfl (by have := c.isLt; simp only; omega) (by have := c.isLt; simp only; omega)
theorem cmpTarget (r : Dreq) (c : Fin 32) : Statement (.cmpTarget r c) := of_some rfl (by have := c.isLt; simp only; omega) (by have := c.isLt; simp only; omega)
theorem cmpFire (c : Fin 32) : Statement (.cmpFire c) := of_none rfl
theorem cmpPulseEnd (c : Fin 32) : Statement (.cmpPulseEnd c) := of_none rfl
theorem rasterPacket (lane : Fin 4) (hdr : RasterHdr) (words : List Word) (crc : BitVec 32) : Statement (.rasterPacket lane hdr words crc) := of_none rfl
theorem rasterPacketTimeout (lane : Fin 4) : Statement (.rasterPacketTimeout lane) := of_none rfl
theorem lineComplete (plane : Fin 16) (line : BitVec 32) (pass : BitVec 16) : Statement (.lineComplete plane line pass) := of_none rfl
theorem creditSend (lane : Fin 4) : Statement (.creditSend lane) := of_none rfl
theorem layoutWrite (r : Dreq) (index : BitVec 16) (sub : BitVec 8) : Statement (.layoutWrite r index sub) := of_some rfl index.isLt sub.isLt
theorem ingressReady : Statement (.ingressReady) := of_none rfl
theorem bankClearDone (plane : Fin 16) : Statement (.bankClearDone plane) := of_none rfl
theorem fireArm (r : Dreq) : Statement (.fireArm r) := of_some rfl (by norm_num) (by norm_num)
theorem fireDisarm (r : Dreq) : Statement (.fireDisarm r) := of_some rfl (by norm_num) (by norm_num)
theorem clearLatch (port : Fin 16) : Statement (.clearLatch port) := of_none rfl
theorem gateAssert (gate : Fin 4) : Statement (.gateAssert gate) := of_none rfl
theorem rampEnd (port : Fin 16) : Statement (.rampEnd port) := of_none rfl
theorem gateRelease (gate : Fin 4) : Statement (.gateRelease gate) := of_none rfl
theorem idleTickle (port : Fin 16) (sense : List Nat) : Statement (.idleTickle port sense) := of_none rfl
theorem headIdRead (port : Fin 16) (bytes : Option (List (BitVec 8))) : Statement (.headIdRead port bytes) := of_none rfl
theorem calStart (group : Fin 4) : Statement (.calStart group) := of_none rfl
theorem hovFrame (group : Fin 4) : Statement (.hovFrame group) := of_none rfl
theorem hovStrobe (group : Fin 4) : Statement (.hovStrobe group) := of_none rfl
theorem hovVerify (group : Fin 4) (reply : Option (BitVec 32)) : Statement (.hovVerify group reply) := of_none rfl
theorem hovRestoreRetry (group : Fin 4) : Statement (.hovRestoreRetry group) := of_none rfl
theorem measureStart (group : Fin 4) : Statement (.measureStart group) := of_none rfl
theorem calRoundDone (group : Fin 4) (sums : List Nat) (refs : List Nat) : Statement (.calRoundDone group sums refs) := of_none rfl
theorem calAbort (r : Dreq) (group : Fin 4) : Statement (.calAbort r group) := of_some rfl (by have := group.isLt; simp only; omega) (by have := group.isLt; simp only; omega)
theorem calRequest (r : Dreq) (ch : Fin 68) : Statement (.calRequest r ch) := of_some rfl (by have := ch.isLt; simp only; omega) (by have := ch.isLt; simp only; omega)
theorem calSetCopy (group : Fin 4) : Statement (.calSetCopy group) := of_none rfl
theorem thermalScan (readings : Vector (BitVec 32) 80) : Statement (.thermalScan readings) := of_none rfl
theorem heatPeriodStart (port : Fin 16) : Statement (.heatPeriodStart port) := of_none rfl
theorem frameStart (cam : Fin 2) (vc : BitVec 2) (number : BitVec 16) : Statement (.frameStart cam vc number) := of_none rfl
theorem frameEnd (cam : Fin 2) (vc : BitVec 2) : Statement (.frameEnd cam vc) := of_none rfl
theorem csiPacket (cam : Fin 2) (p : CsiPacket) : Statement (.csiPacket cam p) := of_none rfl
theorem frameTimeout (cam : Fin 2) : Statement (.frameTimeout cam) := of_none rfl
theorem camSilent (cam : Fin 2) : Statement (.camSilent cam) := of_none rfl
theorem camEnable (r : Dreq) (cam : Fin 2) : Statement (.camEnable r cam) := of_some rfl (by have := cam.isLt; simp only; omega) (by have := cam.isLt; simp only; omega)
theorem i2cCmd (r : Dreq) (cam : Fin 2) : Statement (.i2cCmd r cam) := of_some rfl (by have := cam.isLt; simp only; omega) (by have := cam.isLt; simp only; omega)
theorem i2cDone (cam : Fin 2) (nack : Bool) (data : BitVec 32) : Statement (.i2cDone cam nack data) := of_none rfl
theorem i2cTimeout (cam : Fin 2) : Statement (.i2cTimeout cam) := of_none rfl
theorem pipeGrant : Statement (.pipeGrant) := of_none rfl
theorem pipeUnitDone : Statement (.pipeUnitDone) := of_none rfl
theorem loopArm (cam : Fin 2) : Statement (.loopArm cam) := of_none rfl
theorem loopCheck (cam : Fin 2) : Statement (.loopCheck cam) := of_none rfl
theorem loopEnable (r : Dreq) : Statement (.loopEnable r) := of_some rfl (by norm_num) (by norm_num)
theorem loopClear (r : Dreq) (port : Fin 16) : Statement (.loopClear r port) := of_some rfl (by have := port.isLt; simp only; omega) (by have := port.isLt; simp only; omega)
theorem scratchAccess (a : Option ScratchAcc) (b : Option ScratchAcc) : Statement (.scratchAccess a b) := of_none rfl
theorem scrubVisit : Statement (.scrubVisit) := of_none rfl
theorem bmControl (r : Dreq) : Statement (.bmControl r) := of_some rfl (by norm_num) (by norm_num)
theorem bmTrainingDone (failMask : BitVec 10) : Statement (.bmTrainingDone failMask) := of_none rfl
theorem bmAlert : Statement (.bmAlert) := of_none rfl
theorem bmRefresh : Statement (.bmRefresh) := of_none rfl
theorem bmScrubRead : Statement (.bmScrubRead) := of_none rfl
theorem bmTrackCheck (moved : Bool) : Statement (.bmTrackCheck moved) := of_none rfl
theorem bmZqShort : Statement (.bmZqShort) := of_none rfl
theorem dmaStart (r : Option Dreq) (ch : Fin 32) : Statement (.dmaStart r ch) := by
  cases r with
  | none => exact of_none rfl
  | some r => exact of_some rfl (by have := ch.isLt; simp only; omega) (by norm_num)
theorem dmaPause (r : Dreq) (ch : Fin 32) : Statement (.dmaPause r ch) := of_some rfl (by have := ch.isLt; simp only; omega) (by have := ch.isLt; simp only; omega)
theorem dmaPauseDone (ch : Fin 32) : Statement (.dmaPauseDone ch) := of_none rfl
theorem dmaResume (r : Dreq) (ch : Fin 32) : Statement (.dmaResume r ch) := of_some rfl (by have := ch.isLt; simp only; omega) (by have := ch.isLt; simp only; omega)
theorem dmaAbort (r : Dreq) (ch : Fin 32) : Statement (.dmaAbort r ch) := of_some rfl (by have := ch.isLt; simp only; omega) (by have := ch.isLt; simp only; omega)
theorem dmaSlot (m : Fin 4) : Statement (.dmaSlot m) := of_none rfl
theorem dmaDescDone (ch : Fin 32) : Statement (.dmaDescDone ch) := of_none rfl
theorem dmaReadbackDone (ch : Fin 32) : Statement (.dmaReadbackDone ch) := of_none rfl
theorem wordData (r : Dreq) (write : Bool) : Statement (.wordData r write) := of_some rfl (by norm_num) (by norm_num)
theorem faultArrival (raises : List RaiseIn) : Statement (.faultArrival raises) := of_none rfl
theorem histBatchWrite : Statement (.histBatchWrite) := of_none rfl
theorem faultClear (r : Dreq) : Statement (.faultClear r) := of_some rfl (by norm_num) (by norm_num)
theorem firstClear (r : Dreq) : Statement (.firstClear r) := of_some rfl (by norm_num) (by norm_num)
theorem histClear (r : Dreq) : Statement (.histClear r) := of_some rfl (by norm_num) (by norm_num)
theorem inject (r : Dreq) : Statement (.inject r) := of_some rfl (by norm_num) (by norm_num)
theorem injectExpire : Statement (.injectExpire) := of_none rfl
theorem blockReset (blk : Nat) : Statement (.blockReset blk) := of_none rfl
theorem chipReset : Statement (.chipReset) := of_none rfl
theorem powerOnReset (vaonLost : Bool) : Statement (.powerOnReset vaonLost) := of_none rfl
theorem refclkWaitTimeout : Statement (.refclkWaitTimeout) := of_none rfl
theorem startupComplete : Statement (.startupComplete) := of_none rfl
theorem tapReset : Statement (.tapReset) := of_none rfl
theorem calderaRestart (cause : RestartCause) : Statement (.calderaRestart cause) := by
  cases cause with
  | host r => exact of_some rfl (by norm_num) (by norm_num)
  | _ => exact of_none rfl
theorem calderaRunning : Statement (.calderaRunning) := of_none rfl
theorem wdtExpire : Statement (.wdtExpire) := of_none rfl
theorem railTrip (row : Fin 9) : Statement (.railTrip row) := of_none rfl
theorem railRecover (row : Fin 9) : Statement (.railRecover row) := of_none rfl
theorem clockFail (row : Fin 5) : Statement (.clockFail row) := of_none rfl
theorem clockRecover (row : Fin 5) : Statement (.clockRecover row) := of_none rfl
theorem logProgram : Statement (.logProgram) := of_none rfl
theorem logWindowSeq (r : Dreq) : Statement (.logWindowSeq r) := of_some rfl (by norm_num) (by norm_num)
theorem updateInstall (r : Dreq) : Statement (.updateInstall r) := of_some rfl (by norm_num) (by norm_num)
theorem updateActivate (r : Dreq) : Statement (.updateActivate r) := of_some rfl (by norm_num) (by norm_num)
theorem updateConfirm (r : Dreq) : Statement (.updateConfirm r) := of_some rfl (by norm_num) (by norm_num)
theorem updateAbort (r : Dreq) : Statement (.updateAbort r) := of_some rfl (by norm_num) (by norm_num)
theorem trialTimeout : Statement (.trialTimeout) := of_none rfl
theorem lifecycleAdvance (r : Dreq) : Statement (.lifecycleAdvance r) := of_some rfl (by norm_num) (by norm_num)
theorem lifecycleRetire (r : Dreq) : Statement (.lifecycleRetire r) := of_some rfl (by norm_num) (by norm_num)
theorem keyCommit (r : Dreq) : Statement (.keyCommit r) := of_some rfl (by norm_num) (by norm_num)
theorem otpScan : Statement (.otpScan) := of_none rfl
theorem lcAdvance : Statement (.lcAdvance) := of_none rfl
theorem lcRetire : Statement (.lcRetire) := of_none rfl
theorem provision (field : Nat) (data : BitVec 256) : Statement (.provision field data) := of_none rfl
theorem recover (image : List (BitVec 8)) : Statement (.recover image) := of_none rfl
theorem jtagInstruction (opcode : BitVec 8) : Statement (.jtagInstruction opcode) := of_none rfl
theorem powerReq (r : Dreq) : Statement (.powerReq r) := of_some rfl (by norm_num) (by norm_num)
theorem powerChange : Statement (.powerChange) := of_none rfl
theorem wake (source : Nat) : Statement (.wake source) := of_none rfl
theorem shelfWake : Statement (.shelfWake) := of_none rfl
theorem traceMode (r : Dreq) : Statement (.traceMode r) := of_some rfl (by norm_num) (by norm_num)
theorem traceRestart (r : Dreq) : Statement (.traceRestart r) := of_some rfl (by norm_num) (by norm_num)
theorem traceFrame : Statement (.traceFrame) := of_none rfl
theorem traceSample : Statement (.traceSample) := of_none rfl
theorem pmcSel (r : Dreq) (k : Fin 16) : Statement (.pmcSel r k) := of_some rfl (by have := k.isLt; simp only; omega) (by have := k.isLt; simp only; omega)
theorem blockLock (lane : Fin 8) : Statement (.blockLock lane) := of_none rfl
theorem chipResetRelease : Statement (.chipResetRelease) := of_none rfl
theorem pipeLineDone (tableErr : List (Fin 3 × Nat)) : Statement (.pipeLineDone tableErr) := of_none rfl

end Sys2Proof.Laws.ReqFits
end

