-- ==== Sys2Proof/Laws/Requests.lean ====
section
/-! SUPPORT. What a row that carries a request comes to: the arrival of the request, and, where the dictionary accepts it, its effect and its
answer. -/

set_option linter.unusedSimpArgs false
set_option linter.unusedTactic false
set_option linter.unreachableTactic false

namespace Sys2Proof.Machine

theorem State.wired_clocked (s : State) (i : Instr) : (s.wired i).clocked = s.clocked := by
  unfold State.wired; split <;> rfl

theorem State.wired_addr (s : State) (i : Instr) : (s.wired i).addr = s.addr := by
  unfold State.wired; split <;> rfl

/-- The arrival of a request for this unit alone, intact and new. -/
theorem State.dreq_taken {s u : State} {q : Req} (b : Bool) (h1 : q.bcast = false) (h2 : s.addr ≠ 0) (h3 : q.r.frame.dest.toNat = s.addr)
    (h4 : s.recvSummit 0x0A q.frame true false = (u, true)) : s.dreq q b = u.request q b := by
  simp [State.dreq, h1, h2, h3, h4]

/-- A row that carries a request is its arrival. -/
theorem exec_request {i : Instr} {s : State} {q : Req} (h : reqOf i = some q) (c : s.clocked = true) :
    exec i s = .next ((s.wired i).dreq q (byCaldera i)) := by
  cases i <;> simp only [reqOf, Option.some.injEq, reduceCtorEq] at h
  all_goals try (subst h; simp only [exec, execRead, execWrite, execGroupClose, execGroupAbort, execDomOpen, execDomWrite, execDomCommit,
    execDomAbort, execDomRead, execCommitNow, execEncEnable, execSsiTestRead, execEncConfigWrite, execPosRole, execPosPreset,
    execGridEnable, execSheetAt, execCmpCtrl, execCmpTarget, execLayoutWrite, execFireArm, execFireDisarm, execCalAbort, execCalRequest,
    execCamEnable, execI2cCmd, execLoopEnable, execLoopClear, execBmControl, execDmaPause, execDmaResume, execDmaAbort, execWordData,
    execFaultClear, execFirstClear, execHistClear, execInject, execLogWindowSeq, execUpdateInstall, execUpdateActivate,
    execUpdateConfirm, execUpdateAbort, execLifecycleAdvance, execLifecycleRetire, execKeyCommit, execPowerReq, execTraceMode,
    execTraceRestart, execPmcSel, whenClocked, c, not_true_eq_false, if_false, if_true, State.wired, byCaldera])
  · rename_i r h'; cases r <;> simp at h; subst h; simp [exec, execSsiRecoveryRead, whenClocked, c, State.wired, byCaldera]
  · rename_i r ch; cases r <;> simp at h; subst h; simp [exec, execDmaStart, whenClocked, c, State.wired, byCaldera]
  · rename_i cs; cases cs <;> simp at h; subst h; simp [exec, execCalderaRestart, whenClocked, c, State.wired, byCaldera]

/-- An accepted request runs in the state in which it takes effect. -/
theorem State.Accepts.dreq {s t : State} {q : Req} (h : s.Accepts q t) (b : Bool) : s.dreq q b = t.run q q.r.sealed b := by
  obtain ⟨u, x1, x2, x3, x4⟩ := h.taken
  rw [State.dreq_taken b h.single h.addr h.dest x1]
  rcases x4 with ⟨y, z⟩ | ⟨y, z, v⟩
  · subst z; simp [State.request, h.single, x2, State.serve, x3, y]
  · subst v; simp [State.request, h.single, x2, State.serve, x3, y, z]

/-- An accepted request that is not left to Caldera is performed and answered. -/
theorem State.Accepts.performed {s t : State} {q : Req} (h : s.Accepts q t) {b : Bool}
    (n : t.fwNamed q = false ∨ (b = true ∧ t.dict.fw = []) ∨ (q.op = .write ∧ q.r.group.toNat ≠ 0)) :
    s.dreq q b = (t.perform q).1.conclude q q.r.sealed (t.perform q).2 t.ct := by
  rw [h.dreq b]
  have e : ¬ (t.fwNamed q = true ∧ ¬ (b = true ∧ t.dict.fw = []) ∧ ¬ (q.op = .write ∧ q.r.group.toNat ≠ 0)) := by
    rcases n with n | n | n <;> simp [n]
  unfold State.run
  rw [h.late]
  simp only [h.ready]
  rw [if_neg (by simp), if_neg e]

theorem State.object_write {t : State} {k : Nat} {o o' : Obj} (h : objOf k = some o) (e : t.object k = some o') :
    o' = o ∨ o'.access = .ro := by
  unfold State.object at e
  rw [h] at e
  split at e
  · simp only [Option.map_some, Option.some.injEq] at e
    split at e
    · exact .inr (by rw [← e])
    · exact .inl e.symm
  · cases e

/-- The object that an accepted write names is the dictionary's, and may be written. -/
theorem State.Accepts.written {s t : State} {q : Req} (h : s.Accepts q t) (w : q.op = .write) {o : Obj} (e : objOf q.key = some o) :
    t.objects q = [o] := by
  obtain ⟨u, x1, x2, x3, x4⟩ := h.taken
  have hu : ∀ k, t.object k = u.object k := by
    rcases x4 with ⟨_, z⟩ | ⟨_, _, z⟩ <;> subst z <;> intro k <;> rfl
  have hn : q.n = 1 := by simp [Req.n, w]
  have hd : u.named q = [if q.sub < 256 then u.object q.key else none] := by
    simp [State.named, hn, List.range_succ]
  have ht : t.named q = u.named q := by
    rw [hd]; simp [State.named, hn, List.range_succ, hu]
  have x5 : u.step2 q = none ∧ u.step34 q = none := by
    have := x3
    unfold State.early at this
    simp only [w, Op.noObject] at this
    cases a : q.step1 <;> simp [a] at this
    cases b : u.step2 q <;> simp [b] at this
    cases c : u.step34 q <;> simp [c] at this
    exact ⟨rfl, rfl⟩
  have hs : ∃ o', u.named q = [some o'] := by
    rw [hd]
    have := x5.1
    unfold State.step2 at this
    rw [hd] at this
    split at this
    · cases this
    · cases hh' : (if q.sub < 256 then u.object q.key else none) with
      | none => rw [hh'] at this; simp at this
      | some o' => exact ⟨o', rfl⟩
  obtain ⟨o', ho'⟩ := hs
  have ob : u.objects q = [o'] := by simp [State.objects, ho']
  have hk : u.object q.key = some o' := by
    rw [hd] at ho'
    simp only [List.cons.injEq, and_true] at ho'
    split at ho'
    · exact ho'
    · cases ho'
  have : o' = o := by
    rcases State.object_write e hk with x | x
    · exact x
    · exfalso
      have y := x5.2
      unfold State.step34 at y
      rw [ob] at y
      simp [w, Op.reads, x] at y
  subst this
  simp [State.objects, ht, ho']

theorem Req.key_eq {r : Dreq} {op : Op} {i j k : Nat} (h : i * 256 + j = k) : Req.key ⟨r, op, i, j⟩ = k := h

/-- An accepted ungrouped write of an IMMEDIATE object `o` at key `k` takes effect at its acceptance. -/
theorem State.Writes.exec {s t : State} {i : Instr} {q : Req} (h : s.Writes i q t) (w : q.op = .write) {k : Nat} (hk : q.key = k) (o : Obj)
    (e : objOf k = some o) (c : o.commit = .imm) (f : o.fw = false ∨ (byCaldera i = true ∧ t.dict.fw = [])) :
    Sys2Proof.Machine.exec i s = .next ((t.applyWrite k (t.valueOf q)).answers q St.OK t.ct) := by
  subst hk
  have ob := h.accepts.written w e
  rw [exec_request h.req (by rw [← State.wired_clocked s i]; exact h.accepts.clocked)]
  rw [h.accepts.performed (b := byCaldera i) (by
    rcases f with f | f
    · left; simp [State.fwNamed, ob, f]
    · exact .inr (.inl f))]
  simp [State.perform, w, ob, h.group, State.doWrite, c, reply, State.answers]

/-! ## What the write of each row's object comes to -/

/-- Settling after a write that no window, dead nozzle, waveform or scale depends on. -/
theorem State.settleKeys_low {s : State} {k : Nat} (h : k / 256 < 0x3000 ∨ k / 256 < 0x3100 ∧ k / 256 % 16 = 10) (n : needsWindows k = false) :
    s.settleKeys [k] = s := by
  have hd : deadPort k = none := by
    simp only [deadPort]
    rw [if_neg (by omega), if_neg (by omega)]
  have hw : wavePort k = none := by
    simp only [wavePort]
    rw [if_neg (by omega), if_neg (by omega)]
  have hs : ∀ p, (List.range 4).filter (fun w => [k].any (snaps p w)) = [] := by
    intro p
    rw [List.filter_eq_nil_iff]
    intro w hw4
    rw [List.mem_range] at hw4
    rw [List.any_cons, List.any_nil, Bool.or_false, Bool.not_eq_true]
    simp only [snaps, Bool.or_eq_false_iff, beq_eq_false_iff_ne, ne_eq, List.any_eq_false, beq_iff_eq, List.mem_range]
    refine ⟨⟨?_, ?_⟩, ?_⟩
    · simp only [Key.WAVE_SEL]; omega
    · omega
    · intro i hi; simp only [Key.SCALE_TEMP]; omega
  have each : ∀ (l : List Nat) (u : State), u.forEach l (fun _ s => s) = u := by
    intro l
    induction l with
    | nil => intro u; rfl
    | cons a l ih => intro u; exact ih u
  unfold State.settleKeys
  simp only [List.any_cons, List.any_nil, Bool.or_false, List.filterMap_cons, List.filterMap_nil, n, hd, hw]
  simp only [List.any_cons, List.any_nil, Bool.or_false] at hs
  simp [hs, State.forEach, each]

theorem State.applyWrite_command {s u : State} {k v : Nat} (h : s.elemHere k = true) (c : s.command k v = some u)
    (l : k / 256 < 0x3000 ∨ k / 256 < 0x3100 ∧ k / 256 % 16 = 10) (n : needsWindows k = false) : s.applyWrite k v = u := by
  simp [State.applyWrite, State.putWrite, h, c, State.settleKeys_low l n]

theorem State.applyWrite_plain {s : State} {k v : Nat} (h : s.elemHere k = true) (c : s.command k v = none)
    (l : k / 256 < 0x3000 ∨ k / 256 < 0x3100 ∧ k / 256 % 16 = 10) (n : needsWindows k = false) :
    s.applyWrite k v = (s.setReg k v).objEffect k (s.reg k) := by
  simp [State.applyWrite, State.putWrite, h, c, State.settleKeys_low l n]

/-- An element that the part has not takes no write (R4). -/
theorem State.applyWrite_absent {s : State} {k v : Nat} (h : s.elemHere k = false)
    (l : k / 256 < 0x3000 ∨ k / 256 < 0x3100 ∧ k / 256 % 16 = 10) (n : needsWindows k = false) : s.applyWrite k v = s := by
  simp [State.applyWrite, State.putWrite, h, State.settleKeys_low l n]

/-- A key that names no command object. -/
theorem State.command_none {s : State} {k v : Nat} (h1 : k / 256 ≠ 0x2513) (h2 : ¬ (0x2910 ≤ k / 256 ∧ k / 256 < 0x2930 ∧ k % 256 = 7))
    (h3 : k ∉ [Key.FIRE_ARM, Key.FIRE_DISARM, Key.DMA_HOST_FLAGS, Key.WORD_DATA, Key.FAULT_CLEAR, Key.FIRST_CLEAR, Key.HIST_CLEAR, Key.INJECT, Key.CALDERA_RESTART, Key.UPDATE_COMMAND, Key.LIFECYCLE_CMD, Key.KEY_COMMIT, Key.STICKY_ADDR, Key.POWER_REQ]) : s.command k v = none := by
  simp only [List.mem_cons, List.not_mem_nil, or_false, not_or] at h3
  obtain ⟨a, b, c, d, e, f, g, i, j, l, m, n, o, p⟩ := h3
  unfold State.command
  dsimp only
  rw [if_neg a, if_neg b, if_neg h1, if_neg c, if_neg d, if_neg h2, if_neg e, if_neg f, if_neg g, if_neg i, if_neg j, if_neg l, if_neg m,
    if_neg n, if_neg o, if_neg p]

/-- A key of an object that the unit always has. -/
theorem State.elemHere_of {s : State} {k : Nat} (h1 : ¬ (0x2512 ≤ k / 256 ∧ k / 256 ≤ 0x2518)) (h2 : ¬ (0x2520 ≤ k / 256 ∧ k / 256 ≤ 0x2529))
    (h3 : ¬ (0x2610 ≤ k / 256 ∧ k / 256 ≤ 0x2614)) (h4 : ¬ (0x2A10 ≤ k / 256 ∧ k / 256 ≤ 0x2A12)) : s.elemHere k = true := by
  simp only [State.elemHere, h1, h2, h3, h4, if_false]

theorem State.applyWrite_encEnable (t : State) (v : Nat) : t.applyWrite Key.ENC_ENABLE v = (t.setReg Key.ENC_ENABLE v).encConfig Key.ENC_ENABLE (t.reg Key.ENC_ENABLE) := by
  rw [State.applyWrite_plain (State.elemHere_of (by decide) (by decide) (by decide) (by decide)) (State.command_none (by decide) (by decide) (by decide)) (by decide) (by decide)]
  unfold State.objEffect State.posEffect State.schedEffect State.camEffect State.portEffect
  dsimp only
  iterate 16 (first | rw [if_neg (by decide)] | rw [if_pos (by decide)] | skip)

theorem State.applyWrite_ssiCommand (t : State) (v : Nat) : t.applyWrite Key.SSI_COMMAND v = (t.setReg Key.SSI_COMMAND v).ssiCommandWrite := by
  rw [State.applyWrite_plain (State.elemHere_of (by decide) (by decide) (by decide) (by decide)) (State.command_none (by decide) (by decide) (by decide)) (by decide) (by decide)]
  unfold State.objEffect State.posEffect State.schedEffect State.camEffect State.portEffect
  dsimp only
  iterate 16 (first | rw [if_neg (by decide)] | rw [if_pos (by decide)] | skip)

theorem State.applyWrite_posRole (t : State) (v : Nat) : t.applyWrite Key.POS_ROLE v = (t.setReg Key.POS_ROLE v).posRoleWrite := by
  rw [State.applyWrite_plain (State.elemHere_of (by decide) (by decide) (by decide) (by decide)) (State.command_none (by decide) (by decide) (by decide)) (by decide) (by decide)]
  unfold State.objEffect State.posEffect State.schedEffect State.camEffect State.portEffect
  dsimp only
  iterate 16 (first | rw [if_neg (by decide)] | rw [if_pos (by decide)] | skip)

theorem State.applyWrite_posPreset (t : State) (v : Nat) : t.applyWrite Key.POS_PRESET v = (t.setReg Key.POS_PRESET v).posPresetWrite := by
  rw [State.applyWrite_plain (State.elemHere_of (by decide) (by decide) (by decide) (by decide)) (State.command_none (by decide) (by decide) (by decide)) (by decide) (by decide)]
  unfold State.objEffect State.posEffect State.schedEffect State.camEffect State.portEffect
  dsimp only
  iterate 16 (first | rw [if_neg (by decide)] | rw [if_pos (by decide)] | skip)

theorem State.applyWrite_gridEnable (t : State) (v : Nat) : t.applyWrite Key.GRID_ENABLE v = (t.setReg Key.GRID_ENABLE v).gridEffect (t.reg Key.GRID_ENABLE) := by
  rw [State.applyWrite_plain (State.elemHere_of (by decide) (by decide) (by decide) (by decide)) (State.command_none (by decide) (by decide) (by decide)) (by decide) (by decide)]
  unfold State.objEffect State.posEffect State.schedEffect State.camEffect State.portEffect
  dsimp only
  iterate 16 (first | rw [if_neg (by decide)] | rw [if_pos (by decide)] | skip)

theorem State.applyWrite_sheetAt (t : State) (v : Nat) : t.applyWrite Key.SHEET_AT v = (t.setReg Key.SHEET_AT v).queueSheet ((t.setReg Key.SHEET_AT v).reg Key.SHEET_AT) := by
  rw [State.applyWrite_plain (State.elemHere_of (by decide) (by decide) (by decide) (by decide)) (State.command_none (by decide) (by decide) (by decide)) (by decide) (by decide)]
  unfold State.objEffect State.posEffect State.schedEffect State.camEffect State.portEffect
  dsimp only
  iterate 16 (first | rw [if_neg (by decide)] | rw [if_pos (by decide)] | skip)

theorem State.applyWrite_cmpCtrl (t : State) (v : Nat) (c : Fin 32) : t.applyWrite (Key.CMP_CTRL c) v = (t.setReg (Key.CMP_CTRL c) v).cmpCtrlWrite c (t.reg (Key.CMP_CTRL c)) := by
  have hb := c.isLt
  rw [State.applyWrite_plain (State.elemHere_of (by have hb := c.isLt; simp only [Key.CMP_CTRL]; omega) (by have hb := c.isLt; simp only [Key.CMP_CTRL]; omega) (by have hb := c.isLt; simp only [Key.CMP_CTRL]; omega) (by have hb := c.isLt; simp only [Key.CMP_CTRL]; omega)) (State.command_none (by have hb := c.isLt; simp only [Key.CMP_CTRL]; omega) (by have hb := c.isLt; simp only [Key.CMP_CTRL]; omega) (by fin_cases c <;> decide)) (by have hb := c.isLt; simp only [Key.CMP_CTRL]; omega) (by fin_cases c <;> rfl)]
  unfold State.objEffect State.posEffect State.schedEffect State.camEffect State.portEffect
  dsimp only
  iterate 16 (first | rw [if_neg (by simp only [Key.CMP_CTRL, Key.FIRE_ARM, Key.FIRE_DISARM, Key.DMA_HOST_FLAGS, Key.WORD_DATA, Key.FAULT_CLEAR, Key.FIRST_CLEAR, Key.HIST_CLEAR, Key.INJECT, Key.CALDERA_RESTART, Key.UPDATE_COMMAND, Key.LIFECYCLE_CMD, Key.KEY_COMMIT, Key.STICKY_ADDR, Key.POWER_REQ, Key.SSI_COMMAND, Key.SSI_MODULUS, Key.POS_ROLE, Key.POS_PRESET, Key.ENC_OUT_MODE, Key.GRID_ENABLE, Key.SHEET_AT, Key.SHEET_LINES, Key.LOOP_ENABLE, Key.BM_CONTROL, Key.TRACE_MODE, Key.TRACE_RESTART]; omega)] | rw [if_pos (by simp only [Key.CMP_CTRL, Key.FIRE_ARM, Key.FIRE_DISARM, Key.DMA_HOST_FLAGS, Key.WORD_DATA, Key.FAULT_CLEAR, Key.FIRST_CLEAR, Key.HIST_CLEAR, Key.INJECT, Key.CALDERA_RESTART, Key.UPDATE_COMMAND, Key.LIFECYCLE_CMD, Key.KEY_COMMIT, Key.STICKY_ADDR, Key.POWER_REQ, Key.SSI_COMMAND, Key.SSI_MODULUS, Key.POS_ROLE, Key.POS_PRESET, Key.ENC_OUT_MODE, Key.GRID_ENABLE, Key.SHEET_AT, Key.SHEET_LINES, Key.LOOP_ENABLE, Key.BM_CONTROL, Key.TRACE_MODE, Key.TRACE_RESTART]; omega)] | skip)
  rw [show Key.CMP_CTRL c / 256 - 0x2140 = c.val by simp only [Key.CMP_CTRL]; omega, show Key.CMP_CTRL c % 256 = 0 by simp only [Key.CMP_CTRL]; omega]
  rfl

theorem State.applyWrite_cmpTarget (t : State) (v : Nat) (c : Fin 32) : t.applyWrite (Key.CMP_TARGET c) v = (t.setReg (Key.CMP_TARGET c) v).cmpTargetWrite c := by
  have hb := c.isLt
  rw [State.applyWrite_plain (State.elemHere_of (by have hb := c.isLt; simp only [Key.CMP_TARGET]; omega) (by have hb := c.isLt; simp only [Key.CMP_TARGET]; omega) (by have hb := c.isLt; simp only [Key.CMP_TARGET]; omega) (by have hb := c.isLt; simp only [Key.CMP_TARGET]; omega)) (State.command_none (by have hb := c.isLt; simp only [Key.CMP_TARGET]; omega) (by have hb := c.isLt; simp only [Key.CMP_TARGET]; omega) (by fin_cases c <;> decide)) (by have hb := c.isLt; simp only [Key.CMP_TARGET]; omega) (by fin_cases c <;> rfl)]
  unfold State.objEffect State.posEffect State.schedEffect State.camEffect State.portEffect
  dsimp only
  iterate 16 (first | rw [if_neg (by simp only [Key.CMP_TARGET, Key.FIRE_ARM, Key.FIRE_DISARM, Key.DMA_HOST_FLAGS, Key.WORD_DATA, Key.FAULT_CLEAR, Key.FIRST_CLEAR, Key.HIST_CLEAR, Key.INJECT, Key.CALDERA_RESTART, Key.UPDATE_COMMAND, Key.LIFECYCLE_CMD, Key.KEY_COMMIT, Key.STICKY_ADDR, Key.POWER_REQ, Key.SSI_COMMAND, Key.SSI_MODULUS, Key.POS_ROLE, Key.POS_PRESET, Key.ENC_OUT_MODE, Key.GRID_ENABLE, Key.SHEET_AT, Key.SHEET_LINES, Key.LOOP_ENABLE, Key.BM_CONTROL, Key.TRACE_MODE, Key.TRACE_RESTART]; omega)] | rw [if_pos (by simp only [Key.CMP_TARGET, Key.FIRE_ARM, Key.FIRE_DISARM, Key.DMA_HOST_FLAGS, Key.WORD_DATA, Key.FAULT_CLEAR, Key.FIRST_CLEAR, Key.HIST_CLEAR, Key.INJECT, Key.CALDERA_RESTART, Key.UPDATE_COMMAND, Key.LIFECYCLE_CMD, Key.KEY_COMMIT, Key.STICKY_ADDR, Key.POWER_REQ, Key.SSI_COMMAND, Key.SSI_MODULUS, Key.POS_ROLE, Key.POS_PRESET, Key.ENC_OUT_MODE, Key.GRID_ENABLE, Key.SHEET_AT, Key.SHEET_LINES, Key.LOOP_ENABLE, Key.BM_CONTROL, Key.TRACE_MODE, Key.TRACE_RESTART]; omega)] | skip)
  rw [show Key.CMP_TARGET c / 256 - 0x2140 = c.val by simp only [Key.CMP_TARGET]; omega, show Key.CMP_TARGET c % 256 = 1 by simp only [Key.CMP_TARGET]; omega]
  rfl

theorem State.applyWrite_fireArm (t : State) (v : Nat) : t.applyWrite Key.FIRE_ARM v = t.armPorts v := by
  refine State.applyWrite_command (State.elemHere_of (by decide) (by decide) (by decide) (by decide)) ?_ (by decide) (by decide)
  unfold State.command
  dsimp only
  rw [if_pos (by decide)]

theorem State.applyWrite_fireDisarm (t : State) (v : Nat) : t.applyWrite Key.FIRE_DISARM v = (t.disarmPorts v).lastOfClock := by
  refine State.applyWrite_command (State.elemHere_of (by decide) (by decide) (by decide) (by decide)) ?_ (by decide) (by decide)
  unfold State.command
  dsimp only
  iterate 16 (first | rw [if_neg (by decide)] | skip)
  rw [if_pos (by decide)]

theorem State.applyWrite_calAbort (t : State) (v : Nat) (g : Fin 4) (h : g.val < t.nGroups) : t.applyWrite (Key.CAL_ABORT g) v = (if v = 1 then t.calAbortWrite g else t) := by
  have hb := g.isLt
  refine State.applyWrite_command (by
    unfold State.elemHere; dsimp only
    rw [if_pos (by simp only [Key.CAL_ABORT]; omega), show Key.CAL_ABORT g % 256 = g.val by simp only [Key.CAL_ABORT]; omega]; simpa using h) ?_ (by have hb := g.isLt; simp only [Key.CAL_ABORT]; omega) (by fin_cases g <;> rfl)
  unfold State.command
  dsimp only
  iterate 16 (first | rw [if_neg (by simp only [Key.CAL_ABORT, Key.FIRE_ARM, Key.FIRE_DISARM, Key.DMA_HOST_FLAGS, Key.WORD_DATA, Key.FAULT_CLEAR, Key.FIRST_CLEAR, Key.HIST_CLEAR, Key.INJECT, Key.CALDERA_RESTART, Key.UPDATE_COMMAND, Key.LIFECYCLE_CMD, Key.KEY_COMMIT, Key.STICKY_ADDR, Key.POWER_REQ, Key.SSI_COMMAND, Key.SSI_MODULUS, Key.POS_ROLE, Key.POS_PRESET, Key.ENC_OUT_MODE, Key.GRID_ENABLE, Key.SHEET_AT, Key.SHEET_LINES, Key.LOOP_ENABLE, Key.BM_CONTROL, Key.TRACE_MODE, Key.TRACE_RESTART]; omega)] | skip)
  rw [if_pos (by simp only [Key.CAL_ABORT, Key.FIRE_ARM, Key.FIRE_DISARM, Key.DMA_HOST_FLAGS, Key.WORD_DATA, Key.FAULT_CLEAR, Key.FIRST_CLEAR, Key.HIST_CLEAR, Key.INJECT, Key.CALDERA_RESTART, Key.UPDATE_COMMAND, Key.LIFECYCLE_CMD, Key.KEY_COMMIT, Key.STICKY_ADDR, Key.POWER_REQ, Key.SSI_COMMAND, Key.SSI_MODULUS, Key.POS_ROLE, Key.POS_PRESET, Key.ENC_OUT_MODE, Key.GRID_ENABLE, Key.SHEET_AT, Key.SHEET_LINES, Key.LOOP_ENABLE, Key.BM_CONTROL, Key.TRACE_MODE, Key.TRACE_RESTART]; omega)]
  rw [show Key.CAL_ABORT g % 256 = g.val by simp only [Key.CAL_ABORT]; omega]

theorem State.applyWrite_calRequest (t : State) (v : Nat) (c : Fin 68) (h : t.hasChannel c = true) : t.applyWrite (Key.CAL_REQUEST c) v = t.setReg (Key.CAL_REQUEST c) v := by
  have hb := c.isLt
  rw [State.applyWrite_plain (by
    unfold State.elemHere; dsimp only
    rw [if_neg (by simp only [Key.CAL_REQUEST]; omega), if_pos (by simp only [Key.CAL_REQUEST]; omega), show Key.CAL_REQUEST c % 256 = c.val by simp only [Key.CAL_REQUEST]; omega]; exact h) (State.command_none (by have hb := c.isLt; simp only [Key.CAL_REQUEST]; omega) (by have hb := c.isLt; simp only [Key.CAL_REQUEST]; omega) (by fin_cases c <;> decide)) (by have hb := c.isLt; simp only [Key.CAL_REQUEST]; omega) (by fin_cases c <;> rfl)]
  unfold State.objEffect State.posEffect State.schedEffect State.camEffect State.portEffect
  dsimp only
  iterate 16 (first | rw [if_neg (by simp only [Key.CAL_REQUEST, Key.FIRE_ARM, Key.FIRE_DISARM, Key.DMA_HOST_FLAGS, Key.WORD_DATA, Key.FAULT_CLEAR, Key.FIRST_CLEAR, Key.HIST_CLEAR, Key.INJECT, Key.CALDERA_RESTART, Key.UPDATE_COMMAND, Key.LIFECYCLE_CMD, Key.KEY_COMMIT, Key.STICKY_ADDR, Key.POWER_REQ, Key.SSI_COMMAND, Key.SSI_MODULUS, Key.POS_ROLE, Key.POS_PRESET, Key.ENC_OUT_MODE, Key.GRID_ENABLE, Key.SHEET_AT, Key.SHEET_LINES, Key.LOOP_ENABLE, Key.BM_CONTROL, Key.TRACE_MODE, Key.TRACE_RESTART]; omega)] | rw [if_pos (by simp only [Key.CAL_REQUEST, Key.FIRE_ARM, Key.FIRE_DISARM, Key.DMA_HOST_FLAGS, Key.WORD_DATA, Key.FAULT_CLEAR, Key.FIRST_CLEAR, Key.HIST_CLEAR, Key.INJECT, Key.CALDERA_RESTART, Key.UPDATE_COMMAND, Key.LIFECYCLE_CMD, Key.KEY_COMMIT, Key.STICKY_ADDR, Key.POWER_REQ, Key.SSI_COMMAND, Key.SSI_MODULUS, Key.POS_ROLE, Key.POS_PRESET, Key.ENC_OUT_MODE, Key.GRID_ENABLE, Key.SHEET_AT, Key.SHEET_LINES, Key.LOOP_ENABLE, Key.BM_CONTROL, Key.TRACE_MODE, Key.TRACE_RESTART]; omega)] | skip)

theorem State.applyWrite_camEnable (t : State) (v : Nat) (c : Fin 2) : t.applyWrite (Key.CAM_ENABLE c) v = (t.setReg (Key.CAM_ENABLE c) v).camEnableWrite c (t.reg (Key.CAM_ENABLE c)) := by
  have hb := c.isLt
  rw [State.applyWrite_plain (State.elemHere_of (by have hb := c.isLt; simp only [Key.CAM_ENABLE]; omega) (by have hb := c.isLt; simp only [Key.CAM_ENABLE]; omega) (by have hb := c.isLt; simp only [Key.CAM_ENABLE]; omega) (by have hb := c.isLt; simp only [Key.CAM_ENABLE]; omega)) (State.command_none (by have hb := c.isLt; simp only [Key.CAM_ENABLE]; omega) (by have hb := c.isLt; simp only [Key.CAM_ENABLE]; omega) (by fin_cases c <;> decide)) (by have hb := c.isLt; simp only [Key.CAM_ENABLE]; omega) (by fin_cases c <;> rfl)]
  fin_cases c <;> rfl

theorem State.applyWrite_i2cCmd (t : State) (v : Nat) (c : Fin 2) : t.applyWrite (Key.I2C_CMD c) v = (t.setReg (Key.I2C_CMD c) v).i2cStart c := by
  have hb := c.isLt
  rw [State.applyWrite_plain (State.elemHere_of (by have hb := c.isLt; simp only [Key.I2C_CMD]; omega) (by have hb := c.isLt; simp only [Key.I2C_CMD]; omega) (by have hb := c.isLt; simp only [Key.I2C_CMD]; omega) (by have hb := c.isLt; simp only [Key.I2C_CMD]; omega)) (State.command_none (by have hb := c.isLt; simp only [Key.I2C_CMD]; omega) (by have hb := c.isLt; simp only [Key.I2C_CMD]; omega) (by fin_cases c <;> decide)) (by have hb := c.isLt; simp only [Key.I2C_CMD]; omega) (by fin_cases c <;> rfl)]
  fin_cases c <;> rfl

theorem State.applyWrite_loopEnable (t : State) (v : Nat) : t.applyWrite Key.LOOP_ENABLE v = (t.setReg Key.LOOP_ENABLE v).loopEnableWrite := by
  rw [State.applyWrite_plain (State.elemHere_of (by decide) (by decide) (by decide) (by decide)) (State.command_none (by decide) (by decide) (by decide)) (by decide) (by decide)]
  unfold State.objEffect State.posEffect State.schedEffect State.camEffect State.portEffect
  dsimp only
  iterate 16 (first | rw [if_neg (by decide)] | rw [if_pos (by decide)] | skip)

theorem State.applyWrite_loopClear (t : State) (v : Nat) (p : Fin 16) : t.applyWrite (Key.LOOP_CLEAR p) v = (t.setReg (Key.LOOP_CLEAR p) v).loopClearWrite p (t.reg (Key.LOOP_CLEAR p)) := by
  have hb := p.isLt
  rw [State.applyWrite_plain (State.elemHere_of (by have hb := p.isLt; simp only [Key.LOOP_CLEAR]; omega) (by have hb := p.isLt; simp only [Key.LOOP_CLEAR]; omega) (by have hb := p.isLt; simp only [Key.LOOP_CLEAR]; omega) (by have hb := p.isLt; simp only [Key.LOOP_CLEAR]; omega)) (State.command_none (by have hb := p.isLt; simp only [Key.LOOP_CLEAR]; omega) (by have hb := p.isLt; simp only [Key.LOOP_CLEAR]; omega) (by fin_cases p <;> decide)) (by have hb := p.isLt; simp only [Key.LOOP_CLEAR]; omega) (by fin_cases p <;> rfl)]
  unfold State.objEffect State.posEffect State.schedEffect State.camEffect State.portEffect
  dsimp only
  iterate 16 (first | rw [if_neg (by simp only [Key.LOOP_CLEAR, Key.FIRE_ARM, Key.FIRE_DISARM, Key.DMA_HOST_FLAGS, Key.WORD_DATA, Key.FAULT_CLEAR, Key.FIRST_CLEAR, Key.HIST_CLEAR, Key.INJECT, Key.CALDERA_RESTART, Key.UPDATE_COMMAND, Key.LIFECYCLE_CMD, Key.KEY_COMMIT, Key.STICKY_ADDR, Key.POWER_REQ, Key.SSI_COMMAND, Key.SSI_MODULUS, Key.POS_ROLE, Key.POS_PRESET, Key.ENC_OUT_MODE, Key.GRID_ENABLE, Key.SHEET_AT, Key.SHEET_LINES, Key.LOOP_ENABLE, Key.BM_CONTROL, Key.TRACE_MODE, Key.TRACE_RESTART]; omega)] | rw [if_pos (by simp only [Key.LOOP_CLEAR, Key.FIRE_ARM, Key.FIRE_DISARM, Key.DMA_HOST_FLAGS, Key.WORD_DATA, Key.FAULT_CLEAR, Key.FIRST_CLEAR, Key.HIST_CLEAR, Key.INJECT, Key.CALDERA_RESTART, Key.UPDATE_COMMAND, Key.LIFECYCLE_CMD, Key.KEY_COMMIT, Key.STICKY_ADDR, Key.POWER_REQ, Key.SSI_COMMAND, Key.SSI_MODULUS, Key.POS_ROLE, Key.POS_PRESET, Key.ENC_OUT_MODE, Key.GRID_ENABLE, Key.SHEET_AT, Key.SHEET_LINES, Key.LOOP_ENABLE, Key.BM_CONTROL, Key.TRACE_MODE, Key.TRACE_RESTART]; omega)] | skip)
  rw [show (Key.LOOP_CLEAR p / 256 - 0x3000) / 16 = p.val by simp only [Key.LOOP_CLEAR]; omega, show Key.LOOP_CLEAR p / 256 % 16 = 10 by simp only [Key.LOOP_CLEAR]; omega, show Key.LOOP_CLEAR p % 256 = 8 by simp only [Key.LOOP_CLEAR]; omega]
  rfl

theorem State.applyWrite_bmControl (t : State) (v : Nat) : t.applyWrite Key.BM_CONTROL v = (t.setReg Key.BM_CONTROL v).bmRestart := by
  rw [State.applyWrite_plain (State.elemHere_of (by decide) (by decide) (by decide) (by decide)) (State.command_none (by decide) (by decide) (by decide)) (by decide) (by decide)]
  unfold State.objEffect State.posEffect State.schedEffect State.camEffect State.portEffect
  dsimp only
  iterate 16 (first | rw [if_neg (by decide)] | rw [if_pos (by decide)] | skip)

theorem State.applyWrite_chCmd (t : State) (v : Nat) (c : Fin 32) : t.applyWrite (Key.CH_CMD c) v = t.dmaCmd c v := by
  have hb := c.isLt
  refine State.applyWrite_command (State.elemHere_of (by have hb := c.isLt; simp only [Key.CH_CMD]; omega) (by have hb := c.isLt; simp only [Key.CH_CMD]; omega) (by have hb := c.isLt; simp only [Key.CH_CMD]; omega) (by have hb := c.isLt; simp only [Key.CH_CMD]; omega)) ?_ (by have hb := c.isLt; simp only [Key.CH_CMD]; omega) (by fin_cases c <;> rfl)
  unfold State.command
  dsimp only
  iterate 16 (first | rw [if_neg (by simp only [Key.CH_CMD, Key.FIRE_ARM, Key.FIRE_DISARM, Key.DMA_HOST_FLAGS, Key.WORD_DATA, Key.FAULT_CLEAR, Key.FIRST_CLEAR, Key.HIST_CLEAR, Key.INJECT, Key.CALDERA_RESTART, Key.UPDATE_COMMAND, Key.LIFECYCLE_CMD, Key.KEY_COMMIT, Key.STICKY_ADDR, Key.POWER_REQ, Key.SSI_COMMAND, Key.SSI_MODULUS, Key.POS_ROLE, Key.POS_PRESET, Key.ENC_OUT_MODE, Key.GRID_ENABLE, Key.SHEET_AT, Key.SHEET_LINES, Key.LOOP_ENABLE, Key.BM_CONTROL, Key.TRACE_MODE, Key.TRACE_RESTART]; omega)] | skip)
  rw [if_pos (by simp only [Key.CH_CMD, Key.FIRE_ARM, Key.FIRE_DISARM, Key.DMA_HOST_FLAGS, Key.WORD_DATA, Key.FAULT_CLEAR, Key.FIRST_CLEAR, Key.HIST_CLEAR, Key.INJECT, Key.CALDERA_RESTART, Key.UPDATE_COMMAND, Key.LIFECYCLE_CMD, Key.KEY_COMMIT, Key.STICKY_ADDR, Key.POWER_REQ, Key.SSI_COMMAND, Key.SSI_MODULUS, Key.POS_ROLE, Key.POS_PRESET, Key.ENC_OUT_MODE, Key.GRID_ENABLE, Key.SHEET_AT, Key.SHEET_LINES, Key.LOOP_ENABLE, Key.BM_CONTROL, Key.TRACE_MODE, Key.TRACE_RESTART]; omega)]
  rw [show Key.CH_CMD c / 256 - 0x2910 = c.val by simp only [Key.CH_CMD]; omega]

theorem State.applyWrite_wordData (t : State) (v : Nat) : t.applyWrite Key.WORD_DATA v = t.wordWrite v := by
  refine State.applyWrite_command (State.elemHere_of (by decide) (by decide) (by decide) (by decide)) ?_ (by decide) (by decide)
  unfold State.command
  dsimp only
  iterate 16 (first | rw [if_neg (by decide)] | skip)
  rw [if_pos (by decide)]

theorem State.applyWrite_faultClear (t : State) (v : Nat) : t.applyWrite Key.FAULT_CLEAR v = t.faultClear v := by
  refine State.applyWrite_command (State.elemHere_of (by decide) (by decide) (by decide) (by decide)) ?_ (by decide) (by decide)
  unfold State.command
  dsimp only
  iterate 16 (first | rw [if_neg (by decide)] | skip)
  rw [if_pos (by decide)]

theorem State.applyWrite_firstClear (t : State) (v : Nat) : t.applyWrite Key.FIRST_CLEAR v = (if v = 1 then t.firstClear else t) := by
  refine State.applyWrite_command (State.elemHere_of (by decide) (by decide) (by decide) (by decide)) ?_ (by decide) (by decide)
  unfold State.command
  dsimp only
  iterate 16 (first | rw [if_neg (by decide)] | skip)
  rw [if_pos (by decide)]

theorem State.applyWrite_histClear (t : State) (v : Nat) : t.applyWrite Key.HIST_CLEAR v = (if v = 1 then t.histClear else t) := by
  refine State.applyWrite_command (State.elemHere_of (by decide) (by decide) (by decide) (by decide)) ?_ (by decide) (by decide)
  unfold State.command
  dsimp only
  iterate 16 (first | rw [if_neg (by decide)] | skip)
  rw [if_pos (by decide)]

theorem State.applyWrite_inject (t : State) (v : Nat) : t.applyWrite Key.INJECT v = t.injectArm v := by
  refine State.applyWrite_command (State.elemHere_of (by decide) (by decide) (by decide) (by decide)) ?_ (by decide) (by decide)
  unfold State.command
  dsimp only
  iterate 16 (first | rw [if_neg (by decide)] | skip)
  rw [if_pos (by decide)]

theorem State.applyWrite_calderaRestart (t : State) (v : Nat) : t.applyWrite Key.CALDERA_RESTART v = (t.updMgmt fun m => { m with hostAt := some t.clk }).restartNow (if t.mgmt.wdtAt = some t.clk then 2 else 4) := by
  refine State.applyWrite_command (State.elemHere_of (by decide) (by decide) (by decide) (by decide)) ?_ (by decide) (by decide)
  unfold State.command
  dsimp only
  iterate 16 (first | rw [if_neg (by decide)] | skip)
  rw [if_pos (by decide)]

theorem State.applyWrite_logWindowSeq (t : State) (v : Nat) : t.applyWrite Key.LOG_WINDOW_SEQ v = t.setReg Key.LOG_WINDOW_SEQ v := by
  rw [State.applyWrite_plain (State.elemHere_of (by decide) (by decide) (by decide) (by decide)) (State.command_none (by decide) (by decide) (by decide)) (by decide) (by decide)]
  unfold State.objEffect State.posEffect State.schedEffect State.camEffect State.portEffect
  dsimp only
  iterate 16 (first | rw [if_neg (by decide)] | rw [if_pos (by decide)] | skip)

theorem State.applyWrite_updateCommand (t : State) (v : Nat) : t.applyWrite Key.UPDATE_COMMAND v = (match v with | 1 => t.updateInstall | 2 => t.updateActivate | 3 => t.updateConfirm | _ => t.updateAbort) := by
  refine State.applyWrite_command (State.elemHere_of (by decide) (by decide) (by decide) (by decide)) ?_ (by decide) (by decide)
  unfold State.command
  dsimp only
  iterate 16 (first | rw [if_neg (by decide)] | skip)
  rw [if_pos (by decide)]
  all_goals rfl

theorem State.applyWrite_lifecycleCmd (t : State) (v : Nat) : t.applyWrite Key.LIFECYCLE_CMD v = (if v = 1 then t.lifeTo (t.reg Key.LIFECYCLE + 1) else t.retire) := by
  refine State.applyWrite_command (State.elemHere_of (by decide) (by decide) (by decide) (by decide)) ?_ (by decide) (by decide)
  unfold State.command
  dsimp only
  iterate 16 (first | rw [if_neg (by decide)] | skip)
  rw [if_pos (by decide)]

theorem State.applyWrite_keyCommit (t : State) (v : Nat) : t.applyWrite Key.KEY_COMMIT v = t.keyInstall := by
  refine State.applyWrite_command (State.elemHere_of (by decide) (by decide) (by decide) (by decide)) ?_ (by decide) (by decide)
  unfold State.command
  dsimp only
  iterate 16 (first | rw [if_neg (by decide)] | skip)
  rw [if_pos (by decide)]

theorem State.applyWrite_powerReq (t : State) (v : Nat) : t.applyWrite Key.POWER_REQ v = t.powerReqWrite v := by
  refine State.applyWrite_command (State.elemHere_of (by decide) (by decide) (by decide) (by decide)) ?_ (by decide) (by decide)
  unfold State.command
  dsimp only
  iterate 16 (first | rw [if_neg (by decide)] | skip)
  rw [if_pos (by decide)]

theorem State.applyWrite_traceMode (t : State) (v : Nat) : t.applyWrite Key.TRACE_MODE v = (t.setReg Key.TRACE_MODE v).traceModeWrite (t.reg Key.TRACE_MODE) := by
  rw [State.applyWrite_plain (State.elemHere_of (by decide) (by decide) (by decide) (by decide)) (State.command_none (by decide) (by decide) (by decide)) (by decide) (by decide)]
  unfold State.objEffect State.posEffect State.schedEffect State.camEffect State.portEffect
  dsimp only
  iterate 16 (first | rw [if_neg (by decide)] | rw [if_pos (by decide)] | skip)

theorem State.applyWrite_traceRestart (t : State) (v : Nat) : t.applyWrite Key.TRACE_RESTART v = (if (t.setReg Key.TRACE_RESTART v).flag Key.TRACE_RESTART then (t.setReg Key.TRACE_RESTART v).traceRestart else t.setReg Key.TRACE_RESTART v) := by
  rw [State.applyWrite_plain (State.elemHere_of (by decide) (by decide) (by decide) (by decide)) (State.command_none (by decide) (by decide) (by decide)) (by decide) (by decide)]
  unfold State.objEffect State.posEffect State.schedEffect State.camEffect State.portEffect
  dsimp only
  iterate 16 (first | rw [if_neg (by decide)] | rw [if_pos (by decide)] | skip)

theorem State.applyWrite_pmcSel (t : State) (v : Nat) (k : Fin 16) : t.applyWrite (Key.PMC_SEL k) v = (t.setReg (Key.PMC_SEL k) v).pmcSelWrite k := by
  have hb := k.isLt
  rw [State.applyWrite_plain (State.elemHere_of (by have hb := k.isLt; simp only [Key.PMC_SEL]; omega) (by have hb := k.isLt; simp only [Key.PMC_SEL]; omega) (by have hb := k.isLt; simp only [Key.PMC_SEL]; omega) (by have hb := k.isLt; simp only [Key.PMC_SEL]; omega)) (State.command_none (by have hb := k.isLt; simp only [Key.PMC_SEL]; omega) (by have hb := k.isLt; simp only [Key.PMC_SEL]; omega) (by fin_cases k <;> decide)) (by have hb := k.isLt; simp only [Key.PMC_SEL]; omega) (by fin_cases k <;> rfl)]
  unfold State.objEffect State.posEffect State.schedEffect State.camEffect State.portEffect
  dsimp only
  iterate 16 (first | rw [if_neg (by simp only [Key.PMC_SEL, Key.FIRE_ARM, Key.FIRE_DISARM, Key.DMA_HOST_FLAGS, Key.WORD_DATA, Key.FAULT_CLEAR, Key.FIRST_CLEAR, Key.HIST_CLEAR, Key.INJECT, Key.CALDERA_RESTART, Key.UPDATE_COMMAND, Key.LIFECYCLE_CMD, Key.KEY_COMMIT, Key.STICKY_ADDR, Key.POWER_REQ, Key.SSI_COMMAND, Key.SSI_MODULUS, Key.POS_ROLE, Key.POS_PRESET, Key.ENC_OUT_MODE, Key.GRID_ENABLE, Key.SHEET_AT, Key.SHEET_LINES, Key.LOOP_ENABLE, Key.BM_CONTROL, Key.TRACE_MODE, Key.TRACE_RESTART]; omega)] | rw [if_pos (by simp only [Key.PMC_SEL, Key.FIRE_ARM, Key.FIRE_DISARM, Key.DMA_HOST_FLAGS, Key.WORD_DATA, Key.FAULT_CLEAR, Key.FIRST_CLEAR, Key.HIST_CLEAR, Key.INJECT, Key.CALDERA_RESTART, Key.UPDATE_COMMAND, Key.LIFECYCLE_CMD, Key.KEY_COMMIT, Key.STICKY_ADDR, Key.POWER_REQ, Key.SSI_COMMAND, Key.SSI_MODULUS, Key.POS_ROLE, Key.POS_PRESET, Key.ENC_OUT_MODE, Key.GRID_ENABLE, Key.SHEET_AT, Key.SHEET_LINES, Key.LOOP_ENABLE, Key.BM_CONTROL, Key.TRACE_MODE, Key.TRACE_RESTART]; omega)] | skip)
  rw [show Key.PMC_SEL k % 256 = k.val by simp only [Key.PMC_SEL]; omega]

end Sys2Proof.Machine
end

