-- ==== Sys2Proof/Laws/State.lean ====
section
/-! SUPPORT. What each update of the state does to each field, and what each record reads after an update of another: all true by
unfolding, so that no proof unfolds a record update. -/

namespace Sys2Proof.Machine

variable (s : State)

/-! `setReg` -/

@[simp] theorem State.setReg_pending (k v : Nat) : (s.setReg k v).pending = s.pending := rfl
@[simp] theorem State.setReg_ident (k v : Nat) : (s.setReg k v).ident = s.ident := rfl
@[simp] theorem State.setReg_clk (k v : Nat) : (s.setReg k v).clk = s.clk := rfl
@[simp] theorem State.setReg_free (k v : Nat) : (s.setReg k v).free = s.free := rfl
@[simp] theorem State.setReg_freeT (k v : Nat) : (s.setReg k v).freeT = s.freeT := rfl
@[simp] theorem State.setReg_out (k v : Nat) : (s.setReg k v).out = s.out := rfl
@[simp] theorem State.setReg_regs (k v : Nat) : (s.setReg k v).regs = Map.put regDefault s.regs k (BitVec.ofNat 72 (v % 2 ^ keyWidth k)) := rfl
@[simp] theorem State.setReg_tabs (k v : Nat) : (s.setReg k v).tabs = s.tabs := rfl
@[simp] theorem State.setReg_link (k v : Nat) : (s.setReg k v).link = s.link := rfl
@[simp] theorem State.setReg_banks (k v : Nat) : (s.setReg k v).banks = s.banks := rfl
@[simp] theorem State.setReg_recv (k v : Nat) : (s.setReg k v).recv = s.recv := rfl
@[simp] theorem State.setReg_pos (k v : Nat) : (s.setReg k v).pos = s.pos := rfl
@[simp] theorem State.setReg_dict (k v : Nat) : (s.setReg k v).dict = s.dict := rfl
@[simp] theorem State.setReg_faults (k v : Nat) : (s.setReg k v).faults = s.faults := rfl
@[simp] theorem State.setReg_grid (k v : Nat) : (s.setReg k v).grid = s.grid := rfl
@[simp] theorem State.setReg_cmps (k v : Nat) : (s.setReg k v).cmps = s.cmps := rfl
@[simp] theorem State.setReg_gpo (k v : Nat) : (s.setReg k v).gpo = s.gpo := rfl
@[simp] theorem State.setReg_camTrig (k v : Nat) : (s.setReg k v).camTrig = s.camTrig := rfl
@[simp] theorem State.setReg_ingress (k v : Nat) : (s.setReg k v).ingress = s.ingress := rfl
@[simp] theorem State.setReg_ports (k v : Nat) : (s.setReg k v).ports = s.ports := rfl
@[simp] theorem State.setReg_cals (k v : Nat) : (s.setReg k v).cals = s.cals := rfl
@[simp] theorem State.setReg_chans (k v : Nat) : (s.setReg k v).chans = s.chans := rfl
@[simp] theorem State.setReg_therm (k v : Nat) : (s.setReg k v).therm = s.therm := rfl
@[simp] theorem State.setReg_cams (k v : Nat) : (s.setReg k v).cams = s.cams := rfl
@[simp] theorem State.setReg_pipe (k v : Nat) : (s.setReg k v).pipe = s.pipe := rfl
@[simp] theorem State.setReg_loop (k v : Nat) : (s.setReg k v).loop = s.loop := rfl
@[simp] theorem State.setReg_mem (k v : Nat) : (s.setReg k v).mem = s.mem := rfl
@[simp] theorem State.setReg_dma (k v : Nat) : (s.setReg k v).dma = s.dma := rfl
@[simp] theorem State.setReg_trace (k v : Nat) : (s.setReg k v).trace = s.trace := rfl
@[simp] theorem State.setReg_otp (k v : Nat) : (s.setReg k v).otp = s.otp := rfl
@[simp] theorem State.setReg_otp2 (k v : Nat) : (s.setReg k v).otp2 = s.otp2 := rfl
@[simp] theorem State.setReg_nor (k v : Nat) : (s.setReg k v).nor = s.nor := rfl
@[simp] theorem State.setReg_mgmt (k v : Nat) : (s.setReg k v).mgmt = s.mgmt := rfl
@[simp] theorem State.setReg_tap (k v : Nat) : (s.setReg k v).tap = s.tap := rfl
@[simp] theorem State.setReg_power (k v : Nat) : (s.setReg k v).power = s.power := rfl
@[simp] theorem State.setReg_boot (k v : Nat) : (s.setReg k v).boot = s.boot := rfl

/-! `setRegI` -/

@[simp] theorem State.setRegI_pending (k : Nat) (v : Int) : (s.setRegI k v).pending = s.pending := rfl
@[simp] theorem State.setRegI_ident (k : Nat) (v : Int) : (s.setRegI k v).ident = s.ident := rfl
@[simp] theorem State.setRegI_clk (k : Nat) (v : Int) : (s.setRegI k v).clk = s.clk := rfl
@[simp] theorem State.setRegI_free (k : Nat) (v : Int) : (s.setRegI k v).free = s.free := rfl
@[simp] theorem State.setRegI_freeT (k : Nat) (v : Int) : (s.setRegI k v).freeT = s.freeT := rfl
@[simp] theorem State.setRegI_out (k : Nat) (v : Int) : (s.setRegI k v).out = s.out := rfl
@[simp] theorem State.setRegI_tabs (k : Nat) (v : Int) : (s.setRegI k v).tabs = s.tabs := rfl
@[simp] theorem State.setRegI_link (k : Nat) (v : Int) : (s.setRegI k v).link = s.link := rfl
@[simp] theorem State.setRegI_banks (k : Nat) (v : Int) : (s.setRegI k v).banks = s.banks := rfl
@[simp] theorem State.setRegI_recv (k : Nat) (v : Int) : (s.setRegI k v).recv = s.recv := rfl
@[simp] theorem State.setRegI_pos (k : Nat) (v : Int) : (s.setRegI k v).pos = s.pos := rfl
@[simp] theorem State.setRegI_dict (k : Nat) (v : Int) : (s.setRegI k v).dict = s.dict := rfl
@[simp] theorem State.setRegI_faults (k : Nat) (v : Int) : (s.setRegI k v).faults = s.faults := rfl
@[simp] theorem State.setRegI_grid (k : Nat) (v : Int) : (s.setRegI k v).grid = s.grid := rfl
@[simp] theorem State.setRegI_cmps (k : Nat) (v : Int) : (s.setRegI k v).cmps = s.cmps := rfl
@[simp] theorem State.setRegI_gpo (k : Nat) (v : Int) : (s.setRegI k v).gpo = s.gpo := rfl
@[simp] theorem State.setRegI_camTrig (k : Nat) (v : Int) : (s.setRegI k v).camTrig = s.camTrig := rfl
@[simp] theorem State.setRegI_ingress (k : Nat) (v : Int) : (s.setRegI k v).ingress = s.ingress := rfl
@[simp] theorem State.setRegI_ports (k : Nat) (v : Int) : (s.setRegI k v).ports = s.ports := rfl
@[simp] theorem State.setRegI_cals (k : Nat) (v : Int) : (s.setRegI k v).cals = s.cals := rfl
@[simp] theorem State.setRegI_chans (k : Nat) (v : Int) : (s.setRegI k v).chans = s.chans := rfl
@[simp] theorem State.setRegI_therm (k : Nat) (v : Int) : (s.setRegI k v).therm = s.therm := rfl
@[simp] theorem State.setRegI_cams (k : Nat) (v : Int) : (s.setRegI k v).cams = s.cams := rfl
@[simp] theorem State.setRegI_pipe (k : Nat) (v : Int) : (s.setRegI k v).pipe = s.pipe := rfl
@[simp] theorem State.setRegI_loop (k : Nat) (v : Int) : (s.setRegI k v).loop = s.loop := rfl
@[simp] theorem State.setRegI_mem (k : Nat) (v : Int) : (s.setRegI k v).mem = s.mem := rfl
@[simp] theorem State.setRegI_dma (k : Nat) (v : Int) : (s.setRegI k v).dma = s.dma := rfl
@[simp] theorem State.setRegI_trace (k : Nat) (v : Int) : (s.setRegI k v).trace = s.trace := rfl
@[simp] theorem State.setRegI_otp (k : Nat) (v : Int) : (s.setRegI k v).otp = s.otp := rfl
@[simp] theorem State.setRegI_otp2 (k : Nat) (v : Int) : (s.setRegI k v).otp2 = s.otp2 := rfl
@[simp] theorem State.setRegI_nor (k : Nat) (v : Int) : (s.setRegI k v).nor = s.nor := rfl
@[simp] theorem State.setRegI_mgmt (k : Nat) (v : Int) : (s.setRegI k v).mgmt = s.mgmt := rfl
@[simp] theorem State.setRegI_tap (k : Nat) (v : Int) : (s.setRegI k v).tap = s.tap := rfl
@[simp] theorem State.setRegI_power (k : Nat) (v : Int) : (s.setRegI k v).power = s.power := rfl
@[simp] theorem State.setRegI_boot (k : Nat) (v : Int) : (s.setRegI k v).boot = s.boot := rfl

/-! `addReg` -/

@[simp] theorem State.addReg_pending (k n : Nat) : (s.addReg k n).pending = s.pending := rfl
@[simp] theorem State.addReg_ident (k n : Nat) : (s.addReg k n).ident = s.ident := rfl
@[simp] theorem State.addReg_clk (k n : Nat) : (s.addReg k n).clk = s.clk := rfl
@[simp] theorem State.addReg_free (k n : Nat) : (s.addReg k n).free = s.free := rfl
@[simp] theorem State.addReg_freeT (k n : Nat) : (s.addReg k n).freeT = s.freeT := rfl
@[simp] theorem State.addReg_out (k n : Nat) : (s.addReg k n).out = s.out := rfl
@[simp] theorem State.addReg_tabs (k n : Nat) : (s.addReg k n).tabs = s.tabs := rfl
@[simp] theorem State.addReg_link (k n : Nat) : (s.addReg k n).link = s.link := rfl
@[simp] theorem State.addReg_banks (k n : Nat) : (s.addReg k n).banks = s.banks := rfl
@[simp] theorem State.addReg_recv (k n : Nat) : (s.addReg k n).recv = s.recv := rfl
@[simp] theorem State.addReg_pos (k n : Nat) : (s.addReg k n).pos = s.pos := rfl
@[simp] theorem State.addReg_dict (k n : Nat) : (s.addReg k n).dict = s.dict := rfl
@[simp] theorem State.addReg_faults (k n : Nat) : (s.addReg k n).faults = s.faults := rfl
@[simp] theorem State.addReg_grid (k n : Nat) : (s.addReg k n).grid = s.grid := rfl
@[simp] theorem State.addReg_cmps (k n : Nat) : (s.addReg k n).cmps = s.cmps := rfl
@[simp] theorem State.addReg_gpo (k n : Nat) : (s.addReg k n).gpo = s.gpo := rfl
@[simp] theorem State.addReg_camTrig (k n : Nat) : (s.addReg k n).camTrig = s.camTrig := rfl
@[simp] theorem State.addReg_ingress (k n : Nat) : (s.addReg k n).ingress = s.ingress := rfl
@[simp] theorem State.addReg_ports (k n : Nat) : (s.addReg k n).ports = s.ports := rfl
@[simp] theorem State.addReg_cals (k n : Nat) : (s.addReg k n).cals = s.cals := rfl
@[simp] theorem State.addReg_chans (k n : Nat) : (s.addReg k n).chans = s.chans := rfl
@[simp] theorem State.addReg_therm (k n : Nat) : (s.addReg k n).therm = s.therm := rfl
@[simp] theorem State.addReg_cams (k n : Nat) : (s.addReg k n).cams = s.cams := rfl
@[simp] theorem State.addReg_pipe (k n : Nat) : (s.addReg k n).pipe = s.pipe := rfl
@[simp] theorem State.addReg_loop (k n : Nat) : (s.addReg k n).loop = s.loop := rfl
@[simp] theorem State.addReg_mem (k n : Nat) : (s.addReg k n).mem = s.mem := rfl
@[simp] theorem State.addReg_dma (k n : Nat) : (s.addReg k n).dma = s.dma := rfl
@[simp] theorem State.addReg_trace (k n : Nat) : (s.addReg k n).trace = s.trace := rfl
@[simp] theorem State.addReg_otp (k n : Nat) : (s.addReg k n).otp = s.otp := rfl
@[simp] theorem State.addReg_otp2 (k n : Nat) : (s.addReg k n).otp2 = s.otp2 := rfl
@[simp] theorem State.addReg_nor (k n : Nat) : (s.addReg k n).nor = s.nor := rfl
@[simp] theorem State.addReg_mgmt (k n : Nat) : (s.addReg k n).mgmt = s.mgmt := rfl
@[simp] theorem State.addReg_tap (k n : Nat) : (s.addReg k n).tap = s.tap := rfl
@[simp] theorem State.addReg_power (k n : Nat) : (s.addReg k n).power = s.power := rfl
@[simp] theorem State.addReg_boot (k n : Nat) : (s.addReg k n).boot = s.boot := rfl

/-! `inc` -/

@[simp] theorem State.inc_pending (k : Nat) : (s.inc k).pending = s.pending := rfl
@[simp] theorem State.inc_ident (k : Nat) : (s.inc k).ident = s.ident := rfl
@[simp] theorem State.inc_clk (k : Nat) : (s.inc k).clk = s.clk := rfl
@[simp] theorem State.inc_free (k : Nat) : (s.inc k).free = s.free := rfl
@[simp] theorem State.inc_freeT (k : Nat) : (s.inc k).freeT = s.freeT := rfl
@[simp] theorem State.inc_out (k : Nat) : (s.inc k).out = s.out := rfl
@[simp] theorem State.inc_tabs (k : Nat) : (s.inc k).tabs = s.tabs := rfl
@[simp] theorem State.inc_link (k : Nat) : (s.inc k).link = s.link := rfl
@[simp] theorem State.inc_banks (k : Nat) : (s.inc k).banks = s.banks := rfl
@[simp] theorem State.inc_recv (k : Nat) : (s.inc k).recv = s.recv := rfl
@[simp] theorem State.inc_pos (k : Nat) : (s.inc k).pos = s.pos := rfl
@[simp] theorem State.inc_dict (k : Nat) : (s.inc k).dict = s.dict := rfl
@[simp] theorem State.inc_faults (k : Nat) : (s.inc k).faults = s.faults := rfl
@[simp] theorem State.inc_grid (k : Nat) : (s.inc k).grid = s.grid := rfl
@[simp] theorem State.inc_cmps (k : Nat) : (s.inc k).cmps = s.cmps := rfl
@[simp] theorem State.inc_gpo (k : Nat) : (s.inc k).gpo = s.gpo := rfl
@[simp] theorem State.inc_camTrig (k : Nat) : (s.inc k).camTrig = s.camTrig := rfl
@[simp] theorem State.inc_ingress (k : Nat) : (s.inc k).ingress = s.ingress := rfl
@[simp] theorem State.inc_ports (k : Nat) : (s.inc k).ports = s.ports := rfl
@[simp] theorem State.inc_cals (k : Nat) : (s.inc k).cals = s.cals := rfl
@[simp] theorem State.inc_chans (k : Nat) : (s.inc k).chans = s.chans := rfl
@[simp] theorem State.inc_therm (k : Nat) : (s.inc k).therm = s.therm := rfl
@[simp] theorem State.inc_cams (k : Nat) : (s.inc k).cams = s.cams := rfl
@[simp] theorem State.inc_pipe (k : Nat) : (s.inc k).pipe = s.pipe := rfl
@[simp] theorem State.inc_loop (k : Nat) : (s.inc k).loop = s.loop := rfl
@[simp] theorem State.inc_mem (k : Nat) : (s.inc k).mem = s.mem := rfl
@[simp] theorem State.inc_dma (k : Nat) : (s.inc k).dma = s.dma := rfl
@[simp] theorem State.inc_trace (k : Nat) : (s.inc k).trace = s.trace := rfl
@[simp] theorem State.inc_otp (k : Nat) : (s.inc k).otp = s.otp := rfl
@[simp] theorem State.inc_otp2 (k : Nat) : (s.inc k).otp2 = s.otp2 := rfl
@[simp] theorem State.inc_nor (k : Nat) : (s.inc k).nor = s.nor := rfl
@[simp] theorem State.inc_mgmt (k : Nat) : (s.inc k).mgmt = s.mgmt := rfl
@[simp] theorem State.inc_tap (k : Nat) : (s.inc k).tap = s.tap := rfl
@[simp] theorem State.inc_power (k : Nat) : (s.inc k).power = s.power := rfl
@[simp] theorem State.inc_boot (k : Nat) : (s.inc k).boot = s.boot := rfl

/-! `setRegBit` -/

@[simp] theorem State.setRegBit_pending (k i : Nat) (b : Bool) : (s.setRegBit k i b).pending = s.pending := rfl
@[simp] theorem State.setRegBit_ident (k i : Nat) (b : Bool) : (s.setRegBit k i b).ident = s.ident := rfl
@[simp] theorem State.setRegBit_clk (k i : Nat) (b : Bool) : (s.setRegBit k i b).clk = s.clk := rfl
@[simp] theorem State.setRegBit_free (k i : Nat) (b : Bool) : (s.setRegBit k i b).free = s.free := rfl
@[simp] theorem State.setRegBit_freeT (k i : Nat) (b : Bool) : (s.setRegBit k i b).freeT = s.freeT := rfl
@[simp] theorem State.setRegBit_out (k i : Nat) (b : Bool) : (s.setRegBit k i b).out = s.out := rfl
@[simp] theorem State.setRegBit_tabs (k i : Nat) (b : Bool) : (s.setRegBit k i b).tabs = s.tabs := rfl
@[simp] theorem State.setRegBit_link (k i : Nat) (b : Bool) : (s.setRegBit k i b).link = s.link := rfl
@[simp] theorem State.setRegBit_banks (k i : Nat) (b : Bool) : (s.setRegBit k i b).banks = s.banks := rfl
@[simp] theorem State.setRegBit_recv (k i : Nat) (b : Bool) : (s.setRegBit k i b).recv = s.recv := rfl
@[simp] theorem State.setRegBit_pos (k i : Nat) (b : Bool) : (s.setRegBit k i b).pos = s.pos := rfl
@[simp] theorem State.setRegBit_dict (k i : Nat) (b : Bool) : (s.setRegBit k i b).dict = s.dict := rfl
@[simp] theorem State.setRegBit_faults (k i : Nat) (b : Bool) : (s.setRegBit k i b).faults = s.faults := rfl
@[simp] theorem State.setRegBit_grid (k i : Nat) (b : Bool) : (s.setRegBit k i b).grid = s.grid := rfl
@[simp] theorem State.setRegBit_cmps (k i : Nat) (b : Bool) : (s.setRegBit k i b).cmps = s.cmps := rfl
@[simp] theorem State.setRegBit_gpo (k i : Nat) (b : Bool) : (s.setRegBit k i b).gpo = s.gpo := rfl
@[simp] theorem State.setRegBit_camTrig (k i : Nat) (b : Bool) : (s.setRegBit k i b).camTrig = s.camTrig := rfl
@[simp] theorem State.setRegBit_ingress (k i : Nat) (b : Bool) : (s.setRegBit k i b).ingress = s.ingress := rfl
@[simp] theorem State.setRegBit_ports (k i : Nat) (b : Bool) : (s.setRegBit k i b).ports = s.ports := rfl
@[simp] theorem State.setRegBit_cals (k i : Nat) (b : Bool) : (s.setRegBit k i b).cals = s.cals := rfl
@[simp] theorem State.setRegBit_chans (k i : Nat) (b : Bool) : (s.setRegBit k i b).chans = s.chans := rfl
@[simp] theorem State.setRegBit_therm (k i : Nat) (b : Bool) : (s.setRegBit k i b).therm = s.therm := rfl
@[simp] theorem State.setRegBit_cams (k i : Nat) (b : Bool) : (s.setRegBit k i b).cams = s.cams := rfl
@[simp] theorem State.setRegBit_pipe (k i : Nat) (b : Bool) : (s.setRegBit k i b).pipe = s.pipe := rfl
@[simp] theorem State.setRegBit_loop (k i : Nat) (b : Bool) : (s.setRegBit k i b).loop = s.loop := rfl
@[simp] theorem State.setRegBit_mem (k i : Nat) (b : Bool) : (s.setRegBit k i b).mem = s.mem := rfl
@[simp] theorem State.setRegBit_dma (k i : Nat) (b : Bool) : (s.setRegBit k i b).dma = s.dma := rfl
@[simp] theorem State.setRegBit_trace (k i : Nat) (b : Bool) : (s.setRegBit k i b).trace = s.trace := rfl
@[simp] theorem State.setRegBit_otp (k i : Nat) (b : Bool) : (s.setRegBit k i b).otp = s.otp := rfl
@[simp] theorem State.setRegBit_otp2 (k i : Nat) (b : Bool) : (s.setRegBit k i b).otp2 = s.otp2 := rfl
@[simp] theorem State.setRegBit_nor (k i : Nat) (b : Bool) : (s.setRegBit k i b).nor = s.nor := rfl
@[simp] theorem State.setRegBit_mgmt (k i : Nat) (b : Bool) : (s.setRegBit k i b).mgmt = s.mgmt := rfl
@[simp] theorem State.setRegBit_tap (k i : Nat) (b : Bool) : (s.setRegBit k i b).tap = s.tap := rfl
@[simp] theorem State.setRegBit_power (k i : Nat) (b : Bool) : (s.setRegBit k i b).power = s.power := rfl
@[simp] theorem State.setRegBit_boot (k i : Nat) (b : Bool) : (s.setRegBit k i b).boot = s.boot := rfl

/-! `emit` -/

@[simp] theorem State.emit_pending (o : Out) : (s.emit o).pending = s.pending := rfl
@[simp] theorem State.emit_ident (o : Out) : (s.emit o).ident = s.ident := rfl
@[simp] theorem State.emit_clk (o : Out) : (s.emit o).clk = s.clk := rfl
@[simp] theorem State.emit_free (o : Out) : (s.emit o).free = s.free := rfl
@[simp] theorem State.emit_freeT (o : Out) : (s.emit o).freeT = s.freeT := rfl
@[simp] theorem State.emit_out (o : Out) : (s.emit o).out = o :: s.out := rfl
@[simp] theorem State.emit_regs (o : Out) : (s.emit o).regs = s.regs := rfl
@[simp] theorem State.emit_tabs (o : Out) : (s.emit o).tabs = s.tabs := rfl
@[simp] theorem State.emit_link (o : Out) : (s.emit o).link = s.link := rfl
@[simp] theorem State.emit_banks (o : Out) : (s.emit o).banks = s.banks := rfl
@[simp] theorem State.emit_recv (o : Out) : (s.emit o).recv = s.recv := rfl
@[simp] theorem State.emit_pos (o : Out) : (s.emit o).pos = s.pos := rfl
@[simp] theorem State.emit_dict (o : Out) : (s.emit o).dict = s.dict := rfl
@[simp] theorem State.emit_faults (o : Out) : (s.emit o).faults = s.faults := rfl
@[simp] theorem State.emit_grid (o : Out) : (s.emit o).grid = s.grid := rfl
@[simp] theorem State.emit_cmps (o : Out) : (s.emit o).cmps = s.cmps := rfl
@[simp] theorem State.emit_gpo (o : Out) : (s.emit o).gpo = s.gpo := rfl
@[simp] theorem State.emit_camTrig (o : Out) : (s.emit o).camTrig = s.camTrig := rfl
@[simp] theorem State.emit_ingress (o : Out) : (s.emit o).ingress = s.ingress := rfl
@[simp] theorem State.emit_ports (o : Out) : (s.emit o).ports = s.ports := rfl
@[simp] theorem State.emit_cals (o : Out) : (s.emit o).cals = s.cals := rfl
@[simp] theorem State.emit_chans (o : Out) : (s.emit o).chans = s.chans := rfl
@[simp] theorem State.emit_therm (o : Out) : (s.emit o).therm = s.therm := rfl
@[simp] theorem State.emit_cams (o : Out) : (s.emit o).cams = s.cams := rfl
@[simp] theorem State.emit_pipe (o : Out) : (s.emit o).pipe = s.pipe := rfl
@[simp] theorem State.emit_loop (o : Out) : (s.emit o).loop = s.loop := rfl
@[simp] theorem State.emit_mem (o : Out) : (s.emit o).mem = s.mem := rfl
@[simp] theorem State.emit_dma (o : Out) : (s.emit o).dma = s.dma := rfl
@[simp] theorem State.emit_trace (o : Out) : (s.emit o).trace = s.trace := rfl
@[simp] theorem State.emit_otp (o : Out) : (s.emit o).otp = s.otp := rfl
@[simp] theorem State.emit_otp2 (o : Out) : (s.emit o).otp2 = s.otp2 := rfl
@[simp] theorem State.emit_nor (o : Out) : (s.emit o).nor = s.nor := rfl
@[simp] theorem State.emit_mgmt (o : Out) : (s.emit o).mgmt = s.mgmt := rfl
@[simp] theorem State.emit_tap (o : Out) : (s.emit o).tap = s.tap := rfl
@[simp] theorem State.emit_power (o : Out) : (s.emit o).power = s.power := rfl
@[simp] theorem State.emit_boot (o : Out) : (s.emit o).boot = s.boot := rfl
@[simp] theorem State.emit_reg (o : Out) (q : Nat) : (s.emit o).reg q = s.reg q := rfl

/-! `setTab` -/

@[simp] theorem State.setTab_pending (i : Nat) (t : Tab) : (s.setTab i t).pending = s.pending := rfl
@[simp] theorem State.setTab_ident (i : Nat) (t : Tab) : (s.setTab i t).ident = s.ident := rfl
@[simp] theorem State.setTab_clk (i : Nat) (t : Tab) : (s.setTab i t).clk = s.clk := rfl
@[simp] theorem State.setTab_free (i : Nat) (t : Tab) : (s.setTab i t).free = s.free := rfl
@[simp] theorem State.setTab_freeT (i : Nat) (t : Tab) : (s.setTab i t).freeT = s.freeT := rfl
@[simp] theorem State.setTab_out (i : Nat) (t : Tab) : (s.setTab i t).out = s.out := rfl
@[simp] theorem State.setTab_regs (i : Nat) (t : Tab) : (s.setTab i t).regs = s.regs := rfl
@[simp] theorem State.setTab_tabs (i : Nat) (t : Tab) : (s.setTab i t).tabs = Map.put (fun _ => {}) s.tabs i t := rfl
@[simp] theorem State.setTab_link (i : Nat) (t : Tab) : (s.setTab i t).link = s.link := rfl
@[simp] theorem State.setTab_banks (i : Nat) (t : Tab) : (s.setTab i t).banks = s.banks := rfl
@[simp] theorem State.setTab_recv (i : Nat) (t : Tab) : (s.setTab i t).recv = s.recv := rfl
@[simp] theorem State.setTab_pos (i : Nat) (t : Tab) : (s.setTab i t).pos = s.pos := rfl
@[simp] theorem State.setTab_dict (i : Nat) (t : Tab) : (s.setTab i t).dict = s.dict := rfl
@[simp] theorem State.setTab_faults (i : Nat) (t : Tab) : (s.setTab i t).faults = s.faults := rfl
@[simp] theorem State.setTab_grid (i : Nat) (t : Tab) : (s.setTab i t).grid = s.grid := rfl
@[simp] theorem State.setTab_cmps (i : Nat) (t : Tab) : (s.setTab i t).cmps = s.cmps := rfl
@[simp] theorem State.setTab_gpo (i : Nat) (t : Tab) : (s.setTab i t).gpo = s.gpo := rfl
@[simp] theorem State.setTab_camTrig (i : Nat) (t : Tab) : (s.setTab i t).camTrig = s.camTrig := rfl
@[simp] theorem State.setTab_ingress (i : Nat) (t : Tab) : (s.setTab i t).ingress = s.ingress := rfl
@[simp] theorem State.setTab_ports (i : Nat) (t : Tab) : (s.setTab i t).ports = s.ports := rfl
@[simp] theorem State.setTab_cals (i : Nat) (t : Tab) : (s.setTab i t).cals = s.cals := rfl
@[simp] theorem State.setTab_chans (i : Nat) (t : Tab) : (s.setTab i t).chans = s.chans := rfl
@[simp] theorem State.setTab_therm (i : Nat) (t : Tab) : (s.setTab i t).therm = s.therm := rfl
@[simp] theorem State.setTab_cams (i : Nat) (t : Tab) : (s.setTab i t).cams = s.cams := rfl
@[simp] theorem State.setTab_pipe (i : Nat) (t : Tab) : (s.setTab i t).pipe = s.pipe := rfl
@[simp] theorem State.setTab_loop (i : Nat) (t : Tab) : (s.setTab i t).loop = s.loop := rfl
@[simp] theorem State.setTab_mem (i : Nat) (t : Tab) : (s.setTab i t).mem = s.mem := rfl
@[simp] theorem State.setTab_dma (i : Nat) (t : Tab) : (s.setTab i t).dma = s.dma := rfl
@[simp] theorem State.setTab_trace (i : Nat) (t : Tab) : (s.setTab i t).trace = s.trace := rfl
@[simp] theorem State.setTab_otp (i : Nat) (t : Tab) : (s.setTab i t).otp = s.otp := rfl
@[simp] theorem State.setTab_otp2 (i : Nat) (t : Tab) : (s.setTab i t).otp2 = s.otp2 := rfl
@[simp] theorem State.setTab_nor (i : Nat) (t : Tab) : (s.setTab i t).nor = s.nor := rfl
@[simp] theorem State.setTab_mgmt (i : Nat) (t : Tab) : (s.setTab i t).mgmt = s.mgmt := rfl
@[simp] theorem State.setTab_tap (i : Nat) (t : Tab) : (s.setTab i t).tap = s.tap := rfl
@[simp] theorem State.setTab_power (i : Nat) (t : Tab) : (s.setTab i t).power = s.power := rfl
@[simp] theorem State.setTab_boot (i : Nat) (t : Tab) : (s.setTab i t).boot = s.boot := rfl
@[simp] theorem State.setTab_reg (i : Nat) (t : Tab) (q : Nat) : (s.setTab i t).reg q = s.reg q := rfl

/-! `burn` -/

@[simp] theorem State.burn_pending (f : Otp → Otp) : (s.burn f).pending = s.pending := rfl
@[simp] theorem State.burn_ident (f : Otp → Otp) : (s.burn f).ident = s.ident := rfl
@[simp] theorem State.burn_clk (f : Otp → Otp) : (s.burn f).clk = s.clk := rfl
@[simp] theorem State.burn_free (f : Otp → Otp) : (s.burn f).free = s.free := rfl
@[simp] theorem State.burn_freeT (f : Otp → Otp) : (s.burn f).freeT = s.freeT := rfl
@[simp] theorem State.burn_out (f : Otp → Otp) : (s.burn f).out = s.out := rfl
@[simp] theorem State.burn_regs (f : Otp → Otp) : (s.burn f).regs = s.regs := rfl
@[simp] theorem State.burn_tabs (f : Otp → Otp) : (s.burn f).tabs = s.tabs := rfl
@[simp] theorem State.burn_link (f : Otp → Otp) : (s.burn f).link = s.link := rfl
@[simp] theorem State.burn_banks (f : Otp → Otp) : (s.burn f).banks = s.banks := rfl
@[simp] theorem State.burn_recv (f : Otp → Otp) : (s.burn f).recv = s.recv := rfl
@[simp] theorem State.burn_pos (f : Otp → Otp) : (s.burn f).pos = s.pos := rfl
@[simp] theorem State.burn_dict (f : Otp → Otp) : (s.burn f).dict = s.dict := rfl
@[simp] theorem State.burn_faults (f : Otp → Otp) : (s.burn f).faults = s.faults := rfl
@[simp] theorem State.burn_grid (f : Otp → Otp) : (s.burn f).grid = s.grid := rfl
@[simp] theorem State.burn_cmps (f : Otp → Otp) : (s.burn f).cmps = s.cmps := rfl
@[simp] theorem State.burn_gpo (f : Otp → Otp) : (s.burn f).gpo = s.gpo := rfl
@[simp] theorem State.burn_camTrig (f : Otp → Otp) : (s.burn f).camTrig = s.camTrig := rfl
@[simp] theorem State.burn_ingress (f : Otp → Otp) : (s.burn f).ingress = s.ingress := rfl
@[simp] theorem State.burn_ports (f : Otp → Otp) : (s.burn f).ports = s.ports := rfl
@[simp] theorem State.burn_cals (f : Otp → Otp) : (s.burn f).cals = s.cals := rfl
@[simp] theorem State.burn_chans (f : Otp → Otp) : (s.burn f).chans = s.chans := rfl
@[simp] theorem State.burn_therm (f : Otp → Otp) : (s.burn f).therm = s.therm := rfl
@[simp] theorem State.burn_cams (f : Otp → Otp) : (s.burn f).cams = s.cams := rfl
@[simp] theorem State.burn_pipe (f : Otp → Otp) : (s.burn f).pipe = s.pipe := rfl
@[simp] theorem State.burn_loop (f : Otp → Otp) : (s.burn f).loop = s.loop := rfl
@[simp] theorem State.burn_mem (f : Otp → Otp) : (s.burn f).mem = s.mem := rfl
@[simp] theorem State.burn_dma (f : Otp → Otp) : (s.burn f).dma = s.dma := rfl
@[simp] theorem State.burn_trace (f : Otp → Otp) : (s.burn f).trace = s.trace := rfl
@[simp] theorem State.burn_otp (f : Otp → Otp) : (s.burn f).otp = f s.otp := rfl
@[simp] theorem State.burn_otp2 (f : Otp → Otp) : (s.burn f).otp2 = f s.otp2 := rfl
@[simp] theorem State.burn_nor (f : Otp → Otp) : (s.burn f).nor = s.nor := rfl
@[simp] theorem State.burn_mgmt (f : Otp → Otp) : (s.burn f).mgmt = s.mgmt := rfl
@[simp] theorem State.burn_tap (f : Otp → Otp) : (s.burn f).tap = s.tap := rfl
@[simp] theorem State.burn_power (f : Otp → Otp) : (s.burn f).power = s.power := rfl
@[simp] theorem State.burn_boot (f : Otp → Otp) : (s.burn f).boot = s.boot := rfl
@[simp] theorem State.burn_reg (f : Otp → Otp) (q : Nat) : (s.burn f).reg q = s.reg q := rfl

/-! `updPort` -/

@[simp] theorem State.updPort_pending (i : Nat) (f : Port → Port) : (s.updPort i f).pending = s.pending := rfl
@[simp] theorem State.updPort_ident (i : Nat) (f : Port → Port) : (s.updPort i f).ident = s.ident := rfl
@[simp] theorem State.updPort_clk (i : Nat) (f : Port → Port) : (s.updPort i f).clk = s.clk := rfl
@[simp] theorem State.updPort_free (i : Nat) (f : Port → Port) : (s.updPort i f).free = s.free := rfl
@[simp] theorem State.updPort_freeT (i : Nat) (f : Port → Port) : (s.updPort i f).freeT = s.freeT := rfl
@[simp] theorem State.updPort_out (i : Nat) (f : Port → Port) : (s.updPort i f).out = s.out := rfl
@[simp] theorem State.updPort_regs (i : Nat) (f : Port → Port) : (s.updPort i f).regs = s.regs := rfl
@[simp] theorem State.updPort_tabs (i : Nat) (f : Port → Port) : (s.updPort i f).tabs = s.tabs := rfl
@[simp] theorem State.updPort_link (i : Nat) (f : Port → Port) : (s.updPort i f).link = s.link := rfl
@[simp] theorem State.updPort_banks (i : Nat) (f : Port → Port) : (s.updPort i f).banks = s.banks := rfl
@[simp] theorem State.updPort_recv (i : Nat) (f : Port → Port) : (s.updPort i f).recv = s.recv := rfl
@[simp] theorem State.updPort_pos (i : Nat) (f : Port → Port) : (s.updPort i f).pos = s.pos := rfl
@[simp] theorem State.updPort_dict (i : Nat) (f : Port → Port) : (s.updPort i f).dict = s.dict := rfl
@[simp] theorem State.updPort_faults (i : Nat) (f : Port → Port) : (s.updPort i f).faults = s.faults := rfl
@[simp] theorem State.updPort_grid (i : Nat) (f : Port → Port) : (s.updPort i f).grid = s.grid := rfl
@[simp] theorem State.updPort_cmps (i : Nat) (f : Port → Port) : (s.updPort i f).cmps = s.cmps := rfl
@[simp] theorem State.updPort_gpo (i : Nat) (f : Port → Port) : (s.updPort i f).gpo = s.gpo := rfl
@[simp] theorem State.updPort_camTrig (i : Nat) (f : Port → Port) : (s.updPort i f).camTrig = s.camTrig := rfl
@[simp] theorem State.updPort_ingress (i : Nat) (f : Port → Port) : (s.updPort i f).ingress = s.ingress := rfl
@[simp] theorem State.updPort_ports (i : Nat) (f : Port → Port) : (s.updPort i f).ports = Map.upd (fun _ => {}) s.ports i f := rfl
@[simp] theorem State.updPort_cals (i : Nat) (f : Port → Port) : (s.updPort i f).cals = s.cals := rfl
@[simp] theorem State.updPort_chans (i : Nat) (f : Port → Port) : (s.updPort i f).chans = s.chans := rfl
@[simp] theorem State.updPort_therm (i : Nat) (f : Port → Port) : (s.updPort i f).therm = s.therm := rfl
@[simp] theorem State.updPort_cams (i : Nat) (f : Port → Port) : (s.updPort i f).cams = s.cams := rfl
@[simp] theorem State.updPort_pipe (i : Nat) (f : Port → Port) : (s.updPort i f).pipe = s.pipe := rfl
@[simp] theorem State.updPort_loop (i : Nat) (f : Port → Port) : (s.updPort i f).loop = s.loop := rfl
@[simp] theorem State.updPort_mem (i : Nat) (f : Port → Port) : (s.updPort i f).mem = s.mem := rfl
@[simp] theorem State.updPort_dma (i : Nat) (f : Port → Port) : (s.updPort i f).dma = s.dma := rfl
@[simp] theorem State.updPort_trace (i : Nat) (f : Port → Port) : (s.updPort i f).trace = s.trace := rfl
@[simp] theorem State.updPort_otp (i : Nat) (f : Port → Port) : (s.updPort i f).otp = s.otp := rfl
@[simp] theorem State.updPort_otp2 (i : Nat) (f : Port → Port) : (s.updPort i f).otp2 = s.otp2 := rfl
@[simp] theorem State.updPort_nor (i : Nat) (f : Port → Port) : (s.updPort i f).nor = s.nor := rfl
@[simp] theorem State.updPort_mgmt (i : Nat) (f : Port → Port) : (s.updPort i f).mgmt = s.mgmt := rfl
@[simp] theorem State.updPort_tap (i : Nat) (f : Port → Port) : (s.updPort i f).tap = s.tap := rfl
@[simp] theorem State.updPort_power (i : Nat) (f : Port → Port) : (s.updPort i f).power = s.power := rfl
@[simp] theorem State.updPort_boot (i : Nat) (f : Port → Port) : (s.updPort i f).boot = s.boot := rfl
@[simp] theorem State.updPort_reg (i : Nat) (f : Port → Port) (q : Nat) : (s.updPort i f).reg q = s.reg q := rfl

/-! `updCal` -/

@[simp] theorem State.updCal_pending (i : Nat) (f : CalGroup → CalGroup) : (s.updCal i f).pending = s.pending := rfl
@[simp] theorem State.updCal_ident (i : Nat) (f : CalGroup → CalGroup) : (s.updCal i f).ident = s.ident := rfl
@[simp] theorem State.updCal_clk (i : Nat) (f : CalGroup → CalGroup) : (s.updCal i f).clk = s.clk := rfl
@[simp] theorem State.updCal_free (i : Nat) (f : CalGroup → CalGroup) : (s.updCal i f).free = s.free := rfl
@[simp] theorem State.updCal_freeT (i : Nat) (f : CalGroup → CalGroup) : (s.updCal i f).freeT = s.freeT := rfl
@[simp] theorem State.updCal_out (i : Nat) (f : CalGroup → CalGroup) : (s.updCal i f).out = s.out := rfl
@[simp] theorem State.updCal_regs (i : Nat) (f : CalGroup → CalGroup) : (s.updCal i f).regs = s.regs := rfl
@[simp] theorem State.updCal_tabs (i : Nat) (f : CalGroup → CalGroup) : (s.updCal i f).tabs = s.tabs := rfl
@[simp] theorem State.updCal_link (i : Nat) (f : CalGroup → CalGroup) : (s.updCal i f).link = s.link := rfl
@[simp] theorem State.updCal_banks (i : Nat) (f : CalGroup → CalGroup) : (s.updCal i f).banks = s.banks := rfl
@[simp] theorem State.updCal_recv (i : Nat) (f : CalGroup → CalGroup) : (s.updCal i f).recv = s.recv := rfl
@[simp] theorem State.updCal_pos (i : Nat) (f : CalGroup → CalGroup) : (s.updCal i f).pos = s.pos := rfl
@[simp] theorem State.updCal_dict (i : Nat) (f : CalGroup → CalGroup) : (s.updCal i f).dict = s.dict := rfl
@[simp] theorem State.updCal_faults (i : Nat) (f : CalGroup → CalGroup) : (s.updCal i f).faults = s.faults := rfl
@[simp] theorem State.updCal_grid (i : Nat) (f : CalGroup → CalGroup) : (s.updCal i f).grid = s.grid := rfl
@[simp] theorem State.updCal_cmps (i : Nat) (f : CalGroup → CalGroup) : (s.updCal i f).cmps = s.cmps := rfl
@[simp] theorem State.updCal_gpo (i : Nat) (f : CalGroup → CalGroup) : (s.updCal i f).gpo = s.gpo := rfl
@[simp] theorem State.updCal_camTrig (i : Nat) (f : CalGroup → CalGroup) : (s.updCal i f).camTrig = s.camTrig := rfl
@[simp] theorem State.updCal_ingress (i : Nat) (f : CalGroup → CalGroup) : (s.updCal i f).ingress = s.ingress := rfl
@[simp] theorem State.updCal_ports (i : Nat) (f : CalGroup → CalGroup) : (s.updCal i f).ports = s.ports := rfl
@[simp] theorem State.updCal_cals (i : Nat) (f : CalGroup → CalGroup) : (s.updCal i f).cals = Map.upd (fun _ => {}) s.cals i f := rfl
@[simp] theorem State.updCal_chans (i : Nat) (f : CalGroup → CalGroup) : (s.updCal i f).chans = s.chans := rfl
@[simp] theorem State.updCal_therm (i : Nat) (f : CalGroup → CalGroup) : (s.updCal i f).therm = s.therm := rfl
@[simp] theorem State.updCal_cams (i : Nat) (f : CalGroup → CalGroup) : (s.updCal i f).cams = s.cams := rfl
@[simp] theorem State.updCal_pipe (i : Nat) (f : CalGroup → CalGroup) : (s.updCal i f).pipe = s.pipe := rfl
@[simp] theorem State.updCal_loop (i : Nat) (f : CalGroup → CalGroup) : (s.updCal i f).loop = s.loop := rfl
@[simp] theorem State.updCal_mem (i : Nat) (f : CalGroup → CalGroup) : (s.updCal i f).mem = s.mem := rfl
@[simp] theorem State.updCal_dma (i : Nat) (f : CalGroup → CalGroup) : (s.updCal i f).dma = s.dma := rfl
@[simp] theorem State.updCal_trace (i : Nat) (f : CalGroup → CalGroup) : (s.updCal i f).trace = s.trace := rfl
@[simp] theorem State.updCal_otp (i : Nat) (f : CalGroup → CalGroup) : (s.updCal i f).otp = s.otp := rfl
@[simp] theorem State.updCal_otp2 (i : Nat) (f : CalGroup → CalGroup) : (s.updCal i f).otp2 = s.otp2 := rfl
@[simp] theorem State.updCal_nor (i : Nat) (f : CalGroup → CalGroup) : (s.updCal i f).nor = s.nor := rfl
@[simp] theorem State.updCal_mgmt (i : Nat) (f : CalGroup → CalGroup) : (s.updCal i f).mgmt = s.mgmt := rfl
@[simp] theorem State.updCal_tap (i : Nat) (f : CalGroup → CalGroup) : (s.updCal i f).tap = s.tap := rfl
@[simp] theorem State.updCal_power (i : Nat) (f : CalGroup → CalGroup) : (s.updCal i f).power = s.power := rfl
@[simp] theorem State.updCal_boot (i : Nat) (f : CalGroup → CalGroup) : (s.updCal i f).boot = s.boot := rfl
@[simp] theorem State.updCal_reg (i : Nat) (f : CalGroup → CalGroup) (q : Nat) : (s.updCal i f).reg q = s.reg q := rfl

/-! `updChan` -/

@[simp] theorem State.updChan_pending (i : Nat) (f : CalChan → CalChan) : (s.updChan i f).pending = s.pending := rfl
@[simp] theorem State.updChan_ident (i : Nat) (f : CalChan → CalChan) : (s.updChan i f).ident = s.ident := rfl
@[simp] theorem State.updChan_clk (i : Nat) (f : CalChan → CalChan) : (s.updChan i f).clk = s.clk := rfl
@[simp] theorem State.updChan_free (i : Nat) (f : CalChan → CalChan) : (s.updChan i f).free = s.free := rfl
@[simp] theorem State.updChan_freeT (i : Nat) (f : CalChan → CalChan) : (s.updChan i f).freeT = s.freeT := rfl
@[simp] theorem State.updChan_out (i : Nat) (f : CalChan → CalChan) : (s.updChan i f).out = s.out := rfl
@[simp] theorem State.updChan_regs (i : Nat) (f : CalChan → CalChan) : (s.updChan i f).regs = s.regs := rfl
@[simp] theorem State.updChan_tabs (i : Nat) (f : CalChan → CalChan) : (s.updChan i f).tabs = s.tabs := rfl
@[simp] theorem State.updChan_link (i : Nat) (f : CalChan → CalChan) : (s.updChan i f).link = s.link := rfl
@[simp] theorem State.updChan_banks (i : Nat) (f : CalChan → CalChan) : (s.updChan i f).banks = s.banks := rfl
@[simp] theorem State.updChan_recv (i : Nat) (f : CalChan → CalChan) : (s.updChan i f).recv = s.recv := rfl
@[simp] theorem State.updChan_pos (i : Nat) (f : CalChan → CalChan) : (s.updChan i f).pos = s.pos := rfl
@[simp] theorem State.updChan_dict (i : Nat) (f : CalChan → CalChan) : (s.updChan i f).dict = s.dict := rfl
@[simp] theorem State.updChan_faults (i : Nat) (f : CalChan → CalChan) : (s.updChan i f).faults = s.faults := rfl
@[simp] theorem State.updChan_grid (i : Nat) (f : CalChan → CalChan) : (s.updChan i f).grid = s.grid := rfl
@[simp] theorem State.updChan_cmps (i : Nat) (f : CalChan → CalChan) : (s.updChan i f).cmps = s.cmps := rfl
@[simp] theorem State.updChan_gpo (i : Nat) (f : CalChan → CalChan) : (s.updChan i f).gpo = s.gpo := rfl
@[simp] theorem State.updChan_camTrig (i : Nat) (f : CalChan → CalChan) : (s.updChan i f).camTrig = s.camTrig := rfl
@[simp] theorem State.updChan_ingress (i : Nat) (f : CalChan → CalChan) : (s.updChan i f).ingress = s.ingress := rfl
@[simp] theorem State.updChan_ports (i : Nat) (f : CalChan → CalChan) : (s.updChan i f).ports = s.ports := rfl
@[simp] theorem State.updChan_cals (i : Nat) (f : CalChan → CalChan) : (s.updChan i f).cals = s.cals := rfl
@[simp] theorem State.updChan_chans (i : Nat) (f : CalChan → CalChan) : (s.updChan i f).chans = Map.upd (fun _ => {}) s.chans i f := rfl
@[simp] theorem State.updChan_therm (i : Nat) (f : CalChan → CalChan) : (s.updChan i f).therm = s.therm := rfl
@[simp] theorem State.updChan_cams (i : Nat) (f : CalChan → CalChan) : (s.updChan i f).cams = s.cams := rfl
@[simp] theorem State.updChan_pipe (i : Nat) (f : CalChan → CalChan) : (s.updChan i f).pipe = s.pipe := rfl
@[simp] theorem State.updChan_loop (i : Nat) (f : CalChan → CalChan) : (s.updChan i f).loop = s.loop := rfl
@[simp] theorem State.updChan_mem (i : Nat) (f : CalChan → CalChan) : (s.updChan i f).mem = s.mem := rfl
@[simp] theorem State.updChan_dma (i : Nat) (f : CalChan → CalChan) : (s.updChan i f).dma = s.dma := rfl
@[simp] theorem State.updChan_trace (i : Nat) (f : CalChan → CalChan) : (s.updChan i f).trace = s.trace := rfl
@[simp] theorem State.updChan_otp (i : Nat) (f : CalChan → CalChan) : (s.updChan i f).otp = s.otp := rfl
@[simp] theorem State.updChan_otp2 (i : Nat) (f : CalChan → CalChan) : (s.updChan i f).otp2 = s.otp2 := rfl
@[simp] theorem State.updChan_nor (i : Nat) (f : CalChan → CalChan) : (s.updChan i f).nor = s.nor := rfl
@[simp] theorem State.updChan_mgmt (i : Nat) (f : CalChan → CalChan) : (s.updChan i f).mgmt = s.mgmt := rfl
@[simp] theorem State.updChan_tap (i : Nat) (f : CalChan → CalChan) : (s.updChan i f).tap = s.tap := rfl
@[simp] theorem State.updChan_power (i : Nat) (f : CalChan → CalChan) : (s.updChan i f).power = s.power := rfl
@[simp] theorem State.updChan_boot (i : Nat) (f : CalChan → CalChan) : (s.updChan i f).boot = s.boot := rfl
@[simp] theorem State.updChan_reg (i : Nat) (f : CalChan → CalChan) (q : Nat) : (s.updChan i f).reg q = s.reg q := rfl

/-! `updCam` -/

@[simp] theorem State.updCam_pending (i : Nat) (f : Cam → Cam) : (s.updCam i f).pending = s.pending := rfl
@[simp] theorem State.updCam_ident (i : Nat) (f : Cam → Cam) : (s.updCam i f).ident = s.ident := rfl
@[simp] theorem State.updCam_clk (i : Nat) (f : Cam → Cam) : (s.updCam i f).clk = s.clk := rfl
@[simp] theorem State.updCam_free (i : Nat) (f : Cam → Cam) : (s.updCam i f).free = s.free := rfl
@[simp] theorem State.updCam_freeT (i : Nat) (f : Cam → Cam) : (s.updCam i f).freeT = s.freeT := rfl
@[simp] theorem State.updCam_out (i : Nat) (f : Cam → Cam) : (s.updCam i f).out = s.out := rfl
@[simp] theorem State.updCam_regs (i : Nat) (f : Cam → Cam) : (s.updCam i f).regs = s.regs := rfl
@[simp] theorem State.updCam_tabs (i : Nat) (f : Cam → Cam) : (s.updCam i f).tabs = s.tabs := rfl
@[simp] theorem State.updCam_link (i : Nat) (f : Cam → Cam) : (s.updCam i f).link = s.link := rfl
@[simp] theorem State.updCam_banks (i : Nat) (f : Cam → Cam) : (s.updCam i f).banks = s.banks := rfl
@[simp] theorem State.updCam_recv (i : Nat) (f : Cam → Cam) : (s.updCam i f).recv = s.recv := rfl
@[simp] theorem State.updCam_pos (i : Nat) (f : Cam → Cam) : (s.updCam i f).pos = s.pos := rfl
@[simp] theorem State.updCam_dict (i : Nat) (f : Cam → Cam) : (s.updCam i f).dict = s.dict := rfl
@[simp] theorem State.updCam_faults (i : Nat) (f : Cam → Cam) : (s.updCam i f).faults = s.faults := rfl
@[simp] theorem State.updCam_grid (i : Nat) (f : Cam → Cam) : (s.updCam i f).grid = s.grid := rfl
@[simp] theorem State.updCam_cmps (i : Nat) (f : Cam → Cam) : (s.updCam i f).cmps = s.cmps := rfl
@[simp] theorem State.updCam_gpo (i : Nat) (f : Cam → Cam) : (s.updCam i f).gpo = s.gpo := rfl
@[simp] theorem State.updCam_camTrig (i : Nat) (f : Cam → Cam) : (s.updCam i f).camTrig = s.camTrig := rfl
@[simp] theorem State.updCam_ingress (i : Nat) (f : Cam → Cam) : (s.updCam i f).ingress = s.ingress := rfl
@[simp] theorem State.updCam_ports (i : Nat) (f : Cam → Cam) : (s.updCam i f).ports = s.ports := rfl
@[simp] theorem State.updCam_cals (i : Nat) (f : Cam → Cam) : (s.updCam i f).cals = s.cals := rfl
@[simp] theorem State.updCam_chans (i : Nat) (f : Cam → Cam) : (s.updCam i f).chans = s.chans := rfl
@[simp] theorem State.updCam_therm (i : Nat) (f : Cam → Cam) : (s.updCam i f).therm = s.therm := rfl
@[simp] theorem State.updCam_cams (i : Nat) (f : Cam → Cam) : (s.updCam i f).cams = Map.upd (fun _ => {}) s.cams i f := rfl
@[simp] theorem State.updCam_pipe (i : Nat) (f : Cam → Cam) : (s.updCam i f).pipe = s.pipe := rfl
@[simp] theorem State.updCam_loop (i : Nat) (f : Cam → Cam) : (s.updCam i f).loop = s.loop := rfl
@[simp] theorem State.updCam_mem (i : Nat) (f : Cam → Cam) : (s.updCam i f).mem = s.mem := rfl
@[simp] theorem State.updCam_dma (i : Nat) (f : Cam → Cam) : (s.updCam i f).dma = s.dma := rfl
@[simp] theorem State.updCam_trace (i : Nat) (f : Cam → Cam) : (s.updCam i f).trace = s.trace := rfl
@[simp] theorem State.updCam_otp (i : Nat) (f : Cam → Cam) : (s.updCam i f).otp = s.otp := rfl
@[simp] theorem State.updCam_otp2 (i : Nat) (f : Cam → Cam) : (s.updCam i f).otp2 = s.otp2 := rfl
@[simp] theorem State.updCam_nor (i : Nat) (f : Cam → Cam) : (s.updCam i f).nor = s.nor := rfl
@[simp] theorem State.updCam_mgmt (i : Nat) (f : Cam → Cam) : (s.updCam i f).mgmt = s.mgmt := rfl
@[simp] theorem State.updCam_tap (i : Nat) (f : Cam → Cam) : (s.updCam i f).tap = s.tap := rfl
@[simp] theorem State.updCam_power (i : Nat) (f : Cam → Cam) : (s.updCam i f).power = s.power := rfl
@[simp] theorem State.updCam_boot (i : Nat) (f : Cam → Cam) : (s.updCam i f).boot = s.boot := rfl
@[simp] theorem State.updCam_reg (i : Nat) (f : Cam → Cam) (q : Nat) : (s.updCam i f).reg q = s.reg q := rfl

/-! `updBank` -/

@[simp] theorem State.updBank_pending (i : Nat) (f : Bank → Bank) : (s.updBank i f).pending = s.pending := rfl
@[simp] theorem State.updBank_ident (i : Nat) (f : Bank → Bank) : (s.updBank i f).ident = s.ident := rfl
@[simp] theorem State.updBank_clk (i : Nat) (f : Bank → Bank) : (s.updBank i f).clk = s.clk := rfl
@[simp] theorem State.updBank_free (i : Nat) (f : Bank → Bank) : (s.updBank i f).free = s.free := rfl
@[simp] theorem State.updBank_freeT (i : Nat) (f : Bank → Bank) : (s.updBank i f).freeT = s.freeT := rfl
@[simp] theorem State.updBank_out (i : Nat) (f : Bank → Bank) : (s.updBank i f).out = s.out := rfl
@[simp] theorem State.updBank_regs (i : Nat) (f : Bank → Bank) : (s.updBank i f).regs = s.regs := rfl
@[simp] theorem State.updBank_tabs (i : Nat) (f : Bank → Bank) : (s.updBank i f).tabs = s.tabs := rfl
@[simp] theorem State.updBank_link (i : Nat) (f : Bank → Bank) : (s.updBank i f).link = s.link := rfl
@[simp] theorem State.updBank_banks (i : Nat) (f : Bank → Bank) : (s.updBank i f).banks = Map.upd (fun _ => {}) s.banks i f := rfl
@[simp] theorem State.updBank_recv (i : Nat) (f : Bank → Bank) : (s.updBank i f).recv = s.recv := rfl
@[simp] theorem State.updBank_pos (i : Nat) (f : Bank → Bank) : (s.updBank i f).pos = s.pos := rfl
@[simp] theorem State.updBank_dict (i : Nat) (f : Bank → Bank) : (s.updBank i f).dict = s.dict := rfl
@[simp] theorem State.updBank_faults (i : Nat) (f : Bank → Bank) : (s.updBank i f).faults = s.faults := rfl
@[simp] theorem State.updBank_grid (i : Nat) (f : Bank → Bank) : (s.updBank i f).grid = s.grid := rfl
@[simp] theorem State.updBank_cmps (i : Nat) (f : Bank → Bank) : (s.updBank i f).cmps = s.cmps := rfl
@[simp] theorem State.updBank_gpo (i : Nat) (f : Bank → Bank) : (s.updBank i f).gpo = s.gpo := rfl
@[simp] theorem State.updBank_camTrig (i : Nat) (f : Bank → Bank) : (s.updBank i f).camTrig = s.camTrig := rfl
@[simp] theorem State.updBank_ingress (i : Nat) (f : Bank → Bank) : (s.updBank i f).ingress = s.ingress := rfl
@[simp] theorem State.updBank_ports (i : Nat) (f : Bank → Bank) : (s.updBank i f).ports = s.ports := rfl
@[simp] theorem State.updBank_cals (i : Nat) (f : Bank → Bank) : (s.updBank i f).cals = s.cals := rfl
@[simp] theorem State.updBank_chans (i : Nat) (f : Bank → Bank) : (s.updBank i f).chans = s.chans := rfl
@[simp] theorem State.updBank_therm (i : Nat) (f : Bank → Bank) : (s.updBank i f).therm = s.therm := rfl
@[simp] theorem State.updBank_cams (i : Nat) (f : Bank → Bank) : (s.updBank i f).cams = s.cams := rfl
@[simp] theorem State.updBank_pipe (i : Nat) (f : Bank → Bank) : (s.updBank i f).pipe = s.pipe := rfl
@[simp] theorem State.updBank_loop (i : Nat) (f : Bank → Bank) : (s.updBank i f).loop = s.loop := rfl
@[simp] theorem State.updBank_mem (i : Nat) (f : Bank → Bank) : (s.updBank i f).mem = s.mem := rfl
@[simp] theorem State.updBank_dma (i : Nat) (f : Bank → Bank) : (s.updBank i f).dma = s.dma := rfl
@[simp] theorem State.updBank_trace (i : Nat) (f : Bank → Bank) : (s.updBank i f).trace = s.trace := rfl
@[simp] theorem State.updBank_otp (i : Nat) (f : Bank → Bank) : (s.updBank i f).otp = s.otp := rfl
@[simp] theorem State.updBank_otp2 (i : Nat) (f : Bank → Bank) : (s.updBank i f).otp2 = s.otp2 := rfl
@[simp] theorem State.updBank_nor (i : Nat) (f : Bank → Bank) : (s.updBank i f).nor = s.nor := rfl
@[simp] theorem State.updBank_mgmt (i : Nat) (f : Bank → Bank) : (s.updBank i f).mgmt = s.mgmt := rfl
@[simp] theorem State.updBank_tap (i : Nat) (f : Bank → Bank) : (s.updBank i f).tap = s.tap := rfl
@[simp] theorem State.updBank_power (i : Nat) (f : Bank → Bank) : (s.updBank i f).power = s.power := rfl
@[simp] theorem State.updBank_boot (i : Nat) (f : Bank → Bank) : (s.updBank i f).boot = s.boot := rfl
@[simp] theorem State.updBank_reg (i : Nat) (f : Bank → Bank) (q : Nat) : (s.updBank i f).reg q = s.reg q := rfl

/-! `updCmp` -/

@[simp] theorem State.updCmp_pending (i : Nat) (f : Cmp → Cmp) : (s.updCmp i f).pending = s.pending := rfl
@[simp] theorem State.updCmp_ident (i : Nat) (f : Cmp → Cmp) : (s.updCmp i f).ident = s.ident := rfl
@[simp] theorem State.updCmp_clk (i : Nat) (f : Cmp → Cmp) : (s.updCmp i f).clk = s.clk := rfl
@[simp] theorem State.updCmp_free (i : Nat) (f : Cmp → Cmp) : (s.updCmp i f).free = s.free := rfl
@[simp] theorem State.updCmp_freeT (i : Nat) (f : Cmp → Cmp) : (s.updCmp i f).freeT = s.freeT := rfl
@[simp] theorem State.updCmp_out (i : Nat) (f : Cmp → Cmp) : (s.updCmp i f).out = s.out := rfl
@[simp] theorem State.updCmp_regs (i : Nat) (f : Cmp → Cmp) : (s.updCmp i f).regs = s.regs := rfl
@[simp] theorem State.updCmp_tabs (i : Nat) (f : Cmp → Cmp) : (s.updCmp i f).tabs = s.tabs := rfl
@[simp] theorem State.updCmp_link (i : Nat) (f : Cmp → Cmp) : (s.updCmp i f).link = s.link := rfl
@[simp] theorem State.updCmp_banks (i : Nat) (f : Cmp → Cmp) : (s.updCmp i f).banks = s.banks := rfl
@[simp] theorem State.updCmp_recv (i : Nat) (f : Cmp → Cmp) : (s.updCmp i f).recv = s.recv := rfl
@[simp] theorem State.updCmp_pos (i : Nat) (f : Cmp → Cmp) : (s.updCmp i f).pos = s.pos := rfl
@[simp] theorem State.updCmp_dict (i : Nat) (f : Cmp → Cmp) : (s.updCmp i f).dict = s.dict := rfl
@[simp] theorem State.updCmp_faults (i : Nat) (f : Cmp → Cmp) : (s.updCmp i f).faults = s.faults := rfl
@[simp] theorem State.updCmp_grid (i : Nat) (f : Cmp → Cmp) : (s.updCmp i f).grid = s.grid := rfl
@[simp] theorem State.updCmp_cmps (i : Nat) (f : Cmp → Cmp) : (s.updCmp i f).cmps = Map.upd (fun _ => {}) s.cmps i f := rfl
@[simp] theorem State.updCmp_gpo (i : Nat) (f : Cmp → Cmp) : (s.updCmp i f).gpo = s.gpo := rfl
@[simp] theorem State.updCmp_camTrig (i : Nat) (f : Cmp → Cmp) : (s.updCmp i f).camTrig = s.camTrig := rfl
@[simp] theorem State.updCmp_ingress (i : Nat) (f : Cmp → Cmp) : (s.updCmp i f).ingress = s.ingress := rfl
@[simp] theorem State.updCmp_ports (i : Nat) (f : Cmp → Cmp) : (s.updCmp i f).ports = s.ports := rfl
@[simp] theorem State.updCmp_cals (i : Nat) (f : Cmp → Cmp) : (s.updCmp i f).cals = s.cals := rfl
@[simp] theorem State.updCmp_chans (i : Nat) (f : Cmp → Cmp) : (s.updCmp i f).chans = s.chans := rfl
@[simp] theorem State.updCmp_therm (i : Nat) (f : Cmp → Cmp) : (s.updCmp i f).therm = s.therm := rfl
@[simp] theorem State.updCmp_cams (i : Nat) (f : Cmp → Cmp) : (s.updCmp i f).cams = s.cams := rfl
@[simp] theorem State.updCmp_pipe (i : Nat) (f : Cmp → Cmp) : (s.updCmp i f).pipe = s.pipe := rfl
@[simp] theorem State.updCmp_loop (i : Nat) (f : Cmp → Cmp) : (s.updCmp i f).loop = s.loop := rfl
@[simp] theorem State.updCmp_mem (i : Nat) (f : Cmp → Cmp) : (s.updCmp i f).mem = s.mem := rfl
@[simp] theorem State.updCmp_dma (i : Nat) (f : Cmp → Cmp) : (s.updCmp i f).dma = s.dma := rfl
@[simp] theorem State.updCmp_trace (i : Nat) (f : Cmp → Cmp) : (s.updCmp i f).trace = s.trace := rfl
@[simp] theorem State.updCmp_otp (i : Nat) (f : Cmp → Cmp) : (s.updCmp i f).otp = s.otp := rfl
@[simp] theorem State.updCmp_otp2 (i : Nat) (f : Cmp → Cmp) : (s.updCmp i f).otp2 = s.otp2 := rfl
@[simp] theorem State.updCmp_nor (i : Nat) (f : Cmp → Cmp) : (s.updCmp i f).nor = s.nor := rfl
@[simp] theorem State.updCmp_mgmt (i : Nat) (f : Cmp → Cmp) : (s.updCmp i f).mgmt = s.mgmt := rfl
@[simp] theorem State.updCmp_tap (i : Nat) (f : Cmp → Cmp) : (s.updCmp i f).tap = s.tap := rfl
@[simp] theorem State.updCmp_power (i : Nat) (f : Cmp → Cmp) : (s.updCmp i f).power = s.power := rfl
@[simp] theorem State.updCmp_boot (i : Nat) (f : Cmp → Cmp) : (s.updCmp i f).boot = s.boot := rfl
@[simp] theorem State.updCmp_reg (i : Nat) (f : Cmp → Cmp) (q : Nat) : (s.updCmp i f).reg q = s.reg q := rfl

/-! `updHeat` -/

@[simp] theorem State.updHeat_pending (i : Nat) (f : HeatPort → HeatPort) : (s.updHeat i f).pending = s.pending := rfl
@[simp] theorem State.updHeat_ident (i : Nat) (f : HeatPort → HeatPort) : (s.updHeat i f).ident = s.ident := rfl
@[simp] theorem State.updHeat_clk (i : Nat) (f : HeatPort → HeatPort) : (s.updHeat i f).clk = s.clk := rfl
@[simp] theorem State.updHeat_free (i : Nat) (f : HeatPort → HeatPort) : (s.updHeat i f).free = s.free := rfl
@[simp] theorem State.updHeat_freeT (i : Nat) (f : HeatPort → HeatPort) : (s.updHeat i f).freeT = s.freeT := rfl
@[simp] theorem State.updHeat_out (i : Nat) (f : HeatPort → HeatPort) : (s.updHeat i f).out = s.out := rfl
@[simp] theorem State.updHeat_regs (i : Nat) (f : HeatPort → HeatPort) : (s.updHeat i f).regs = s.regs := rfl
@[simp] theorem State.updHeat_tabs (i : Nat) (f : HeatPort → HeatPort) : (s.updHeat i f).tabs = s.tabs := rfl
@[simp] theorem State.updHeat_link (i : Nat) (f : HeatPort → HeatPort) : (s.updHeat i f).link = s.link := rfl
@[simp] theorem State.updHeat_banks (i : Nat) (f : HeatPort → HeatPort) : (s.updHeat i f).banks = s.banks := rfl
@[simp] theorem State.updHeat_recv (i : Nat) (f : HeatPort → HeatPort) : (s.updHeat i f).recv = s.recv := rfl
@[simp] theorem State.updHeat_pos (i : Nat) (f : HeatPort → HeatPort) : (s.updHeat i f).pos = s.pos := rfl
@[simp] theorem State.updHeat_dict (i : Nat) (f : HeatPort → HeatPort) : (s.updHeat i f).dict = s.dict := rfl
@[simp] theorem State.updHeat_faults (i : Nat) (f : HeatPort → HeatPort) : (s.updHeat i f).faults = s.faults := rfl
@[simp] theorem State.updHeat_grid (i : Nat) (f : HeatPort → HeatPort) : (s.updHeat i f).grid = s.grid := rfl
@[simp] theorem State.updHeat_cmps (i : Nat) (f : HeatPort → HeatPort) : (s.updHeat i f).cmps = s.cmps := rfl
@[simp] theorem State.updHeat_gpo (i : Nat) (f : HeatPort → HeatPort) : (s.updHeat i f).gpo = s.gpo := rfl
@[simp] theorem State.updHeat_camTrig (i : Nat) (f : HeatPort → HeatPort) : (s.updHeat i f).camTrig = s.camTrig := rfl
@[simp] theorem State.updHeat_ingress (i : Nat) (f : HeatPort → HeatPort) : (s.updHeat i f).ingress = s.ingress := rfl
@[simp] theorem State.updHeat_ports (i : Nat) (f : HeatPort → HeatPort) : (s.updHeat i f).ports = s.ports := rfl
@[simp] theorem State.updHeat_cals (i : Nat) (f : HeatPort → HeatPort) : (s.updHeat i f).cals = s.cals := rfl
@[simp] theorem State.updHeat_chans (i : Nat) (f : HeatPort → HeatPort) : (s.updHeat i f).chans = s.chans := rfl
@[simp] theorem State.updHeat_cams (i : Nat) (f : HeatPort → HeatPort) : (s.updHeat i f).cams = s.cams := rfl
@[simp] theorem State.updHeat_pipe (i : Nat) (f : HeatPort → HeatPort) : (s.updHeat i f).pipe = s.pipe := rfl
@[simp] theorem State.updHeat_loop (i : Nat) (f : HeatPort → HeatPort) : (s.updHeat i f).loop = s.loop := rfl
@[simp] theorem State.updHeat_mem (i : Nat) (f : HeatPort → HeatPort) : (s.updHeat i f).mem = s.mem := rfl
@[simp] theorem State.updHeat_dma (i : Nat) (f : HeatPort → HeatPort) : (s.updHeat i f).dma = s.dma := rfl
@[simp] theorem State.updHeat_trace (i : Nat) (f : HeatPort → HeatPort) : (s.updHeat i f).trace = s.trace := rfl
@[simp] theorem State.updHeat_otp (i : Nat) (f : HeatPort → HeatPort) : (s.updHeat i f).otp = s.otp := rfl
@[simp] theorem State.updHeat_otp2 (i : Nat) (f : HeatPort → HeatPort) : (s.updHeat i f).otp2 = s.otp2 := rfl
@[simp] theorem State.updHeat_nor (i : Nat) (f : HeatPort → HeatPort) : (s.updHeat i f).nor = s.nor := rfl
@[simp] theorem State.updHeat_mgmt (i : Nat) (f : HeatPort → HeatPort) : (s.updHeat i f).mgmt = s.mgmt := rfl
@[simp] theorem State.updHeat_tap (i : Nat) (f : HeatPort → HeatPort) : (s.updHeat i f).tap = s.tap := rfl
@[simp] theorem State.updHeat_power (i : Nat) (f : HeatPort → HeatPort) : (s.updHeat i f).power = s.power := rfl
@[simp] theorem State.updHeat_boot (i : Nat) (f : HeatPort → HeatPort) : (s.updHeat i f).boot = s.boot := rfl
@[simp] theorem State.updHeat_reg (i : Nat) (f : HeatPort → HeatPort) (q : Nat) : (s.updHeat i f).reg q = s.reg q := rfl

/-! `updSensor` -/

@[simp] theorem State.updSensor_pending (i : Nat) (f : Sensor → Sensor) : (s.updSensor i f).pending = s.pending := rfl
@[simp] theorem State.updSensor_ident (i : Nat) (f : Sensor → Sensor) : (s.updSensor i f).ident = s.ident := rfl
@[simp] theorem State.updSensor_clk (i : Nat) (f : Sensor → Sensor) : (s.updSensor i f).clk = s.clk := rfl
@[simp] theorem State.updSensor_free (i : Nat) (f : Sensor → Sensor) : (s.updSensor i f).free = s.free := rfl
@[simp] theorem State.updSensor_freeT (i : Nat) (f : Sensor → Sensor) : (s.updSensor i f).freeT = s.freeT := rfl
@[simp] theorem State.updSensor_out (i : Nat) (f : Sensor → Sensor) : (s.updSensor i f).out = s.out := rfl
@[simp] theorem State.updSensor_regs (i : Nat) (f : Sensor → Sensor) : (s.updSensor i f).regs = s.regs := rfl
@[simp] theorem State.updSensor_tabs (i : Nat) (f : Sensor → Sensor) : (s.updSensor i f).tabs = s.tabs := rfl
@[simp] theorem State.updSensor_link (i : Nat) (f : Sensor → Sensor) : (s.updSensor i f).link = s.link := rfl
@[simp] theorem State.updSensor_banks (i : Nat) (f : Sensor → Sensor) : (s.updSensor i f).banks = s.banks := rfl
@[simp] theorem State.updSensor_recv (i : Nat) (f : Sensor → Sensor) : (s.updSensor i f).recv = s.recv := rfl
@[simp] theorem State.updSensor_pos (i : Nat) (f : Sensor → Sensor) : (s.updSensor i f).pos = s.pos := rfl
@[simp] theorem State.updSensor_dict (i : Nat) (f : Sensor → Sensor) : (s.updSensor i f).dict = s.dict := rfl
@[simp] theorem State.updSensor_faults (i : Nat) (f : Sensor → Sensor) : (s.updSensor i f).faults = s.faults := rfl
@[simp] theorem State.updSensor_grid (i : Nat) (f : Sensor → Sensor) : (s.updSensor i f).grid = s.grid := rfl
@[simp] theorem State.updSensor_cmps (i : Nat) (f : Sensor → Sensor) : (s.updSensor i f).cmps = s.cmps := rfl
@[simp] theorem State.updSensor_gpo (i : Nat) (f : Sensor → Sensor) : (s.updSensor i f).gpo = s.gpo := rfl
@[simp] theorem State.updSensor_camTrig (i : Nat) (f : Sensor → Sensor) : (s.updSensor i f).camTrig = s.camTrig := rfl
@[simp] theorem State.updSensor_ingress (i : Nat) (f : Sensor → Sensor) : (s.updSensor i f).ingress = s.ingress := rfl
@[simp] theorem State.updSensor_ports (i : Nat) (f : Sensor → Sensor) : (s.updSensor i f).ports = s.ports := rfl
@[simp] theorem State.updSensor_cals (i : Nat) (f : Sensor → Sensor) : (s.updSensor i f).cals = s.cals := rfl
@[simp] theorem State.updSensor_chans (i : Nat) (f : Sensor → Sensor) : (s.updSensor i f).chans = s.chans := rfl
@[simp] theorem State.updSensor_cams (i : Nat) (f : Sensor → Sensor) : (s.updSensor i f).cams = s.cams := rfl
@[simp] theorem State.updSensor_pipe (i : Nat) (f : Sensor → Sensor) : (s.updSensor i f).pipe = s.pipe := rfl
@[simp] theorem State.updSensor_loop (i : Nat) (f : Sensor → Sensor) : (s.updSensor i f).loop = s.loop := rfl
@[simp] theorem State.updSensor_mem (i : Nat) (f : Sensor → Sensor) : (s.updSensor i f).mem = s.mem := rfl
@[simp] theorem State.updSensor_dma (i : Nat) (f : Sensor → Sensor) : (s.updSensor i f).dma = s.dma := rfl
@[simp] theorem State.updSensor_trace (i : Nat) (f : Sensor → Sensor) : (s.updSensor i f).trace = s.trace := rfl
@[simp] theorem State.updSensor_otp (i : Nat) (f : Sensor → Sensor) : (s.updSensor i f).otp = s.otp := rfl
@[simp] theorem State.updSensor_otp2 (i : Nat) (f : Sensor → Sensor) : (s.updSensor i f).otp2 = s.otp2 := rfl
@[simp] theorem State.updSensor_nor (i : Nat) (f : Sensor → Sensor) : (s.updSensor i f).nor = s.nor := rfl
@[simp] theorem State.updSensor_mgmt (i : Nat) (f : Sensor → Sensor) : (s.updSensor i f).mgmt = s.mgmt := rfl
@[simp] theorem State.updSensor_tap (i : Nat) (f : Sensor → Sensor) : (s.updSensor i f).tap = s.tap := rfl
@[simp] theorem State.updSensor_power (i : Nat) (f : Sensor → Sensor) : (s.updSensor i f).power = s.power := rfl
@[simp] theorem State.updSensor_boot (i : Nat) (f : Sensor → Sensor) : (s.updSensor i f).boot = s.boot := rfl
@[simp] theorem State.updSensor_reg (i : Nat) (f : Sensor → Sensor) (q : Nat) : (s.updSensor i f).reg q = s.reg q := rfl

/-! `updLport` -/

@[simp] theorem State.updLport_pending (i : Nat) (f : LoopPort → LoopPort) : (s.updLport i f).pending = s.pending := rfl
@[simp] theorem State.updLport_ident (i : Nat) (f : LoopPort → LoopPort) : (s.updLport i f).ident = s.ident := rfl
@[simp] theorem State.updLport_clk (i : Nat) (f : LoopPort → LoopPort) : (s.updLport i f).clk = s.clk := rfl
@[simp] theorem State.updLport_free (i : Nat) (f : LoopPort → LoopPort) : (s.updLport i f).free = s.free := rfl
@[simp] theorem State.updLport_freeT (i : Nat) (f : LoopPort → LoopPort) : (s.updLport i f).freeT = s.freeT := rfl
@[simp] theorem State.updLport_out (i : Nat) (f : LoopPort → LoopPort) : (s.updLport i f).out = s.out := rfl
@[simp] theorem State.updLport_regs (i : Nat) (f : LoopPort → LoopPort) : (s.updLport i f).regs = s.regs := rfl
@[simp] theorem State.updLport_tabs (i : Nat) (f : LoopPort → LoopPort) : (s.updLport i f).tabs = s.tabs := rfl
@[simp] theorem State.updLport_link (i : Nat) (f : LoopPort → LoopPort) : (s.updLport i f).link = s.link := rfl
@[simp] theorem State.updLport_banks (i : Nat) (f : LoopPort → LoopPort) : (s.updLport i f).banks = s.banks := rfl
@[simp] theorem State.updLport_recv (i : Nat) (f : LoopPort → LoopPort) : (s.updLport i f).recv = s.recv := rfl
@[simp] theorem State.updLport_pos (i : Nat) (f : LoopPort → LoopPort) : (s.updLport i f).pos = s.pos := rfl
@[simp] theorem State.updLport_dict (i : Nat) (f : LoopPort → LoopPort) : (s.updLport i f).dict = s.dict := rfl
@[simp] theorem State.updLport_faults (i : Nat) (f : LoopPort → LoopPort) : (s.updLport i f).faults = s.faults := rfl
@[simp] theorem State.updLport_grid (i : Nat) (f : LoopPort → LoopPort) : (s.updLport i f).grid = s.grid := rfl
@[simp] theorem State.updLport_cmps (i : Nat) (f : LoopPort → LoopPort) : (s.updLport i f).cmps = s.cmps := rfl
@[simp] theorem State.updLport_gpo (i : Nat) (f : LoopPort → LoopPort) : (s.updLport i f).gpo = s.gpo := rfl
@[simp] theorem State.updLport_camTrig (i : Nat) (f : LoopPort → LoopPort) : (s.updLport i f).camTrig = s.camTrig := rfl
@[simp] theorem State.updLport_ingress (i : Nat) (f : LoopPort → LoopPort) : (s.updLport i f).ingress = s.ingress := rfl
@[simp] theorem State.updLport_ports (i : Nat) (f : LoopPort → LoopPort) : (s.updLport i f).ports = s.ports := rfl
@[simp] theorem State.updLport_cals (i : Nat) (f : LoopPort → LoopPort) : (s.updLport i f).cals = s.cals := rfl
@[simp] theorem State.updLport_chans (i : Nat) (f : LoopPort → LoopPort) : (s.updLport i f).chans = s.chans := rfl
@[simp] theorem State.updLport_therm (i : Nat) (f : LoopPort → LoopPort) : (s.updLport i f).therm = s.therm := rfl
@[simp] theorem State.updLport_cams (i : Nat) (f : LoopPort → LoopPort) : (s.updLport i f).cams = s.cams := rfl
@[simp] theorem State.updLport_pipe (i : Nat) (f : LoopPort → LoopPort) : (s.updLport i f).pipe = s.pipe := rfl
@[simp] theorem State.updLport_mem (i : Nat) (f : LoopPort → LoopPort) : (s.updLport i f).mem = s.mem := rfl
@[simp] theorem State.updLport_dma (i : Nat) (f : LoopPort → LoopPort) : (s.updLport i f).dma = s.dma := rfl
@[simp] theorem State.updLport_trace (i : Nat) (f : LoopPort → LoopPort) : (s.updLport i f).trace = s.trace := rfl
@[simp] theorem State.updLport_otp (i : Nat) (f : LoopPort → LoopPort) : (s.updLport i f).otp = s.otp := rfl
@[simp] theorem State.updLport_otp2 (i : Nat) (f : LoopPort → LoopPort) : (s.updLport i f).otp2 = s.otp2 := rfl
@[simp] theorem State.updLport_nor (i : Nat) (f : LoopPort → LoopPort) : (s.updLport i f).nor = s.nor := rfl
@[simp] theorem State.updLport_mgmt (i : Nat) (f : LoopPort → LoopPort) : (s.updLport i f).mgmt = s.mgmt := rfl
@[simp] theorem State.updLport_tap (i : Nat) (f : LoopPort → LoopPort) : (s.updLport i f).tap = s.tap := rfl
@[simp] theorem State.updLport_power (i : Nat) (f : LoopPort → LoopPort) : (s.updLport i f).power = s.power := rfl
@[simp] theorem State.updLport_boot (i : Nat) (f : LoopPort → LoopPort) : (s.updLport i f).boot = s.boot := rfl
@[simp] theorem State.updLport_reg (i : Nat) (f : LoopPort → LoopPort) (q : Nat) : (s.updLport i f).reg q = s.reg q := rfl

/-! `updDch` -/

@[simp] theorem State.updDch_pending (i : Nat) (f : DmaCh → DmaCh) : (s.updDch i f).pending = s.pending := rfl
@[simp] theorem State.updDch_ident (i : Nat) (f : DmaCh → DmaCh) : (s.updDch i f).ident = s.ident := rfl
@[simp] theorem State.updDch_clk (i : Nat) (f : DmaCh → DmaCh) : (s.updDch i f).clk = s.clk := rfl
@[simp] theorem State.updDch_free (i : Nat) (f : DmaCh → DmaCh) : (s.updDch i f).free = s.free := rfl
@[simp] theorem State.updDch_freeT (i : Nat) (f : DmaCh → DmaCh) : (s.updDch i f).freeT = s.freeT := rfl
@[simp] theorem State.updDch_out (i : Nat) (f : DmaCh → DmaCh) : (s.updDch i f).out = s.out := rfl
@[simp] theorem State.updDch_regs (i : Nat) (f : DmaCh → DmaCh) : (s.updDch i f).regs = s.regs := rfl
@[simp] theorem State.updDch_tabs (i : Nat) (f : DmaCh → DmaCh) : (s.updDch i f).tabs = s.tabs := rfl
@[simp] theorem State.updDch_link (i : Nat) (f : DmaCh → DmaCh) : (s.updDch i f).link = s.link := rfl
@[simp] theorem State.updDch_banks (i : Nat) (f : DmaCh → DmaCh) : (s.updDch i f).banks = s.banks := rfl
@[simp] theorem State.updDch_recv (i : Nat) (f : DmaCh → DmaCh) : (s.updDch i f).recv = s.recv := rfl
@[simp] theorem State.updDch_pos (i : Nat) (f : DmaCh → DmaCh) : (s.updDch i f).pos = s.pos := rfl
@[simp] theorem State.updDch_dict (i : Nat) (f : DmaCh → DmaCh) : (s.updDch i f).dict = s.dict := rfl
@[simp] theorem State.updDch_faults (i : Nat) (f : DmaCh → DmaCh) : (s.updDch i f).faults = s.faults := rfl
@[simp] theorem State.updDch_grid (i : Nat) (f : DmaCh → DmaCh) : (s.updDch i f).grid = s.grid := rfl
@[simp] theorem State.updDch_cmps (i : Nat) (f : DmaCh → DmaCh) : (s.updDch i f).cmps = s.cmps := rfl
@[simp] theorem State.updDch_gpo (i : Nat) (f : DmaCh → DmaCh) : (s.updDch i f).gpo = s.gpo := rfl
@[simp] theorem State.updDch_camTrig (i : Nat) (f : DmaCh → DmaCh) : (s.updDch i f).camTrig = s.camTrig := rfl
@[simp] theorem State.updDch_ingress (i : Nat) (f : DmaCh → DmaCh) : (s.updDch i f).ingress = s.ingress := rfl
@[simp] theorem State.updDch_ports (i : Nat) (f : DmaCh → DmaCh) : (s.updDch i f).ports = s.ports := rfl
@[simp] theorem State.updDch_cals (i : Nat) (f : DmaCh → DmaCh) : (s.updDch i f).cals = s.cals := rfl
@[simp] theorem State.updDch_chans (i : Nat) (f : DmaCh → DmaCh) : (s.updDch i f).chans = s.chans := rfl
@[simp] theorem State.updDch_therm (i : Nat) (f : DmaCh → DmaCh) : (s.updDch i f).therm = s.therm := rfl
@[simp] theorem State.updDch_cams (i : Nat) (f : DmaCh → DmaCh) : (s.updDch i f).cams = s.cams := rfl
@[simp] theorem State.updDch_pipe (i : Nat) (f : DmaCh → DmaCh) : (s.updDch i f).pipe = s.pipe := rfl
@[simp] theorem State.updDch_loop (i : Nat) (f : DmaCh → DmaCh) : (s.updDch i f).loop = s.loop := rfl
@[simp] theorem State.updDch_mem (i : Nat) (f : DmaCh → DmaCh) : (s.updDch i f).mem = s.mem := rfl
@[simp] theorem State.updDch_trace (i : Nat) (f : DmaCh → DmaCh) : (s.updDch i f).trace = s.trace := rfl
@[simp] theorem State.updDch_otp (i : Nat) (f : DmaCh → DmaCh) : (s.updDch i f).otp = s.otp := rfl
@[simp] theorem State.updDch_otp2 (i : Nat) (f : DmaCh → DmaCh) : (s.updDch i f).otp2 = s.otp2 := rfl
@[simp] theorem State.updDch_nor (i : Nat) (f : DmaCh → DmaCh) : (s.updDch i f).nor = s.nor := rfl
@[simp] theorem State.updDch_mgmt (i : Nat) (f : DmaCh → DmaCh) : (s.updDch i f).mgmt = s.mgmt := rfl
@[simp] theorem State.updDch_tap (i : Nat) (f : DmaCh → DmaCh) : (s.updDch i f).tap = s.tap := rfl
@[simp] theorem State.updDch_power (i : Nat) (f : DmaCh → DmaCh) : (s.updDch i f).power = s.power := rfl
@[simp] theorem State.updDch_boot (i : Nat) (f : DmaCh → DmaCh) : (s.updDch i f).boot = s.boot := rfl
@[simp] theorem State.updDch_reg (i : Nat) (f : DmaCh → DmaCh) (q : Nat) : (s.updDch i f).reg q = s.reg q := rfl

/-! `updMover` -/

@[simp] theorem State.updMover_pending (i : Nat) (f : Mover → Mover) : (s.updMover i f).pending = s.pending := rfl
@[simp] theorem State.updMover_ident (i : Nat) (f : Mover → Mover) : (s.updMover i f).ident = s.ident := rfl
@[simp] theorem State.updMover_clk (i : Nat) (f : Mover → Mover) : (s.updMover i f).clk = s.clk := rfl
@[simp] theorem State.updMover_free (i : Nat) (f : Mover → Mover) : (s.updMover i f).free = s.free := rfl
@[simp] theorem State.updMover_freeT (i : Nat) (f : Mover → Mover) : (s.updMover i f).freeT = s.freeT := rfl
@[simp] theorem State.updMover_out (i : Nat) (f : Mover → Mover) : (s.updMover i f).out = s.out := rfl
@[simp] theorem State.updMover_regs (i : Nat) (f : Mover → Mover) : (s.updMover i f).regs = s.regs := rfl
@[simp] theorem State.updMover_tabs (i : Nat) (f : Mover → Mover) : (s.updMover i f).tabs = s.tabs := rfl
@[simp] theorem State.updMover_link (i : Nat) (f : Mover → Mover) : (s.updMover i f).link = s.link := rfl
@[simp] theorem State.updMover_banks (i : Nat) (f : Mover → Mover) : (s.updMover i f).banks = s.banks := rfl
@[simp] theorem State.updMover_recv (i : Nat) (f : Mover → Mover) : (s.updMover i f).recv = s.recv := rfl
@[simp] theorem State.updMover_pos (i : Nat) (f : Mover → Mover) : (s.updMover i f).pos = s.pos := rfl
@[simp] theorem State.updMover_dict (i : Nat) (f : Mover → Mover) : (s.updMover i f).dict = s.dict := rfl
@[simp] theorem State.updMover_faults (i : Nat) (f : Mover → Mover) : (s.updMover i f).faults = s.faults := rfl
@[simp] theorem State.updMover_grid (i : Nat) (f : Mover → Mover) : (s.updMover i f).grid = s.grid := rfl
@[simp] theorem State.updMover_cmps (i : Nat) (f : Mover → Mover) : (s.updMover i f).cmps = s.cmps := rfl
@[simp] theorem State.updMover_gpo (i : Nat) (f : Mover → Mover) : (s.updMover i f).gpo = s.gpo := rfl
@[simp] theorem State.updMover_camTrig (i : Nat) (f : Mover → Mover) : (s.updMover i f).camTrig = s.camTrig := rfl
@[simp] theorem State.updMover_ingress (i : Nat) (f : Mover → Mover) : (s.updMover i f).ingress = s.ingress := rfl
@[simp] theorem State.updMover_ports (i : Nat) (f : Mover → Mover) : (s.updMover i f).ports = s.ports := rfl
@[simp] theorem State.updMover_cals (i : Nat) (f : Mover → Mover) : (s.updMover i f).cals = s.cals := rfl
@[simp] theorem State.updMover_chans (i : Nat) (f : Mover → Mover) : (s.updMover i f).chans = s.chans := rfl
@[simp] theorem State.updMover_therm (i : Nat) (f : Mover → Mover) : (s.updMover i f).therm = s.therm := rfl
@[simp] theorem State.updMover_cams (i : Nat) (f : Mover → Mover) : (s.updMover i f).cams = s.cams := rfl
@[simp] theorem State.updMover_pipe (i : Nat) (f : Mover → Mover) : (s.updMover i f).pipe = s.pipe := rfl
@[simp] theorem State.updMover_loop (i : Nat) (f : Mover → Mover) : (s.updMover i f).loop = s.loop := rfl
@[simp] theorem State.updMover_mem (i : Nat) (f : Mover → Mover) : (s.updMover i f).mem = s.mem := rfl
@[simp] theorem State.updMover_trace (i : Nat) (f : Mover → Mover) : (s.updMover i f).trace = s.trace := rfl
@[simp] theorem State.updMover_otp (i : Nat) (f : Mover → Mover) : (s.updMover i f).otp = s.otp := rfl
@[simp] theorem State.updMover_otp2 (i : Nat) (f : Mover → Mover) : (s.updMover i f).otp2 = s.otp2 := rfl
@[simp] theorem State.updMover_nor (i : Nat) (f : Mover → Mover) : (s.updMover i f).nor = s.nor := rfl
@[simp] theorem State.updMover_mgmt (i : Nat) (f : Mover → Mover) : (s.updMover i f).mgmt = s.mgmt := rfl
@[simp] theorem State.updMover_tap (i : Nat) (f : Mover → Mover) : (s.updMover i f).tap = s.tap := rfl
@[simp] theorem State.updMover_power (i : Nat) (f : Mover → Mover) : (s.updMover i f).power = s.power := rfl
@[simp] theorem State.updMover_boot (i : Nat) (f : Mover → Mover) : (s.updMover i f).boot = s.boot := rfl
@[simp] theorem State.updMover_reg (i : Nat) (f : Mover → Mover) (q : Nat) : (s.updMover i f).reg q = s.reg q := rfl

/-! `updLane` -/

@[simp] theorem State.updLane_pending (i : Nat) (f : Lane → Lane) : (s.updLane i f).pending = s.pending := rfl
@[simp] theorem State.updLane_ident (i : Nat) (f : Lane → Lane) : (s.updLane i f).ident = s.ident := rfl
@[simp] theorem State.updLane_clk (i : Nat) (f : Lane → Lane) : (s.updLane i f).clk = s.clk := rfl
@[simp] theorem State.updLane_free (i : Nat) (f : Lane → Lane) : (s.updLane i f).free = s.free := rfl
@[simp] theorem State.updLane_freeT (i : Nat) (f : Lane → Lane) : (s.updLane i f).freeT = s.freeT := rfl
@[simp] theorem State.updLane_out (i : Nat) (f : Lane → Lane) : (s.updLane i f).out = s.out := rfl
@[simp] theorem State.updLane_regs (i : Nat) (f : Lane → Lane) : (s.updLane i f).regs = s.regs := rfl
@[simp] theorem State.updLane_tabs (i : Nat) (f : Lane → Lane) : (s.updLane i f).tabs = s.tabs := rfl
@[simp] theorem State.updLane_banks (i : Nat) (f : Lane → Lane) : (s.updLane i f).banks = s.banks := rfl
@[simp] theorem State.updLane_recv (i : Nat) (f : Lane → Lane) : (s.updLane i f).recv = s.recv := rfl
@[simp] theorem State.updLane_pos (i : Nat) (f : Lane → Lane) : (s.updLane i f).pos = s.pos := rfl
@[simp] theorem State.updLane_dict (i : Nat) (f : Lane → Lane) : (s.updLane i f).dict = s.dict := rfl
@[simp] theorem State.updLane_faults (i : Nat) (f : Lane → Lane) : (s.updLane i f).faults = s.faults := rfl
@[simp] theorem State.updLane_grid (i : Nat) (f : Lane → Lane) : (s.updLane i f).grid = s.grid := rfl
@[simp] theorem State.updLane_cmps (i : Nat) (f : Lane → Lane) : (s.updLane i f).cmps = s.cmps := rfl
@[simp] theorem State.updLane_gpo (i : Nat) (f : Lane → Lane) : (s.updLane i f).gpo = s.gpo := rfl
@[simp] theorem State.updLane_camTrig (i : Nat) (f : Lane → Lane) : (s.updLane i f).camTrig = s.camTrig := rfl
@[simp] theorem State.updLane_ingress (i : Nat) (f : Lane → Lane) : (s.updLane i f).ingress = s.ingress := rfl
@[simp] theorem State.updLane_ports (i : Nat) (f : Lane → Lane) : (s.updLane i f).ports = s.ports := rfl
@[simp] theorem State.updLane_cals (i : Nat) (f : Lane → Lane) : (s.updLane i f).cals = s.cals := rfl
@[simp] theorem State.updLane_chans (i : Nat) (f : Lane → Lane) : (s.updLane i f).chans = s.chans := rfl
@[simp] theorem State.updLane_therm (i : Nat) (f : Lane → Lane) : (s.updLane i f).therm = s.therm := rfl
@[simp] theorem State.updLane_cams (i : Nat) (f : Lane → Lane) : (s.updLane i f).cams = s.cams := rfl
@[simp] theorem State.updLane_pipe (i : Nat) (f : Lane → Lane) : (s.updLane i f).pipe = s.pipe := rfl
@[simp] theorem State.updLane_loop (i : Nat) (f : Lane → Lane) : (s.updLane i f).loop = s.loop := rfl
@[simp] theorem State.updLane_mem (i : Nat) (f : Lane → Lane) : (s.updLane i f).mem = s.mem := rfl
@[simp] theorem State.updLane_dma (i : Nat) (f : Lane → Lane) : (s.updLane i f).dma = s.dma := rfl
@[simp] theorem State.updLane_trace (i : Nat) (f : Lane → Lane) : (s.updLane i f).trace = s.trace := rfl
@[simp] theorem State.updLane_otp (i : Nat) (f : Lane → Lane) : (s.updLane i f).otp = s.otp := rfl
@[simp] theorem State.updLane_otp2 (i : Nat) (f : Lane → Lane) : (s.updLane i f).otp2 = s.otp2 := rfl
@[simp] theorem State.updLane_nor (i : Nat) (f : Lane → Lane) : (s.updLane i f).nor = s.nor := rfl
@[simp] theorem State.updLane_mgmt (i : Nat) (f : Lane → Lane) : (s.updLane i f).mgmt = s.mgmt := rfl
@[simp] theorem State.updLane_tap (i : Nat) (f : Lane → Lane) : (s.updLane i f).tap = s.tap := rfl
@[simp] theorem State.updLane_power (i : Nat) (f : Lane → Lane) : (s.updLane i f).power = s.power := rfl
@[simp] theorem State.updLane_boot (i : Nat) (f : Lane → Lane) : (s.updLane i f).boot = s.boot := rfl
@[simp] theorem State.updLane_reg (i : Nat) (f : Lane → Lane) (q : Nat) : (s.updLane i f).reg q = s.reg q := rfl

/-! `updSrc` -/

@[simp] theorem State.updSrc_pending (i : Nat) (f : Src → Src) : (s.updSrc i f).pending = s.pending := rfl
@[simp] theorem State.updSrc_ident (i : Nat) (f : Src → Src) : (s.updSrc i f).ident = s.ident := rfl
@[simp] theorem State.updSrc_clk (i : Nat) (f : Src → Src) : (s.updSrc i f).clk = s.clk := rfl
@[simp] theorem State.updSrc_free (i : Nat) (f : Src → Src) : (s.updSrc i f).free = s.free := rfl
@[simp] theorem State.updSrc_freeT (i : Nat) (f : Src → Src) : (s.updSrc i f).freeT = s.freeT := rfl
@[simp] theorem State.updSrc_out (i : Nat) (f : Src → Src) : (s.updSrc i f).out = s.out := rfl
@[simp] theorem State.updSrc_regs (i : Nat) (f : Src → Src) : (s.updSrc i f).regs = s.regs := rfl
@[simp] theorem State.updSrc_tabs (i : Nat) (f : Src → Src) : (s.updSrc i f).tabs = s.tabs := rfl
@[simp] theorem State.updSrc_link (i : Nat) (f : Src → Src) : (s.updSrc i f).link = s.link := rfl
@[simp] theorem State.updSrc_banks (i : Nat) (f : Src → Src) : (s.updSrc i f).banks = s.banks := rfl
@[simp] theorem State.updSrc_recv (i : Nat) (f : Src → Src) : (s.updSrc i f).recv = s.recv := rfl
@[simp] theorem State.updSrc_pos (i : Nat) (f : Src → Src) : (s.updSrc i f).pos = s.pos := rfl
@[simp] theorem State.updSrc_dict (i : Nat) (f : Src → Src) : (s.updSrc i f).dict = s.dict := rfl
@[simp] theorem State.updSrc_grid (i : Nat) (f : Src → Src) : (s.updSrc i f).grid = s.grid := rfl
@[simp] theorem State.updSrc_cmps (i : Nat) (f : Src → Src) : (s.updSrc i f).cmps = s.cmps := rfl
@[simp] theorem State.updSrc_gpo (i : Nat) (f : Src → Src) : (s.updSrc i f).gpo = s.gpo := rfl
@[simp] theorem State.updSrc_camTrig (i : Nat) (f : Src → Src) : (s.updSrc i f).camTrig = s.camTrig := rfl
@[simp] theorem State.updSrc_ingress (i : Nat) (f : Src → Src) : (s.updSrc i f).ingress = s.ingress := rfl
@[simp] theorem State.updSrc_ports (i : Nat) (f : Src → Src) : (s.updSrc i f).ports = s.ports := rfl
@[simp] theorem State.updSrc_cals (i : Nat) (f : Src → Src) : (s.updSrc i f).cals = s.cals := rfl
@[simp] theorem State.updSrc_chans (i : Nat) (f : Src → Src) : (s.updSrc i f).chans = s.chans := rfl
@[simp] theorem State.updSrc_therm (i : Nat) (f : Src → Src) : (s.updSrc i f).therm = s.therm := rfl
@[simp] theorem State.updSrc_cams (i : Nat) (f : Src → Src) : (s.updSrc i f).cams = s.cams := rfl
@[simp] theorem State.updSrc_pipe (i : Nat) (f : Src → Src) : (s.updSrc i f).pipe = s.pipe := rfl
@[simp] theorem State.updSrc_loop (i : Nat) (f : Src → Src) : (s.updSrc i f).loop = s.loop := rfl
@[simp] theorem State.updSrc_mem (i : Nat) (f : Src → Src) : (s.updSrc i f).mem = s.mem := rfl
@[simp] theorem State.updSrc_dma (i : Nat) (f : Src → Src) : (s.updSrc i f).dma = s.dma := rfl
@[simp] theorem State.updSrc_trace (i : Nat) (f : Src → Src) : (s.updSrc i f).trace = s.trace := rfl
@[simp] theorem State.updSrc_otp (i : Nat) (f : Src → Src) : (s.updSrc i f).otp = s.otp := rfl
@[simp] theorem State.updSrc_otp2 (i : Nat) (f : Src → Src) : (s.updSrc i f).otp2 = s.otp2 := rfl
@[simp] theorem State.updSrc_nor (i : Nat) (f : Src → Src) : (s.updSrc i f).nor = s.nor := rfl
@[simp] theorem State.updSrc_mgmt (i : Nat) (f : Src → Src) : (s.updSrc i f).mgmt = s.mgmt := rfl
@[simp] theorem State.updSrc_tap (i : Nat) (f : Src → Src) : (s.updSrc i f).tap = s.tap := rfl
@[simp] theorem State.updSrc_power (i : Nat) (f : Src → Src) : (s.updSrc i f).power = s.power := rfl
@[simp] theorem State.updSrc_boot (i : Nat) (f : Src → Src) : (s.updSrc i f).boot = s.boot := rfl
@[simp] theorem State.updSrc_reg (i : Nat) (f : Src → Src) (q : Nat) : (s.updSrc i f).reg q = s.reg q := rfl

/-! `updGroup` -/

@[simp] theorem State.updGroup_pending (i : Nat) (f : Group → Group) : (s.updGroup i f).pending = s.pending := rfl
@[simp] theorem State.updGroup_ident (i : Nat) (f : Group → Group) : (s.updGroup i f).ident = s.ident := rfl
@[simp] theorem State.updGroup_clk (i : Nat) (f : Group → Group) : (s.updGroup i f).clk = s.clk := rfl
@[simp] theorem State.updGroup_free (i : Nat) (f : Group → Group) : (s.updGroup i f).free = s.free := rfl
@[simp] theorem State.updGroup_freeT (i : Nat) (f : Group → Group) : (s.updGroup i f).freeT = s.freeT := rfl
@[simp] theorem State.updGroup_out (i : Nat) (f : Group → Group) : (s.updGroup i f).out = s.out := rfl
@[simp] theorem State.updGroup_regs (i : Nat) (f : Group → Group) : (s.updGroup i f).regs = s.regs := rfl
@[simp] theorem State.updGroup_tabs (i : Nat) (f : Group → Group) : (s.updGroup i f).tabs = s.tabs := rfl
@[simp] theorem State.updGroup_link (i : Nat) (f : Group → Group) : (s.updGroup i f).link = s.link := rfl
@[simp] theorem State.updGroup_banks (i : Nat) (f : Group → Group) : (s.updGroup i f).banks = s.banks := rfl
@[simp] theorem State.updGroup_recv (i : Nat) (f : Group → Group) : (s.updGroup i f).recv = s.recv := rfl
@[simp] theorem State.updGroup_pos (i : Nat) (f : Group → Group) : (s.updGroup i f).pos = s.pos := rfl
@[simp] theorem State.updGroup_faults (i : Nat) (f : Group → Group) : (s.updGroup i f).faults = s.faults := rfl
@[simp] theorem State.updGroup_grid (i : Nat) (f : Group → Group) : (s.updGroup i f).grid = s.grid := rfl
@[simp] theorem State.updGroup_cmps (i : Nat) (f : Group → Group) : (s.updGroup i f).cmps = s.cmps := rfl
@[simp] theorem State.updGroup_gpo (i : Nat) (f : Group → Group) : (s.updGroup i f).gpo = s.gpo := rfl
@[simp] theorem State.updGroup_camTrig (i : Nat) (f : Group → Group) : (s.updGroup i f).camTrig = s.camTrig := rfl
@[simp] theorem State.updGroup_ingress (i : Nat) (f : Group → Group) : (s.updGroup i f).ingress = s.ingress := rfl
@[simp] theorem State.updGroup_ports (i : Nat) (f : Group → Group) : (s.updGroup i f).ports = s.ports := rfl
@[simp] theorem State.updGroup_cals (i : Nat) (f : Group → Group) : (s.updGroup i f).cals = s.cals := rfl
@[simp] theorem State.updGroup_chans (i : Nat) (f : Group → Group) : (s.updGroup i f).chans = s.chans := rfl
@[simp] theorem State.updGroup_therm (i : Nat) (f : Group → Group) : (s.updGroup i f).therm = s.therm := rfl
@[simp] theorem State.updGroup_cams (i : Nat) (f : Group → Group) : (s.updGroup i f).cams = s.cams := rfl
@[simp] theorem State.updGroup_pipe (i : Nat) (f : Group → Group) : (s.updGroup i f).pipe = s.pipe := rfl
@[simp] theorem State.updGroup_loop (i : Nat) (f : Group → Group) : (s.updGroup i f).loop = s.loop := rfl
@[simp] theorem State.updGroup_mem (i : Nat) (f : Group → Group) : (s.updGroup i f).mem = s.mem := rfl
@[simp] theorem State.updGroup_dma (i : Nat) (f : Group → Group) : (s.updGroup i f).dma = s.dma := rfl
@[simp] theorem State.updGroup_trace (i : Nat) (f : Group → Group) : (s.updGroup i f).trace = s.trace := rfl
@[simp] theorem State.updGroup_otp (i : Nat) (f : Group → Group) : (s.updGroup i f).otp = s.otp := rfl
@[simp] theorem State.updGroup_otp2 (i : Nat) (f : Group → Group) : (s.updGroup i f).otp2 = s.otp2 := rfl
@[simp] theorem State.updGroup_nor (i : Nat) (f : Group → Group) : (s.updGroup i f).nor = s.nor := rfl
@[simp] theorem State.updGroup_mgmt (i : Nat) (f : Group → Group) : (s.updGroup i f).mgmt = s.mgmt := rfl
@[simp] theorem State.updGroup_tap (i : Nat) (f : Group → Group) : (s.updGroup i f).tap = s.tap := rfl
@[simp] theorem State.updGroup_power (i : Nat) (f : Group → Group) : (s.updGroup i f).power = s.power := rfl
@[simp] theorem State.updGroup_boot (i : Nat) (f : Group → Group) : (s.updGroup i f).boot = s.boot := rfl
@[simp] theorem State.updGroup_reg (i : Nat) (f : Group → Group) (q : Nat) : (s.updGroup i f).reg q = s.reg q := rfl

/-! `updSess` -/

@[simp] theorem State.updSess_pending (i : Nat) (f : Session → Session) : (s.updSess i f).pending = s.pending := rfl
@[simp] theorem State.updSess_ident (i : Nat) (f : Session → Session) : (s.updSess i f).ident = s.ident := rfl
@[simp] theorem State.updSess_clk (i : Nat) (f : Session → Session) : (s.updSess i f).clk = s.clk := rfl
@[simp] theorem State.updSess_free (i : Nat) (f : Session → Session) : (s.updSess i f).free = s.free := rfl
@[simp] theorem State.updSess_freeT (i : Nat) (f : Session → Session) : (s.updSess i f).freeT = s.freeT := rfl
@[simp] theorem State.updSess_out (i : Nat) (f : Session → Session) : (s.updSess i f).out = s.out := rfl
@[simp] theorem State.updSess_regs (i : Nat) (f : Session → Session) : (s.updSess i f).regs = s.regs := rfl
@[simp] theorem State.updSess_tabs (i : Nat) (f : Session → Session) : (s.updSess i f).tabs = s.tabs := rfl
@[simp] theorem State.updSess_link (i : Nat) (f : Session → Session) : (s.updSess i f).link = s.link := rfl
@[simp] theorem State.updSess_banks (i : Nat) (f : Session → Session) : (s.updSess i f).banks = s.banks := rfl
@[simp] theorem State.updSess_recv (i : Nat) (f : Session → Session) : (s.updSess i f).recv = s.recv := rfl
@[simp] theorem State.updSess_pos (i : Nat) (f : Session → Session) : (s.updSess i f).pos = s.pos := rfl
@[simp] theorem State.updSess_faults (i : Nat) (f : Session → Session) : (s.updSess i f).faults = s.faults := rfl
@[simp] theorem State.updSess_grid (i : Nat) (f : Session → Session) : (s.updSess i f).grid = s.grid := rfl
@[simp] theorem State.updSess_cmps (i : Nat) (f : Session → Session) : (s.updSess i f).cmps = s.cmps := rfl
@[simp] theorem State.updSess_gpo (i : Nat) (f : Session → Session) : (s.updSess i f).gpo = s.gpo := rfl
@[simp] theorem State.updSess_camTrig (i : Nat) (f : Session → Session) : (s.updSess i f).camTrig = s.camTrig := rfl
@[simp] theorem State.updSess_ingress (i : Nat) (f : Session → Session) : (s.updSess i f).ingress = s.ingress := rfl
@[simp] theorem State.updSess_ports (i : Nat) (f : Session → Session) : (s.updSess i f).ports = s.ports := rfl
@[simp] theorem State.updSess_cals (i : Nat) (f : Session → Session) : (s.updSess i f).cals = s.cals := rfl
@[simp] theorem State.updSess_chans (i : Nat) (f : Session → Session) : (s.updSess i f).chans = s.chans := rfl
@[simp] theorem State.updSess_therm (i : Nat) (f : Session → Session) : (s.updSess i f).therm = s.therm := rfl
@[simp] theorem State.updSess_cams (i : Nat) (f : Session → Session) : (s.updSess i f).cams = s.cams := rfl
@[simp] theorem State.updSess_pipe (i : Nat) (f : Session → Session) : (s.updSess i f).pipe = s.pipe := rfl
@[simp] theorem State.updSess_loop (i : Nat) (f : Session → Session) : (s.updSess i f).loop = s.loop := rfl
@[simp] theorem State.updSess_mem (i : Nat) (f : Session → Session) : (s.updSess i f).mem = s.mem := rfl
@[simp] theorem State.updSess_dma (i : Nat) (f : Session → Session) : (s.updSess i f).dma = s.dma := rfl
@[simp] theorem State.updSess_trace (i : Nat) (f : Session → Session) : (s.updSess i f).trace = s.trace := rfl
@[simp] theorem State.updSess_otp (i : Nat) (f : Session → Session) : (s.updSess i f).otp = s.otp := rfl
@[simp] theorem State.updSess_otp2 (i : Nat) (f : Session → Session) : (s.updSess i f).otp2 = s.otp2 := rfl
@[simp] theorem State.updSess_nor (i : Nat) (f : Session → Session) : (s.updSess i f).nor = s.nor := rfl
@[simp] theorem State.updSess_mgmt (i : Nat) (f : Session → Session) : (s.updSess i f).mgmt = s.mgmt := rfl
@[simp] theorem State.updSess_tap (i : Nat) (f : Session → Session) : (s.updSess i f).tap = s.tap := rfl
@[simp] theorem State.updSess_power (i : Nat) (f : Session → Session) : (s.updSess i f).power = s.power := rfl
@[simp] theorem State.updSess_boot (i : Nat) (f : Session → Session) : (s.updSess i f).boot = s.boot := rfl
@[simp] theorem State.updSess_reg (i : Nat) (f : Session → Session) (q : Nat) : (s.updSess i f).reg q = s.reg q := rfl

/-! `updIlane` -/

@[simp] theorem State.updIlane_pending (i : Nat) (f : ImgLane → ImgLane) : (s.updIlane i f).pending = s.pending := rfl
@[simp] theorem State.updIlane_ident (i : Nat) (f : ImgLane → ImgLane) : (s.updIlane i f).ident = s.ident := rfl
@[simp] theorem State.updIlane_clk (i : Nat) (f : ImgLane → ImgLane) : (s.updIlane i f).clk = s.clk := rfl
@[simp] theorem State.updIlane_free (i : Nat) (f : ImgLane → ImgLane) : (s.updIlane i f).free = s.free := rfl
@[simp] theorem State.updIlane_freeT (i : Nat) (f : ImgLane → ImgLane) : (s.updIlane i f).freeT = s.freeT := rfl
@[simp] theorem State.updIlane_out (i : Nat) (f : ImgLane → ImgLane) : (s.updIlane i f).out = s.out := rfl
@[simp] theorem State.updIlane_regs (i : Nat) (f : ImgLane → ImgLane) : (s.updIlane i f).regs = s.regs := rfl
@[simp] theorem State.updIlane_tabs (i : Nat) (f : ImgLane → ImgLane) : (s.updIlane i f).tabs = s.tabs := rfl
@[simp] theorem State.updIlane_link (i : Nat) (f : ImgLane → ImgLane) : (s.updIlane i f).link = s.link := rfl
@[simp] theorem State.updIlane_banks (i : Nat) (f : ImgLane → ImgLane) : (s.updIlane i f).banks = s.banks := rfl
@[simp] theorem State.updIlane_recv (i : Nat) (f : ImgLane → ImgLane) : (s.updIlane i f).recv = s.recv := rfl
@[simp] theorem State.updIlane_pos (i : Nat) (f : ImgLane → ImgLane) : (s.updIlane i f).pos = s.pos := rfl
@[simp] theorem State.updIlane_dict (i : Nat) (f : ImgLane → ImgLane) : (s.updIlane i f).dict = s.dict := rfl
@[simp] theorem State.updIlane_faults (i : Nat) (f : ImgLane → ImgLane) : (s.updIlane i f).faults = s.faults := rfl
@[simp] theorem State.updIlane_grid (i : Nat) (f : ImgLane → ImgLane) : (s.updIlane i f).grid = s.grid := rfl
@[simp] theorem State.updIlane_cmps (i : Nat) (f : ImgLane → ImgLane) : (s.updIlane i f).cmps = s.cmps := rfl
@[simp] theorem State.updIlane_gpo (i : Nat) (f : ImgLane → ImgLane) : (s.updIlane i f).gpo = s.gpo := rfl
@[simp] theorem State.updIlane_camTrig (i : Nat) (f : ImgLane → ImgLane) : (s.updIlane i f).camTrig = s.camTrig := rfl
@[simp] theorem State.updIlane_ports (i : Nat) (f : ImgLane → ImgLane) : (s.updIlane i f).ports = s.ports := rfl
@[simp] theorem State.updIlane_cals (i : Nat) (f : ImgLane → ImgLane) : (s.updIlane i f).cals = s.cals := rfl
@[simp] theorem State.updIlane_chans (i : Nat) (f : ImgLane → ImgLane) : (s.updIlane i f).chans = s.chans := rfl
@[simp] theorem State.updIlane_therm (i : Nat) (f : ImgLane → ImgLane) : (s.updIlane i f).therm = s.therm := rfl
@[simp] theorem State.updIlane_cams (i : Nat) (f : ImgLane → ImgLane) : (s.updIlane i f).cams = s.cams := rfl
@[simp] theorem State.updIlane_pipe (i : Nat) (f : ImgLane → ImgLane) : (s.updIlane i f).pipe = s.pipe := rfl
@[simp] theorem State.updIlane_loop (i : Nat) (f : ImgLane → ImgLane) : (s.updIlane i f).loop = s.loop := rfl
@[simp] theorem State.updIlane_mem (i : Nat) (f : ImgLane → ImgLane) : (s.updIlane i f).mem = s.mem := rfl
@[simp] theorem State.updIlane_dma (i : Nat) (f : ImgLane → ImgLane) : (s.updIlane i f).dma = s.dma := rfl
@[simp] theorem State.updIlane_trace (i : Nat) (f : ImgLane → ImgLane) : (s.updIlane i f).trace = s.trace := rfl
@[simp] theorem State.updIlane_otp (i : Nat) (f : ImgLane → ImgLane) : (s.updIlane i f).otp = s.otp := rfl
@[simp] theorem State.updIlane_otp2 (i : Nat) (f : ImgLane → ImgLane) : (s.updIlane i f).otp2 = s.otp2 := rfl
@[simp] theorem State.updIlane_nor (i : Nat) (f : ImgLane → ImgLane) : (s.updIlane i f).nor = s.nor := rfl
@[simp] theorem State.updIlane_mgmt (i : Nat) (f : ImgLane → ImgLane) : (s.updIlane i f).mgmt = s.mgmt := rfl
@[simp] theorem State.updIlane_tap (i : Nat) (f : ImgLane → ImgLane) : (s.updIlane i f).tap = s.tap := rfl
@[simp] theorem State.updIlane_power (i : Nat) (f : ImgLane → ImgLane) : (s.updIlane i f).power = s.power := rfl
@[simp] theorem State.updIlane_boot (i : Nat) (f : ImgLane → ImgLane) : (s.updIlane i f).boot = s.boot := rfl
@[simp] theorem State.updIlane_reg (i : Nat) (f : ImgLane → ImgLane) (q : Nat) : (s.updIlane i f).reg q = s.reg q := rfl

/-! `updPlane` -/

@[simp] theorem State.updPlane_pending (i : Nat) (f : Plane → Plane) : (s.updPlane i f).pending = s.pending := rfl
@[simp] theorem State.updPlane_ident (i : Nat) (f : Plane → Plane) : (s.updPlane i f).ident = s.ident := rfl
@[simp] theorem State.updPlane_clk (i : Nat) (f : Plane → Plane) : (s.updPlane i f).clk = s.clk := rfl
@[simp] theorem State.updPlane_free (i : Nat) (f : Plane → Plane) : (s.updPlane i f).free = s.free := rfl
@[simp] theorem State.updPlane_freeT (i : Nat) (f : Plane → Plane) : (s.updPlane i f).freeT = s.freeT := rfl
@[simp] theorem State.updPlane_out (i : Nat) (f : Plane → Plane) : (s.updPlane i f).out = s.out := rfl
@[simp] theorem State.updPlane_regs (i : Nat) (f : Plane → Plane) : (s.updPlane i f).regs = s.regs := rfl
@[simp] theorem State.updPlane_tabs (i : Nat) (f : Plane → Plane) : (s.updPlane i f).tabs = s.tabs := rfl
@[simp] theorem State.updPlane_link (i : Nat) (f : Plane → Plane) : (s.updPlane i f).link = s.link := rfl
@[simp] theorem State.updPlane_banks (i : Nat) (f : Plane → Plane) : (s.updPlane i f).banks = s.banks := rfl
@[simp] theorem State.updPlane_recv (i : Nat) (f : Plane → Plane) : (s.updPlane i f).recv = s.recv := rfl
@[simp] theorem State.updPlane_pos (i : Nat) (f : Plane → Plane) : (s.updPlane i f).pos = s.pos := rfl
@[simp] theorem State.updPlane_dict (i : Nat) (f : Plane → Plane) : (s.updPlane i f).dict = s.dict := rfl
@[simp] theorem State.updPlane_faults (i : Nat) (f : Plane → Plane) : (s.updPlane i f).faults = s.faults := rfl
@[simp] theorem State.updPlane_grid (i : Nat) (f : Plane → Plane) : (s.updPlane i f).grid = s.grid := rfl
@[simp] theorem State.updPlane_cmps (i : Nat) (f : Plane → Plane) : (s.updPlane i f).cmps = s.cmps := rfl
@[simp] theorem State.updPlane_gpo (i : Nat) (f : Plane → Plane) : (s.updPlane i f).gpo = s.gpo := rfl
@[simp] theorem State.updPlane_camTrig (i : Nat) (f : Plane → Plane) : (s.updPlane i f).camTrig = s.camTrig := rfl
@[simp] theorem State.updPlane_ports (i : Nat) (f : Plane → Plane) : (s.updPlane i f).ports = s.ports := rfl
@[simp] theorem State.updPlane_cals (i : Nat) (f : Plane → Plane) : (s.updPlane i f).cals = s.cals := rfl
@[simp] theorem State.updPlane_chans (i : Nat) (f : Plane → Plane) : (s.updPlane i f).chans = s.chans := rfl
@[simp] theorem State.updPlane_therm (i : Nat) (f : Plane → Plane) : (s.updPlane i f).therm = s.therm := rfl
@[simp] theorem State.updPlane_cams (i : Nat) (f : Plane → Plane) : (s.updPlane i f).cams = s.cams := rfl
@[simp] theorem State.updPlane_pipe (i : Nat) (f : Plane → Plane) : (s.updPlane i f).pipe = s.pipe := rfl
@[simp] theorem State.updPlane_loop (i : Nat) (f : Plane → Plane) : (s.updPlane i f).loop = s.loop := rfl
@[simp] theorem State.updPlane_mem (i : Nat) (f : Plane → Plane) : (s.updPlane i f).mem = s.mem := rfl
@[simp] theorem State.updPlane_dma (i : Nat) (f : Plane → Plane) : (s.updPlane i f).dma = s.dma := rfl
@[simp] theorem State.updPlane_trace (i : Nat) (f : Plane → Plane) : (s.updPlane i f).trace = s.trace := rfl
@[simp] theorem State.updPlane_otp (i : Nat) (f : Plane → Plane) : (s.updPlane i f).otp = s.otp := rfl
@[simp] theorem State.updPlane_otp2 (i : Nat) (f : Plane → Plane) : (s.updPlane i f).otp2 = s.otp2 := rfl
@[simp] theorem State.updPlane_nor (i : Nat) (f : Plane → Plane) : (s.updPlane i f).nor = s.nor := rfl
@[simp] theorem State.updPlane_mgmt (i : Nat) (f : Plane → Plane) : (s.updPlane i f).mgmt = s.mgmt := rfl
@[simp] theorem State.updPlane_tap (i : Nat) (f : Plane → Plane) : (s.updPlane i f).tap = s.tap := rfl
@[simp] theorem State.updPlane_power (i : Nat) (f : Plane → Plane) : (s.updPlane i f).power = s.power := rfl
@[simp] theorem State.updPlane_boot (i : Nat) (f : Plane → Plane) : (s.updPlane i f).boot = s.boot := rfl
@[simp] theorem State.updPlane_reg (i : Nat) (f : Plane → Plane) (q : Nat) : (s.updPlane i f).reg q = s.reg q := rfl

/-! `updTests` -/

@[simp] theorem State.updTests_pending (n0 : Nat) (c : LoopTest → Bool) (f : LoopTest → LoopTest) : (s.updTests n0 c f).pending = s.pending := rfl
@[simp] theorem State.updTests_ident (n0 : Nat) (c : LoopTest → Bool) (f : LoopTest → LoopTest) : (s.updTests n0 c f).ident = s.ident := rfl
@[simp] theorem State.updTests_clk (n0 : Nat) (c : LoopTest → Bool) (f : LoopTest → LoopTest) : (s.updTests n0 c f).clk = s.clk := rfl
@[simp] theorem State.updTests_free (n0 : Nat) (c : LoopTest → Bool) (f : LoopTest → LoopTest) : (s.updTests n0 c f).free = s.free := rfl
@[simp] theorem State.updTests_freeT (n0 : Nat) (c : LoopTest → Bool) (f : LoopTest → LoopTest) : (s.updTests n0 c f).freeT = s.freeT := rfl
@[simp] theorem State.updTests_out (n0 : Nat) (c : LoopTest → Bool) (f : LoopTest → LoopTest) : (s.updTests n0 c f).out = s.out := rfl
@[simp] theorem State.updTests_regs (n0 : Nat) (c : LoopTest → Bool) (f : LoopTest → LoopTest) : (s.updTests n0 c f).regs = s.regs := rfl
@[simp] theorem State.updTests_tabs (n0 : Nat) (c : LoopTest → Bool) (f : LoopTest → LoopTest) : (s.updTests n0 c f).tabs = s.tabs := rfl
@[simp] theorem State.updTests_link (n0 : Nat) (c : LoopTest → Bool) (f : LoopTest → LoopTest) : (s.updTests n0 c f).link = s.link := rfl
@[simp] theorem State.updTests_banks (n0 : Nat) (c : LoopTest → Bool) (f : LoopTest → LoopTest) : (s.updTests n0 c f).banks = s.banks := rfl
@[simp] theorem State.updTests_recv (n0 : Nat) (c : LoopTest → Bool) (f : LoopTest → LoopTest) : (s.updTests n0 c f).recv = s.recv := rfl
@[simp] theorem State.updTests_pos (n0 : Nat) (c : LoopTest → Bool) (f : LoopTest → LoopTest) : (s.updTests n0 c f).pos = s.pos := rfl
@[simp] theorem State.updTests_dict (n0 : Nat) (c : LoopTest → Bool) (f : LoopTest → LoopTest) : (s.updTests n0 c f).dict = s.dict := rfl
@[simp] theorem State.updTests_faults (n0 : Nat) (c : LoopTest → Bool) (f : LoopTest → LoopTest) : (s.updTests n0 c f).faults = s.faults := rfl
@[simp] theorem State.updTests_grid (n0 : Nat) (c : LoopTest → Bool) (f : LoopTest → LoopTest) : (s.updTests n0 c f).grid = s.grid := rfl
@[simp] theorem State.updTests_cmps (n0 : Nat) (c : LoopTest → Bool) (f : LoopTest → LoopTest) : (s.updTests n0 c f).cmps = s.cmps := rfl
@[simp] theorem State.updTests_gpo (n0 : Nat) (c : LoopTest → Bool) (f : LoopTest → LoopTest) : (s.updTests n0 c f).gpo = s.gpo := rfl
@[simp] theorem State.updTests_camTrig (n0 : Nat) (c : LoopTest → Bool) (f : LoopTest → LoopTest) : (s.updTests n0 c f).camTrig = s.camTrig := rfl
@[simp] theorem State.updTests_ingress (n0 : Nat) (c : LoopTest → Bool) (f : LoopTest → LoopTest) : (s.updTests n0 c f).ingress = s.ingress := rfl
@[simp] theorem State.updTests_ports (n0 : Nat) (c : LoopTest → Bool) (f : LoopTest → LoopTest) : (s.updTests n0 c f).ports = s.ports := rfl
@[simp] theorem State.updTests_cals (n0 : Nat) (c : LoopTest → Bool) (f : LoopTest → LoopTest) : (s.updTests n0 c f).cals = s.cals := rfl
@[simp] theorem State.updTests_chans (n0 : Nat) (c : LoopTest → Bool) (f : LoopTest → LoopTest) : (s.updTests n0 c f).chans = s.chans := rfl
@[simp] theorem State.updTests_therm (n0 : Nat) (c : LoopTest → Bool) (f : LoopTest → LoopTest) : (s.updTests n0 c f).therm = s.therm := rfl
@[simp] theorem State.updTests_cams (n0 : Nat) (c : LoopTest → Bool) (f : LoopTest → LoopTest) : (s.updTests n0 c f).cams = s.cams := rfl
@[simp] theorem State.updTests_pipe (n0 : Nat) (c : LoopTest → Bool) (f : LoopTest → LoopTest) : (s.updTests n0 c f).pipe = s.pipe := rfl
@[simp] theorem State.updTests_mem (n0 : Nat) (c : LoopTest → Bool) (f : LoopTest → LoopTest) : (s.updTests n0 c f).mem = s.mem := rfl
@[simp] theorem State.updTests_dma (n0 : Nat) (c : LoopTest → Bool) (f : LoopTest → LoopTest) : (s.updTests n0 c f).dma = s.dma := rfl
@[simp] theorem State.updTests_trace (n0 : Nat) (c : LoopTest → Bool) (f : LoopTest → LoopTest) : (s.updTests n0 c f).trace = s.trace := rfl
@[simp] theorem State.updTests_otp (n0 : Nat) (c : LoopTest → Bool) (f : LoopTest → LoopTest) : (s.updTests n0 c f).otp = s.otp := rfl
@[simp] theorem State.updTests_otp2 (n0 : Nat) (c : LoopTest → Bool) (f : LoopTest → LoopTest) : (s.updTests n0 c f).otp2 = s.otp2 := rfl
@[simp] theorem State.updTests_nor (n0 : Nat) (c : LoopTest → Bool) (f : LoopTest → LoopTest) : (s.updTests n0 c f).nor = s.nor := rfl
@[simp] theorem State.updTests_mgmt (n0 : Nat) (c : LoopTest → Bool) (f : LoopTest → LoopTest) : (s.updTests n0 c f).mgmt = s.mgmt := rfl
@[simp] theorem State.updTests_tap (n0 : Nat) (c : LoopTest → Bool) (f : LoopTest → LoopTest) : (s.updTests n0 c f).tap = s.tap := rfl
@[simp] theorem State.updTests_power (n0 : Nat) (c : LoopTest → Bool) (f : LoopTest → LoopTest) : (s.updTests n0 c f).power = s.power := rfl
@[simp] theorem State.updTests_boot (n0 : Nat) (c : LoopTest → Bool) (f : LoopTest → LoopTest) : (s.updTests n0 c f).boot = s.boot := rfl
@[simp] theorem State.updTests_reg (n0 : Nat) (c : LoopTest → Bool) (f : LoopTest → LoopTest) (q : Nat) : (s.updTests n0 c f).reg q = s.reg q := rfl

/-! `updLink` -/

@[simp] theorem State.updLink_pending (f : Link → Link) : (s.updLink f).pending = s.pending := rfl
@[simp] theorem State.updLink_ident (f : Link → Link) : (s.updLink f).ident = s.ident := rfl
@[simp] theorem State.updLink_clk (f : Link → Link) : (s.updLink f).clk = s.clk := rfl
@[simp] theorem State.updLink_free (f : Link → Link) : (s.updLink f).free = s.free := rfl
@[simp] theorem State.updLink_freeT (f : Link → Link) : (s.updLink f).freeT = s.freeT := rfl
@[simp] theorem State.updLink_out (f : Link → Link) : (s.updLink f).out = s.out := rfl
@[simp] theorem State.updLink_regs (f : Link → Link) : (s.updLink f).regs = s.regs := rfl
@[simp] theorem State.updLink_tabs (f : Link → Link) : (s.updLink f).tabs = s.tabs := rfl
@[simp] theorem State.updLink_link (f : Link → Link) : (s.updLink f).link = f s.link := rfl
@[simp] theorem State.updLink_banks (f : Link → Link) : (s.updLink f).banks = s.banks := rfl
@[simp] theorem State.updLink_recv (f : Link → Link) : (s.updLink f).recv = s.recv := rfl
@[simp] theorem State.updLink_pos (f : Link → Link) : (s.updLink f).pos = s.pos := rfl
@[simp] theorem State.updLink_dict (f : Link → Link) : (s.updLink f).dict = s.dict := rfl
@[simp] theorem State.updLink_faults (f : Link → Link) : (s.updLink f).faults = s.faults := rfl
@[simp] theorem State.updLink_grid (f : Link → Link) : (s.updLink f).grid = s.grid := rfl
@[simp] theorem State.updLink_cmps (f : Link → Link) : (s.updLink f).cmps = s.cmps := rfl
@[simp] theorem State.updLink_gpo (f : Link → Link) : (s.updLink f).gpo = s.gpo := rfl
@[simp] theorem State.updLink_camTrig (f : Link → Link) : (s.updLink f).camTrig = s.camTrig := rfl
@[simp] theorem State.updLink_ingress (f : Link → Link) : (s.updLink f).ingress = s.ingress := rfl
@[simp] theorem State.updLink_ports (f : Link → Link) : (s.updLink f).ports = s.ports := rfl
@[simp] theorem State.updLink_cals (f : Link → Link) : (s.updLink f).cals = s.cals := rfl
@[simp] theorem State.updLink_chans (f : Link → Link) : (s.updLink f).chans = s.chans := rfl
@[simp] theorem State.updLink_therm (f : Link → Link) : (s.updLink f).therm = s.therm := rfl
@[simp] theorem State.updLink_cams (f : Link → Link) : (s.updLink f).cams = s.cams := rfl
@[simp] theorem State.updLink_pipe (f : Link → Link) : (s.updLink f).pipe = s.pipe := rfl
@[simp] theorem State.updLink_loop (f : Link → Link) : (s.updLink f).loop = s.loop := rfl
@[simp] theorem State.updLink_mem (f : Link → Link) : (s.updLink f).mem = s.mem := rfl
@[simp] theorem State.updLink_dma (f : Link → Link) : (s.updLink f).dma = s.dma := rfl
@[simp] theorem State.updLink_trace (f : Link → Link) : (s.updLink f).trace = s.trace := rfl
@[simp] theorem State.updLink_otp (f : Link → Link) : (s.updLink f).otp = s.otp := rfl
@[simp] theorem State.updLink_otp2 (f : Link → Link) : (s.updLink f).otp2 = s.otp2 := rfl
@[simp] theorem State.updLink_nor (f : Link → Link) : (s.updLink f).nor = s.nor := rfl
@[simp] theorem State.updLink_mgmt (f : Link → Link) : (s.updLink f).mgmt = s.mgmt := rfl
@[simp] theorem State.updLink_tap (f : Link → Link) : (s.updLink f).tap = s.tap := rfl
@[simp] theorem State.updLink_power (f : Link → Link) : (s.updLink f).power = s.power := rfl
@[simp] theorem State.updLink_boot (f : Link → Link) : (s.updLink f).boot = s.boot := rfl
@[simp] theorem State.updLink_reg (f : Link → Link) (q : Nat) : (s.updLink f).reg q = s.reg q := rfl

/-! `updFaults` -/

@[simp] theorem State.updFaults_pending (f : Faults → Faults) : (s.updFaults f).pending = s.pending := rfl
@[simp] theorem State.updFaults_ident (f : Faults → Faults) : (s.updFaults f).ident = s.ident := rfl
@[simp] theorem State.updFaults_clk (f : Faults → Faults) : (s.updFaults f).clk = s.clk := rfl
@[simp] theorem State.updFaults_free (f : Faults → Faults) : (s.updFaults f).free = s.free := rfl
@[simp] theorem State.updFaults_freeT (f : Faults → Faults) : (s.updFaults f).freeT = s.freeT := rfl
@[simp] theorem State.updFaults_out (f : Faults → Faults) : (s.updFaults f).out = s.out := rfl
@[simp] theorem State.updFaults_regs (f : Faults → Faults) : (s.updFaults f).regs = s.regs := rfl
@[simp] theorem State.updFaults_tabs (f : Faults → Faults) : (s.updFaults f).tabs = s.tabs := rfl
@[simp] theorem State.updFaults_link (f : Faults → Faults) : (s.updFaults f).link = s.link := rfl
@[simp] theorem State.updFaults_banks (f : Faults → Faults) : (s.updFaults f).banks = s.banks := rfl
@[simp] theorem State.updFaults_recv (f : Faults → Faults) : (s.updFaults f).recv = s.recv := rfl
@[simp] theorem State.updFaults_pos (f : Faults → Faults) : (s.updFaults f).pos = s.pos := rfl
@[simp] theorem State.updFaults_dict (f : Faults → Faults) : (s.updFaults f).dict = s.dict := rfl
@[simp] theorem State.updFaults_faults (f : Faults → Faults) : (s.updFaults f).faults = f s.faults := rfl
@[simp] theorem State.updFaults_grid (f : Faults → Faults) : (s.updFaults f).grid = s.grid := rfl
@[simp] theorem State.updFaults_cmps (f : Faults → Faults) : (s.updFaults f).cmps = s.cmps := rfl
@[simp] theorem State.updFaults_gpo (f : Faults → Faults) : (s.updFaults f).gpo = s.gpo := rfl
@[simp] theorem State.updFaults_camTrig (f : Faults → Faults) : (s.updFaults f).camTrig = s.camTrig := rfl
@[simp] theorem State.updFaults_ingress (f : Faults → Faults) : (s.updFaults f).ingress = s.ingress := rfl
@[simp] theorem State.updFaults_ports (f : Faults → Faults) : (s.updFaults f).ports = s.ports := rfl
@[simp] theorem State.updFaults_cals (f : Faults → Faults) : (s.updFaults f).cals = s.cals := rfl
@[simp] theorem State.updFaults_chans (f : Faults → Faults) : (s.updFaults f).chans = s.chans := rfl
@[simp] theorem State.updFaults_therm (f : Faults → Faults) : (s.updFaults f).therm = s.therm := rfl
@[simp] theorem State.updFaults_cams (f : Faults → Faults) : (s.updFaults f).cams = s.cams := rfl
@[simp] theorem State.updFaults_pipe (f : Faults → Faults) : (s.updFaults f).pipe = s.pipe := rfl
@[simp] theorem State.updFaults_loop (f : Faults → Faults) : (s.updFaults f).loop = s.loop := rfl
@[simp] theorem State.updFaults_mem (f : Faults → Faults) : (s.updFaults f).mem = s.mem := rfl
@[simp] theorem State.updFaults_dma (f : Faults → Faults) : (s.updFaults f).dma = s.dma := rfl
@[simp] theorem State.updFaults_trace (f : Faults → Faults) : (s.updFaults f).trace = s.trace := rfl
@[simp] theorem State.updFaults_otp (f : Faults → Faults) : (s.updFaults f).otp = s.otp := rfl
@[simp] theorem State.updFaults_otp2 (f : Faults → Faults) : (s.updFaults f).otp2 = s.otp2 := rfl
@[simp] theorem State.updFaults_nor (f : Faults → Faults) : (s.updFaults f).nor = s.nor := rfl
@[simp] theorem State.updFaults_mgmt (f : Faults → Faults) : (s.updFaults f).mgmt = s.mgmt := rfl
@[simp] theorem State.updFaults_tap (f : Faults → Faults) : (s.updFaults f).tap = s.tap := rfl
@[simp] theorem State.updFaults_power (f : Faults → Faults) : (s.updFaults f).power = s.power := rfl
@[simp] theorem State.updFaults_boot (f : Faults → Faults) : (s.updFaults f).boot = s.boot := rfl
@[simp] theorem State.updFaults_reg (f : Faults → Faults) (q : Nat) : (s.updFaults f).reg q = s.reg q := rfl

/-! `updGrid` -/

@[simp] theorem State.updGrid_pending (f : Grid → Grid) : (s.updGrid f).pending = s.pending := rfl
@[simp] theorem State.updGrid_ident (f : Grid → Grid) : (s.updGrid f).ident = s.ident := rfl
@[simp] theorem State.updGrid_clk (f : Grid → Grid) : (s.updGrid f).clk = s.clk := rfl
@[simp] theorem State.updGrid_free (f : Grid → Grid) : (s.updGrid f).free = s.free := rfl
@[simp] theorem State.updGrid_freeT (f : Grid → Grid) : (s.updGrid f).freeT = s.freeT := rfl
@[simp] theorem State.updGrid_out (f : Grid → Grid) : (s.updGrid f).out = s.out := rfl
@[simp] theorem State.updGrid_regs (f : Grid → Grid) : (s.updGrid f).regs = s.regs := rfl
@[simp] theorem State.updGrid_tabs (f : Grid → Grid) : (s.updGrid f).tabs = s.tabs := rfl
@[simp] theorem State.updGrid_link (f : Grid → Grid) : (s.updGrid f).link = s.link := rfl
@[simp] theorem State.updGrid_banks (f : Grid → Grid) : (s.updGrid f).banks = s.banks := rfl
@[simp] theorem State.updGrid_recv (f : Grid → Grid) : (s.updGrid f).recv = s.recv := rfl
@[simp] theorem State.updGrid_pos (f : Grid → Grid) : (s.updGrid f).pos = s.pos := rfl
@[simp] theorem State.updGrid_dict (f : Grid → Grid) : (s.updGrid f).dict = s.dict := rfl
@[simp] theorem State.updGrid_faults (f : Grid → Grid) : (s.updGrid f).faults = s.faults := rfl
@[simp] theorem State.updGrid_grid (f : Grid → Grid) : (s.updGrid f).grid = f s.grid := rfl
@[simp] theorem State.updGrid_cmps (f : Grid → Grid) : (s.updGrid f).cmps = s.cmps := rfl
@[simp] theorem State.updGrid_gpo (f : Grid → Grid) : (s.updGrid f).gpo = s.gpo := rfl
@[simp] theorem State.updGrid_camTrig (f : Grid → Grid) : (s.updGrid f).camTrig = s.camTrig := rfl
@[simp] theorem State.updGrid_ingress (f : Grid → Grid) : (s.updGrid f).ingress = s.ingress := rfl
@[simp] theorem State.updGrid_ports (f : Grid → Grid) : (s.updGrid f).ports = s.ports := rfl
@[simp] theorem State.updGrid_cals (f : Grid → Grid) : (s.updGrid f).cals = s.cals := rfl
@[simp] theorem State.updGrid_chans (f : Grid → Grid) : (s.updGrid f).chans = s.chans := rfl
@[simp] theorem State.updGrid_therm (f : Grid → Grid) : (s.updGrid f).therm = s.therm := rfl
@[simp] theorem State.updGrid_cams (f : Grid → Grid) : (s.updGrid f).cams = s.cams := rfl
@[simp] theorem State.updGrid_pipe (f : Grid → Grid) : (s.updGrid f).pipe = s.pipe := rfl
@[simp] theorem State.updGrid_loop (f : Grid → Grid) : (s.updGrid f).loop = s.loop := rfl
@[simp] theorem State.updGrid_mem (f : Grid → Grid) : (s.updGrid f).mem = s.mem := rfl
@[simp] theorem State.updGrid_dma (f : Grid → Grid) : (s.updGrid f).dma = s.dma := rfl
@[simp] theorem State.updGrid_trace (f : Grid → Grid) : (s.updGrid f).trace = s.trace := rfl
@[simp] theorem State.updGrid_otp (f : Grid → Grid) : (s.updGrid f).otp = s.otp := rfl
@[simp] theorem State.updGrid_otp2 (f : Grid → Grid) : (s.updGrid f).otp2 = s.otp2 := rfl
@[simp] theorem State.updGrid_nor (f : Grid → Grid) : (s.updGrid f).nor = s.nor := rfl
@[simp] theorem State.updGrid_mgmt (f : Grid → Grid) : (s.updGrid f).mgmt = s.mgmt := rfl
@[simp] theorem State.updGrid_tap (f : Grid → Grid) : (s.updGrid f).tap = s.tap := rfl
@[simp] theorem State.updGrid_power (f : Grid → Grid) : (s.updGrid f).power = s.power := rfl
@[simp] theorem State.updGrid_boot (f : Grid → Grid) : (s.updGrid f).boot = s.boot := rfl
@[simp] theorem State.updGrid_reg (f : Grid → Grid) (q : Nat) : (s.updGrid f).reg q = s.reg q := rfl

/-! `updIngress` -/

@[simp] theorem State.updIngress_pending (f : Ingress → Ingress) : (s.updIngress f).pending = s.pending := rfl
@[simp] theorem State.updIngress_ident (f : Ingress → Ingress) : (s.updIngress f).ident = s.ident := rfl
@[simp] theorem State.updIngress_clk (f : Ingress → Ingress) : (s.updIngress f).clk = s.clk := rfl
@[simp] theorem State.updIngress_free (f : Ingress → Ingress) : (s.updIngress f).free = s.free := rfl
@[simp] theorem State.updIngress_freeT (f : Ingress → Ingress) : (s.updIngress f).freeT = s.freeT := rfl
@[simp] theorem State.updIngress_out (f : Ingress → Ingress) : (s.updIngress f).out = s.out := rfl
@[simp] theorem State.updIngress_regs (f : Ingress → Ingress) : (s.updIngress f).regs = s.regs := rfl
@[simp] theorem State.updIngress_tabs (f : Ingress → Ingress) : (s.updIngress f).tabs = s.tabs := rfl
@[simp] theorem State.updIngress_link (f : Ingress → Ingress) : (s.updIngress f).link = s.link := rfl
@[simp] theorem State.updIngress_banks (f : Ingress → Ingress) : (s.updIngress f).banks = s.banks := rfl
@[simp] theorem State.updIngress_recv (f : Ingress → Ingress) : (s.updIngress f).recv = s.recv := rfl
@[simp] theorem State.updIngress_pos (f : Ingress → Ingress) : (s.updIngress f).pos = s.pos := rfl
@[simp] theorem State.updIngress_dict (f : Ingress → Ingress) : (s.updIngress f).dict = s.dict := rfl
@[simp] theorem State.updIngress_faults (f : Ingress → Ingress) : (s.updIngress f).faults = s.faults := rfl
@[simp] theorem State.updIngress_grid (f : Ingress → Ingress) : (s.updIngress f).grid = s.grid := rfl
@[simp] theorem State.updIngress_cmps (f : Ingress → Ingress) : (s.updIngress f).cmps = s.cmps := rfl
@[simp] theorem State.updIngress_gpo (f : Ingress → Ingress) : (s.updIngress f).gpo = s.gpo := rfl
@[simp] theorem State.updIngress_camTrig (f : Ingress → Ingress) : (s.updIngress f).camTrig = s.camTrig := rfl
@[simp] theorem State.updIngress_ingress (f : Ingress → Ingress) : (s.updIngress f).ingress = f s.ingress := rfl
@[simp] theorem State.updIngress_ports (f : Ingress → Ingress) : (s.updIngress f).ports = s.ports := rfl
@[simp] theorem State.updIngress_cals (f : Ingress → Ingress) : (s.updIngress f).cals = s.cals := rfl
@[simp] theorem State.updIngress_chans (f : Ingress → Ingress) : (s.updIngress f).chans = s.chans := rfl
@[simp] theorem State.updIngress_therm (f : Ingress → Ingress) : (s.updIngress f).therm = s.therm := rfl
@[simp] theorem State.updIngress_cams (f : Ingress → Ingress) : (s.updIngress f).cams = s.cams := rfl
@[simp] theorem State.updIngress_pipe (f : Ingress → Ingress) : (s.updIngress f).pipe = s.pipe := rfl
@[simp] theorem State.updIngress_loop (f : Ingress → Ingress) : (s.updIngress f).loop = s.loop := rfl
@[simp] theorem State.updIngress_mem (f : Ingress → Ingress) : (s.updIngress f).mem = s.mem := rfl
@[simp] theorem State.updIngress_dma (f : Ingress → Ingress) : (s.updIngress f).dma = s.dma := rfl
@[simp] theorem State.updIngress_trace (f : Ingress → Ingress) : (s.updIngress f).trace = s.trace := rfl
@[simp] theorem State.updIngress_otp (f : Ingress → Ingress) : (s.updIngress f).otp = s.otp := rfl
@[simp] theorem State.updIngress_otp2 (f : Ingress → Ingress) : (s.updIngress f).otp2 = s.otp2 := rfl
@[simp] theorem State.updIngress_nor (f : Ingress → Ingress) : (s.updIngress f).nor = s.nor := rfl
@[simp] theorem State.updIngress_mgmt (f : Ingress → Ingress) : (s.updIngress f).mgmt = s.mgmt := rfl
@[simp] theorem State.updIngress_tap (f : Ingress → Ingress) : (s.updIngress f).tap = s.tap := rfl
@[simp] theorem State.updIngress_power (f : Ingress → Ingress) : (s.updIngress f).power = s.power := rfl
@[simp] theorem State.updIngress_boot (f : Ingress → Ingress) : (s.updIngress f).boot = s.boot := rfl
@[simp] theorem State.updIngress_reg (f : Ingress → Ingress) (q : Nat) : (s.updIngress f).reg q = s.reg q := rfl

/-! `updPower` -/

@[simp] theorem State.updPower_pending (f : Power → Power) : (s.updPower f).pending = s.pending := rfl
@[simp] theorem State.updPower_ident (f : Power → Power) : (s.updPower f).ident = s.ident := rfl
@[simp] theorem State.updPower_clk (f : Power → Power) : (s.updPower f).clk = s.clk := rfl
@[simp] theorem State.updPower_free (f : Power → Power) : (s.updPower f).free = s.free := rfl
@[simp] theorem State.updPower_freeT (f : Power → Power) : (s.updPower f).freeT = s.freeT := rfl
@[simp] theorem State.updPower_out (f : Power → Power) : (s.updPower f).out = s.out := rfl
@[simp] theorem State.updPower_regs (f : Power → Power) : (s.updPower f).regs = s.regs := rfl
@[simp] theorem State.updPower_tabs (f : Power → Power) : (s.updPower f).tabs = s.tabs := rfl
@[simp] theorem State.updPower_link (f : Power → Power) : (s.updPower f).link = s.link := rfl
@[simp] theorem State.updPower_banks (f : Power → Power) : (s.updPower f).banks = s.banks := rfl
@[simp] theorem State.updPower_recv (f : Power → Power) : (s.updPower f).recv = s.recv := rfl
@[simp] theorem State.updPower_pos (f : Power → Power) : (s.updPower f).pos = s.pos := rfl
@[simp] theorem State.updPower_dict (f : Power → Power) : (s.updPower f).dict = s.dict := rfl
@[simp] theorem State.updPower_faults (f : Power → Power) : (s.updPower f).faults = s.faults := rfl
@[simp] theorem State.updPower_grid (f : Power → Power) : (s.updPower f).grid = s.grid := rfl
@[simp] theorem State.updPower_cmps (f : Power → Power) : (s.updPower f).cmps = s.cmps := rfl
@[simp] theorem State.updPower_gpo (f : Power → Power) : (s.updPower f).gpo = s.gpo := rfl
@[simp] theorem State.updPower_camTrig (f : Power → Power) : (s.updPower f).camTrig = s.camTrig := rfl
@[simp] theorem State.updPower_ingress (f : Power → Power) : (s.updPower f).ingress = s.ingress := rfl
@[simp] theorem State.updPower_ports (f : Power → Power) : (s.updPower f).ports = s.ports := rfl
@[simp] theorem State.updPower_cals (f : Power → Power) : (s.updPower f).cals = s.cals := rfl
@[simp] theorem State.updPower_chans (f : Power → Power) : (s.updPower f).chans = s.chans := rfl
@[simp] theorem State.updPower_therm (f : Power → Power) : (s.updPower f).therm = s.therm := rfl
@[simp] theorem State.updPower_cams (f : Power → Power) : (s.updPower f).cams = s.cams := rfl
@[simp] theorem State.updPower_pipe (f : Power → Power) : (s.updPower f).pipe = s.pipe := rfl
@[simp] theorem State.updPower_loop (f : Power → Power) : (s.updPower f).loop = s.loop := rfl
@[simp] theorem State.updPower_mem (f : Power → Power) : (s.updPower f).mem = s.mem := rfl
@[simp] theorem State.updPower_dma (f : Power → Power) : (s.updPower f).dma = s.dma := rfl
@[simp] theorem State.updPower_trace (f : Power → Power) : (s.updPower f).trace = s.trace := rfl
@[simp] theorem State.updPower_otp (f : Power → Power) : (s.updPower f).otp = s.otp := rfl
@[simp] theorem State.updPower_otp2 (f : Power → Power) : (s.updPower f).otp2 = s.otp2 := rfl
@[simp] theorem State.updPower_nor (f : Power → Power) : (s.updPower f).nor = s.nor := rfl
@[simp] theorem State.updPower_mgmt (f : Power → Power) : (s.updPower f).mgmt = s.mgmt := rfl
@[simp] theorem State.updPower_tap (f : Power → Power) : (s.updPower f).tap = s.tap := rfl
@[simp] theorem State.updPower_power (f : Power → Power) : (s.updPower f).power = f s.power := rfl
@[simp] theorem State.updPower_boot (f : Power → Power) : (s.updPower f).boot = s.boot := rfl
@[simp] theorem State.updPower_reg (f : Power → Power) (q : Nat) : (s.updPower f).reg q = s.reg q := rfl

/-! `updMgmt` -/

@[simp] theorem State.updMgmt_pending (f : Mgmt → Mgmt) : (s.updMgmt f).pending = s.pending := rfl
@[simp] theorem State.updMgmt_ident (f : Mgmt → Mgmt) : (s.updMgmt f).ident = s.ident := rfl
@[simp] theorem State.updMgmt_clk (f : Mgmt → Mgmt) : (s.updMgmt f).clk = s.clk := rfl
@[simp] theorem State.updMgmt_free (f : Mgmt → Mgmt) : (s.updMgmt f).free = s.free := rfl
@[simp] theorem State.updMgmt_freeT (f : Mgmt → Mgmt) : (s.updMgmt f).freeT = s.freeT := rfl
@[simp] theorem State.updMgmt_out (f : Mgmt → Mgmt) : (s.updMgmt f).out = s.out := rfl
@[simp] theorem State.updMgmt_regs (f : Mgmt → Mgmt) : (s.updMgmt f).regs = s.regs := rfl
@[simp] theorem State.updMgmt_tabs (f : Mgmt → Mgmt) : (s.updMgmt f).tabs = s.tabs := rfl
@[simp] theorem State.updMgmt_link (f : Mgmt → Mgmt) : (s.updMgmt f).link = s.link := rfl
@[simp] theorem State.updMgmt_banks (f : Mgmt → Mgmt) : (s.updMgmt f).banks = s.banks := rfl
@[simp] theorem State.updMgmt_recv (f : Mgmt → Mgmt) : (s.updMgmt f).recv = s.recv := rfl
@[simp] theorem State.updMgmt_pos (f : Mgmt → Mgmt) : (s.updMgmt f).pos = s.pos := rfl
@[simp] theorem State.updMgmt_dict (f : Mgmt → Mgmt) : (s.updMgmt f).dict = s.dict := rfl
@[simp] theorem State.updMgmt_faults (f : Mgmt → Mgmt) : (s.updMgmt f).faults = s.faults := rfl
@[simp] theorem State.updMgmt_grid (f : Mgmt → Mgmt) : (s.updMgmt f).grid = s.grid := rfl
@[simp] theorem State.updMgmt_cmps (f : Mgmt → Mgmt) : (s.updMgmt f).cmps = s.cmps := rfl
@[simp] theorem State.updMgmt_gpo (f : Mgmt → Mgmt) : (s.updMgmt f).gpo = s.gpo := rfl
@[simp] theorem State.updMgmt_camTrig (f : Mgmt → Mgmt) : (s.updMgmt f).camTrig = s.camTrig := rfl
@[simp] theorem State.updMgmt_ingress (f : Mgmt → Mgmt) : (s.updMgmt f).ingress = s.ingress := rfl
@[simp] theorem State.updMgmt_ports (f : Mgmt → Mgmt) : (s.updMgmt f).ports = s.ports := rfl
@[simp] theorem State.updMgmt_cals (f : Mgmt → Mgmt) : (s.updMgmt f).cals = s.cals := rfl
@[simp] theorem State.updMgmt_chans (f : Mgmt → Mgmt) : (s.updMgmt f).chans = s.chans := rfl
@[simp] theorem State.updMgmt_therm (f : Mgmt → Mgmt) : (s.updMgmt f).therm = s.therm := rfl
@[simp] theorem State.updMgmt_cams (f : Mgmt → Mgmt) : (s.updMgmt f).cams = s.cams := rfl
@[simp] theorem State.updMgmt_pipe (f : Mgmt → Mgmt) : (s.updMgmt f).pipe = s.pipe := rfl
@[simp] theorem State.updMgmt_loop (f : Mgmt → Mgmt) : (s.updMgmt f).loop = s.loop := rfl
@[simp] theorem State.updMgmt_mem (f : Mgmt → Mgmt) : (s.updMgmt f).mem = s.mem := rfl
@[simp] theorem State.updMgmt_dma (f : Mgmt → Mgmt) : (s.updMgmt f).dma = s.dma := rfl
@[simp] theorem State.updMgmt_trace (f : Mgmt → Mgmt) : (s.updMgmt f).trace = s.trace := rfl
@[simp] theorem State.updMgmt_otp (f : Mgmt → Mgmt) : (s.updMgmt f).otp = s.otp := rfl
@[simp] theorem State.updMgmt_otp2 (f : Mgmt → Mgmt) : (s.updMgmt f).otp2 = s.otp2 := rfl
@[simp] theorem State.updMgmt_nor (f : Mgmt → Mgmt) : (s.updMgmt f).nor = s.nor := rfl
@[simp] theorem State.updMgmt_mgmt (f : Mgmt → Mgmt) : (s.updMgmt f).mgmt = f s.mgmt := rfl
@[simp] theorem State.updMgmt_tap (f : Mgmt → Mgmt) : (s.updMgmt f).tap = s.tap := rfl
@[simp] theorem State.updMgmt_power (f : Mgmt → Mgmt) : (s.updMgmt f).power = s.power := rfl
@[simp] theorem State.updMgmt_boot (f : Mgmt → Mgmt) : (s.updMgmt f).boot = s.boot := rfl
@[simp] theorem State.updMgmt_reg (f : Mgmt → Mgmt) (q : Nat) : (s.updMgmt f).reg q = s.reg q := rfl

/-! `updNor` -/

@[simp] theorem State.updNor_pending (f : Nor → Nor) : (s.updNor f).pending = s.pending := rfl
@[simp] theorem State.updNor_ident (f : Nor → Nor) : (s.updNor f).ident = s.ident := rfl
@[simp] theorem State.updNor_clk (f : Nor → Nor) : (s.updNor f).clk = s.clk := rfl
@[simp] theorem State.updNor_free (f : Nor → Nor) : (s.updNor f).free = s.free := rfl
@[simp] theorem State.updNor_freeT (f : Nor → Nor) : (s.updNor f).freeT = s.freeT := rfl
@[simp] theorem State.updNor_out (f : Nor → Nor) : (s.updNor f).out = s.out := rfl
@[simp] theorem State.updNor_regs (f : Nor → Nor) : (s.updNor f).regs = s.regs := rfl
@[simp] theorem State.updNor_tabs (f : Nor → Nor) : (s.updNor f).tabs = s.tabs := rfl
@[simp] theorem State.updNor_link (f : Nor → Nor) : (s.updNor f).link = s.link := rfl
@[simp] theorem State.updNor_banks (f : Nor → Nor) : (s.updNor f).banks = s.banks := rfl
@[simp] theorem State.updNor_recv (f : Nor → Nor) : (s.updNor f).recv = s.recv := rfl
@[simp] theorem State.updNor_pos (f : Nor → Nor) : (s.updNor f).pos = s.pos := rfl
@[simp] theorem State.updNor_dict (f : Nor → Nor) : (s.updNor f).dict = s.dict := rfl
@[simp] theorem State.updNor_faults (f : Nor → Nor) : (s.updNor f).faults = s.faults := rfl
@[simp] theorem State.updNor_grid (f : Nor → Nor) : (s.updNor f).grid = s.grid := rfl
@[simp] theorem State.updNor_cmps (f : Nor → Nor) : (s.updNor f).cmps = s.cmps := rfl
@[simp] theorem State.updNor_gpo (f : Nor → Nor) : (s.updNor f).gpo = s.gpo := rfl
@[simp] theorem State.updNor_camTrig (f : Nor → Nor) : (s.updNor f).camTrig = s.camTrig := rfl
@[simp] theorem State.updNor_ingress (f : Nor → Nor) : (s.updNor f).ingress = s.ingress := rfl
@[simp] theorem State.updNor_ports (f : Nor → Nor) : (s.updNor f).ports = s.ports := rfl
@[simp] theorem State.updNor_cals (f : Nor → Nor) : (s.updNor f).cals = s.cals := rfl
@[simp] theorem State.updNor_chans (f : Nor → Nor) : (s.updNor f).chans = s.chans := rfl
@[simp] theorem State.updNor_therm (f : Nor → Nor) : (s.updNor f).therm = s.therm := rfl
@[simp] theorem State.updNor_cams (f : Nor → Nor) : (s.updNor f).cams = s.cams := rfl
@[simp] theorem State.updNor_pipe (f : Nor → Nor) : (s.updNor f).pipe = s.pipe := rfl
@[simp] theorem State.updNor_loop (f : Nor → Nor) : (s.updNor f).loop = s.loop := rfl
@[simp] theorem State.updNor_mem (f : Nor → Nor) : (s.updNor f).mem = s.mem := rfl
@[simp] theorem State.updNor_dma (f : Nor → Nor) : (s.updNor f).dma = s.dma := rfl
@[simp] theorem State.updNor_trace (f : Nor → Nor) : (s.updNor f).trace = s.trace := rfl
@[simp] theorem State.updNor_otp (f : Nor → Nor) : (s.updNor f).otp = s.otp := rfl
@[simp] theorem State.updNor_otp2 (f : Nor → Nor) : (s.updNor f).otp2 = s.otp2 := rfl
@[simp] theorem State.updNor_nor (f : Nor → Nor) : (s.updNor f).nor = f s.nor := rfl
@[simp] theorem State.updNor_mgmt (f : Nor → Nor) : (s.updNor f).mgmt = s.mgmt := rfl
@[simp] theorem State.updNor_tap (f : Nor → Nor) : (s.updNor f).tap = s.tap := rfl
@[simp] theorem State.updNor_power (f : Nor → Nor) : (s.updNor f).power = s.power := rfl
@[simp] theorem State.updNor_boot (f : Nor → Nor) : (s.updNor f).boot = s.boot := rfl
@[simp] theorem State.updNor_reg (f : Nor → Nor) (q : Nat) : (s.updNor f).reg q = s.reg q := rfl

/-! `updMem` -/

@[simp] theorem State.updMem_pending (f : Mem → Mem) : (s.updMem f).pending = s.pending := rfl
@[simp] theorem State.updMem_ident (f : Mem → Mem) : (s.updMem f).ident = s.ident := rfl
@[simp] theorem State.updMem_clk (f : Mem → Mem) : (s.updMem f).clk = s.clk := rfl
@[simp] theorem State.updMem_free (f : Mem → Mem) : (s.updMem f).free = s.free := rfl
@[simp] theorem State.updMem_freeT (f : Mem → Mem) : (s.updMem f).freeT = s.freeT := rfl
@[simp] theorem State.updMem_out (f : Mem → Mem) : (s.updMem f).out = s.out := rfl
@[simp] theorem State.updMem_regs (f : Mem → Mem) : (s.updMem f).regs = s.regs := rfl
@[simp] theorem State.updMem_tabs (f : Mem → Mem) : (s.updMem f).tabs = s.tabs := rfl
@[simp] theorem State.updMem_link (f : Mem → Mem) : (s.updMem f).link = s.link := rfl
@[simp] theorem State.updMem_banks (f : Mem → Mem) : (s.updMem f).banks = s.banks := rfl
@[simp] theorem State.updMem_recv (f : Mem → Mem) : (s.updMem f).recv = s.recv := rfl
@[simp] theorem State.updMem_pos (f : Mem → Mem) : (s.updMem f).pos = s.pos := rfl
@[simp] theorem State.updMem_dict (f : Mem → Mem) : (s.updMem f).dict = s.dict := rfl
@[simp] theorem State.updMem_faults (f : Mem → Mem) : (s.updMem f).faults = s.faults := rfl
@[simp] theorem State.updMem_grid (f : Mem → Mem) : (s.updMem f).grid = s.grid := rfl
@[simp] theorem State.updMem_cmps (f : Mem → Mem) : (s.updMem f).cmps = s.cmps := rfl
@[simp] theorem State.updMem_gpo (f : Mem → Mem) : (s.updMem f).gpo = s.gpo := rfl
@[simp] theorem State.updMem_camTrig (f : Mem → Mem) : (s.updMem f).camTrig = s.camTrig := rfl
@[simp] theorem State.updMem_ingress (f : Mem → Mem) : (s.updMem f).ingress = s.ingress := rfl
@[simp] theorem State.updMem_ports (f : Mem → Mem) : (s.updMem f).ports = s.ports := rfl
@[simp] theorem State.updMem_cals (f : Mem → Mem) : (s.updMem f).cals = s.cals := rfl
@[simp] theorem State.updMem_chans (f : Mem → Mem) : (s.updMem f).chans = s.chans := rfl
@[simp] theorem State.updMem_therm (f : Mem → Mem) : (s.updMem f).therm = s.therm := rfl
@[simp] theorem State.updMem_cams (f : Mem → Mem) : (s.updMem f).cams = s.cams := rfl
@[simp] theorem State.updMem_pipe (f : Mem → Mem) : (s.updMem f).pipe = s.pipe := rfl
@[simp] theorem State.updMem_loop (f : Mem → Mem) : (s.updMem f).loop = s.loop := rfl
@[simp] theorem State.updMem_mem (f : Mem → Mem) : (s.updMem f).mem = f s.mem := rfl
@[simp] theorem State.updMem_dma (f : Mem → Mem) : (s.updMem f).dma = s.dma := rfl
@[simp] theorem State.updMem_trace (f : Mem → Mem) : (s.updMem f).trace = s.trace := rfl
@[simp] theorem State.updMem_otp (f : Mem → Mem) : (s.updMem f).otp = s.otp := rfl
@[simp] theorem State.updMem_otp2 (f : Mem → Mem) : (s.updMem f).otp2 = s.otp2 := rfl
@[simp] theorem State.updMem_nor (f : Mem → Mem) : (s.updMem f).nor = s.nor := rfl
@[simp] theorem State.updMem_mgmt (f : Mem → Mem) : (s.updMem f).mgmt = s.mgmt := rfl
@[simp] theorem State.updMem_tap (f : Mem → Mem) : (s.updMem f).tap = s.tap := rfl
@[simp] theorem State.updMem_power (f : Mem → Mem) : (s.updMem f).power = s.power := rfl
@[simp] theorem State.updMem_boot (f : Mem → Mem) : (s.updMem f).boot = s.boot := rfl
@[simp] theorem State.updMem_reg (f : Mem → Mem) (q : Nat) : (s.updMem f).reg q = s.reg q := rfl

/-! `updPipe` -/

@[simp] theorem State.updPipe_pending (f : Pipe → Pipe) : (s.updPipe f).pending = s.pending := rfl
@[simp] theorem State.updPipe_ident (f : Pipe → Pipe) : (s.updPipe f).ident = s.ident := rfl
@[simp] theorem State.updPipe_clk (f : Pipe → Pipe) : (s.updPipe f).clk = s.clk := rfl
@[simp] theorem State.updPipe_free (f : Pipe → Pipe) : (s.updPipe f).free = s.free := rfl
@[simp] theorem State.updPipe_freeT (f : Pipe → Pipe) : (s.updPipe f).freeT = s.freeT := rfl
@[simp] theorem State.updPipe_out (f : Pipe → Pipe) : (s.updPipe f).out = s.out := rfl
@[simp] theorem State.updPipe_regs (f : Pipe → Pipe) : (s.updPipe f).regs = s.regs := rfl
@[simp] theorem State.updPipe_tabs (f : Pipe → Pipe) : (s.updPipe f).tabs = s.tabs := rfl
@[simp] theorem State.updPipe_link (f : Pipe → Pipe) : (s.updPipe f).link = s.link := rfl
@[simp] theorem State.updPipe_banks (f : Pipe → Pipe) : (s.updPipe f).banks = s.banks := rfl
@[simp] theorem State.updPipe_recv (f : Pipe → Pipe) : (s.updPipe f).recv = s.recv := rfl
@[simp] theorem State.updPipe_pos (f : Pipe → Pipe) : (s.updPipe f).pos = s.pos := rfl
@[simp] theorem State.updPipe_dict (f : Pipe → Pipe) : (s.updPipe f).dict = s.dict := rfl
@[simp] theorem State.updPipe_faults (f : Pipe → Pipe) : (s.updPipe f).faults = s.faults := rfl
@[simp] theorem State.updPipe_grid (f : Pipe → Pipe) : (s.updPipe f).grid = s.grid := rfl
@[simp] theorem State.updPipe_cmps (f : Pipe → Pipe) : (s.updPipe f).cmps = s.cmps := rfl
@[simp] theorem State.updPipe_gpo (f : Pipe → Pipe) : (s.updPipe f).gpo = s.gpo := rfl
@[simp] theorem State.updPipe_camTrig (f : Pipe → Pipe) : (s.updPipe f).camTrig = s.camTrig := rfl
@[simp] theorem State.updPipe_ingress (f : Pipe → Pipe) : (s.updPipe f).ingress = s.ingress := rfl
@[simp] theorem State.updPipe_ports (f : Pipe → Pipe) : (s.updPipe f).ports = s.ports := rfl
@[simp] theorem State.updPipe_cals (f : Pipe → Pipe) : (s.updPipe f).cals = s.cals := rfl
@[simp] theorem State.updPipe_chans (f : Pipe → Pipe) : (s.updPipe f).chans = s.chans := rfl
@[simp] theorem State.updPipe_therm (f : Pipe → Pipe) : (s.updPipe f).therm = s.therm := rfl
@[simp] theorem State.updPipe_cams (f : Pipe → Pipe) : (s.updPipe f).cams = s.cams := rfl
@[simp] theorem State.updPipe_pipe (f : Pipe → Pipe) : (s.updPipe f).pipe = f s.pipe := rfl
@[simp] theorem State.updPipe_loop (f : Pipe → Pipe) : (s.updPipe f).loop = s.loop := rfl
@[simp] theorem State.updPipe_mem (f : Pipe → Pipe) : (s.updPipe f).mem = s.mem := rfl
@[simp] theorem State.updPipe_dma (f : Pipe → Pipe) : (s.updPipe f).dma = s.dma := rfl
@[simp] theorem State.updPipe_trace (f : Pipe → Pipe) : (s.updPipe f).trace = s.trace := rfl
@[simp] theorem State.updPipe_otp (f : Pipe → Pipe) : (s.updPipe f).otp = s.otp := rfl
@[simp] theorem State.updPipe_otp2 (f : Pipe → Pipe) : (s.updPipe f).otp2 = s.otp2 := rfl
@[simp] theorem State.updPipe_nor (f : Pipe → Pipe) : (s.updPipe f).nor = s.nor := rfl
@[simp] theorem State.updPipe_mgmt (f : Pipe → Pipe) : (s.updPipe f).mgmt = s.mgmt := rfl
@[simp] theorem State.updPipe_tap (f : Pipe → Pipe) : (s.updPipe f).tap = s.tap := rfl
@[simp] theorem State.updPipe_power (f : Pipe → Pipe) : (s.updPipe f).power = s.power := rfl
@[simp] theorem State.updPipe_boot (f : Pipe → Pipe) : (s.updPipe f).boot = s.boot := rfl
@[simp] theorem State.updPipe_reg (f : Pipe → Pipe) (q : Nat) : (s.updPipe f).reg q = s.reg q := rfl

/-! `updPos` -/

@[simp] theorem State.updPos_pending (f : Pos → Pos) : (s.updPos f).pending = s.pending := rfl
@[simp] theorem State.updPos_ident (f : Pos → Pos) : (s.updPos f).ident = s.ident := rfl
@[simp] theorem State.updPos_clk (f : Pos → Pos) : (s.updPos f).clk = s.clk := rfl
@[simp] theorem State.updPos_free (f : Pos → Pos) : (s.updPos f).free = s.free := rfl
@[simp] theorem State.updPos_freeT (f : Pos → Pos) : (s.updPos f).freeT = s.freeT := rfl
@[simp] theorem State.updPos_out (f : Pos → Pos) : (s.updPos f).out = s.out := rfl
@[simp] theorem State.updPos_regs (f : Pos → Pos) : (s.updPos f).regs = s.regs := rfl
@[simp] theorem State.updPos_tabs (f : Pos → Pos) : (s.updPos f).tabs = s.tabs := rfl
@[simp] theorem State.updPos_link (f : Pos → Pos) : (s.updPos f).link = s.link := rfl
@[simp] theorem State.updPos_banks (f : Pos → Pos) : (s.updPos f).banks = s.banks := rfl
@[simp] theorem State.updPos_recv (f : Pos → Pos) : (s.updPos f).recv = s.recv := rfl
@[simp] theorem State.updPos_pos (f : Pos → Pos) : (s.updPos f).pos = f s.pos := rfl
@[simp] theorem State.updPos_dict (f : Pos → Pos) : (s.updPos f).dict = s.dict := rfl
@[simp] theorem State.updPos_faults (f : Pos → Pos) : (s.updPos f).faults = s.faults := rfl
@[simp] theorem State.updPos_grid (f : Pos → Pos) : (s.updPos f).grid = s.grid := rfl
@[simp] theorem State.updPos_cmps (f : Pos → Pos) : (s.updPos f).cmps = s.cmps := rfl
@[simp] theorem State.updPos_gpo (f : Pos → Pos) : (s.updPos f).gpo = s.gpo := rfl
@[simp] theorem State.updPos_camTrig (f : Pos → Pos) : (s.updPos f).camTrig = s.camTrig := rfl
@[simp] theorem State.updPos_ingress (f : Pos → Pos) : (s.updPos f).ingress = s.ingress := rfl
@[simp] theorem State.updPos_ports (f : Pos → Pos) : (s.updPos f).ports = s.ports := rfl
@[simp] theorem State.updPos_cals (f : Pos → Pos) : (s.updPos f).cals = s.cals := rfl
@[simp] theorem State.updPos_chans (f : Pos → Pos) : (s.updPos f).chans = s.chans := rfl
@[simp] theorem State.updPos_therm (f : Pos → Pos) : (s.updPos f).therm = s.therm := rfl
@[simp] theorem State.updPos_cams (f : Pos → Pos) : (s.updPos f).cams = s.cams := rfl
@[simp] theorem State.updPos_pipe (f : Pos → Pos) : (s.updPos f).pipe = s.pipe := rfl
@[simp] theorem State.updPos_loop (f : Pos → Pos) : (s.updPos f).loop = s.loop := rfl
@[simp] theorem State.updPos_mem (f : Pos → Pos) : (s.updPos f).mem = s.mem := rfl
@[simp] theorem State.updPos_dma (f : Pos → Pos) : (s.updPos f).dma = s.dma := rfl
@[simp] theorem State.updPos_trace (f : Pos → Pos) : (s.updPos f).trace = s.trace := rfl
@[simp] theorem State.updPos_otp (f : Pos → Pos) : (s.updPos f).otp = s.otp := rfl
@[simp] theorem State.updPos_otp2 (f : Pos → Pos) : (s.updPos f).otp2 = s.otp2 := rfl
@[simp] theorem State.updPos_nor (f : Pos → Pos) : (s.updPos f).nor = s.nor := rfl
@[simp] theorem State.updPos_mgmt (f : Pos → Pos) : (s.updPos f).mgmt = s.mgmt := rfl
@[simp] theorem State.updPos_tap (f : Pos → Pos) : (s.updPos f).tap = s.tap := rfl
@[simp] theorem State.updPos_power (f : Pos → Pos) : (s.updPos f).power = s.power := rfl
@[simp] theorem State.updPos_boot (f : Pos → Pos) : (s.updPos f).boot = s.boot := rfl
@[simp] theorem State.updPos_reg (f : Pos → Pos) (q : Nat) : (s.updPos f).reg q = s.reg q := rfl

/-! `updRecv` -/

@[simp] theorem State.updRecv_pending (f : Recv → Recv) : (s.updRecv f).pending = s.pending := rfl
@[simp] theorem State.updRecv_ident (f : Recv → Recv) : (s.updRecv f).ident = s.ident := rfl
@[simp] theorem State.updRecv_clk (f : Recv → Recv) : (s.updRecv f).clk = s.clk := rfl
@[simp] theorem State.updRecv_free (f : Recv → Recv) : (s.updRecv f).free = s.free := rfl
@[simp] theorem State.updRecv_freeT (f : Recv → Recv) : (s.updRecv f).freeT = s.freeT := rfl
@[simp] theorem State.updRecv_out (f : Recv → Recv) : (s.updRecv f).out = s.out := rfl
@[simp] theorem State.updRecv_regs (f : Recv → Recv) : (s.updRecv f).regs = s.regs := rfl
@[simp] theorem State.updRecv_tabs (f : Recv → Recv) : (s.updRecv f).tabs = s.tabs := rfl
@[simp] theorem State.updRecv_link (f : Recv → Recv) : (s.updRecv f).link = s.link := rfl
@[simp] theorem State.updRecv_banks (f : Recv → Recv) : (s.updRecv f).banks = s.banks := rfl
@[simp] theorem State.updRecv_recv (f : Recv → Recv) : (s.updRecv f).recv = f s.recv := rfl
@[simp] theorem State.updRecv_pos (f : Recv → Recv) : (s.updRecv f).pos = s.pos := rfl
@[simp] theorem State.updRecv_dict (f : Recv → Recv) : (s.updRecv f).dict = s.dict := rfl
@[simp] theorem State.updRecv_faults (f : Recv → Recv) : (s.updRecv f).faults = s.faults := rfl
@[simp] theorem State.updRecv_grid (f : Recv → Recv) : (s.updRecv f).grid = s.grid := rfl
@[simp] theorem State.updRecv_cmps (f : Recv → Recv) : (s.updRecv f).cmps = s.cmps := rfl
@[simp] theorem State.updRecv_gpo (f : Recv → Recv) : (s.updRecv f).gpo = s.gpo := rfl
@[simp] theorem State.updRecv_camTrig (f : Recv → Recv) : (s.updRecv f).camTrig = s.camTrig := rfl
@[simp] theorem State.updRecv_ingress (f : Recv → Recv) : (s.updRecv f).ingress = s.ingress := rfl
@[simp] theorem State.updRecv_ports (f : Recv → Recv) : (s.updRecv f).ports = s.ports := rfl
@[simp] theorem State.updRecv_cals (f : Recv → Recv) : (s.updRecv f).cals = s.cals := rfl
@[simp] theorem State.updRecv_chans (f : Recv → Recv) : (s.updRecv f).chans = s.chans := rfl
@[simp] theorem State.updRecv_therm (f : Recv → Recv) : (s.updRecv f).therm = s.therm := rfl
@[simp] theorem State.updRecv_cams (f : Recv → Recv) : (s.updRecv f).cams = s.cams := rfl
@[simp] theorem State.updRecv_pipe (f : Recv → Recv) : (s.updRecv f).pipe = s.pipe := rfl
@[simp] theorem State.updRecv_loop (f : Recv → Recv) : (s.updRecv f).loop = s.loop := rfl
@[simp] theorem State.updRecv_mem (f : Recv → Recv) : (s.updRecv f).mem = s.mem := rfl
@[simp] theorem State.updRecv_dma (f : Recv → Recv) : (s.updRecv f).dma = s.dma := rfl
@[simp] theorem State.updRecv_trace (f : Recv → Recv) : (s.updRecv f).trace = s.trace := rfl
@[simp] theorem State.updRecv_otp (f : Recv → Recv) : (s.updRecv f).otp = s.otp := rfl
@[simp] theorem State.updRecv_otp2 (f : Recv → Recv) : (s.updRecv f).otp2 = s.otp2 := rfl
@[simp] theorem State.updRecv_nor (f : Recv → Recv) : (s.updRecv f).nor = s.nor := rfl
@[simp] theorem State.updRecv_mgmt (f : Recv → Recv) : (s.updRecv f).mgmt = s.mgmt := rfl
@[simp] theorem State.updRecv_tap (f : Recv → Recv) : (s.updRecv f).tap = s.tap := rfl
@[simp] theorem State.updRecv_power (f : Recv → Recv) : (s.updRecv f).power = s.power := rfl
@[simp] theorem State.updRecv_boot (f : Recv → Recv) : (s.updRecv f).boot = s.boot := rfl
@[simp] theorem State.updRecv_reg (f : Recv → Recv) (q : Nat) : (s.updRecv f).reg q = s.reg q := rfl

/-! `updBoot` -/

@[simp] theorem State.updBoot_pending (f : Boot → Boot) : (s.updBoot f).pending = s.pending := rfl
@[simp] theorem State.updBoot_ident (f : Boot → Boot) : (s.updBoot f).ident = s.ident := rfl
@[simp] theorem State.updBoot_clk (f : Boot → Boot) : (s.updBoot f).clk = s.clk := rfl
@[simp] theorem State.updBoot_free (f : Boot → Boot) : (s.updBoot f).free = s.free := rfl
@[simp] theorem State.updBoot_freeT (f : Boot → Boot) : (s.updBoot f).freeT = s.freeT := rfl
@[simp] theorem State.updBoot_out (f : Boot → Boot) : (s.updBoot f).out = s.out := rfl
@[simp] theorem State.updBoot_regs (f : Boot → Boot) : (s.updBoot f).regs = s.regs := rfl
@[simp] theorem State.updBoot_tabs (f : Boot → Boot) : (s.updBoot f).tabs = s.tabs := rfl
@[simp] theorem State.updBoot_link (f : Boot → Boot) : (s.updBoot f).link = s.link := rfl
@[simp] theorem State.updBoot_banks (f : Boot → Boot) : (s.updBoot f).banks = s.banks := rfl
@[simp] theorem State.updBoot_recv (f : Boot → Boot) : (s.updBoot f).recv = s.recv := rfl
@[simp] theorem State.updBoot_pos (f : Boot → Boot) : (s.updBoot f).pos = s.pos := rfl
@[simp] theorem State.updBoot_dict (f : Boot → Boot) : (s.updBoot f).dict = s.dict := rfl
@[simp] theorem State.updBoot_faults (f : Boot → Boot) : (s.updBoot f).faults = s.faults := rfl
@[simp] theorem State.updBoot_grid (f : Boot → Boot) : (s.updBoot f).grid = s.grid := rfl
@[simp] theorem State.updBoot_cmps (f : Boot → Boot) : (s.updBoot f).cmps = s.cmps := rfl
@[simp] theorem State.updBoot_gpo (f : Boot → Boot) : (s.updBoot f).gpo = s.gpo := rfl
@[simp] theorem State.updBoot_camTrig (f : Boot → Boot) : (s.updBoot f).camTrig = s.camTrig := rfl
@[simp] theorem State.updBoot_ingress (f : Boot → Boot) : (s.updBoot f).ingress = s.ingress := rfl
@[simp] theorem State.updBoot_ports (f : Boot → Boot) : (s.updBoot f).ports = s.ports := rfl
@[simp] theorem State.updBoot_cals (f : Boot → Boot) : (s.updBoot f).cals = s.cals := rfl
@[simp] theorem State.updBoot_chans (f : Boot → Boot) : (s.updBoot f).chans = s.chans := rfl
@[simp] theorem State.updBoot_therm (f : Boot → Boot) : (s.updBoot f).therm = s.therm := rfl
@[simp] theorem State.updBoot_cams (f : Boot → Boot) : (s.updBoot f).cams = s.cams := rfl
@[simp] theorem State.updBoot_pipe (f : Boot → Boot) : (s.updBoot f).pipe = s.pipe := rfl
@[simp] theorem State.updBoot_loop (f : Boot → Boot) : (s.updBoot f).loop = s.loop := rfl
@[simp] theorem State.updBoot_mem (f : Boot → Boot) : (s.updBoot f).mem = s.mem := rfl
@[simp] theorem State.updBoot_dma (f : Boot → Boot) : (s.updBoot f).dma = s.dma := rfl
@[simp] theorem State.updBoot_trace (f : Boot → Boot) : (s.updBoot f).trace = s.trace := rfl
@[simp] theorem State.updBoot_otp (f : Boot → Boot) : (s.updBoot f).otp = s.otp := rfl
@[simp] theorem State.updBoot_otp2 (f : Boot → Boot) : (s.updBoot f).otp2 = s.otp2 := rfl
@[simp] theorem State.updBoot_nor (f : Boot → Boot) : (s.updBoot f).nor = s.nor := rfl
@[simp] theorem State.updBoot_mgmt (f : Boot → Boot) : (s.updBoot f).mgmt = s.mgmt := rfl
@[simp] theorem State.updBoot_tap (f : Boot → Boot) : (s.updBoot f).tap = s.tap := rfl
@[simp] theorem State.updBoot_power (f : Boot → Boot) : (s.updBoot f).power = s.power := rfl
@[simp] theorem State.updBoot_boot (f : Boot → Boot) : (s.updBoot f).boot = f s.boot := rfl
@[simp] theorem State.updBoot_reg (f : Boot → Boot) (q : Nat) : (s.updBoot f).reg q = s.reg q := rfl

@[simp] theorem State.updCport_pending (p : ChainPort) (f : PortLink → PortLink) : (s.updCport p f).pending = s.pending := by cases p <;> rfl
@[simp] theorem State.updCport_ident (p : ChainPort) (f : PortLink → PortLink) : (s.updCport p f).ident = s.ident := by cases p <;> rfl
@[simp] theorem State.updCport_clk (p : ChainPort) (f : PortLink → PortLink) : (s.updCport p f).clk = s.clk := by cases p <;> rfl
@[simp] theorem State.updCport_free (p : ChainPort) (f : PortLink → PortLink) : (s.updCport p f).free = s.free := by cases p <;> rfl
@[simp] theorem State.updCport_freeT (p : ChainPort) (f : PortLink → PortLink) : (s.updCport p f).freeT = s.freeT := by cases p <;> rfl
@[simp] theorem State.updCport_out (p : ChainPort) (f : PortLink → PortLink) : (s.updCport p f).out = s.out := by cases p <;> rfl
@[simp] theorem State.updCport_regs (p : ChainPort) (f : PortLink → PortLink) : (s.updCport p f).regs = s.regs := by cases p <;> rfl
@[simp] theorem State.updCport_tabs (p : ChainPort) (f : PortLink → PortLink) : (s.updCport p f).tabs = s.tabs := by cases p <;> rfl
@[simp] theorem State.updCport_banks (p : ChainPort) (f : PortLink → PortLink) : (s.updCport p f).banks = s.banks := by cases p <;> rfl
@[simp] theorem State.updCport_recv (p : ChainPort) (f : PortLink → PortLink) : (s.updCport p f).recv = s.recv := by cases p <;> rfl
@[simp] theorem State.updCport_pos (p : ChainPort) (f : PortLink → PortLink) : (s.updCport p f).pos = s.pos := by cases p <;> rfl
@[simp] theorem State.updCport_dict (p : ChainPort) (f : PortLink → PortLink) : (s.updCport p f).dict = s.dict := by cases p <;> rfl
@[simp] theorem State.updCport_faults (p : ChainPort) (f : PortLink → PortLink) : (s.updCport p f).faults = s.faults := by cases p <;> rfl
@[simp] theorem State.updCport_grid (p : ChainPort) (f : PortLink → PortLink) : (s.updCport p f).grid = s.grid := by cases p <;> rfl
@[simp] theorem State.updCport_cmps (p : ChainPort) (f : PortLink → PortLink) : (s.updCport p f).cmps = s.cmps := by cases p <;> rfl
@[simp] theorem State.updCport_gpo (p : ChainPort) (f : PortLink → PortLink) : (s.updCport p f).gpo = s.gpo := by cases p <;> rfl
@[simp] theorem State.updCport_camTrig (p : ChainPort) (f : PortLink → PortLink) : (s.updCport p f).camTrig = s.camTrig := by cases p <;> rfl
@[simp] theorem State.updCport_ingress (p : ChainPort) (f : PortLink → PortLink) : (s.updCport p f).ingress = s.ingress := by cases p <;> rfl
@[simp] theorem State.updCport_ports (p : ChainPort) (f : PortLink → PortLink) : (s.updCport p f).ports = s.ports := by cases p <;> rfl
@[simp] theorem State.updCport_cals (p : ChainPort) (f : PortLink → PortLink) : (s.updCport p f).cals = s.cals := by cases p <;> rfl
@[simp] theorem State.updCport_chans (p : ChainPort) (f : PortLink → PortLink) : (s.updCport p f).chans = s.chans := by cases p <;> rfl
@[simp] theorem State.updCport_therm (p : ChainPort) (f : PortLink → PortLink) : (s.updCport p f).therm = s.therm := by cases p <;> rfl
@[simp] theorem State.updCport_cams (p : ChainPort) (f : PortLink → PortLink) : (s.updCport p f).cams = s.cams := by cases p <;> rfl
@[simp] theorem State.updCport_pipe (p : ChainPort) (f : PortLink → PortLink) : (s.updCport p f).pipe = s.pipe := by cases p <;> rfl
@[simp] theorem State.updCport_loop (p : ChainPort) (f : PortLink → PortLink) : (s.updCport p f).loop = s.loop := by cases p <;> rfl
@[simp] theorem State.updCport_mem (p : ChainPort) (f : PortLink → PortLink) : (s.updCport p f).mem = s.mem := by cases p <;> rfl
@[simp] theorem State.updCport_dma (p : ChainPort) (f : PortLink → PortLink) : (s.updCport p f).dma = s.dma := by cases p <;> rfl
@[simp] theorem State.updCport_trace (p : ChainPort) (f : PortLink → PortLink) : (s.updCport p f).trace = s.trace := by cases p <;> rfl
@[simp] theorem State.updCport_otp (p : ChainPort) (f : PortLink → PortLink) : (s.updCport p f).otp = s.otp := by cases p <;> rfl
@[simp] theorem State.updCport_otp2 (p : ChainPort) (f : PortLink → PortLink) : (s.updCport p f).otp2 = s.otp2 := by cases p <;> rfl
@[simp] theorem State.updCport_nor (p : ChainPort) (f : PortLink → PortLink) : (s.updCport p f).nor = s.nor := by cases p <;> rfl
@[simp] theorem State.updCport_mgmt (p : ChainPort) (f : PortLink → PortLink) : (s.updCport p f).mgmt = s.mgmt := by cases p <;> rfl
@[simp] theorem State.updCport_tap (p : ChainPort) (f : PortLink → PortLink) : (s.updCport p f).tap = s.tap := by cases p <;> rfl
@[simp] theorem State.updCport_power (p : ChainPort) (f : PortLink → PortLink) : (s.updCport p f).power = s.power := by cases p <;> rfl
@[simp] theorem State.updCport_boot (p : ChainPort) (f : PortLink → PortLink) : (s.updCport p f).boot = s.boot := by cases p <;> rfl
@[simp] theorem State.updCport_reg (p : ChainPort) (f : PortLink → PortLink) (q : Nat) : (s.updCport p f).reg q = s.reg q := by cases p <;> rfl
@[simp] theorem State.updCport_cport (p : ChainPort) (f : PortLink → PortLink) : (s.updCport p f).cport p = f (s.cport p) := by cases p <;> rfl

/-! Records after an update of their kind. -/

theorem State.updPort_port (i j : Nat) (f : Port → Port) : (s.updPort i f).port j = if j = i then f (s.port i) else s.port j :=
  Map.get_upd _ i j f
@[simp] theorem State.updPort_port_self (i : Nat) (f : Port → Port) : (s.updPort i f).port i = f (s.port i) := by simp [State.updPort_port]
@[simp] theorem State.updPort_port_ne {i j : Nat} (f : Port → Port) (h : j ≠ i) : (s.updPort i f).port j = s.port j := by simp [State.updPort_port, h]

theorem State.updCal_cal (i j : Nat) (f : CalGroup → CalGroup) : (s.updCal i f).cal j = if j = i then f (s.cal i) else s.cal j :=
  Map.get_upd _ i j f
@[simp] theorem State.updCal_cal_self (i : Nat) (f : CalGroup → CalGroup) : (s.updCal i f).cal i = f (s.cal i) := by simp [State.updCal_cal]
@[simp] theorem State.updCal_cal_ne {i j : Nat} (f : CalGroup → CalGroup) (h : j ≠ i) : (s.updCal i f).cal j = s.cal j := by simp [State.updCal_cal, h]

theorem State.updChan_chan (i j : Nat) (f : CalChan → CalChan) : (s.updChan i f).chan j = if j = i then f (s.chan i) else s.chan j :=
  Map.get_upd _ i j f
@[simp] theorem State.updChan_chan_self (i : Nat) (f : CalChan → CalChan) : (s.updChan i f).chan i = f (s.chan i) := by simp [State.updChan_chan]
@[simp] theorem State.updChan_chan_ne {i j : Nat} (f : CalChan → CalChan) (h : j ≠ i) : (s.updChan i f).chan j = s.chan j := by simp [State.updChan_chan, h]

theorem State.updCam_cam (i j : Nat) (f : Cam → Cam) : (s.updCam i f).cam j = if j = i then f (s.cam i) else s.cam j :=
  Map.get_upd _ i j f
@[simp] theorem State.updCam_cam_self (i : Nat) (f : Cam → Cam) : (s.updCam i f).cam i = f (s.cam i) := by simp [State.updCam_cam]
@[simp] theorem State.updCam_cam_ne {i j : Nat} (f : Cam → Cam) (h : j ≠ i) : (s.updCam i f).cam j = s.cam j := by simp [State.updCam_cam, h]

theorem State.updBank_bank (i j : Nat) (f : Bank → Bank) : (s.updBank i f).bank j = if j = i then f (s.bank i) else s.bank j :=
  Map.get_upd _ i j f
@[simp] theorem State.updBank_bank_self (i : Nat) (f : Bank → Bank) : (s.updBank i f).bank i = f (s.bank i) := by simp [State.updBank_bank]
@[simp] theorem State.updBank_bank_ne {i j : Nat} (f : Bank → Bank) (h : j ≠ i) : (s.updBank i f).bank j = s.bank j := by simp [State.updBank_bank, h]

theorem State.updCmp_cmp (i j : Nat) (f : Cmp → Cmp) : (s.updCmp i f).cmp j = if j = i then f (s.cmp i) else s.cmp j :=
  Map.get_upd _ i j f
@[simp] theorem State.updCmp_cmp_self (i : Nat) (f : Cmp → Cmp) : (s.updCmp i f).cmp i = f (s.cmp i) := by simp [State.updCmp_cmp]
@[simp] theorem State.updCmp_cmp_ne {i j : Nat} (f : Cmp → Cmp) (h : j ≠ i) : (s.updCmp i f).cmp j = s.cmp j := by simp [State.updCmp_cmp, h]

theorem State.updHeat_heat (i j : Nat) (f : HeatPort → HeatPort) : (s.updHeat i f).heat j = if j = i then f (s.heat i) else s.heat j :=
  Map.get_upd _ i j f
@[simp] theorem State.updHeat_heat_self (i : Nat) (f : HeatPort → HeatPort) : (s.updHeat i f).heat i = f (s.heat i) := by simp [State.updHeat_heat]
@[simp] theorem State.updHeat_heat_ne {i j : Nat} (f : HeatPort → HeatPort) (h : j ≠ i) : (s.updHeat i f).heat j = s.heat j := by simp [State.updHeat_heat, h]

theorem State.updSensor_sensor (i j : Nat) (f : Sensor → Sensor) : (s.updSensor i f).sensor j = if j = i then f (s.sensor i) else s.sensor j :=
  Map.get_upd _ i j f
@[simp] theorem State.updSensor_sensor_self (i : Nat) (f : Sensor → Sensor) : (s.updSensor i f).sensor i = f (s.sensor i) := by simp [State.updSensor_sensor]
@[simp] theorem State.updSensor_sensor_ne {i j : Nat} (f : Sensor → Sensor) (h : j ≠ i) : (s.updSensor i f).sensor j = s.sensor j := by simp [State.updSensor_sensor, h]

theorem State.updLport_lport (i j : Nat) (f : LoopPort → LoopPort) : (s.updLport i f).lport j = if j = i then f (s.lport i) else s.lport j :=
  Map.get_upd _ i j f
@[simp] theorem State.updLport_lport_self (i : Nat) (f : LoopPort → LoopPort) : (s.updLport i f).lport i = f (s.lport i) := by simp [State.updLport_lport]
@[simp] theorem State.updLport_lport_ne {i j : Nat} (f : LoopPort → LoopPort) (h : j ≠ i) : (s.updLport i f).lport j = s.lport j := by simp [State.updLport_lport, h]

theorem State.updDch_dch (i j : Nat) (f : DmaCh → DmaCh) : (s.updDch i f).dch j = if j = i then f (s.dch i) else s.dch j :=
  Map.get_upd _ i j f
@[simp] theorem State.updDch_dch_self (i : Nat) (f : DmaCh → DmaCh) : (s.updDch i f).dch i = f (s.dch i) := by simp [State.updDch_dch]
@[simp] theorem State.updDch_dch_ne {i j : Nat} (f : DmaCh → DmaCh) (h : j ≠ i) : (s.updDch i f).dch j = s.dch j := by simp [State.updDch_dch, h]

theorem State.updMover_mover (i j : Nat) (f : Mover → Mover) : (s.updMover i f).mover j = if j = i then f (s.mover i) else s.mover j :=
  Map.get_upd _ i j f
@[simp] theorem State.updMover_mover_self (i : Nat) (f : Mover → Mover) : (s.updMover i f).mover i = f (s.mover i) := by simp [State.updMover_mover]
@[simp] theorem State.updMover_mover_ne {i j : Nat} (f : Mover → Mover) (h : j ≠ i) : (s.updMover i f).mover j = s.mover j := by simp [State.updMover_mover, h]

theorem State.updLane_lane (i j : Nat) (f : Lane → Lane) : (s.updLane i f).lane j = if j = i then f (s.lane i) else s.lane j :=
  Map.get_upd _ i j f
@[simp] theorem State.updLane_lane_self (i : Nat) (f : Lane → Lane) : (s.updLane i f).lane i = f (s.lane i) := by simp [State.updLane_lane]
@[simp] theorem State.updLane_lane_ne {i j : Nat} (f : Lane → Lane) (h : j ≠ i) : (s.updLane i f).lane j = s.lane j := by simp [State.updLane_lane, h]

theorem State.updSrc_src (i j : Nat) (f : Src → Src) : (s.updSrc i f).src j = if j = i then f (s.src i) else s.src j :=
  Map.get_upd _ i j f
@[simp] theorem State.updSrc_src_self (i : Nat) (f : Src → Src) : (s.updSrc i f).src i = f (s.src i) := by simp [State.updSrc_src]
@[simp] theorem State.updSrc_src_ne {i j : Nat} (f : Src → Src) (h : j ≠ i) : (s.updSrc i f).src j = s.src j := by simp [State.updSrc_src, h]

theorem State.updGroup_group (i j : Nat) (f : Group → Group) : (s.updGroup i f).group j = if j = i then f (s.group i) else s.group j :=
  Map.get_upd _ i j f
@[simp] theorem State.updGroup_group_self (i : Nat) (f : Group → Group) : (s.updGroup i f).group i = f (s.group i) := by simp [State.updGroup_group]
@[simp] theorem State.updGroup_group_ne {i j : Nat} (f : Group → Group) (h : j ≠ i) : (s.updGroup i f).group j = s.group j := by simp [State.updGroup_group, h]

theorem State.updSess_sess (i j : Nat) (f : Session → Session) : (s.updSess i f).sess j = if j = i then f (s.sess i) else s.sess j :=
  Map.get_upd _ i j f
@[simp] theorem State.updSess_sess_self (i : Nat) (f : Session → Session) : (s.updSess i f).sess i = f (s.sess i) := by simp [State.updSess_sess]
@[simp] theorem State.updSess_sess_ne {i j : Nat} (f : Session → Session) (h : j ≠ i) : (s.updSess i f).sess j = s.sess j := by simp [State.updSess_sess, h]

theorem State.updIlane_ilane (i j : Nat) (f : ImgLane → ImgLane) : (s.updIlane i f).ilane j = if j = i then f (s.ilane i) else s.ilane j :=
  Map.get_upd _ i j f
@[simp] theorem State.updIlane_ilane_self (i : Nat) (f : ImgLane → ImgLane) : (s.updIlane i f).ilane i = f (s.ilane i) := by simp [State.updIlane_ilane]
@[simp] theorem State.updIlane_ilane_ne {i j : Nat} (f : ImgLane → ImgLane) (h : j ≠ i) : (s.updIlane i f).ilane j = s.ilane j := by simp [State.updIlane_ilane, h]

theorem State.updPlane_plane (i j : Nat) (f : Plane → Plane) : (s.updPlane i f).plane j = if j = i then f (s.plane i) else s.plane j :=
  Map.get_upd _ i j f
@[simp] theorem State.updPlane_plane_self (i : Nat) (f : Plane → Plane) : (s.updPlane i f).plane i = f (s.plane i) := by simp [State.updPlane_plane]
@[simp] theorem State.updPlane_plane_ne {i j : Nat} (f : Plane → Plane) (h : j ≠ i) : (s.updPlane i f).plane j = s.plane j := by simp [State.updPlane_plane, h]

/-! Objects. -/

theorem State.setReg_reg (k q v : Nat) : (s.setReg k v).reg q = if q = k then v % 2 ^ keyWidth k % 2 ^ 72 else s.reg q := by
  unfold State.reg
  rw [State.setReg_regs, Map.get_put]
  split
  · rw [BitVec.toNat_ofNat]
  · rfl

@[simp] theorem State.setReg_reg_ne {k q : Nat} (v : Nat) (h : q ≠ k) : (s.setReg k v).reg q = s.reg q := by simp [State.setReg_reg, h]

/-- A number that fits the object is what it reads. -/
theorem State.setReg_reg_self {k v : Nat} (h : v < 2 ^ keyWidth k) (hw : keyWidth k ≤ 72) : (s.setReg k v).reg k = v := by
  rw [State.setReg_reg, if_pos rfl, Nat.mod_eq_of_lt h, Nat.mod_eq_of_lt (lt_of_lt_of_le h (Nat.pow_le_pow_right (by decide) hw))]

@[simp] theorem State.setRegI_reg_ne {k q : Nat} (v : Int) (h : q ≠ k) : (s.setRegI k v).reg q = s.reg q := State.setReg_reg_ne s _ h
@[simp] theorem State.addReg_reg_ne {k q : Nat} (n : Nat) (h : q ≠ k) : (s.addReg k n).reg q = s.reg q := State.setReg_reg_ne s _ h
@[simp] theorem State.inc_reg_ne {k q : Nat} (h : q ≠ k) : (s.inc k).reg q = s.reg q := State.setReg_reg_ne s _ h
@[simp] theorem State.setRegBit_reg_ne {k q : Nat} (i : Nat) (b : Bool) (h : q ≠ k) : (s.setRegBit k i b).reg q = s.reg q :=
  State.setReg_reg_ne s _ h

/-- A counter of at most 72 bits after one more event. -/
theorem State.inc_reg_self {k : Nat} (hw : keyWidth k ≤ 72) : (s.inc k).reg k = (s.reg k + 1) % 2 ^ keyWidth k := by
  rw [State.inc, State.addReg, State.setReg_reg, if_pos rfl]
  exact Nat.mod_eq_of_lt (lt_of_lt_of_le (Nat.mod_lt _ (by positivity)) (Nat.pow_le_pow_right (by decide) hw))

/-! What a raise, a cause and an own event can do. -/

/-- A raise is queued for the Collector where its source exists, and does nothing else (R476, R478). -/
theorem State.raise_eq (k d : Nat) : s.raise k d = if srcExists s.nPorts k then
    s.updFaults (fun f => { f with raised := f.raised ++ [⟨k, d % 65536, false⟩] }) else s := rfl

@[simp] theorem State.raise_pending (k d : Nat) : (s.raise k d).pending = s.pending := by unfold State.raise; split <;> rfl
@[simp] theorem State.raise_ident (k d : Nat) : (s.raise k d).ident = s.ident := by unfold State.raise; split <;> rfl
@[simp] theorem State.raise_clk (k d : Nat) : (s.raise k d).clk = s.clk := by unfold State.raise; split <;> rfl
@[simp] theorem State.raise_free (k d : Nat) : (s.raise k d).free = s.free := by unfold State.raise; split <;> rfl
@[simp] theorem State.raise_freeT (k d : Nat) : (s.raise k d).freeT = s.freeT := by unfold State.raise; split <;> rfl
@[simp] theorem State.raise_out (k d : Nat) : (s.raise k d).out = s.out := by unfold State.raise; split <;> rfl
@[simp] theorem State.raise_regs (k d : Nat) : (s.raise k d).regs = s.regs := by unfold State.raise; split <;> rfl
@[simp] theorem State.raise_tabs (k d : Nat) : (s.raise k d).tabs = s.tabs := by unfold State.raise; split <;> rfl
@[simp] theorem State.raise_link (k d : Nat) : (s.raise k d).link = s.link := by unfold State.raise; split <;> rfl
@[simp] theorem State.raise_banks (k d : Nat) : (s.raise k d).banks = s.banks := by unfold State.raise; split <;> rfl
@[simp] theorem State.raise_recv (k d : Nat) : (s.raise k d).recv = s.recv := by unfold State.raise; split <;> rfl
@[simp] theorem State.raise_pos (k d : Nat) : (s.raise k d).pos = s.pos := by unfold State.raise; split <;> rfl
@[simp] theorem State.raise_dict (k d : Nat) : (s.raise k d).dict = s.dict := by unfold State.raise; split <;> rfl
@[simp] theorem State.raise_grid (k d : Nat) : (s.raise k d).grid = s.grid := by unfold State.raise; split <;> rfl
@[simp] theorem State.raise_cmps (k d : Nat) : (s.raise k d).cmps = s.cmps := by unfold State.raise; split <;> rfl
@[simp] theorem State.raise_gpo (k d : Nat) : (s.raise k d).gpo = s.gpo := by unfold State.raise; split <;> rfl
@[simp] theorem State.raise_camTrig (k d : Nat) : (s.raise k d).camTrig = s.camTrig := by unfold State.raise; split <;> rfl
@[simp] theorem State.raise_ingress (k d : Nat) : (s.raise k d).ingress = s.ingress := by unfold State.raise; split <;> rfl
@[simp] theorem State.raise_ports (k d : Nat) : (s.raise k d).ports = s.ports := by unfold State.raise; split <;> rfl
@[simp] theorem State.raise_cals (k d : Nat) : (s.raise k d).cals = s.cals := by unfold State.raise; split <;> rfl
@[simp] theorem State.raise_chans (k d : Nat) : (s.raise k d).chans = s.chans := by unfold State.raise; split <;> rfl
@[simp] theorem State.raise_therm (k d : Nat) : (s.raise k d).therm = s.therm := by unfold State.raise; split <;> rfl
@[simp] theorem State.raise_cams (k d : Nat) : (s.raise k d).cams = s.cams := by unfold State.raise; split <;> rfl
@[simp] theorem State.raise_pipe (k d : Nat) : (s.raise k d).pipe = s.pipe := by unfold State.raise; split <;> rfl
@[simp] theorem State.raise_loop (k d : Nat) : (s.raise k d).loop = s.loop := by unfold State.raise; split <;> rfl
@[simp] theorem State.raise_mem (k d : Nat) : (s.raise k d).mem = s.mem := by unfold State.raise; split <;> rfl
@[simp] theorem State.raise_dma (k d : Nat) : (s.raise k d).dma = s.dma := by unfold State.raise; split <;> rfl
@[simp] theorem State.raise_trace (k d : Nat) : (s.raise k d).trace = s.trace := by unfold State.raise; split <;> rfl
@[simp] theorem State.raise_otp (k d : Nat) : (s.raise k d).otp = s.otp := by unfold State.raise; split <;> rfl
@[simp] theorem State.raise_otp2 (k d : Nat) : (s.raise k d).otp2 = s.otp2 := by unfold State.raise; split <;> rfl
@[simp] theorem State.raise_nor (k d : Nat) : (s.raise k d).nor = s.nor := by unfold State.raise; split <;> rfl
@[simp] theorem State.raise_mgmt (k d : Nat) : (s.raise k d).mgmt = s.mgmt := by unfold State.raise; split <;> rfl
@[simp] theorem State.raise_tap (k d : Nat) : (s.raise k d).tap = s.tap := by unfold State.raise; split <;> rfl
@[simp] theorem State.raise_power (k d : Nat) : (s.raise k d).power = s.power := by unfold State.raise; split <;> rfl
@[simp] theorem State.raise_boot (k d : Nat) : (s.raise k d).boot = s.boot := by unfold State.raise; split <;> rfl
@[simp] theorem State.raise_reg (k d : Nat) (q : Nat) : (s.raise k d).reg q = s.reg q := by simp [State.reg]

@[simp] theorem State.cause_pending (k i : Nat) (on : Bool) (d : Nat) : (s.cause k i on d).pending = s.pending := by unfold State.cause; split <;> (try split) <;> simp
@[simp] theorem State.cause_ident (k i : Nat) (on : Bool) (d : Nat) : (s.cause k i on d).ident = s.ident := by unfold State.cause; split <;> (try split) <;> simp
@[simp] theorem State.cause_clk (k i : Nat) (on : Bool) (d : Nat) : (s.cause k i on d).clk = s.clk := by unfold State.cause; split <;> (try split) <;> simp
@[simp] theorem State.cause_free (k i : Nat) (on : Bool) (d : Nat) : (s.cause k i on d).free = s.free := by unfold State.cause; split <;> (try split) <;> simp
@[simp] theorem State.cause_freeT (k i : Nat) (on : Bool) (d : Nat) : (s.cause k i on d).freeT = s.freeT := by unfold State.cause; split <;> (try split) <;> simp
@[simp] theorem State.cause_out (k i : Nat) (on : Bool) (d : Nat) : (s.cause k i on d).out = s.out := by unfold State.cause; split <;> (try split) <;> simp
@[simp] theorem State.cause_regs (k i : Nat) (on : Bool) (d : Nat) : (s.cause k i on d).regs = s.regs := by unfold State.cause; split <;> (try split) <;> simp
@[simp] theorem State.cause_tabs (k i : Nat) (on : Bool) (d : Nat) : (s.cause k i on d).tabs = s.tabs := by unfold State.cause; split <;> (try split) <;> simp
@[simp] theorem State.cause_link (k i : Nat) (on : Bool) (d : Nat) : (s.cause k i on d).link = s.link := by unfold State.cause; split <;> (try split) <;> simp
@[simp] theorem State.cause_banks (k i : Nat) (on : Bool) (d : Nat) : (s.cause k i on d).banks = s.banks := by unfold State.cause; split <;> (try split) <;> simp
@[simp] theorem State.cause_recv (k i : Nat) (on : Bool) (d : Nat) : (s.cause k i on d).recv = s.recv := by unfold State.cause; split <;> (try split) <;> simp
@[simp] theorem State.cause_pos (k i : Nat) (on : Bool) (d : Nat) : (s.cause k i on d).pos = s.pos := by unfold State.cause; split <;> (try split) <;> simp
@[simp] theorem State.cause_dict (k i : Nat) (on : Bool) (d : Nat) : (s.cause k i on d).dict = s.dict := by unfold State.cause; split <;> (try split) <;> simp
@[simp] theorem State.cause_grid (k i : Nat) (on : Bool) (d : Nat) : (s.cause k i on d).grid = s.grid := by unfold State.cause; split <;> (try split) <;> simp
@[simp] theorem State.cause_cmps (k i : Nat) (on : Bool) (d : Nat) : (s.cause k i on d).cmps = s.cmps := by unfold State.cause; split <;> (try split) <;> simp
@[simp] theorem State.cause_gpo (k i : Nat) (on : Bool) (d : Nat) : (s.cause k i on d).gpo = s.gpo := by unfold State.cause; split <;> (try split) <;> simp
@[simp] theorem State.cause_camTrig (k i : Nat) (on : Bool) (d : Nat) : (s.cause k i on d).camTrig = s.camTrig := by unfold State.cause; split <;> (try split) <;> simp
@[simp] theorem State.cause_ingress (k i : Nat) (on : Bool) (d : Nat) : (s.cause k i on d).ingress = s.ingress := by unfold State.cause; split <;> (try split) <;> simp
@[simp] theorem State.cause_ports (k i : Nat) (on : Bool) (d : Nat) : (s.cause k i on d).ports = s.ports := by unfold State.cause; split <;> (try split) <;> simp
@[simp] theorem State.cause_cals (k i : Nat) (on : Bool) (d : Nat) : (s.cause k i on d).cals = s.cals := by unfold State.cause; split <;> (try split) <;> simp
@[simp] theorem State.cause_chans (k i : Nat) (on : Bool) (d : Nat) : (s.cause k i on d).chans = s.chans := by unfold State.cause; split <;> (try split) <;> simp
@[simp] theorem State.cause_therm (k i : Nat) (on : Bool) (d : Nat) : (s.cause k i on d).therm = s.therm := by unfold State.cause; split <;> (try split) <;> simp
@[simp] theorem State.cause_cams (k i : Nat) (on : Bool) (d : Nat) : (s.cause k i on d).cams = s.cams := by unfold State.cause; split <;> (try split) <;> simp
@[simp] theorem State.cause_pipe (k i : Nat) (on : Bool) (d : Nat) : (s.cause k i on d).pipe = s.pipe := by unfold State.cause; split <;> (try split) <;> simp
@[simp] theorem State.cause_loop (k i : Nat) (on : Bool) (d : Nat) : (s.cause k i on d).loop = s.loop := by unfold State.cause; split <;> (try split) <;> simp
@[simp] theorem State.cause_mem (k i : Nat) (on : Bool) (d : Nat) : (s.cause k i on d).mem = s.mem := by unfold State.cause; split <;> (try split) <;> simp
@[simp] theorem State.cause_dma (k i : Nat) (on : Bool) (d : Nat) : (s.cause k i on d).dma = s.dma := by unfold State.cause; split <;> (try split) <;> simp
@[simp] theorem State.cause_trace (k i : Nat) (on : Bool) (d : Nat) : (s.cause k i on d).trace = s.trace := by unfold State.cause; split <;> (try split) <;> simp
@[simp] theorem State.cause_otp (k i : Nat) (on : Bool) (d : Nat) : (s.cause k i on d).otp = s.otp := by unfold State.cause; split <;> (try split) <;> simp
@[simp] theorem State.cause_otp2 (k i : Nat) (on : Bool) (d : Nat) : (s.cause k i on d).otp2 = s.otp2 := by unfold State.cause; split <;> (try split) <;> simp
@[simp] theorem State.cause_nor (k i : Nat) (on : Bool) (d : Nat) : (s.cause k i on d).nor = s.nor := by unfold State.cause; split <;> (try split) <;> simp
@[simp] theorem State.cause_mgmt (k i : Nat) (on : Bool) (d : Nat) : (s.cause k i on d).mgmt = s.mgmt := by unfold State.cause; split <;> (try split) <;> simp
@[simp] theorem State.cause_tap (k i : Nat) (on : Bool) (d : Nat) : (s.cause k i on d).tap = s.tap := by unfold State.cause; split <;> (try split) <;> simp
@[simp] theorem State.cause_power (k i : Nat) (on : Bool) (d : Nat) : (s.cause k i on d).power = s.power := by unfold State.cause; split <;> (try split) <;> simp
@[simp] theorem State.cause_boot (k i : Nat) (on : Bool) (d : Nat) : (s.cause k i on d).boot = s.boot := by unfold State.cause; split <;> (try split) <;> simp
@[simp] theorem State.cause_reg (k i : Nat) (on : Bool) (d : Nat) (q : Nat) : (s.cause k i on d).reg q = s.reg q := by simp [State.reg]

@[simp] theorem State.event_pending (c k a : Nat) : (s.event c k a).pending = s.pending := by unfold State.event; split <;> simp
@[simp] theorem State.event_ident (c k a : Nat) : (s.event c k a).ident = s.ident := by unfold State.event; split <;> simp
@[simp] theorem State.event_clk (c k a : Nat) : (s.event c k a).clk = s.clk := by unfold State.event; split <;> simp
@[simp] theorem State.event_free (c k a : Nat) : (s.event c k a).free = s.free := by unfold State.event; split <;> simp
@[simp] theorem State.event_freeT (c k a : Nat) : (s.event c k a).freeT = s.freeT := by unfold State.event; split <;> simp
@[simp] theorem State.event_out (c k a : Nat) : (s.event c k a).out = s.out := by unfold State.event; split <;> simp
@[simp] theorem State.event_tabs (c k a : Nat) : (s.event c k a).tabs = s.tabs := by unfold State.event; split <;> simp
@[simp] theorem State.event_banks (c k a : Nat) : (s.event c k a).banks = s.banks := by unfold State.event; split <;> simp
@[simp] theorem State.event_recv (c k a : Nat) : (s.event c k a).recv = s.recv := by unfold State.event; split <;> simp
@[simp] theorem State.event_pos (c k a : Nat) : (s.event c k a).pos = s.pos := by unfold State.event; split <;> simp
@[simp] theorem State.event_dict (c k a : Nat) : (s.event c k a).dict = s.dict := by unfold State.event; split <;> simp
@[simp] theorem State.event_faults (c k a : Nat) : (s.event c k a).faults = s.faults := by unfold State.event; split <;> simp
@[simp] theorem State.event_grid (c k a : Nat) : (s.event c k a).grid = s.grid := by unfold State.event; split <;> simp
@[simp] theorem State.event_cmps (c k a : Nat) : (s.event c k a).cmps = s.cmps := by unfold State.event; split <;> simp
@[simp] theorem State.event_gpo (c k a : Nat) : (s.event c k a).gpo = s.gpo := by unfold State.event; split <;> simp
@[simp] theorem State.event_camTrig (c k a : Nat) : (s.event c k a).camTrig = s.camTrig := by unfold State.event; split <;> simp
@[simp] theorem State.event_ingress (c k a : Nat) : (s.event c k a).ingress = s.ingress := by unfold State.event; split <;> simp
@[simp] theorem State.event_ports (c k a : Nat) : (s.event c k a).ports = s.ports := by unfold State.event; split <;> simp
@[simp] theorem State.event_cals (c k a : Nat) : (s.event c k a).cals = s.cals := by unfold State.event; split <;> simp
@[simp] theorem State.event_chans (c k a : Nat) : (s.event c k a).chans = s.chans := by unfold State.event; split <;> simp
@[simp] theorem State.event_therm (c k a : Nat) : (s.event c k a).therm = s.therm := by unfold State.event; split <;> simp
@[simp] theorem State.event_cams (c k a : Nat) : (s.event c k a).cams = s.cams := by unfold State.event; split <;> simp
@[simp] theorem State.event_pipe (c k a : Nat) : (s.event c k a).pipe = s.pipe := by unfold State.event; split <;> simp
@[simp] theorem State.event_loop (c k a : Nat) : (s.event c k a).loop = s.loop := by unfold State.event; split <;> simp
@[simp] theorem State.event_mem (c k a : Nat) : (s.event c k a).mem = s.mem := by unfold State.event; split <;> simp
@[simp] theorem State.event_dma (c k a : Nat) : (s.event c k a).dma = s.dma := by unfold State.event; split <;> simp
@[simp] theorem State.event_trace (c k a : Nat) : (s.event c k a).trace = s.trace := by unfold State.event; split <;> simp
@[simp] theorem State.event_otp (c k a : Nat) : (s.event c k a).otp = s.otp := by unfold State.event; split <;> simp
@[simp] theorem State.event_otp2 (c k a : Nat) : (s.event c k a).otp2 = s.otp2 := by unfold State.event; split <;> simp
@[simp] theorem State.event_nor (c k a : Nat) : (s.event c k a).nor = s.nor := by unfold State.event; split <;> simp
@[simp] theorem State.event_mgmt (c k a : Nat) : (s.event c k a).mgmt = s.mgmt := by unfold State.event; split <;> simp
@[simp] theorem State.event_tap (c k a : Nat) : (s.event c k a).tap = s.tap := by unfold State.event; split <;> simp
@[simp] theorem State.event_power (c k a : Nat) : (s.event c k a).power = s.power := by unfold State.event; split <;> simp
@[simp] theorem State.event_boot (c k a : Nat) : (s.event c k a).boot = s.boot := by unfold State.event; split <;> simp
@[simp] theorem State.event_reg_ne {q : Nat} (c k a : Nat) (h : q ≠ Key.EVENT_LOST) : (s.event c k a).reg q = s.reg q := by
  unfold State.event
  split
  · rfl
  · exact State.inc_reg_ne s h

/-! ## What a word of Scratch Banks 14 and 15 does -/

theorem State.forEach_updLport (l : List Nat) (g : Nat → LoopPort → LoopPort) (t : State) :
    ∃ m, t.forEach l (fun p u => u.updLport p (g p)) = { t with loop := m } := by
  induction l generalizing t with
  | nil => exact ⟨t.loop, rfl⟩
  | cons p l ih =>
    obtain ⟨m, hm⟩ := ih (t.updLport p (g p))
    exact ⟨m, hm⟩

/-- A word that stands for the loop's state changes the loop and nothing else (R438). -/
theorem State.loopWord_loop (x : Nat) (w : Word) : ∃ m, s.loopWord x w = { s with loop := m } := by
  unfold State.loopWord
  generalize List.range 2304 = l
  split
  · exact ⟨s.loop, rfl⟩
  · exact State.forEach_updLport (List.range s.nPorts) (fun p r => l.foldl (LoopPort.take s.clk s.grid.frozenBand x w p) r) s

/-- Reset has every object at its default. -/
@[simp] theorem State.reset_reg (k : Nat) : State.reset.reg k = (regDefault k).toNat := rfl

end Sys2Proof.Machine
end

