-- ==== Sys2Proof/Tests/Slice0.lean ====
section
/-! SUPPORT. Tests of the model on small states, by evaluation: terms that spell no command are refused (`test_…`), and for every
statement of Certificates/Slice0/Obligations.lean a concrete state and operands that meet the hypotheses of each of its clauses
(`met_…`, named after the statement). -/

namespace Sys2Proof.Tests

set_option maxRecDepth 8192
set_option Elab.async false

open Sys2Proof Sys2Proof.Machine

/-! ## Small states -/

/-- Every lane UP, chain time valid at 1,000,000 ct, the die running and Caldera up, with address 1. -/
def up : State :=
  (({ boot := { phase := .running }
      link := { lanes := (List.range 8).map (fun i => (i, { st := .up })), st := .active, ct8 := 8000000, ctValid := true
                u := { up := true, was := true }, d := { up := true, was := true } } } : State).setReg Key.CHAIN_ADDR 1).setReg
    Key.CALDERA_STATE 2

/-- `up` with lane `i` in state `st`. -/
def laneIn (i : Nat) (st : LaneSt) : State := up.updLane i (fun l => { l with st := st })

/-- A frame of the Summit at the U port with its CRC. -/
def frm (kind dest : Nat) (data : List Nat) : Frame :=
  let f : Frame := ⟨.u, 7, BitVec.ofNat 8 dest, 0, true, false, BitVec.ofNat 6 data.length, 0, data.map (BitVec.ofNat 64), 0, false⟩
  { f with crc := BitVec.ofNat 32 (frameCrc kind f) }

/-- A TRAIN block that asks READY. -/
def trainBlk : Block := BitVec.ofNat 64 (0x96C35A0F * 2 ^ 32 + 2 ^ 23 + 0x0178)

/-! ## The whole machine, lanes -/

theorem met_StepRunsFrontCommand : ({ up with pending := [.chainActive] } : State).pending = .chainActive :: [] := by decide

theorem met_EmptyQueuePassesOneClock : up.pending = [] := by decide

theorem met_EveryStepKeepsTheUnit : ∃ t, step up = .next t := ⟨_, rfl⟩

theorem met_NoStepUnburnsOtp :
    let s : State := { up with pending := [.eidle 4], otp := { pairs := 3, vendor := some 0, ktrace := some 0, klog := some 1 } }
    (∃ t, step s = .next t) ∧ pairBurned s.otp.pairs 0 = true ∧ s.otp.ktrace.isSome = true ∧ s.otp.klog.isSome = true :=
  ⟨⟨_, rfl⟩, by decide +kernel⟩

theorem met_CommandsLeaveTheQueueAlone : ∃ t, exec (.eidle 4) up = .next t := ⟨_, rfl⟩

theorem met_EveryWellFormedCommandAnswers : up.fits (.shipStart 15) = true ∧ up.fits (.calStart 3) = true := by decide +kernel

theorem met_CommandsThatDoNothing :
    (let s : State := { up with ident := { part := .px7204 } }
     s.fits (.shipStart 4) = false ∧ s.fits (.shipStart 3) = true ∧ s.fits (.calStart 1) = false ∧ s.clocked = true) := by
  decide +kernel

theorem met_CommandsThatDoNothing_heldDieIgnoresCommands :
    (let s : State := { up with boot := { phase := .held } }
     s.on = false ∧ s.fits (.eidle 7) = true ∧ (Instr.eidle 7).onIsland = false) := by
  decide +kernel

theorem met_LaneBringUp :
    (let s := (laneIn 4 .down); s.on = true ∧ (s.lane 4).st = .down ∧ (s.lane 4).retryAt = none ∧ s.laneHeld 4 = false) ∧
    ((laneIn 4 .signal).lane 4).st = .signal ∧
    (((laneIn 4 .lock).lane 4).st = .lock ∧ readTrain false 2 trainBlk = some (false, trainBlk.toNat) ∧ readTrain false 2 0 = none) ∧
    (((laneIn 4 .train).lane 4).st = .train ∧ bit trainBlk.toNat 23 = true) ∧
    (let s := (up.updLane 4 (fun l => { l with st := .deskew, lastSkew := some 16 })).updLane 5
        (fun l => { l with st := .deskew, lastSkew := some 16 })
     ∀ i ∈ linkLanes (.chain .u), (s.lane i).st = .deskew ∧ (s.lane i).lastSkew = some 16 ∧ (s.lane i).lastSkew ≠ some 15) := by decide +kernel

theorem met_LaneTimeoutWaitsAndCounts :
    (let s := ({ laneIn 4 .signal with clk := 25000 } : State)
     (s.lane 4).st = .signal ∧ (s.lane 4).since + 25000 ≤ s.clk ∧ (laneIn 4 .signal).clk < ((laneIn 4 .signal).lane 4).since + 25000) ∧
    (let s := ({ laneIn 7 .deskew with clk := 25000 } : State)
     (s.lane 7).st = .deskew ∧ (s.lane 7).since + 25000 ≤ s.clk) ∧
    (let s := up.updLane 4 (fun l => { l with st := .down, retryAt := some 7 })
     (s.lane 4).st = .down ∧ (s.lane 4).retryAt = some 7 ∧ s.clk < 7 ∧ 7 ≤ ({ s with clk := 7 } : State).clk) := by decide +kernel

theorem met_LaneLossIdleAndFastExit :
    ((up.lane 0).st = .up ∧ (up.lane 7).st = .up) ∧
    (let s := up.updLane 4 (fun l => { l with bad := List.replicate 14 1000 })
     ((s.lane 4).bad.filter fun t => decide (s.clk < t + 62500)).length < 15) ∧
    (let s := up.updLane 4 (fun l => { l with bad := List.replicate 15 1000 })
     15 ≤ ((s.lane 4).bad.filter fun t => decide (s.clk < t + 62500)).length) ∧
    (∀ i ∈ linkLanes (.chain .u), (up.lane i).st = .up ∧ (up.lane i).skew ≠ 1) ∧
    (let s := laneIn 3 .idle; ∀ i ∈ linkLanes (.image 3), (s.lane i).st = .idle ∧ (4 ≤ i → (s.lane i).skew = 0)) ∧
    (let s := (laneIn 4 .idle).updLane 5 (fun l => { l with st := .idle })
     ∀ i ∈ linkLanes (.chain .u), (s.lane i).st = .idle ∧ (4 ≤ i → (s.lane i).skew = 0)) := by decide +kernel

theorem met_LaneLossIdleAndFastExit_laneCommandsFrame : ∃ t, exec (.eidle 4) up = .next t := ⟨_, rfl⟩

/-! ## The chain -/

/-- `up` after a change of the chain side. -/
def link (f : Link → Link) : State := up.updLink f

theorem met_ChainPortsFollowTheirLanes :
    (let s := link (fun l => { l with st := .down, u := {} })
     (s.cport .u).up = false ∧ s.linkUp .u = true ∧ s.link.st = .down ∧ s.addr ≠ 0 ∧ s.link.events.length < 64) ∧
    (let s := link (fun l => { l with d := {} }); (s.cport .d).up = false ∧ (s.cport .d).was = false ∧ s.linkUp .d = true) ∧
    (let s := link (fun l => { l with d := { was := true } }); (s.cport .d).up = false ∧ (s.cport .d).was = true ∧ s.linkUp .d = true) ∧
    (let s := laneIn 4 .down; let u := s.updCport .u fun c => { c with up := false, probes := [], txq := [] }
     (s.cport .u).up = true ∧ s.linkLost .u = true ∧ u.cutOff = true ∧ u.link.st ≠ .wrapped) ∧
    (let s := ((laneIn 4 .down).setReg Key.RING_MODE 1).updLink (fun l => { l with lastRev := some 998401 })
     let u := s.updCport .u fun c => { c with up := false, probes := [], txq := [] }
     (s.cport .u).up = true ∧ s.linkLost .u = true ∧ u.cutOff = false ∧ u.link.st ∉ [.wrapped, .down, .detached]) ∧
    (let s := (laneIn 4 .down).updLink (fun l => { l with st := .wrapped })
     let u := s.updCport .u fun c => { c with up := false, probes := [], txq := [] }
     (s.cport .u).up = true ∧ s.linkLost .u = true ∧ u.link.st = .wrapped) ∧
    (let s := laneIn 6 .down; let u := (s.updCport .d fun c => { c with up := false, probes := [], txq := [] }).event 0x30 0 0
     (s.cport .d).up = true ∧ s.linkLost .d = true ∧ u.link.st ≠ .wrapped) ∧
    (let s := ((laneIn 6 .down).updLane 4 (fun l => { l with st := .down })).updLink (fun l => { l with st := .wrapped })
     let u := (s.updCport .d fun c => { c with up := false, probes := [], txq := [] }).event 0x30 0 0
     (s.cport .d).up = true ∧ s.linkLost .d = true ∧ u.link.st = .wrapped ∧ u.linkUp .u = false) ∧
    (up.clocked = true ∧ up.linkUp .u = true ∧ up.linkUp .d = true) := by decide +kernel

/-- A PRET of PSEQ 3. -/
def pretBlk : Block := 0x0000000000000035A

theorem met_ProbesMeasureTheLink :
    (up.clocked = true ∧ up.linkUp .u = true ∧ (up.cport .u).probedIn ≠ some (up.ct / 500) ∧ up.flag Key.RING_MODE = false) ∧
    (up.setReg Key.RING_MODE 1).flag Key.RING_MODE = true ∧
    (let s := up.updCport .u (fun c => { c with probes := [⟨3, 0, 0⟩] }); let t : State := { s with clk := 1000 }
     (t.cport .u).probes.find? (fun r => r.pseq == bits pretBlk.toNat 15 8) = some ⟨3, 0, 0⟩ ∧ t.clk ≤ 0 + 1000 ∧
     ∀ r ∈ (s.cport .u).probes, r.pseq = bits pretBlk.toNat 15 8 → r.sent + 1000 < ({ s with clk := 1001 } : State).clk) := by
  decide +kernel

theorem met_ForwardCycleIsPassedOn :
    let s := link (fun l => { l with st := .attached, ctValid := false })
    s.clocked = true ∧ (Instr.cycle .u 0x4B 7 0).wf = true ∧ s.linkUp .u = true ∧ s.linkUp .d = true ∧ s.link.st = .attached ∧
    s.link.ctValid = false ∧ s.link.timeN = none ∧ bit (0x4B : Block).toNat 19 = false := by decide +kernel

theorem met_SummitFramesAreTakenOnce :
    let f := frm 0x03 255 [500]
    up.linkUp f.port = true ∧ ({ f with stomp := true } : Frame).stomp = true ∧
    (f.stomp = false ∧ frameDamaged 0x03 f = false ∧ kindLen 0x03 f.len.toNat = true ∧ f.origin = true) ∧
    frameDamaged 0x03 { f with crc := f.crc + 1 } = true ∧
    (let g := frm 0x03 255 [500, 0]; frameDamaged 0x03 g = false ∧ kindLen 0x03 g.len.toNat = false) ∧
    up.link.seqNew f.seq.toNat = true ∧ f.hopmode = false := by decide +kernel

theorem met_SummitFramesAct :
    (let f := frm 0x03 255 [500]; up.clocked = true ∧ (up.recvAll 0x03 f).2 = true) ∧
    (let f := frm 0x04 255 [1000000, 0]; (up.recvAll 0x04 f).2 = true ∧
      up.geyserReached (bit (f.payload 1) 61) (f.payload 0) = true ∧ bit (f.payload 1) 61 = false) ∧
    (let f := frm 0x04 255 [1000001, 3 * 2 ^ 62]; (up.recvAll 0x04 f).2 = true ∧
      bit (f.payload 1) 61 = false ∧ up.geyserReached false (f.payload 0) = false) ∧
    (let f := frm 0x04 255 [1, 2 ^ 61]; (up.recvAll 0x04 f).2 = true ∧
      bit (f.payload 1) 61 = true ∧ up.geyserReached true (f.payload 0 % 2 ^ 48) = false) ∧
    (let f := frm 0x04 255 [0, 2 ^ 60]; let s := (up.updBank 0 (fun k => { k with st := .armed })).setReg (Key.GEYSER_TARGET 0) 1000001
      (s.recvAll 0x04 f).2 = true ∧
      ((s.recvAll 0x04 f).1.bank (bits (f.payload 1) 63 62)).st = .armed ∧ (s.recvAll 0x04 f).1.latchDue 0 = false ∧
      (up.recvAll 0x04 f).2 = true ∧ ((up.recvAll 0x04 f).1.bank (bits (f.payload 1) 63 62)).st ≠ .armed) ∧
    (let f := frm 0x05 255 [0]; (up.recvAll 0x05 f).2 = true ∧ f.port = .u ∧ f.hops.toNat + 1 < 255) ∧
    (let f : Frame := { frm 0x05 255 [0] with hops := 254 }
     let f : Frame := { f with crc := BitVec.ofNat 32 (frameCrc 0x05 f) }
     (up.recvAll 0x05 f).2 = true ∧ f.port = .u ∧ 254 ≤ f.hops.toNat ∧ ({ f with port := .d } : Frame).port = .d) ∧
    (let s := up.setReg Key.CHAIN_HOP 2
     let f : Frame := { frm 0x07 2 [0, 5 * 2 ^ 56] with hopmode := true }
     let f : Frame := { f with crc := BitVec.ofNat 32 (frameCrc 0x07 f) }
     let r := s.recvSummit 0x07 f (f.hopmode && f.dest.toNat == s.reg Key.CHAIN_HOP && decide (s.reg Key.CHAIN_HOP ≠ 0) &&
          decide (s.reg Key.CHAIN_HOP ≠ 255)) false
     r.2 = true ∧ f.payload 0 = r.1.ident.serial ∧ bits (f.payload 1) 63 56 ∉ [0, 255] ∧ r.1.armed = false ∧ bit (f.payload 1) 55 = false ∧
     (r.1.updPort 0 (fun p => { p with st := .filling })).armed = true ∧ f.payload 0 ≠ ({ r.1 with ident := { serial := 1 } } : State).ident.serial) ∧
    (let f := frm 0x08 255 [0]; let s := link (fun l => { l with st := .attached }); (s.recvAll 0x08 f).2 = true ∧
      (s.recvAll 0x08 f).1.addr ≠ 0 ∧ (s.recvAll 0x08 f).1.link.st = .attached) ∧
    (let f := fun (op : Nat) => frm 0x09 255 [op * 2 ^ 56, 0]
     ∀ op ∈ [1, 2, 3], (up.recvAll 0x09 (f op)).2 = true ∧ ringOp (f op) = op) ∧
    (let f : Frame := { frm 0x07 2 [0, 5 * 2 ^ 56 + 2 ^ 55] with hopmode := true }
     bits (f.payload 1) 63 56 ∉ [0, 255] ∧ bit (f.payload 1) 55 = true ∧ bits (f.payload 1) 63 56 ≠ up.addr) := by
  decide +kernel

theorem met_SummitFramesAct_otherFramesPassThrough :
    up.clocked = true ∧
    up.linkUp .u = true ∧
    (let f := frm 0x02 255 [0, 0, 0]; ownKind (0x02 : BitVec 5).toNat = false ∧ f.stomp = false ∧ frameDamaged 0x02 f = false ∧
      kindLen 0x02 f.len.toNat = true ∧ kindLen 0x1F f.len.toNat = false ∧ f.hopmode = false) := by
  decide +kernel

theorem met_AddressAndReports :
    (let s := up.setReg Key.CHAIN_HOP 254
     let f : Frame := { frm 0x07 254 [0, 254 * 2 ^ 56] with hopmode := true }
     let f : Frame := { f with crc := BitVec.ofNat 32 (frameCrc 0x07 f) }
     s.clocked = true ∧ s.reg Key.CHAIN_HOP ≠ 0 ∧ s.reg Key.CHAIN_HOP ≠ 255 ∧ f.hopmode = true ∧ f.dest.toNat = s.reg Key.CHAIN_HOP ∧
     (s.recvSummit 0x07 f true false).2 = true ∧ f.payload 0 = s.ident.serial ∧ bits (f.payload 1) 63 56 ≠ 0 ∧
     bits (f.payload 1) 63 56 ≠ 255 ∧ s.armed = false ∧ s.boot.phase = .running ∧ s.linkUp s.activeUp = true ∧
     (let u := (s.recvSummit 0x07 f true false).1; (u.cport s.activeUp).busyTo ≤ u.clk ∧ (u.cport s.activeUp).txq = [])) := by
  decide +kernel

theorem met_AddressAndReports_eventsAndReportsAreSent :
    (let s := (up.event 0x30 0 0); s.clocked = true ∧ s.link.events ≠ [] ∧ 16 ≤ s.link.tok16 ∧ s.link.st ≠ .down ∧ s.link.st ≠ .detached) ∧
    (link (fun l => { l with tok16 := 15 })).link.tok16 < 16 ∧
    (let s := link (fun l => { l with eventsLost := true }); s.link.eventsLost = true ∧ s.link.events.length < 64) ∧
    (let s := (link (fun l => { l with reportDue := true })).setReg Key.CHAIN_ADDR 0
     s.link.reportDue = true ∧ s.addr = 0 ∧ s.link.ctValid = true ∧ s.link.enumerating = false ∧ s.boot.phase = .running) ∧
    up.link.reportDue = false ∧
    (let s := link (fun l => { l with sticky := some 1 }); s.link.sticky = some 1 ∧ s.calderaUp = true ∧
      (s.setReg Key.CALDERA_STATE 0).calderaUp = false) ∧
    ((up.updBank 3 (fun k => { k with st := .armed })).setReg (Key.GEYSER_TARGET 3) 1000000).latchDue 3 = true ∧
    up.latchDue 3 = false := by
  decide +kernel

theorem met_ChainStateAndRing :
    (let s := link (fun l => { l with st := .enumerated, aligned := 16, misaligned := 64 })
     s.clocked = true ∧ s.link.st = .enumerated ∧ s.addr ≠ 0 ∧ 16 ≤ s.link.aligned ∧ 64 ≤ s.link.misaligned ∧ s.power.quietTo ≤ s.clk) ∧
    (up.link.aligned < 16 ∧ (let s : State := { up with power := { quietTo := 1 } }; s.clk < s.power.quietTo)) := by
  decide +kernel

theorem met_ChainStateAndRing_ringWrapsAndReturns :
    up.clocked = true ∧
    (let s := (link (fun l => { l with lastRev := some 1000000, lastFwd := some 998400 })).setReg Key.RING_MODE 1
     s.flag Key.RING_MODE = true ∧ s.link.st ≠ .wrapped ∧ s.link.st ≠ .down ∧ s.link.lastFwd = some 998400 ∧ 998400 + 1600 ≤ s.ct ∧
     s.revArriving = true ∧ s.ct < 998401 + 1600) ∧
    (let s := (link (fun l => { l with wrapDue := true })).setReg Key.RING_MODE 1
     s.link.wrapDue = true ∧ s.flag Key.RING_MODE = true ∧ s.link.st ≠ .wrapped) ∧
    (let s := link (fun l => { l with switchCt := some 1000000, st := .wrapped })
     s.link.switchCt = some 1000000 ∧ 1000000 ≤ s.ct ∧ s.link.st = .wrapped ∧ s.linkUp .u = true ∧ s.addr ≠ 0 ∧ s.ct < 1000001 ∧
     up.link.st ≠ .wrapped ∧ (link (fun l => { l with wrapDue := false })).link.wrapDue = false) := by
  decide +kernel

/-- A POS frame of address 2, sampled at 1,000,000 ct. -/
def posFrm : Frame :=
  let f : Frame := { frm 0x01 255 [0, 0, 0] with origin := false, src := 2 }
  let f : Frame := { f with data := [0x10200, 1000000, 0] }
  { f with crc := BitVec.ofNat 32 (frameCrc 0x01 f) }

/-- A broadcast of address 2 sampled at 1,000,000 ct. -/
def bc : Bcast := ⟨1, 1000000, 0, false, 2, false⟩

theorem met_PositionBroadcastIsTakenUp :
    (up.clocked = true ∧ up.recvCheck 0x01 posFrm = (up, .intact) ∧
      Map.get (fun _ => none) up.link.posSeq (bcastOf posFrm).src = none ∧ (up.offerPos (bcastOf posFrm) false).2 = true ∧ posFrm.dest = 255 ∧
      up.addr ≠ 255) ∧
    (let s := link (fun l => { l with posSeq := [(2, some 7)] })
     s.recvCheck 0x01 posFrm = (s, .intact) ∧ Map.get (fun _ => none) s.link.posSeq (bcastOf posFrm).src = some 7 ∧
     diff 16 posFrm.seq.toNat 7 ≤ 0 ∧ 0 < diff 16 posFrm.seq.toNat 6) ∧
    (let s := up.setReg Key.ROLE_IN_FORCE 1
     s.recvCheck 0x01 posFrm = (s, .intact) ∧ (s.offerPos (bcastOf posFrm) false).2 = false ∧ s.reg Key.ROLE_IN_FORCE = 1 ∧ bc.src ≠ s.addr) ∧
    ({ bc with sample := 949999 } : Bcast).sample + up.reg Key.POS_APPLY_DELAY < up.ct ∧
    (let s := up.setReg Key.POS_SOURCE_ADDR 3; s.reg Key.POS_SOURCE_ADDR ≠ 0 ∧ bc.src ≠ s.reg Key.POS_SOURCE_ADDR) ∧
    (let s := up.setReg Key.POS_SOURCE_ADDR 2
     s.ct ≤ { bc with sample := 950000 }.sample + s.reg Key.POS_APPLY_DELAY ∧ s.reg Key.POS_SOURCE_ADDR = bc.src ∧ bc.src ≠ 0 ∧
     s.reg Key.ROLE_IN_FORCE ≠ 1) ∧ up.pos.sampled = none ∧
    (let s := ((link (fun l => { l with posDue := some 2000 })).setReg Key.ROLE_IN_FORCE 1).setReg Key.POS_LOCAL_VALID 1
     let t : State := { s with pos := { sampled := some bc } }
     t.link.posDue = some 2000 ∧ t.pos.sampled = some bc ∧ t.reg Key.ROLE_IN_FORCE = 1 ∧ t.flag Key.POS_LOCAL_VALID = true ∧ bc.sample / 500 = 2000) ∧
    up.reg Key.ROLE_IN_FORCE ≠ 1 ∧
    (let s : State := { up with recv := { queue := [{ bc with sample := 950000 }] } }
     s.posApplyDue = true ∧ s.applyPos.passStart.reg Key.PASS_COUNT = s.applyPos.reg Key.PASS_COUNT ∧ up.posApplyDue = false) ∧
    (let s : State := { up with recv := { judging := true, missed := 16 } }
     s.recv.judging = true ∧ 16 ≤ s.recv.missed ∧ s.recv.lost = false ∧ s.power.quietTo ≤ s.clk ∧ up.recv.missed < 16) := by decide +kernel

/-- At the apply time of the first broadcast with the grid running, REVERSAL counts a pass (R179). -/
theorem met_PositionBroadcastIsTakenUp_pass :
    let s := (({ up with recv := { now := some ⟨{ bc with rev := true }, 900000, 0⟩, queue := [{ bc with sample := 950000 }] },
                         grid := { passRev := true } } : State).setReg Key.GRID_ENABLE 1).setReg Key.GRID_DIR 2
    s.posApplyDue = true ∧ s.applyPos.passStart.reg Key.PASS_COUNT ≠ s.applyPos.reg Key.PASS_COUNT := by decide +kernel

theorem met_ChainCycleBookkeeping :
    (up.clocked = true ∧ ({ up with recv := { accepted := true } } : State).recv.accepted = true) ∧
    (let s : State := { up with recv := { judging := true } }
     s.recv.accepted = false ∧ s.recv.judging = true ∧ s.power.quietTo ≤ s.clk ∧ s.reg Key.ROLE_IN_FORCE ≠ 1) ∧
    (let s := (up.setReg Key.ROLE_IN_FORCE 1).setReg Key.POS_LOCAL_VALID 1
     s.reg Key.ROLE_IN_FORCE = 1 ∧ s.flag Key.POS_LOCAL_VALID = true) := by decide +kernel

/-! ## The Position Base -/

theorem met_EncoderEdgesMoveThePosition :
    (up.clocked = true ∧ false = up.pos.raw ∧ true ≠ up.pos.raw ∧ up.reg Key.ENC_GLITCH ≠ 0) ∧
    (up.setReg Key.ENC_GLITCH 0).reg Key.ENC_GLITCH = 0 ∧
    (let s := up.setReg Key.ENC_ENABLE 1; s.flag Key.ENC_ENABLE = true ∧ s.reg Key.ENC_INPUT = 0) ∧
    up.flag Key.ENC_ENABLE = false ∧
    ({ up with pos := { lineBad := true } } : State).pos.lineBad = true := by
  decide +kernel

theorem met_EncoderEdgesMoveThePosition_countedEdgeMovesOneTick :
    (let s : State := { up with pos := { tLast := some 981 } }; s.pos.tLast = some 981 ∧ (1000 : Nat) < 981 + 20) := by
  decide +kernel

theorem met_PendingIsSpreadExactly : (2049 : Int) ≠ 0 ∧ (-32 : Int) ≠ 0 := by decide

/-- SSI data of 25 bits that end as they should, or not. -/
def ssiGood : SsiWire := ⟨5, true⟩

theorem met_CommutationSlipAndSsi :
    (up.clocked = true ∧ up.pos.hall = none ∧ (1 : BitVec 3).toNat ≠ 0 ∧ (1 : BitVec 3).toNat ≠ 7) ∧
    (({ up with pos := { hall := some 5 } } : State).pos.hall = some 5 ∧
      ((5, (1 : BitVec 3).toNat) : Nat × Nat) ∈ [(1, 3), (3, 2), (2, 6), (6, 4), (4, 5), (5, 1)] ∧
      (((4 : BitVec 3).toNat, 5) : Nat × Nat) ∈ [(1, 3), (3, 2), (2, 6), (6, 4), (4, 5), (5, 1)] ∧
      (∀ c ∈ [2, 3, 6], (BitVec.ofNat 3 c).toNat ≠ 5 ∧ ((5, c) : Nat × Nat) ∉ [(1, 3), (3, 2), (2, 6), (6, 4), (4, 5), (5, 1)] ∧
        ((c, 5) : Nat × Nat) ∉ [(1, 3), (3, 2), (2, 6), (6, 4), (4, 5), (5, 1)])) ∧
    (let s := (((up.setReg Key.DIR_SOURCE 0).setReg Key.SLIP_STEP_TICKS 65536).setReg Key.SLIP_WINDOW 12).setReg Key.SLIP_TOL 25
     let in_ : State := { s with pos := { steps := 12, stepTicks := 15 } }
     let out : State := { s with pos := { steps := 12, stepTicks := 16 } }
     s.reg Key.DIR_SOURCE = 0 ∧ s.reg Key.SLIP_STEP_TICKS ≠ 0 ∧ s.reg Key.SLIP_WINDOW ≤ in_.pos.steps ∧
     ((((in_.pos.stepTicks * 65536 : Nat) : Int) - ((s.reg Key.SLIP_WINDOW * s.reg Key.SLIP_STEP_TICKS : Nat) : Int)).natAbs * 100 ≤
       s.reg Key.SLIP_TOL * (s.reg Key.SLIP_WINDOW * s.reg Key.SLIP_STEP_TICKS)) ∧
     (s.reg Key.SLIP_TOL * (s.reg Key.SLIP_WINDOW * s.reg Key.SLIP_STEP_TICKS) <
       (((out.pos.stepTicks * 65536 : Nat) : Int) - ((s.reg Key.SLIP_WINDOW * s.reg Key.SLIP_STEP_TICKS : Nat) : Int)).natAbs * 100) ∧
     (s.setReg Key.DIR_SOURCE 1).reg Key.DIR_SOURCE ≠ 0) ∧
    (({ up with pos := { stopped := false } } : State).pos.stopped = false ∧ up.pos.stopped = true) := by decide +kernel

theorem met_CommutationSlipAndSsi_ssiReadsEnd :
    let w := ssiGood.word.toNat % 2 ^ up.reg Key.SSI_BITS
    let busy : State := { up with pos := { ssi := { busy := true } } }
    let two : State := { up with pos := { ssi := { busy := true, first := some ⟨0, 0, 5⟩ } } }
    let err := (busy.setReg Key.SSI_STATUS_BITS 1).setReg Key.SSI_ERR_MASK 1
    (up.pos.ssi.busy = false ∧ busy.pos.ssi.busy = true ∧ busy.pos.ssi.wait = none ∧ ssiGood.stopLow = true ∧ ({ ssiGood with stopLow := false } : SsiWire).stopLow = false) ∧
    ((busy.ssiConvert w).1 = true ∧ (busy.setReg Key.SSI_CHECK 0).reg Key.SSI_CHECK = 0 ∧ busy.reg Key.SSI_CHECK ≠ 0 ∧
      busy.pos.ssi.first = none ∧ two.pos.ssi.first = some ⟨0, 0, 5⟩ ∧ (err.ssiConvert w).1 = false) ∧
    (let s : State := { up with pos := { ssi := { retryAt := some 9 } } }
     s.pos.ssi.retryAt = some 9 ∧ s.clk < 9 ∧ 9 ≤ ({ s with clk := 9 } : State).clk) ∧
    (({ up with pos := { newRole := some (1000000, 1) } } : State).pos.newRole = some (1000000, 1) ∧ 1000000 ≤ up.ct ∧ up.ct < 1000001) := by
  decide +kernel

/-! ## The object dictionary -/

/-- `up` with a command key of zeros and a seal floor, so that sealed requests pass. -/
def keyed : State := { up.setReg Key.SEAL_FLOOR 1024 with otp := { kcmd := [some 0, none, none, none] } }

/-- A request to address 1 on an object, with TY 15, the value blocks `vals`, sealed with number 1 where the object asks for it. -/
def reqOn (s : State) (op : Op) (key : Nat) (vals : List Nat) (group : Nat := 0) (noSeal : Bool := false) : Req :=
  let ac := (s.object key).map Obj.access
  let sealed : Bool := !noSeal && op.sealable && (ac == some .rwa || ac == some .woa)
  let f : Frame := ⟨.u, 7, 1, 0, true, false, BitVec.ofNat 6 (1 + vals.length + if sealed then 2 else 0), 0, vals.map (BitVec.ofNat 64), 0, false⟩
  let withData := fun (l : List Block) (q : Req) => { q with r := { q.r with frame := { q.r.frame with data := f.data ++ l } } }
  let q0 : Req := ⟨⟨f, 0, BitVec.ofNat 4 group, 15, sealed, false, 0, 0, 0⟩, op, key / 256, key % 256⟩
  let q1 := if sealed then withData [BitVec.ofNat 64 (2 ^ 32), 0] q0 else q0
  let q2 := if sealed then withData [BitVec.ofNat 64 (2 ^ 32), BitVec.ofNat 64 (cmac64 0 (s.sealMessage q1))] q1 else q1
  { q2 with r := { q2.r with frame := { q2.r.frame with crc := BitVec.ofNat 32 (frameCrc 0x0A q2.frame) } } }

/-- The state in which an accepted request takes effect. -/
def taken (s : State) (q : Req) : State :=
  let u := (s.recvSummit 0x0A q.frame true false).1
  if q.r.sealed then u.setReg Key.SEAL_LAST q.seqNo else u

/-- Every condition of `State.Accepts`. -/
def acceptB (s : State) (q : Req) : Bool :=
  let u := (s.recvSummit 0x0A q.frame true false).1
  s.clocked && q.r.frame.dest.toNat == s.addr && s.addr != 0 && !q.bcast && (s.recvSummit 0x0A q.frame true false).2 && !u.queueFull q &&
    u.early q == none && (!q.r.sealed || decide (u.sealCheck q = .taken)) && (taken s q).late q == none && !(taken s q).wordWaits q

theorem accepts_of {s : State} {q : Req} (h : acceptB s q = true) : s.Accepts q (taken s q) := by
  simp only [acceptB, Bool.and_eq_true, Bool.or_eq_true, beq_iff_eq, bne_iff_ne, Bool.not_eq_true', decide_eq_true_eq] at h
  obtain ⟨⟨⟨⟨⟨⟨⟨⟨⟨h1, h2⟩, h3⟩, h4⟩, h5⟩, h6⟩, h7⟩, h8⟩, h9⟩, h10⟩ := h
  refine ⟨h1, h2, h3, h4, ⟨_, Prod.ext rfl h5, h6, h7, ?_⟩, h9, h10⟩
  rcases h8 with h8 | h8 <;> cases hs : q.r.sealed <;> simp_all [taken]

/-- Every condition of `State.Writes`. -/
def writeB (s : State) (i : Instr) (q : Req) : Bool := reqOf i == some q && q.r.group == 0 && acceptB (s.wired i) q

theorem writes_of {s : State} {i : Instr} {q : Req} (h : writeB s i q = true) : s.Writes i q (taken (s.wired i) q) := by
  simp only [writeB, Bool.and_eq_true, beq_iff_eq] at h
  exact ⟨h.1.1, h.1.2, accepts_of h.2⟩

/-- Port 0 can be armed: grid enabled, broadcast judged, ingress ready, READY and FIELD, groups restored, a temperature. -/
def armable : State :=
  { (((((keyed.setReg Key.GRID_ENABLE 1).setReg Key.POWER_STATE 0).setReg Key.LIFECYCLE 3).setReg Key.INGRESS_READY 1).setReg
      Key.PLANE_ENABLE 1).setReg Key.DS_SIZE 1000000 with
    recv := { judging := true }, cals := (List.range 4).map (fun g => (g, { restored := true }))
    therm := { ports := [(0, { hasTh := true })] } }

/-- The row `i` of the request that writes `vals` to `key` is one that `State.Writes` describes (`writes_of`). -/
def rowOk (s : State) (i : Dreq → Instr) (key : Nat) (vals : List Nat) : Bool :=
  let q := reqOn s .write key vals
  writeB s (i q.r) q

/-- `up` with an open, closed or poisoned group 5 of a class, its first entry at `since`. -/
def grp (st : GroupSt) (c : Commit) (since : Nat) : State :=
  up.updGroup 5 (fun _ => { st := st, cls := c, entries := [.write Key.EVENT_RATE 4], since := since })

/-- A session on the table at `index`, whole or not: one word of value 5. -/
def sessOn (s : State) (index : Nat) (ws : Map (Option Word)) : State :=
  s.updSess 3 (fun _ => { st := .opened, index := index, length := 1, crc := crc32c (wordBytes [5]), words := ws, last := 1000000 })

/-- A table request of D1 = `hi`, `lo` with `more` blocks after it. -/
def domReq (s : State) (op : Op) (index hi lo : Nat) (more : List Nat) : Req := reqOn s op (256 * index) ((hi * 2 ^ 32 + lo) :: more)

theorem met_RequestsAreCarriedOut :
    (let q := reqOn up .write Key.EVENT_RATE [4]; reqOf (Instr.write q.r 0x1104 0) = some q ∧ up.clocked = true) := by
  decide +kernel

theorem met_RequestsAreCarriedOut_acceptedRequestsAreCarriedOut :
    (let q := reqOn up .write Key.EVENT_RATE [4]; let i := Instr.write q.r 0x1104 0
     reqOf i = some q ∧ up.clocked = true ∧ byCaldera i = false ∧ acceptB (up.wired i) q = true ∧
     (taken up q).fwNamed q = false) ∧
    (let q := reqOn up .write Key.LOG_WINDOW_SEQ [0] 5; let i := Instr.write q.r 0x2B02 5
     reqOf i = some q ∧ byCaldera i = false ∧ q.op = .write ∧ q.r.group ≠ 0) ∧
    (let s := { up with nor := { next := 1 } }; let q := reqOn s .write Key.LOG_WINDOW_SEQ [0]; let i := Instr.write q.r 0x2B02 5
     reqOf i = some q ∧ acceptB (s.wired i) q = true ∧ (taken s q).fwNamed q = true ∧ q.r.group = 0) := by
  decide +kernel

/-- The request, at a state, arrives for the unit and is taken. -/
def arrives (s : State) (q : Req) : Bool :=
  s.clocked && !q.bcast && s.addr != 0 && q.r.frame.dest.toNat == s.addr && (s.recvSummit 0x0A q.frame true false).2

theorem met_RequestChecksAnswerInOrder :
    (let q := reqOn up .read Key.EVENT_RATE []; let q := { q with r := { q.r with waiting := 16 } }
     arrives up q = true ∧ (taken up q).queueFull q = true) ∧
    (let q := reqOn up .read 0x110401 []; arrives up q = true ∧ (taken up q).queueFull q = false ∧ (taken up q).early q = some St.NO_SUBINDEX) ∧
    (let q := reqOn up .write Key.EVENT_RATE [0]; arrives up q = true ∧ (taken up q).early q = none ∧ q.r.sealed = false ∧
      (taken up q).late q = some St.RANGE) ∧
    (let q := reqOn up .write Key.SAFE_SLEW [1]; let u := (up.recvSummit 0x0A q.frame true false).1
     arrives up q = true ∧ u.early q = none ∧ q.r.sealed = true ∧ u.sealCheck q = .refused St.SEAL_BAD_TAG) := by decide +kernel

theorem met_RequestChecksAnswerInOrder_sealed :
    let s := keyed.setReg Key.LIFECYCLE 3
    let q := reqOn s .write Key.FIRE_ARM [1]
    let u := (s.recvSummit 0x0A q.frame true false).1
    arrives s q = true ∧ u.queueFull q = false ∧ u.early q = none ∧ q.r.sealed = true ∧ u.sealCheck q = .taken ∧
    (u.setReg Key.SEAL_LAST q.seqNo).late q = some St.STATE := by decide +kernel

theorem met_RequestChecksAnswerInOrder_again :
    let q := reqOn keyed .write Key.SAFE_SLEW [1]
    let s := { keyed.setReg Key.SEAL_LAST 1 with dict := { lastSealed := some ⟨1, BitVec.ofNat 64 q.d0, q.r.frame.data, 0, false⟩ } }
    let u := (s.recvSummit 0x0A q.frame true false).1
    arrives s q = true ∧ u.early q = none ∧ u.sealCheck q = .again ⟨1, BitVec.ofNat 64 q.d0, q.r.frame.data, 0, false⟩ := by decide +kernel

theorem met_SealedTablesNeedTheirSeal :
    (∀ op ∈ [Op.domOpen, .domCommit, .domAbort],
      let q := reqOn up op 0x500000 (if op = .domOpen then [2 ^ 32] else []) 0 true
      arrives up q = true ∧ (taken up q).queueFull q = false ∧ q.step1 = none ∧ (taken up q).hasIndex 0x5000 = true ∧ q.r.sealed = false ∧
      ((taken up q).object 0x500000).map (fun o => (o.ty, o.access)) = some (.dom, .woa)) ∧
    (let q := reqOn up .domWrite 0x450000 [2 ^ 27, 5, 0] 0 true
     arrives up q = true ∧ (taken up q).queueFull q = false ∧ q.step1 = none ∧ q.r.sealed = false ∧ q.r.frame.dest ≠ 255 ∧
     ((taken up q).object 0x450000).map (fun o => (o.ty, o.access)) = some (.dom, .rwa)) ∧
    (let q := reqOn up .domRead 0x500000 [2 ^ 27] 0 true
     arrives up q = true ∧ (taken up q).queueFull q = false ∧ q.step1 = none ∧ (taken up q).hasIndex 0x5000 = true) := by decide +kernel

theorem met_ReadAnswersAndChangesNothing :
    let q := reqOn up .read Key.EVENT_RATE []
    acceptB up q = true ∧ q.r.count.toNat ≤ 1 ∧ Key.EVENT_RATE ≠ Key.WORD_DATA ∧
    ((taken up q).object Key.EVENT_RATE).map Obj.fw = some false ∧ (taken up q).linkUp (taken up q).activeUp = true ∧
    ((taken up q).cport (taken up q).activeUp).busyTo ≤ (taken up q).clk ∧ ((taken up q).cport (taken up q).activeUp).txq = [] := by
  decide +kernel

theorem met_WritesTakeEffectOrWait :
    (let q := reqOn up .write Key.EVENT_RATE [4]; q.r.group = 0 ∧ acceptB up q = true ∧
      ((taken up q).object Key.EVENT_RATE).map (fun o => (o.fw, o.commit)) = some (false, .imm)) ∧
    (let q := reqOn up .write Key.LATE_POLICY [2]; q.r.group = 0 ∧ acceptB up q = true ∧
      ((taken up q).object Key.LATE_POLICY).map (fun o => (o.fw, o.commit)) = some (false, .line)) := by decide +kernel

theorem met_GroupedWritesAreStaged :
    ((up.group 5).st = .free ∧ ((grp .opened .imm 1000000).group 5).st = .opened ∧ ((grp .opened .imm 1000000).group 5).entries.length < 64 ∧
      64 ≤ (((grp .opened .imm 1000000).updGroup 5 (fun g => { g with entries := List.replicate 64 (.session 0) })).group 5).entries.length ∧
      ((grp .opened .line 1000000).group 5).cls ≠ .imm ∧ ((grp .closed .imm 1000000).group 5).st = .closed ∧
      ((grp .poisoned .imm 1000000).group 5).st = .poisoned) ∧
    (let q := reqOn up .write Key.EVENT_RATE [4] 15
     acceptB up q = true ∧ q.r.group ≠ 0 ∧ ((taken up q).group 15).st = .free ∧ ((taken up q).object Key.EVENT_RATE).isSome = true) := by
  decide +kernel

theorem met_GroupsCloseAbortAndExpire :
    ((grp .opened .line 0).groupDue 5 = false ∧ (grp .opened .imm 0).groupDue 5 = false ∧ (grp .poisoned .imm 0).groupDue 5 = false) ∧
    (let s := (grp .closed .line 0).updLink id; let f : State := { s with grid := { frozenLine := true } }
     f.groupDue 5 = false ∧ (f.group 5).st = .closed ∧ f.frozen (f.group 5).cls = true ∧ (f.group 5).skip = false ∧
     s.frozen (s.group 5).cls = false) ∧
    (let s := up.updGroup 5 fun _ =>
       { st := .opened, cls := .imm, entries := [.write (Key.LIMIT_WARN 0) 950, .write (Key.LIMIT_SOFT 0) 900], since := 1000000 }
     (grp .opened .imm 0).groupFits 5 = true ∧ s.groupFits 5 = false) ∧
    (let s := ((grp .opened .imm 0).updLink (fun l => { l with ct8 := 8 * (up.reg Key.GROUP_TIMEOUT + 1) })); s.groupDue 5 = true) := by
  decide +kernel

theorem met_GroupsCloseAbortAndExpire_operationsAct :
    (let s := grp .opened .line 1000000; let q := reqOn s .groupClose 0 [] 5
     acceptB s q = true ∧ ((taken s q).group 5).st = .opened ∧ (taken s q).groupDue 5 = false) ∧
    (let s := grp .opened .line 1000000; let q := reqOn s .groupAbort 0 [] 5
     acceptB s q = true ∧ ((taken s q).group 5).st = .opened ∧ (taken s q).groupDue 5 = false) ∧
    acceptB up (reqOn up .commitNow 0 []) = true := by
  decide +kernel

theorem met_GroupsCloseAbortAndExpire_operationsAct_tables :
    (let q := domReq up .domOpen 0x4000 768 0 []
     (∃ o, (taken up q).objects q = [o] ∧ o.fw = false) ∧ acceptB up q = true ∧ (taken up q).sessionOf 0x4000 = none ∧
     (List.range 4).find? (fun k => !((taken up q).sess k).st.inUse) = some 0) ∧
    (let s := sessOn up 0x4000 []; let q := domReq s .domWrite 0x4000 0 (2 ^ 27) [5, 0]
     acceptB s q = true ∧ (taken s q).sessionOf 0x4000 = some 3 ∧ ((taken s q).sess 3).st = .opened) ∧
    (let s := sessOn up 0x4000 [(0, some 5)]; let q := reqOn s .domCommit 0x400000 []
     acceptB s q = true ∧ (taken s q).sessionOf 0x4000 = some 3 ∧ ((taken s q).sess 3).st = .opened ∧ ((taken s q).sess 3).good = true) ∧
    (let s := sessOn up 0x4000 []; let q := reqOn s .domAbort 0x400000 []
     acceptB s q = true ∧ (taken s q).sessionOf 0x4000 = some 3 ∧ ((taken s q).sess 3).st = .opened) ∧
    acceptB up (domReq up .domRead 0x4000 0 (2 ^ 27) []) = true ∧
    (let q := domReq up .domRead 0x5D00 0 (2 ^ 27) []; ((taken up q).objects q).map Obj.fw = [true] ∧ acceptB up q = true) := by
  refine ⟨⟨?_, by decide +kernel⟩, by decide +kernel⟩
  exact ⟨(((taken up (domReq up .domOpen 0x4000 768 0 [])).object 0x400000).getD ⟨0, 0, 0, 0, 0, .dom, .ro, .imm, [], .any, .always, true, 0, 0⟩),
    by decide +kernel⟩

theorem met_SessionsStageAndCommit :
    (let q := domReq up .domOpen 0x4000 768 0 []; q.index ≠ 0x5000 ∧ up.sessionOf q.index = none ∧
      (List.range 4).find? (fun k => !(up.sess k).st.inUse) = some 0 ∧ q.d1Hi ≤ 768 ∧ 768 < (domReq up .domOpen 0x4000 769 0 []).d1Hi) ∧
    (let s := sessOn up 0x4000 []; let q := domReq s .domWrite 0x4000 0 (2 ^ 27) [5, 0]
     s.sessionOf q.index = some 3 ∧ (s.sess 3).st = .opened ∧ q.d1Hi + q.nwords ≤ (s.sess 3).length ∧ q.domWords.length = q.nwords ∧
     (s.sess 3).length < (domReq s .domWrite 0x4000 1 (2 ^ 27) [5, 0]).d1Hi + (domReq s .domWrite 0x4000 1 (2 ^ 27) [5, 0]).nwords ∧
     (s.sess 3).good = false ∧ q.r.group = 0 ∧ s.groupBars q.r.group.toNat = none ∧ (grp .closed .imm 0).groupBars 5 = some St.GROUP_NOT_OPEN) ∧
    ((sessOn up 0x4000 [(0, some 5)]).sess 3).good = true := by decide +kernel

theorem met_FirmwareRequestsEnd :
    (let f : FwReq := ⟨(reqOn up .read 0x2B0205 []).r, .read, 0x2B02, 5, 0, 0⟩
     let s : State := { up with dict := { fw := [f] }, clk := 4999999 }
     s.clocked = true ∧ s.dict.fw = f :: [] ∧ s.calderaUp = true ∧ s.clk < f.since + 5000000 ∧ s.fwReady f = true ∧
     f.since + 5000000 ≤ ({ s with clk := 5000000 } : State).clk) ∧
    (let s := (sessOn up 0x4000 []).updLink (fun l => { l with ct8 := 8 * 501000000 })
     (s.sess 3).st = .opened ∧ (s.sess 3).last + 500000000 ≤ s.ct ∧ (s.sess 2).st ≠ .opened) ∧
    (let s := (up.setReg Key.SEAL_FLOOR 1024).setReg Key.SEAL_LAST 512
     s.calderaUp = true ∧ s.nor.ok = true ∧ s.dict.floorWrite = none ∧ s.reg Key.SEAL_FLOOR ≠ 0 ∧ s.reg Key.SEAL_FLOOR < 0xFFFFFC00 ∧
     s.reg Key.SEAL_FLOOR ≤ s.reg Key.SEAL_LAST + 512 ∧ (s.setReg Key.SEAL_LAST 511).reg Key.SEAL_LAST + 512 < s.reg Key.SEAL_FLOOR) ∧
    ({ up with dict := { floorWrite := some 2048 } } : State).dict.floorWrite = some 2048 ∧ up.nor.ok = true ∧
    ({ up with nor := { ok := false } } : State).nor.ok = false := by decide +kernel

theorem met_PositionAndPrintWritesAct :
    rowOk up (.encEnable · none) Key.ENC_ENABLE [1] = true ∧
    rowOk up (.ssiTestRead · (some 0)) Key.SSI_COMMAND [1] = true ∧
    rowOk up (fun r => .ssiRecoveryRead (some r) (some 0)) Key.SSI_COMMAND [2] = true ∧
    (({ up with pos := { recoverDue := true } } : State).pos.recoverDue = true ∧ up.pos.recoverDue = false) ∧
    rowOk up (.encConfigWrite · 0x2000 1) Key.ENC_INPUT [1] = true ∧
    encConfigObject 0x2000 1 = true ∧
    rowOk up (.posRole ·) Key.POS_ROLE [1] = true ∧
    rowOk up (.posPreset ·) Key.POS_PRESET [5] = true := by
  decide +kernel

theorem met_PositionAndPrintWritesAct_printWritesAct :
    rowOk up (.gridEnable ·) Key.GRID_ENABLE [1] = true ∧
    rowOk (up.setReg Key.SHEET_SOURCE 2) (.sheetAt ·) Key.SHEET_AT [5] = true ∧
    rowOk up (.cmpCtrl · 31) (Key.CMP_CTRL 31) [1] = true ∧
    rowOk up (.cmpTarget · 31) (Key.CMP_TARGET 31) [1] = true ∧
    rowOk up (.layoutWrite · 0x2200 5) Key.DS_SIZE [1] = true ∧
    layoutObject 0x2200 5 = true ∧
    rowOk armable (.fireArm ·) Key.FIRE_ARM [1] = true ∧
    rowOk up (.fireDisarm ·) Key.FIRE_DISARM [1] = true := by
  decide +kernel

theorem met_UnitWritesAct :
    (let small : State := { up with ident := { part := .px7204 } }
     rowOk up (.calAbort · 3) (Key.CAL_ABORT 3) [1] = true ∧ 3 < up.nGroups ∧
     rowOk small (.calAbort · 3) (Key.CAL_ABORT 3) [1] = true ∧ small.nGroups ≤ 3 ∧
     rowOk up (.calRequest · 67) (Key.CAL_REQUEST 67) [1] = true ∧ up.hasChannel 67 = true ∧
     rowOk small (.calRequest · 67) (Key.CAL_REQUEST 67) [1] = true ∧ small.hasChannel 67 = false) ∧
    rowOk up (.camEnable · 1) (Key.CAM_ENABLE 1) [1] = true ∧ rowOk up (.i2cCmd · 1) (Key.I2C_CMD 1) [2 ^ 62 + 2 ^ 50] = true ∧
    rowOk up (.loopEnable ·) Key.LOOP_ENABLE [1] = true ∧ rowOk up (.loopClear · 15) (Key.LOOP_CLEAR 15) [1] = true ∧
    rowOk up (.bmControl ·) Key.BM_CONTROL [1] = true ∧ rowOk up (fun r => .dmaStart (some r) 31) (Key.CH_CMD 31) [1] = true ∧
    rowOk up (.dmaPause · 31) (Key.CH_CMD 31) [2] = true ∧ rowOk up (.dmaResume · 31) (Key.CH_CMD 31) [3] = true ∧
    rowOk up (.dmaAbort · 31) (Key.CH_CMD 31) [4] = true ∧ rowOk up (.wordData · true) Key.WORD_DATA [4, 255] = true ∧
    acceptB up (reqOn up .read Key.WORD_DATA []) = true ∧
    (reqOn up .read Key.WORD_DATA []).r.count.toNat ≤ 1 := by decide +kernel

theorem met_ManagementWritesAct :
    rowOk up (.faultClear ·) Key.FAULT_CLEAR [0xFFFF] = true ∧ rowOk up (.firstClear ·) Key.FIRST_CLEAR [1] = true ∧
    rowOk up (.histClear ·) Key.HIST_CLEAR [1] = true ∧
    rowOk { up with nor := { next := 1 } } (.logWindowSeq ·) Key.LOG_WINDOW_SEQ [0] = true ∧ rowOk up (.powerReq ·) Key.POWER_REQ [1] = true ∧
    rowOk up (.traceRestart ·) Key.TRACE_RESTART [1] = true ∧ rowOk up (.pmcSel · 15) (Key.PMC_SEL 15) [1] = true ∧
    up.dict.fw = [] ∧ (let s := keyed.setReg Key.UPDATE_STATE 2
      rowOk { s with dict := { fw := [⟨(reqOn up .read 0x2B0205 []).r, .read, 0x2B02, 5, 0, 0⟩] } } (.updateAbort ·) Key.UPDATE_COMMAND [4] = true) := by
  decide +kernel

theorem met_ManagementWritesAct_sealed :
    rowOk (keyed.setReg Key.LIFECYCLE 1) (.inject ·) Key.INJECT [0x20] = true ∧
    rowOk keyed (fun r => .calderaRestart (.host r)) Key.CALDERA_RESTART [1] = true ∧
    rowOk (keyed.setReg Key.UPDATE_STATE 2) (.updateInstall ·) Key.UPDATE_COMMAND [1] = true ∧
    rowOk (keyed.setReg Key.UPDATE_STATE 5) (.updateActivate ·) Key.UPDATE_COMMAND [2] = true ∧
    rowOk (keyed.setReg Key.UPDATE_STATE 6) (.updateConfirm ·) Key.UPDATE_COMMAND [3] = true ∧
    rowOk (keyed.setReg Key.UPDATE_STATE 2) (.updateAbort ·) Key.UPDATE_COMMAND [4] = true ∧
    rowOk (keyed.setReg Key.LIFECYCLE 2) (.lifecycleAdvance ·) Key.LIFECYCLE_CMD [1] = true ∧
    rowOk (keyed.setReg Key.LIFECYCLE 2) (.lifecycleRetire ·) Key.LIFECYCLE_CMD [2] = true ∧
    rowOk ((keyed.setReg Key.LIFECYCLE 2).setTab 0x2C10 (tabOf [0, 0])) (.keyCommit ·) Key.KEY_COMMIT [1] = true ∧
    rowOk keyed (.traceMode ·) Key.TRACE_MODE [1] = true := by decide +kernel

/-! ## Line Scheduler, ingress and printing -/

/-- READY with the grid enabled and a broadcast at rest at 1,000 st in force; line 0 stands at grid position 0. -/
def moving : State :=
  { (up.setReg Key.GRID_ENABLE 1).setReg Key.POWER_STATE 0 with
    recv := { now := some ⟨⟨1000, 1000000, 0, false, 2, false⟩, 1000000, 0⟩, judging := true } }

/-- `moving` with the grid position of the next line at `x` st. -/
def lineAt (x : Nat) : State := moving.updGrid (fun g => { g with gn := x * 65536 })

theorem met_LineEventsHandOver :
    (moving.clocked = true ∧ moving.lineDue = true ∧ (lineAt 1000).lineDue = true ∧ (lineAt 1001).lineDue = false ∧
      up.flag Key.GRID_ENABLE = false) := by
  decide +kernel

theorem met_LineEventsHandOver_freezePointsAndCues :
    moving.clocked = true ∧
    ((∀ c ∈ [Commit.line, .band, .sheet], moving.freezeDue c = true) ∧ (lineAt 1001).freezeDue .line = false) ∧
    (let s := (moving.setReg Key.SHEET_SOURCE 1).setReg Key.CUE_SELECT 1
     s.reg Key.SHEET_SOURCE = 1 ∧ s.reg Key.CUE_SELECT = (1 : Fin 2).val ∧ s.reg Key.CUE_EDGE = (if true then 0 else 1) ∧ s.revNow = false ∧
     s.reg Key.CUE_SELECT ≠ (0 : Fin 2).val ∧ up.reg Key.SHEET_SOURCE ≠ 1) ∧
    (let s := (({ moving with recv := { now := some ⟨⟨1000, 1000000, 0, true, 2, false⟩, 1000000, 0⟩ } } : State).setReg
       Key.SHEET_SOURCE 1).setReg Key.CUE_EDGE 1
     s.reg Key.CUE_EDGE = (if false then 0 else 1) ∧ s.revNow = true ∧ s.reg Key.CUE_SELECT = (0 : Fin 2).val) := by
  decide +kernel

theorem met_CompareUnitsFire :
    (let s := up.updCmp 31 (fun r => { r with armed := true, fireAt := some 0 }); s.clocked = true ∧ s.cmpDue 31 = true) ∧
    up.cmpDue 31 = false ∧
    (∀ o ∈ [7, 8], let s := up.updCmp 0 (fun r => { r with pulses := [(o, 1000000), (9, 1000001)] })
     (s.cmp 0).pulses.filter (fun e => decide (e.2 ≤ s.ct)) = [(o, 1000000)]) ∧
    (let s := up.updCmp 0 (fun r => { r with pulses := [(9, 1000001)] }); ∀ e ∈ (s.cmp 0).pulses, s.ct < e.2) := by
  decide +kernel

/-- `moving` with port 15 in a state. -/
def prt (f : Port → Port) : State := moving.updPort 15 f

theorem met_SlotsRunAndAreJudged :
    (moving.clocked = true ∧ 15 < moving.nPorts ∧ moving.pending = [] ∧
      ((prt fun r => { r with asmDue := [(0, 5)] }).port 15).asmDue = (0, 5) :: [] ∧ (moving.port 15).asmDue = []) ∧
    (let a : AsmLine := ⟨0, 0, 0, false, []⟩
     ∀ b ∈ [false, true], let s := prt fun r => { r with scrDue := [(0, 0, b)], asm := [a] }
     (s.port 15).scrDue = (0, 0, b) :: [] ∧ (s.port 15).asm.find? (fun a => a.g = 0) = some a) ∧
    (moving.port 15).scrDue = [] ∧
    ((prt fun r => { r with st := .filling, fill := 1 }).shipDue 15 = true ∧ moving.shipDue 15 = false) := by
  decide +kernel

theorem met_SlotsRunAndAreJudged_slotsAreJudged :
    moving.clocked = true ∧
    15 < moving.nPorts ∧
    (let s := prt fun r => { r with st := .held }
     s.firesAt 15 0 = true ∧ s.firesAt 15 7 = false ∧ (s.port 15).evaluates = true ∧ s.firePhase 15 = some 0 ∧ (s.port 15).isHeld = true) ∧
    (let s := prt fun r => { r with st := .filling }
     s.firesAt 15 0 = true ∧ (s.port 15).isHeld = false ∧ (s.port 15).st = .filling ∧ (s.port 15).fill = 0) ∧
    (let s := prt fun r => { r with st := .firing }
     s.firesAt 15 0 = true ∧ (s.port 15).missingDrop = none ∧ s.slotUnshipped 15 (s.at8 0) = true ∧
     ¬ ((s.port 15).st = .filling ∧ (s.port 15).fill = 0)) := by
  decide +kernel

/-- Port 15 with the empty line of slot 0 shipped. -/
def shipped (f : Port → Port) : State := prt fun r => f { r with st := .firing, ship := some ⟨0, [], 0, false, 0, {}⟩ }

theorem met_SlotsRunAndAreJudged_slotsAreJudged_policies :
    (let s := shipped id; (s.port 15).missingDrop = none ∧ s.slotEarly 15 (s.at8 0) = false ∧ s.slotUnshipped 15 (s.at8 0) = false) ∧
    ((∀ pol < 3, (moving.setReg Key.OVERRUN_POLICY pol).reg Key.OVERRUN_POLICY = pol)) ∧
    (∀ pol ∈ [1, 2], (((prt fun r => { r with st := .firing, scr := [⟨0, 0, true, pol, []⟩] }).port 15).missingDrop.map CodeLine.policy) = some pol) ∧
    (let d : SlotRec := ⟨0, 0, 0, 7999993, 0⟩
     let s := shipped fun r => { r with deferred := some d }
     (s.port 15).deferred = some d ∧ s.decidesAt 15 0 = true ∧ s.deferOk 15 (s.at8 0) = false ∧
     ({ s with recv := { now := some ⟨⟨0, 1000000, 0, false, 2, false⟩, 1000000, 0⟩ } } : State).deferOk 15 (s.at8 0) = true) := by
  decide +kernel

/-- Port 15 alone has something to judge: a fire instant, a deferred slot, a start of screening or a tickle (log 22). -/
theorem met_SlotsRunAndAreJudged_slotsAreJudged_sole :
    (let n := prt fun r => { r with st := .firing, fireNow := [(0, [])] }
     n.SoleWait 15 ∧ (n.updPort 15 fun r => { r with fireNow := [] }).firesAt 15 0 = true ∧ n.haltsNow 15 = false ∧
     (n.setReg Key.OVERRUN_POLICY 2).haltsNow 15 = true ∧ (n.setReg Key.OVERRUN_POLICY 2).SoleWait 15) ∧
    (let d : SlotRec := ⟨0, 0, 0, 7999993, 0⟩
     let n := shipped fun r => { r with deferred := some d, deferNow := [(0, [])] }
     n.SoleWait 15 ∧ n.haltsNow 15 = false) ∧
    (prt fun r => { r with scrNow := [(true, [])] }).SoleWait 15 ∧ (prt fun r => { r with tickleNow := some [] }).SoleWait 15 := by
  simp only [State.SoleWait]
  decide +kernel

/-- A raster packet of plane 0, line 0, with one word. -/
def rHdr : RasterHdr := ⟨0x87, BitVec.ofNat 64 (2 ^ 35)⟩
def rWords : List Word := [5]

theorem met_IngressTakesRasterData :
    (up.clocked = true ∧ (up.lane 3).st = .up ∧
      (let s := up.updIlane 3 (fun r => { r with waiting := List.replicate 32 ⟨rHdr, rWords⟩ }); 32 ≤ (s.ilane 3).waiting.length) ∧
      (up.ilane 3).waiting.length < 32 ∧ rHdr.rsop.toNat % 256 = 0x87 ∧ rWords.length = rHdr.nwords ∧
      (BitVec.ofNat 32 (packetCrc rHdr rWords)).toNat = packetCrc rHdr rWords ∧ (0 : BitVec 32).toNat ≠ packetCrc rHdr rWords ∧
      up.lineDue = false ∧ up.posApplyDue = false ∧ moving.lineDue = true ∧ (moving.lane 3).st = .up) ∧
    ((up.plane rHdr.plane).clearing = false ∧ (up.ilane 3).pseq = none) ∧
    (let s := ((up.setReg Key.PLANE_ENABLE 1).setReg Key.GRID_DIR 2).setReg Key.PASS_COUNT 15
     let t := s.updPlane 0 (fun p => { p with clearing := true })
     (t.plane rHdr.plane).clearing = true ∧ t.planeOn rHdr.plane = true ∧ t.reg Key.GRID_DIR = 2 ∧
     rHdr.pass = (t.reg Key.PASS_COUNT + 1) % 16) := by
  decide +kernel

theorem met_IngressTakesRasterData_ingressKeepsItsStore :
    up.clocked = true ∧
    (up.lane 3).st = .up ∧
    (let e : InProg := ⟨0, 7, 0, [up.sliceWords 0], [some 0], false⟩
     let s : State := { up with ingress := { entries := [e] } }
     s.entryOf 0 7 ((0 : BitVec 16).toNat % 16) = some e ∧ s.entryDone e = true ∧ s.entryOf 0 8 0 = none) ∧
    ((laneIn 3 .idle).lane 3).st ≠ .up ∧
    ((up.updPlane 0 fun p => { p with clearing := true }).plane 0).clearing = true ∧
    (up.plane 0).clearing = false ∧
    ((up.setReg Key.BM_STATE 2).bmReady = true ∧ up.flag Key.INGRESS_READY = false ∧ up.bmReady = false) := by
  decide +kernel

/-- GATE_CFG of gate 3 covers port 15, with MODE of bit 9 as given. -/
def gated (f : Port → Port) : State := (prt f).setReg (Key.GATE_CFG 3) (2 ^ 31 + 2 ^ 11)

theorem met_GatesAndPortEnds :
    ((up.setReg Key.GATE_LEVEL 8).on = true ∧ bit ((up.setReg Key.GATE_LEVEL 8).reg Key.GATE_LEVEL) 3 = true) ∧
    (bit ((gated id).reg Key.GATE_LEVEL) 3 = false ∧
      ∀ p < (gated id).nPorts, (gated id).gateCovers 3 p = true → ((gated id).port p).st = .disarmed) ∧
    (let s := gated fun r => { r with st := .firing }
     15 < s.nPorts ∧ s.gateCovers 3 15 = true ∧ (s.port 15).st ≠ .disarmed ∧ bit (s.reg Key.GATE_LEVEL) 3 = false) := by
  decide +kernel

theorem met_GatesAndPortEnds_portsEndAndIdle :
    moving.clocked = true ∧
    15 < moving.nPorts ∧
    (let s := prt fun r => { r with st := .cut, rampEnd8 := some 8000007, clear8 := some 8000007 }
     (s.port 15).rampEnd8 = some 8000007 ∧ 8000007 < s.at8 8 ∧ s.at8 8 ≤ 8000008 ∧ (s.port 15).st ≠ .disarmed ∧ (s.port 15).clear8 = some 8000007 ∧
     (s.port 15).st ≠ .held) ∧
    (((prt fun r => { r with rampEnd8 := some 8000008 }).port 15).rampEnd8 = some 8000008 ∧ (moving.port 15).st = .disarmed ∧
      ((prt fun r => { r with clear8 := some 8000008 }).port 15).clear8 = some 8000008) ∧
    (((prt fun r => { r with st := .held, clear8 := some 0 }).port 15).st = .held ∧
      ((prt fun r => { r with st := .stopping, stopAt := true }).port 15).st = .stopping) ∧
    ((moving.port 15).rampEnd8 = none ∧ (moving.port 15).clear8 = none ∧ moving.tickleDue 15 = false ∧
      ((moving.setReg (Key.IDLE_TICKLE 15) 1).updLink (fun l => { l with ct8 := 0 })).tickleDue 15 = true ∧
      moving.reg Key.CALDERA_STATE = 2 ∧ (moving.setReg Key.CALDERA_STATE 0).reg Key.CALDERA_STATE ≠ 2 ∧ (List.replicate 256 (0 : BitVec 8)).length = 256) := by
  decide +kernel

/-! ## Drive Calibration, thermal, inspection and the loop -/

/-- READY with the calibration record of group 0 as given. -/
def calOf (f : CalGroup → CalGroup) : State := moving.updCal 0 f

/-- As `calOf`, with calibration on and the drive temperature of group 0 known. -/
def calReady (f : CalGroup → CalGroup) : State :=
  { (calOf f).setReg Key.CAL_ENABLE 1 with therm := { held := List.replicate 80 (some 250) } }

theorem met_CalibrationRounds :
    (moving.clocked = true ∧ 0 < moving.nGroups ∧ (moving.cal 0).selDue = false ∧ (moving.cal 0).ch = none) ∧
    (let s := calOf fun r => { r with selDue := true }
     (s.cal 0).selDue = true ∧ (s.cal 0).ch = none ∧ (s.updCal 0 fun r => { r with selDue := false }).calSelect 0 = none) ∧
    (let u := calReady fun r => { r with selDue := false }
     u.calSelect 0 = some 64 ∧ u.calRefusal 0 64 ≠ 0 ∧ (u.cal 0).refused ≠ some (u.calRefusal 0 64)) ∧
    (let u := calReady fun r => { r with selDue := false, refused := some 4 }
     u.calSelect 0 = some 64 ∧ (u.cal 0).refused = some (u.calRefusal 0 64)) ∧
    (let u := calReady fun r => { r with selDue := false, restored := true }
     u.calSelect 0 = some 64 ∧ u.calRefusal 0 64 = 0) ∧
    (let s := calOf fun r => { r with ch := some 3, phase := .ready }
     (s.cal 0).ch = some 3 ∧ (s.cal 0).phase = .ready ∧ chPort 3 = some 0 ∧
     (s.port 0).draws.any (fun d => d.ch = 3 ∧ s.at8 0 < d.end8) = false ∧ s.driveTemp 0 = none ∧
     (calReady id).driveTemp 0 ≠ none) := by decide +kernel

theorem met_CalibrationRounds_calibrationRoundsConclude :
    (let s := calOf fun r => { r with ch := some 3, phase := .measure, frames := [], sweepAt := some 0 }
     let t : State := { s with clk := s.sweepClks 0 }
     t.roundOver 0 = true ∧ t.pending = [] ∧ ({ s with clk := s.sweepClks 0 - 1 } : State).roundOver 0 = false ∧
     (s.setReg Key.CAL_ACCEPT 1).reg Key.CAL_ACCEPT ≠ 0 ∧ (s.cal 0).fits = [] ∧ (s.setReg Key.CAL_ACCEPT 0).reg Key.CAL_ACCEPT = 0) ∧
    (let s := calOf fun r => { r with ch := some 3, phase := .measure, frames := [], roundNow := some ([], []) }
     (s.cal 0).ch = some 3 ∧ (s.cal 0).roundNow = some ([], []) ∧ s.grid.evClk ≠ some s.clk ∧ s.therm.scanClk ≠ some s.clk) ∧
    ((calOf fun r => { r with ch := some 3, phase := .handOver }).cal 0).phase ≠ .ready ∧
    (let s := calOf fun r => { r with copies := [0] }; s.on = true ∧ s.calderaUp = true ∧ (s.cal 0).copies = 0 :: []) ∧
    (moving.cal 0).copies = [] := by decide +kernel

theorem met_HandOverBusIsVerified :
    (let s := calOf fun r => { r with status := some ⟨1, 3, 0⟩, statusOut := false }; s.canSend 0 = true ∧ (s.cal 0).status ≠ none) ∧
    (let s := calOf fun r => { r with frames := [⟨1, 3, 0⟩] }
     s.canSend 0 = true ∧ (s.cal 0).status = none ∧ (s.cal 0).frames = ⟨1, 3, 0⟩ :: [] ∧ s.canSend 1 = false) ∧
    (let s := ((calOf id).updCal 1 fun r => { r with frames := [] }).updCal 2 fun r => { r with frames := [] }
     let s := s.updCal 3 fun r => { r with frames := [] }
     (s.cal 0).dueClk = some 0 ∧ 0 ≤ s.clk ∧ (∀ k < s.nGroups, (s.cal k).busTo ≤ s.clk) ∧ ∀ k < s.nGroups, k ≠ 0 → (s.cal k).dueClk = none) ∧
    (let s := calOf fun r => { r with sent := some ⟨3, 31, 1⟩, frameEnd := 50 }; let t : State := { s with clk := s.strobeFrom 0 }
     (s.cal 0).sent = some ⟨3, 31, 1⟩ ∧ t.strobeDue 0 = true ∧ ({ s with clk := s.strobeFrom 0 - 1 } : State).strobeDue 0 = false ∧
     (moving.cal 0).sent = none) ∧
    (let s := calOf fun r => { r with status := some ⟨1, 3, 0⟩, statusOut := true, swapped := some 3, cmdSeq := 255 }
     (s.cal 0).status = some ⟨1, 3, 0⟩ ∧ (s.cal 0).statusOut = true ∧ (s.cal 0).frameEnd ≤ s.clk ∧ (moving.cal 0).statusOut = false ∧
     hovReplyOk 0 (s.cal 0).cmdSeq (s.cal 0).swapped { (⟨1, 3, 0⟩ : HovCmd) with sense := (s.cal 0).sense } (hovFrame 0 255 ⟨1, 3, 0⟩) = true ∧
     hovReplyOk 0 (s.cal 0).cmdSeq (s.cal 0).swapped { (⟨1, 3, 0⟩ : HovCmd) with sense := (s.cal 0).sense } (hovFrame 0 254 ⟨1, 3, 0⟩) = false) ∧
    (let s := calOf fun r => { r with ch := some 3, phase := .handBack, status := some ⟨2, 31, 0⟩, statusOut := true, cmdSeq := 1 }
     hovReplyOk 0 (s.cal 0).cmdSeq (s.cal 0).swapped { (⟨2, 31, 0⟩ : HovCmd) with sense := (s.cal 0).sense } (hovFrame 0 1 ⟨2, 31, 0⟩) = true ∧
     (s.cal 0).ch = some 3 ∧ (s.cal 0).phase = .handBack ∧ ((calOf id).cal 0).ch = none) ∧
    (let s := calOf fun r => { r with status := some ⟨3, 31, 1⟩, statusOut := true, sense := 1, cmdSeq := 1 }
     hovReplyOk 0 (s.cal 0).cmdSeq (s.cal 0).swapped { (⟨3, 31, 1⟩ : HovCmd) with sense := (s.cal 0).sense } (hovFrame 0 1 ⟨3, 31, 1⟩) = true) ∧
    (let s := calOf fun r => { r with frames := [], unverified := true, retryAt := some 0 }
     (s.cal 0).unverified = true ∧ (s.cal 0).retryAt = some 0 ∧ 0 ≤ s.clk ∧ (s.cal 0).quiet = true ∧ (moving.cal 0).quiet = false ∧
     (moving.cal 0).unverified = false ∧ s.clk < 1) := by decide +kernel

/-- With thermistor curves of its own: the integers of the default curve are free (log 14). -/
def curved (s : State) : State := s.forEach (List.range 16) fun p s => s.setTab (0x4010 + 0x40 * p) (tabOf [1])

theorem met_ThermalScansAndHeats :
    let rd : Vector (BitVec 32) 80 := Vector.replicate 80 0
    let next : State := { moving with therm := { lastScan := some (950000, 0) } }
    moving.scanReady = true ∧ ((curved moving).scan rd).flag Key.GRID_ENABLE = true ∧ ((curved up).scan rd).flag Key.GRID_ENABLE = false ∧
    next.scanReady = true ∧ ({ moving with therm := { lastScan := some (950001, 0) } } : State).scanReady = false ∧
    (moving.updHeat 15 fun h => { h with hasTh := true }).heatForced 15 = false ∧ moving.heatForced 15 = true ∧ 15 < moving.nPorts ∧
    moving.heatDue 15 = true ∧ 0 < moving.reg Key.HEAT_PERIOD ∧
    (let h := moving.updHeat 15 fun h => { h with start := some 0 }
     (h.heat 15).start = some 0 ∧ h.clk < 0 + h.reg Key.HEAT_PERIOD * 500 ∧
     0 + h.reg Key.HEAT_PERIOD * 500 ≤ ({ h with clk := 5000000 } : State).clk) := by
  decide +kernel

/-- A frame of one or more exposures, of 4 pixels by 4 lines, received from 0. -/
def frameOf (expo : Nat) : CamFrame := { seq := 0, csi := 0, fsCt := 0, trig := none, width := 4, height := 4, expo := expo, depth := 10
                                         fill := 0, capBase := 0, capSlots := 0, fsClk := 0, lines := List.replicate expo [], rx := List.replicate expo 0 }

/-- READY with camera 1 on for two exposures, and the frames given. -/
def camState (l : List CamFrame) : State :=
  ((moving.setReg (Key.CAM_ENABLE 1) 1).setReg (Key.EXPOSURES 1) 2).updCam 1 fun c => { c with frames := l }

theorem met_CamerasDeliverFrames :
    (let s := camState []
     s.clocked = true ∧ s.camOn 1 = true ∧ s.exposureOf 1 (0 : BitVec 2).toNat = some 0 ∧ s.exposureOf 1 (1 : BitVec 2).toNat = some (0 + 1) ∧
     s.exposureOf 1 (2 : BitVec 2).toNat = none ∧ s.camOn 0 = false ∧ (s.cam 1).receiving = none ∧ s.lateLines 1 = s ∧
     (s.cam 0).offAt ≠ some s.clk ∧ ((s.updCam 0 fun c => { c with offAt := some s.clk }).cam 0).offAt = some s.clk ∧ up.reg Key.POWER_STATE ≠ 0) ∧
    (let s := camState [frameOf 1]
     (s.cam 1).receiving = some (frameOf 1) ∧ (s.cam 1).late = [] ∧ s.lateLines 1 = s ∧ (frameOf 1).ends.contains 0 = false ∧ (frameOf 1).ends.length + 1 = (frameOf 1).expo ∧
     (frameOf 2).ends.length + 1 ≠ (frameOf 2).expo) ∧
    (let f := { frameOf 1 with limit := 1000000 }
     let s := camState [f]
     (s.cam 1).receiving = some f ∧ (s.cam 1).late = [] ∧ s.lateLines 1 = s ∧ f.fsCt + f.limit ≤ s.ct) := by
  decide +kernel

theorem met_CamerasDeliverFrames_cameraPacketsAndControl :
    moving.clocked = true ∧
    (let s := camState [frameOf 1]
     let dt := BitVec.ofNat 6 (s.reg (Key.DATA_TYPE 1))
     s.reg Key.POWER_STATE = 0 ∧ 0x12 < dt.toNat ∧ dt.toNat = s.reg (Key.DATA_TYPE 1) ∧ (0x13 : BitVec 6).toNat ≠ s.reg (Key.DATA_TYPE 1) ∧
     0x12 < (0x13 : BitVec 6).toNat) ∧
    (let s := (moving.setReg (Key.I2C_STATUS 1) 1).setReg (Key.I2C_CMD 1) (2 ^ 63 + 2 ^ 50)
     s.reg (Key.I2C_STATUS 1) = 1 ∧ bits (s.reg (Key.I2C_CMD 1)) 63 62 = 2 ∧ moving.reg (Key.I2C_STATUS 1) ≠ 1 ∧
     bits ((s.setReg (Key.I2C_CMD 1) (2 ^ 62 + 2 ^ 50)).reg (Key.I2C_CMD 1)) 63 62 ≠ 2) := by
  decide +kernel

/-- As `camState`, with a frame that has ended, of which `done` lines are processed, and the pipeline at work on it up to `e`; the line at
work has been processed at `le`. -/
def pipeState (done e : Nat) (le : Option Nat) : State :=
  { camState [{ frameOf 1 with ended := true, done := done }] with pipe := { cur := some 1, unitEnd := e, lineEnd := le } }

theorem met_PipelineServesCameras :
    (let s := camState [{ frameOf 1 with ended := true }]
     s.pipe.cur = none ∧ s.reg Key.POWER_STATE = 0 ∧ s.grantee = some 1 ∧ moving.grantee = none ∧ s.pending = []) ∧
    (∀ done ∈ [1, 2], let f := { frameOf 1 with ended := true, done := done }; let s := pipeState done 4 (some 0)
     (s.cam 1).frames.head? = some f ∧ f.done < s.pipe.unitEnd ∧ f.lineReady f.done = true ∧ s.pipe.lineEnd = some 0 ∧ 0 ≤ s.clk ∧
     (pipeState done 4 none).pipe.lineEnd = none ∧ (pipeState done done none).pipe.unitEnd ≤ f.done) ∧
    (let f := { frameOf 1 with ended := true, done := 4 }; let s := pipeState 4 4 none
     (s.cam 1).frames.head? = some f ∧ f.height ≤ f.done ∧ s.unitOver f = false ∧
     ({ s with clk := s.pipe.freeAt + 2 * lineClocks f.width } : State).unitOver f = true) ∧
    (let f := { frameOf 1 with ended := true, done := 2 }; (pipeState 2 2 none).unitOver f = true ∧ f.done < f.height) ∧
    (let s := (camState []).setReg (Key.CAM_SILENT 1) 1000000; s.camQuiet 1 = true ∧ (camState []).camQuiet 1 = false) := by decide +kernel

/-- A latched block with tests of port 0 by camera 1 in the phases given. -/
def blockOf (ph : List Nat) : LoopBlock :=
  { n0 := 0, period := 100, b := 0, latched := true, sl := 8, pitch := 2, code := 1, bl := 8, bar := 1, gl := 8, ml := 8, cols := 1, mark := 0
    mapCam := [], markCol := [], tests := ph.map fun x => { cam := 1, u := 0, ref := none, phase := x } }

/-- READY with that block met; the compare unit of camera 1 has fired at 1, and its record says so or not. -/
def loopState (ph : List Nat) (record : Bool) : State :=
  (({ moving with loop := { blocks := [blockOf ph] } } : State).setReg (Key.CMP_STATUS 31) 1).setReg (Key.CMP_FIRED_CT 31) 1
    |>.setTab 0x4623 (if record then tabOf [2 ^ 22 + 31 * 2 ^ 17, 0, 1] else {})

theorem met_LoopTestsAreArmedAndChecked :
    (let s := loopState [0] false; ∃ k t, s.loopTests 1 = (k, t) :: [] ∧ t.phase = 0) ∧
    (let s := (loopState [1] false).setReg (Key.TRIG_WINDOW 1) 0; (∃ k t, s.loopTests 1 = [(k, t)] ∧ t.phase ≠ 0) ∧ s.loopLost 1 = true) ∧
    (let s := (loopState [1, 0] false).setReg (Key.TRIG_WINDOW 1) 0; (∃ k t k' t', s.loopTests 1 = (k, t) :: (k', t') :: [] ∧ t.phase ≠ 0) ∧
      s.loopLost 1 = true) ∧
    (let s := loopState [1] true; (∃ k t, s.loopTests 1 = (k, t) :: [] ∧ t.phase = 1) ∧ s.loopLost 1 = false ∧ s.loopFrame 1 = true) ∧
    (∃ k t, (loopState [1] false).loopTests 1 = (k, t) :: [] ∧ t.phase ≠ 0 ∧ (loopState [1] false).loopFrame 1 = false) ∧
    moving.loopTests 1 = [] := by
  refine ⟨⟨_, _, rfl, rfl⟩, ⟨⟨_, _, rfl, by decide⟩, by decide +kernel⟩, ⟨⟨_, _, _, _, rfl, by decide⟩, by decide +kernel⟩,
    ⟨⟨_, _, rfl, rfl⟩, by decide +kernel⟩, ⟨_, _, rfl, by decide, by decide +kernel⟩, rfl⟩

/-! ## Scratch Banks, bulk memory and DMA -/

theorem met_AliasWindowsSetAndClear :
    up.clocked = true ∧ 0xFFFFF < 0x100000 ∧ (∀ k < 3, ({ addr := 0xFFFFF + 0x100000 * k, write := true, data := 5 } : ScratchAcc).addr =
      0xFFFFF + 0x100000 * k) ∧ up.scratchBad 0xFFFFF < 2 := by decide +kernel

theorem met_PortsMeetAtAWord :
    (∀ aw ∈ [false, true], ∀ bw ∈ [false, true], let a : ScratchAcc := ⟨0x1FFFFF, aw, 1⟩; let b : ScratchAcc := ⟨0x2FFFFF, bw, 2⟩
     up.clocked = true ∧ a.addr % 0x100000 = 0xFFFFF ∧ b.addr % 0x100000 = 0xFFFFF ∧ b.addr < 0x300000 ∧ a.addr < 0x300000 ∧
     a.write = aw ∧ b.write = bw ∧ up.scratchBad 0xFFFFF = 0) ∧
    0x300000 ≤ (⟨0x300000, false, 0⟩ : ScratchAcc).addr ∧
    (let s : State := { up with mem := { scratchErr := [(0, 2)] } }
     s.scratchBad 0 = 2 ∧ (⟨0, false, 0⟩ : ScratchAcc).write = false ∧ 0x100000 ≤ (⟨0x100000, true, 0⟩ : ScratchAcc).addr) := by decide +kernel

theorem met_MemoryIsKeptUp :
    (up.clocked = true ∧ up.scratchBad up.mem.scrubAddr = 0 ∧
      (let s : State := { up with mem := { scratchErr := [(0, 1)] } }; s.scratchBad s.mem.scrubAddr = 1)) ∧
    (let s := (up.setReg Key.BM_STATE 2).setReg Key.BM_SCRUB_INTERVAL 1
     s.bmReady = true ∧ s.reg Key.BM_SCRUB_INTERVAL ≠ 0 ∧ s.trainsNow = false ∧ s.mem.checkDue = false ∧
     (s.updMem fun m => { m with checkDue := true }).mem.checkDue = true ∧
     ({ s with pending := [.bmControl (reqOn up .write Key.BM_CONTROL [1]).r] } : State).trainsNow = true) ∧
    up.bmReady = false := by decide +kernel

theorem met_MemoryIsKeptUp_trainingEndsAndAlertsCount :
    (up.clocked = true ∧ up.bmTraining = true ∧ ((up.src 0x62).causes.contains 0) = false ∧ (0x3FF : BitVec 10) ≠ 0 ∧
      ((up.setReg Key.BM_STATE 2).bmTraining = false)) ∧
    (let s := ((up.setReg Key.BM_STATE 2).setReg Key.BM_CAPACITY 1024).updMem fun m => { m with waiting := [(1023, 5)] }
     up.mem.waiting = [] ∧ s.mem.waiting = (1023, 5) :: [] ∧ s.bmReady = true ∧ s.mem.checkDue = false ∧ 1023 < s.reg Key.BM_CAPACITY) ∧
    (let s : State := { up with mem := { alerts := [0, 0, 0] }, clk := 499999 }
     4 ≤ (s.clk :: s.mem.alerts.filter (fun t => decide (s.clk < t + 500000))).length ∧
     (s.clk :: (s.mem.alerts.drop 1).filter (fun t => decide (s.clk < t + 500000))).length < 4) := by decide +kernel

/-- DMA channel 31 as given; it belongs to mover 3. -/
def dmaState (f : DmaCh → DmaCh) : State := up.updDch 31 f

theorem met_MoversRunAndComplete :
    (up.clocked = true ∧ ∀ m : Fin 4, up.slotDue m = true) ∧ ((up.updMover 3 fun x => { x with slot := some (up.ct / 72) }).slotDue 3 = false) ∧
    (let u := fun (s : State) => (s.updMover 3 fun x => { x with slot := some (s.ct / 72) }).selectMover 3
     (u up).moverChannel 3 = 0xFF ∧
     (∀ pos ∈ [DmaAt.run, .fetch 5, .link 5, .readback, .status],
       let t := u (dmaState fun r => { r with st := .running, pos := pos, win := 217, used := 0 })
       t.moverChannel 3 = 31 ∧ (t.dch 31).st = .running ∧ (t.dch 31).pos = pos ∧ 0 < t.dmaShare 31) ∧
     (let t := u (dmaState fun r => { r with st := .running, pos := .run, win := 217, used := 64 })
      (t.dch 31).win = t.ct / 4608 ∧ t.dmaShare 31 ≤ 64) ∧
     (let t := u (dmaState fun r => { r with st := .running, pos := .link 5 }); ((t.dmaLink 31 5 false).dch 31).st ≠ .running) ∧
     (let t := u ((dmaState fun r => { r with st := .running, pos := .link 5 }).putScratch 8 16)
      (t.dch 31).pos = .link 5 ∧ ((t.dmaLink 31 5 false).dch 31).st = .running)) := by decide +kernel

/-- The writes of a descriptor's status, on a state as it stands. -/
def statusWrites (s : State) : Bool × Bool :=
  let a := (s.updDch 31 fun r => { r with tries := 0 }).moverWrite (s.reg (Key.CH_CUR 31) + 3 + 0x100000) 0
  (a.2, (a.1.moverWrite (s.reg (Key.CH_CUR 31) + 0x200000) (2 ^ 71)).2)

theorem met_MoversRunAndComplete_transfersCompleteAndPause :
    (let s := dmaState fun r => { r with pos := .readback, lastDst := some 5 }
     (s.dch 31).pos = .readback ∧ (s.dch 31).retry = [] ∧ (s.dch 31).lastDst = some 5 ∧ (s.moverRead 5).2.isSome = true ∧
     (s.moverRead 0x300000).2.isSome = false ∧ ((dmaState fun r => { r with pos := .readback }).dch 31).lastDst = none ∧
     ((dmaState fun r => { r with retry := [(5, 0)] }).dch 31).retry ≠ []) ∧
    (let s := (dmaState fun r => { r with pos := .status }).setReg (Key.CH_MODE 31) 0
     (s.dch 31).pos = .status ∧ (s.dch 31).retry = [] ∧ s.reg (Key.CH_MODE 31) = 0) ∧
    (let s := (dmaState fun r => { r with pos := .status, ending := 1 }).setReg (Key.CH_MODE 31) 1
     let b : State := { s with pending := [.scratchAccess none (some ⟨3, true, 0⟩)] }
     s.reg (Key.CH_MODE 31) ≠ 0 ∧ s.portBHits (s.reg (Key.CH_CUR 31) + 3) = false ∧ s.portBHits (s.reg (Key.CH_CUR 31)) = false ∧
     b.portBHits (b.reg (Key.CH_CUR 31) + 3) = true ∧ statusWrites s = (true, true) ∧ (s.dch 31).ending ≠ 2 ∧ (s.dch 31).stop = false) ∧
    (let s := ((dmaState fun r => { r with pos := .status, ending := 2 }).setReg (Key.CH_MODE 31) 1).setReg (Key.CH_CUR 31) 0x3FFFFFFFFF
     (s.dch 31).ending = 2 ∧ (statusWrites s).1 = false ∧ s.portBHits (s.reg (Key.CH_CUR 31) + 3) = false) ∧
    (let s := dmaState fun r => { r with st := .pausing, pos := .fetch 5 }; (s.dch 31).st = .pausing ∧ (s.dch 31).pos = .fetch 5) ∧
    (let s := dmaState fun r => { r with st := .pausing, pos := .run }; (s.dch 31).st = .pausing ∧ ∀ d < 8, (s.dch 31).pos ≠ .fetch d) ∧
    (up.dch 31).st ≠ .pausing ∧ (up.dch 31).pos ≠ .readback ∧ (up.dch 31).pos ≠ .status := by decide +kernel

theorem met_DirectBurstCopiesWords :
    let s := (up.setReg (Key.CH_DST 31) (0x100000 - 32)).setReg (Key.CH_COUNT 31) 32
    0 = s.reg (Key.CH_SRC 31) ∧ 0x100000 - 32 = s.reg (Key.CH_DST 31) ∧ 0 + 32 ≤ 0x100000 ∧ 0 + 32 ≤ 0x100000 - 32 ∧
    (∀ k < 32, s.scratchBad (0 + k) = 0) ∧ (s.dch 31).indexed = false ∧ 32 ≤ s.reg (Key.CH_COUNT 31) ∧ s.reg (Key.CH_COUNT 31) < 2 ^ 32 ∧
    s.reg Key.TRACE_MODE = 0 ∧ (∀ k < 32, s.portBHits (0x100000 - 32 + k) = false) ∧ (s.setReg (Key.CH_COUNT 31) 33).reg (Key.CH_COUNT 31) ≠ 32 := by decide +kernel

/-! ## Faults, resets, Caldera, lifecycle, power, trace -/

theorem met_ArrivalsAreCollected :
    (up.on = true ∧ up.standing (up.faults.raised ++ ([] : List RaiseIn).map fun r => ⟨r.src.val, r.detail.toNat, r.inj⟩) = [] ∧
      up.standing ([⟨0xFF, 0, false⟩] ++ ([] : List RaiseIn).map fun r => ⟨r.src.val, r.detail.toNat, r.inj⟩) = [⟨0xFF, 0, false⟩] ∧
      up.flag Key.FIRST_VALID = false ∧ (up.setReg Key.FIRST_VALID 1).flag Key.FIRST_VALID = true ∧ up.pending = [] ∧
      ({ up with pending := [.chainActive] } : State).pending ≠ []) ∧
    (let s := up.setReg Key.INJ_PENDING (256 + 0x20)
     (s.standing [⟨0x20, 0, true⟩]).any Raise.inj = true ∧ s.batchBusy = false) ∧
    (let s := ({ up with faults := { batch := some ⟨0, [(0, 0)], false⟩ }, clk := 3 } : State)
     s.batchLate = true ∧ ({ s with clk := 0 } : State).faults.batch = some ⟨0, [(0, 0)], false⟩) := by decide +kernel

theorem met_HistoryAndClearing :
    (let b : Batch := ⟨0, [(1, 2)], false⟩; let s : State := { up with faults := { batch := some b }, clk := 3 }
     s.on = true ∧ s.faults.batch = some b ∧ b.written = false ∧ b.clk + 3 ≤ s.clk ∧ b.entries[0]? = some (1, 2) ∧ b.entries.length ≤ 0 + 16 ∧
     ({ s with clk := 2 } : State).clk < b.clk + 3 ∧ ({ b with written := true } : Batch).written = true) ∧
    (up.faults.batch = none ∧ up.injDue = false) ∧
    (let s := ({ up with faults := { injAt := some 0 } } : State).setReg Key.INJ_PENDING (256 + 0x20)
     (s.updLink fun l => { l with ct8 := 8 * 500000000 }).injDue = true) := by decide +kernel

theorem met_HistoryAndClearing_faultsAreCleared :
    ((up.src 255).lastArr = none ∧ ((up.updSrc 255 fun r => { r with lastArr := some (0, true) }).src 255).lastArr = some (up.clk, true) ∧
      up.clearable 4 = false ∧ up.clearable 255 = true) ∧
    (up.batchBusy = false ∧ ({ up with faults := { batch := some ⟨0, [(1, 2)], false⟩ }, clk := 3 } : State).batchBusy = true) ∧
    (up.faults.firstNow = none ∧ ({ up with faults := { firstNow := some (0, 1, 2) } } : State).faults.firstNow = some (up.clk, 1, 2)) := by
  decide +kernel

/-- A reset of the block of source `src` that has been asked for, its record written. -/
def asked (s : State) (src : Nat) : State :=
  { s with faults := { s.faults with resets := [.block src], batch := some ⟨0, [], true⟩ } }

theorem met_BlockResets :
    up.on = true ∧
    (let s := (prt fun r => { r with st := .firing }).updBoot fun x => { x with blocks := [0x2C] }
     s.on = true ∧ (0x2C = Machine.blockOf 0x2C) ∧ s.boot.blocks.contains 0x2C = true ∧ s.armed = true ∧
     (moving.updBoot fun x => { x with blocks := [0x2C] }).armed = false) ∧
    (up.boot.blocks.contains 0x15 = false ∧ up.blockAsked 0x15 = false ∧ (asked up 0x15).blockAsked 0x15 = true ∧ cutsFirst 0x15 = false) ∧
    (let s := asked moving 0x2C
     s.boot.blocks.contains 0x2C = false ∧ s.blockAsked 0x2C = true ∧ cutsFirst 0x2C = true ∧ s.fireInhibit.armed = false ∧
     (asked (prt fun r => { r with st := .firing }) 0x2C).fireInhibit.armed = true) := by
  decide +kernel

theorem met_BlockResets_blockResetsDiscardTheirOwn :
    ((grp .closed .line 0).group 5).st = .closed ∧
    ((dmaState fun r => { r with pos := .fetch 5 }).dch 31).pos = .fetch 5 := by
  decide +kernel

/-- A unit in power state `st` that has accepted a change to `v`, its groups restored where `r` says so. -/
def changing (st v : Nat) (r : Bool) (l : Bool) : State :=
  { up.setReg Key.POWER_STATE st with power := { req := some (v, none), leaving := l }
                                      cals := (List.range 4).map fun g => (g, { restored := r }) }

theorem met_ChipResetAndStartUp :
    (let cut := fun (s : State) => if s.boot.cutting then s else s.forEach (List.range s.nPorts) (State.cutPort 6 false)
     up.on = true ∧ (cut up).armed = false ∧ (cut (prt fun r => { r with st := .firing })).armed = true ∧
     (((cut (up.updSrc 4 fun r => { r with latched := true })).src 4).latched = true) ∧ ((cut up).src 5).latched = false) := by
  decide +kernel

theorem met_ChipResetAndStartUp_startUpRuns :
    (let s := changing 1 4 true false; s.boot.phase ≠ .shelf ∧ s.powerDue = true ∧ s.power.req.any (fun e => e.1 == 4) = true) ∧
    up.powerDue = false ∧
    (let held : State := { up with boot := { phase := .held } }; held.boot.phase = .held ∧ up.boot.phase ≠ .held) ∧
    (let shelf : State := { up with boot := { phase := .shelf }, power := { pwrEn := false } }
     shelf.boot.phase = .shelf ∧ shelf.power.pwrEn = false ∧ up.boot.phase ≠ .shelf) ∧
    (let s := (State.reset.setReg Key.BM_STATE 2).setReg Key.CALDERA_STATE 3
     s.boot.phase = .starting ∧ 2 ≤ s.reg Key.BM_STATE ∧ s.reg Key.CALDERA_STATE = 3 ∧ State.reset.reg Key.BM_STATE < 2 ∧
     up.boot.phase ≠ .starting) := by
  decide +kernel

theorem met_CalderaRestartsAndBoots :
    (up.mgmt.wdtFrom + 500000 * up.reg Key.WDT_PERIOD ≤ ({ up with clk := 500000 * up.reg Key.WDT_PERIOD } : State).clk) ∧
    (let s := up.setReg Key.WDT_PERIOD 1; s.clk < s.mgmt.wdtFrom + 500000 * s.reg Key.WDT_PERIOD) ∧
    (State.reset.mgmt.restartDue = some 0 ∧ State.reset.calderaClocked = true ∧ State.reset.on = true ∧ up.mgmt.restartDue ≠ some 8 ∧
      (up.setReg Key.CLOCK_STATUS 16).calderaClocked = false ∧ up.calderaUp = true ∧ State.reset.calderaUp = false ∧
      State.reset.mgmt.hostAt ≠ some State.reset.clk) := by
  decide +kernel

theorem met_CalderaRestartsAndBoots_bootChoosesABank :
    (let s := up.setReg Key.CALDERA_STATE 1; let u := s.bootFloor; let v := (u.reportBank 0).reportBank 1
     up.reg Key.CALDERA_STATE ≠ 1 ∧ s.reg Key.CALDERA_STATE = 1 ∧ s.calderaClocked = true ∧ u.mgmt.image = none ∧ u.nor.ok = true ∧
     v.pickBank.2 = none ∧ (({ s with nor := { ok := false } } : State).bootFloor.nor.ok = false) ∧
     (({ s with mgmt := { image := some [] } } : State).bootFloor.mgmt.image = some [])) := by
  decide +kernel

theorem met_CalderaRestartsAndBoots_monitorsAndTrialTime :
    up.on = true ∧
    (bit (up.reg Key.CLOCK_STATUS) 4 = false ∧ bit ((up.setReg Key.CLOCK_STATUS 1).reg Key.CLOCK_STATUS) 0 = true ∧
      bit ((up.setReg Key.CLOCK_STATUS 16).reg Key.CLOCK_STATUS) 4 = true) ∧
    (let s := (({ up with mgmt := { trialAt := some 0 } } : State).setReg Key.UPDATE_STATE 6)
     ({ s with clk := s.reg Key.TRIAL_TIMEOUT * 500000 } : State).trialOver = true ∧ up.trialOver = false) := by
  decide +kernel

theorem met_LogRecordsAreProgrammed :
    (up.on = true ∧ State.reset.calderaUp = false ∧ up.calderaUp = true ∧ ({ up with nor := { ok := false } } : State).nor.ok = false) ∧
    (let s : State := { up with mgmt := { anchorDue := true }, otp := { klog := some 1 } }
     s.calderaUp = true ∧ s.nor.ok = true ∧ s.mgmt.anchorDue = true ∧ s.canSign = true ∧ up.canSign = false) ∧
    (let r : LogReq := ⟨0, 1, 0, [], none⟩; let s : State := { up with mgmt := { queue := [r], owed := 1 } }
     s.mgmt.anchorDue = false ∧ s.mgmt.queue = r :: [] ∧ 0 < s.mgmt.owed ∧ up.mgmt.queue = [] ∧ up.mgmt.owed = 0) := by decide +kernel

theorem met_BoundaryScanAndKeys :
    up.on = true ∧
    (jtagListed (0x45 : BitVec 8).toNat = false ∧ jtagListed (0x43 : BitVec 8).toNat = true ∧ up.jtagAllows 0x43 = true ∧
      (up.setReg Key.LIFECYCLE 3).jtagAllows 0x43 = false ∧ (prt fun r => { r with st := .firing }).jtagAllows 0x03 = false ∧
      moving.jtagAllows 0x03 = true ∧ up.reg Key.POWER_STATE < 2 ∧ (up.setReg Key.LIFECYCLE 4).reg Key.LIFECYCLE < 5) ∧
    (let s : State := { up with otp := { vendor := some 0 } }; s.reg Key.LIFECYCLE = 0 ∧ s.otp.vendor.isSome = true ∧ up.otp.vendor = none ∧
      1 < (up.setReg Key.LIFECYCLE 2).reg Key.LIFECYCLE) := by
  decide +kernel

theorem met_BoundaryScanAndKeys_keysAreBurnedOnce :
    up.on = true ∧
    (let s : State := { up with otp := {} }; s.reg Key.LIFECYCLE = 0 ∧ s.otp.vendor = none ∧ s.nor.ok = true ∧ s.reg Key.POWER_STATE < 2) ∧
    (let s := up.setReg Key.LIFECYCLE 1
     s.reg Key.LIFECYCLE = 1 ∧ s.otp.kcmd.headD none = none ∧ s.otp.ktrace = none ∧ s.otp.klog = none ∧
     ((2, s.reg Key.LIFECYCLE) ∈ [(1, 0), (2, 1), (3, 1), (4, 1)]) ∧ ((1, s.reg Key.LIFECYCLE) ∉ [(1, 0), (2, 1), (3, 1), (4, 1)])) ∧
    (up.jtagAllows 0x42 = false ∧ (up.setReg Key.LIFECYCLE 1).jtagAllows 0x42 = true ∧
      (up.setReg Key.LIFECYCLE 1).imageCheck 0 (fun off n => (([] : List Nat).drop off).take n) ≠ 0) := by
  decide +kernel

/-- A firmware image of one byte for the PX7216 with SVN 3 and version 2, signed with private key 1 (so the public key is the base point of P-256)
and the random number 1. -/
def image : List Nat :=
  [0x50584657, 1, 3, 2, 1, 0, 1].flatMap (beBytes 4) ++ beBytes 32 0x6E340B9CFFB37A989CA544E6BB780A2C78901D3FB33738768511A30617AFA01D ++
    [ecG.1, ecG.2, ecG.1, 0xA023C08FEDBC159709540329B0288B925D46EFF9580345F38740E1336A1587F4].flatMap (beBytes 32) ++
    List.replicate 325 0

/-- A unit that trusts that key. -/
def vendorUnit : State := { up.setReg Key.LIFECYCLE 1 with otp := { vendor := some 0xD875DB7DEF232236AEC738C6B0BB3E80142F5D0FD8F4DF24FED6EEF5CBB50D9F } }

theorem met_BoundaryScanAndKeys_keysAreBurnedOnce_recover :
    vendorUnit.jtagAllows 0x42 = true ∧ vendorUnit.imageCheck image.length (fun off n => (image.drop off).take n) = 0 := by decide +kernel

/-- Its bank A holds that image, as words of 9 bytes, least significant byte first. -/
def imageWords : Map (Option Word) := (List.range 57).map fun i => (i, some (BitVec.ofNat 72 (ofBytes ((image.drop (9 * i)).take 9).reverse)))

theorem met_CalderaRestartsAndBoots_bootChoosesABank_bank :
    let s : State := { vendorUnit.setReg Key.CALDERA_STATE 1 with nor := { banks := [(0, { words := imageWords, len := 57 })] } }
    s.pickBank.2 = some (0, false) := by decide +kernel

theorem met_PowerTraceAndWake :
    up.on = true ∧
    up.pending = [] ∧
    ({ up with pending := [.chainActive] } : State).pending ≠ [] ∧
    (up.powerDue = false ∧ (∀ v ∈ [0, 1, 2, 3, 4], (changing 1 v true false).powerDue = true ∧ (changing 1 v true false).power.req = some (v, none)) ∧
      (changing 1 1 true false).reg Key.POWER_STATE = 1 ∧
      ((changing 0 1 true false).updPort 0 fun p => { p with st := .firing }).armed = true ∧ (changing 0 1 true false).armed = false) ∧
    ((changing 0 1 false false).leaveRun.allRestored = false ∧ (changing 0 1 true false).leaveRun.allRestored = true ∧
      (changing 0 1 false true).allRestored = false ∧ (changing 0 1 true true).allRestored = true) := by
  decide +kernel

theorem met_PowerTraceAndWake_wakesReturnToReady :
    up.on = true ∧
    (let s := (changing 1 3 true false).setReg Key.WAKE_ENABLE 7; s.reg Key.POWER_STATE = 1 ∧ s.powerDue = true ∧ s.armed = false ∧ s.power.req = some (3, none)) ∧
    (let s := (changing 0 3 true false).setReg Key.WAKE_ENABLE 7; s.wakeOk 3 = true ∧ s.leaveRun.allRestored = true) ∧
    (let s := (changing 0 3 false false).setReg Key.WAKE_ENABLE 7; s.wakeOk 3 = true ∧ s.powerDue = true ∧ s.leaveRun.allRestored = false) ∧
    (let s := up.setReg Key.WAKE_ENABLE 7
     (∀ k ∈ [1, 2, 3], s.wakeOk k = true) ∧ (s.setReg Key.POWER_STATE 3).wakeOk 2 = false ∧ (s.setReg Key.POWER_STATE 3).wakeOk 3 = true ∧
     2 ≤ (s.setReg Key.POWER_STATE 2).reg Key.POWER_STATE ∧ s.wakeOk 0 = false ∧ s.reg Key.POWER_STATE < 2 ∧ s.powerDue = false ∧
     ((changing 1 3 true false).setReg Key.WAKE_ENABLE 7).wakeOk 3 = true) := by
  decide +kernel

theorem met_PowerTraceAndWake_traceFramesAreSent :
    (let s : State := { up with trace := { now := List.replicate 1025 ⟨0, 0, 0⟩ } }; s.trace.lossOwed = 0 ∧ s.trace.queue.length ≤ 1024 ∧ 1024 < s.trace.queue.length + s.trace.now.length) ∧
    (let e : TraceEnt := ⟨0, 0, false, 5⟩; let s : State := { up with trace := { queue := [e], lossOwed := 1 } }
     up.clocked = true ∧ s.trace.queue = e :: [] ∧ e.sealed = false ∧ s.trace.lossOwed ≠ 0 ∧ (s.setReg Key.TRACE_MODE 2).reg Key.TRACE_MODE = 2 ∧
     up.trace.queue = [] ∧ up.trace.lossOwed = 0 ∧ up.sampleDue = false) ∧
    ((up.setReg Key.TRACE_MODE 2).setReg Key.TRACE_SAMPLE 1000).sampleDue = true := by
  decide +kernel

/-! ## Terms that are no command of their row -/

/-- A request whose value is 9, which no command row of a single value takes. -/
def odd : Dreq := (reqOn up .write Key.EVENT_RATE [9]).r

theorem test_ill_formed :
    ∀ i ∈ [Instr.frameForward 0x01 (frm 0x01 255 [0, 0, 0]), .probe .u 0x5A 0, .pret .u 0x3C 0, .cycle .u 0x3C 0 0, .cycle .d 0x4B 0 0,
        .geyserArm (frm 0x04 255 [0, 2 ^ 60]), .geyserCancel (frm 0x04 255 [0, 0]), .ringEnable (frm 0x09 255 [2 ^ 57, 0]),
        .ringDisable (frm 0x09 255 [2 ^ 56, 0]), .ringRestore (frm 0x09 255 [2 ^ 56, 0]), .encConfigWrite odd 0x2000 0,
        .encConfigWrite odd 0x2001 3, .layoutWrite odd 0x2200 1, .layoutWrite odd 0x2220 0, .ssiTestRead odd (some 0),
        .ssiRecoveryRead (some odd) (some 0), .dmaStart (some odd) 31, .dmaPause odd 31, .dmaResume odd 31, .dmaAbort odd 31, .updateInstall odd,
        .updateActivate odd, .updateConfirm odd, .updateAbort odd, .lifecycleAdvance odd, .lifecycleRetire odd], i.wf = false := by decide +kernel

theorem test_no_word_spells_a_command : decodeTableWord 64 0x4B = none ∧ up.withFetchWord 64 0x4B = up := ⟨rfl, rfl⟩

/-! ## Worked examples of the spec, and check values of the published algorithms -/

/-- The check value of CRC-32C (R18). -/
theorem test_crc32c : crc32c [0x31, 0x32, 0x33, 0x34, 0x35, 0x36, 0x37, 0x38, 0x39] = 0xE3069283 := by decide +kernel

/-- The example of FIPS 197. -/
theorem test_aes : aes128 0x000102030405060708090A0B0C0D0E0F 0x00112233445566778899AABBCCDDEEFF = 0x69C4E0D86A7B0430D8CDB78070B4C55A := by
  decide +kernel

/-- Its inverse. -/
theorem test_aes_inverse :
    aes128Inv 0x000102030405060708090A0B0C0D0E0F 0x69C4E0D86A7B0430D8CDB78070B4C55A = 0x00112233445566778899AABBCCDDEEFF := by decide +kernel

/-- Example 1 of SP 800-38B, cut to 64 bits. -/
theorem test_cmac : cmac64 0x2B7E151628AED2A6ABF7158809CF4F3C [] = 0xBB1D6929E9593728 := by decide +kernel

/-- The example of FIPS 180-4. -/
theorem test_sha256 : sha256 [0x61, 0x62, 0x63] = 0xBA7816BF8F01CFEA414140DE5DAE2223B00361A396177A9CB410FF61F20015AD := by decide +kernel

/-- The sealed write of STICKY_ADDR in chapter 3: D0, the message, and D0 of the answer. -/
theorem test_sealed_example :
    let f : Frame := ⟨.u, 7, 7, 0, true, false, 4, 0, [42, 0x00001E0000000000, 0x3A7C19E4B6052D81], 0, false⟩
    let q : Req := ⟨⟨f, 0x15, 0, 1, true, false, 0, 0, 0⟩, .write, 0x1100, 2⟩
    let s : State := { up.setReg Key.CHAIN_ADDR 7 with ident := { serial := 0x00005A170C3E9B02 } }
    q.d0 = 0x2151100020180000 ∧ q.key = Key.STICKY_ADDR ∧
    s.sealMessage q = [0, 0, 0x5A, 0x17, 0x0C, 0x3E, 0x9B, 2, 7, 0x11, 0, 2, 0, 0, 0x1E, 0, 0x2A] ∧
    drspD0 q ⟨0, false, false, []⟩ = 0x2151100020000000 := by decide +kernel

/-- Chain time in chapter 2: the unit at hop 1 with ACC 12, L 200 and a residence of 320 sends ACC 532; at hop 2 L is 184. -/
theorem test_cycle_example :
    (let s := (link fun l => { l with timeN := none, ctValid := false }).setReg Key.LINK_DELAY_U 200
     match exec (.cycle .u (BitVec.ofNat 64 (12 * 2 ^ 40 + 0x4B)) 0 320) s with
     | .next t => t.out = [.block .d (BitVec.ofNat 64 (532 * 2 ^ 40 + 0x100 + 0x4B))] | _ => False) ∧
    linkDelay true [728 - 360] 0 = 184 := by
  refine ⟨?_, by decide +kernel⟩
  show _ = _
  decide +kernel

/-- PENDING of −700 st and of −256 st, and the Gray code of the SSI example, in chapter 4. -/
theorem test_position_examples :
    (({} : Pos).setPending (-700)).n = 64 ∧ (({} : Pos).setPending (-700)).q = -10 ∧ (({} : Pos).setPending (-700)).rm = 60 ∧
    (({} : Pos).setPending (-256)).q = -4 ∧ grayToBin 0xE64 = 3000 := by decide +kernel

/-- The shares of an error of −37 under the default kernel, in chapter 7, and the level that a sense reading of 2,593 shows, in chapter 8. -/
theorem test_print_examples :
    diffShares (-37) 4 [7, 0, 0, 3, 5, 1, 0] 0 0 = [-16, 0, 0, -7, -12, -2, 0] ∧ up.senseLevel 38 2593 = 41488 := by decide +kernel

/-- The worked example of R444 in chapter 13: offset 0x01234567 in 8 Gb devices. -/
theorem test_sdram_example : bmDecode 0 0x01234567 = ⟨7, 0, 351, 0, 0x048D⟩ ∧ (bmDecode 0 0x01234568).group = 1 := by decide +kernel

end Sys2Proof.Tests
end

section
/-! Proofs of the statements about the whole machine (chapter 0, Scope). Every command stands behind gates: the supply and reset of the die,
the clock of its block, and the ports and groups that the part has. `exec_gated` says so once for all rows of the table. -/

namespace Sys2Proof.Machine

/-! ## The gates of a command -/

/-- The three ways in which a result respects what the part has and whether the die is on. `here` says that the part has the port or group
that the command names: then the command is carried out, and while the die is not on it changes nothing; otherwise a clocked block stops
with the fault that names what is missing. -/
structure Res.Gated (here : Bool) (s : State) (r : Res) : Prop where
  answers : here = true → ∃ t, r = .next t
  absent : here = false → s.clocked = true → ∃ n, r = .fault (.noSuchPort n) ∨ r = .fault (.noSuchGroup n)
  held : here = true → s.on = false → r = .next s

theorem State.on_of_clocked {s : State} (h : s.clocked = true) : s.on = true := by
  simp only [State.clocked, Bool.and_eq_true] at h
  exact h.1

/-- A state that is left alone while the die is not on. -/
theorem Res.gated_next {s t : State} (h : s.on = false → t = s) : Res.Gated true s (.next t) :=
  ⟨fun _ => ⟨t, rfl⟩, nofun, fun _ off => by rw [h off]⟩

theorem whenOn_gated {s t : State} : Res.Gated true s (whenOn s (.next t)) := by
  unfold whenOn
  split
  case isTrue on => exact Res.gated_next fun off => by simp [on] at off
  case isFalse => exact Res.gated_next fun _ => rfl

/-- Behind the clock gate only a clocked die acts, so what is carried out need not look at the supply. -/
theorem whenClocked_gated_of {here : Bool} {s : State} {r : Res} (answers : here = true → ∃ t, r = .next t)
    (absent : here = false → ∃ n, r = .fault (.noSuchPort n) ∨ r = .fault (.noSuchGroup n)) : Res.Gated here s (whenClocked s r) := by
  unfold whenClocked
  split
  case isTrue c => exact ⟨answers, fun h _ => absent h, fun _ off => by simp [State.on_of_clocked c] at off⟩
  case isFalse c => exact ⟨fun _ => ⟨s, rfl⟩, fun _ k => absurd k c, fun _ _ => rfl⟩

theorem whenClocked_gated {s t : State} : Res.Gated true s (whenClocked s (.next t)) :=
  whenClocked_gated_of (fun _ => ⟨t, rfl⟩) nofun

theorem whenClocked_onPort_gated {s t : State} {p : Nat} :
    Res.Gated (decide (p < s.nPorts)) s (whenClocked s (onPort p s t)) :=
  whenClocked_gated_of (fun h => ⟨t, by simp [onPort, of_decide_eq_true h]⟩) fun h => ⟨p, .inl (by simp [onPort, of_decide_eq_false h])⟩

theorem onGroup_of_lt {s t : State} {g : Nat} (h : g < s.nGroups) : onGroup g s t = .next t := if_pos h

theorem onGroup_of_not_lt {s t : State} {g : Nat} (h : ¬ g < s.nGroups) : onGroup g s t = .fault (.noSuchGroup g) := if_neg h

theorem whenClocked_onGroup_gated {s t : State} {g : Nat} :
    Res.Gated (decide (g < s.nGroups)) s (whenClocked s (onGroup g s t)) :=
  whenClocked_gated_of (fun h => ⟨t, onGroup_of_lt (of_decide_eq_true h)⟩) fun h => ⟨g, .inr (onGroup_of_not_lt (of_decide_eq_false h))⟩

/-- CAL_SET_COPY names its group whether or not the block is clocked, and copies only while the die is on. -/
theorem execCalSetCopy_gated (g : Fin 4) (s : State) : Res.Gated (decide (g.val < s.nGroups)) s (execCalSetCopy g s) where
  answers h := ⟨_, onGroup_of_lt (of_decide_eq_true h)⟩
  absent h _ := ⟨g, .inr (onGroup_of_not_lt (of_decide_eq_false h))⟩
  held h off := by
    unfold execCalSetCopy
    simp only [off, Bool.false_and]
    exact onGroup_of_lt (of_decide_eq_true h)

theorem State.not_starting_of_not_on {s : State} (off : s.on = false) : s.boot.phase ≠ .starting := by
  intro h
  simp [State.on, h] at off

theorem execRefclkWaitTimeout_gated (s : State) : Res.Gated true s (execRefclkWaitTimeout s) :=
  Res.gated_next fun off => if_neg (State.not_starting_of_not_on off)

theorem execStartupComplete_gated (s : State) : Res.Gated true s (execStartupComplete s) :=
  Res.gated_next fun off => if_neg (by simp [State.startupDone, State.not_starting_of_not_on off])

/-- Every cause of a restart but the host's request waits for the die, and the host's request for the clock. -/
theorem execCalderaRestart_gated (cause : RestartCause) (s : State) : Res.Gated true s (execCalderaRestart cause s) := by
  cases cause with
  | host r => exact whenClocked_gated
  | powerOn | chipReset | watchdog | blockReset | activate | abort | recover | clock => exact whenOn_gated

/-- Whatever KIND a frame has, the clock gates it. -/
theorem execFrameForward_gated (kind : BitVec 5) (f : Frame) (s : State) : Res.Gated true s (execFrameForward kind f s) := by
  unfold execFrameForward
  split <;> exact whenClocked_gated

/-- Every command but the releases and the always-on island's stands behind one of the gates of the spec: the supply and reset of the die
(R556, R560), the clock of its block (R540), and the ports and groups that the part has (R1, R4). -/
theorem exec_gated (i : Instr) (s : State) (h : i.onIsland = false) : Res.Gated (s.fits i) s (exec i s) := by
  cases i with
  | powerOnReset | shelfWake | chipResetRelease => simp [Instr.onIsland] at h
  | laneSignalDetect | laneBringupTimeout | laneRetry | train | fastExit | align | eidle | laneLossOfSignal | invalidSyncHeader
  | chainPortDown | chainPortUp | stickyStore | restoreSwitch | sealFloorRaise | sealFloorCommitted | encEdge | encLineClear | encDirEdge
  | hallEdge | gateAssert | gateRelease | faultArrival | histBatchWrite | injectExpire | blockReset | chipReset | tapReset | calderaRunning
  | wdtExpire | railTrip | railRecover | clockFail | clockRecover | logProgram | trialTimeout | otpScan | lcAdvance | lcRetire | provision
  | recover | jtagInstruction | powerChange | wake | blockLock => exact whenOn_gated
  | assemblyStart | screeningStart | shipStart | fireSlot | deferredFire | clearLatch | rampEnd | idleTickle | headIdRead
  | heatPeriodStart => exact whenClocked_onPort_gated
  | calStart | hovFrame | hovStrobe | hovVerify | hovRestoreRetry | measureStart | calRoundDone => exact whenClocked_onGroup_gated
  | calSetCopy g => exact execCalSetCopy_gated g s
  | bmZqShort => exact Res.gated_next fun _ => rfl
  | refclkWaitTimeout => exact execRefclkWaitTimeout_gated s
  | startupComplete => exact execStartupComplete_gated s
  | calderaRestart cause => exact execCalderaRestart_gated cause s
  | frameForward kind f => exact execFrameForward_gated kind f s
  | _ => exact whenClocked_gated

/-- The releases and the always-on island's commands name no port or group and are always carried out. -/
theorem exec_onIsland {i : Instr} (s : State) (h : i.onIsland = true) : s.fits i = true ∧ ∃ t, exec i s = .next t := by
  unfold Instr.onIsland at h
  split at h
  · exact ⟨rfl, _, rfl⟩
  · exact ⟨rfl, _, rfl⟩
  · exact ⟨rfl, _, rfl⟩
  · cases h

/-! ## What every step keeps -/

theorem State.Keeps.canon {s t : State} (h : s.Keeps t) (c : s.Canon) : t.Canon := by
  obtain ⟨regs, tabs, mem⟩ := c
  exact ⟨h.regs regs, h.tabs tabs, h.mem mem⟩

/-- But for the queue, a step keeps what commands and clocks keep. -/
theorem step_keeps {s t : State} (h : step s = .next t) :
    ∃ q, State.Keeps { s with pending := q } { t with pending := q } := by
  unfold step at h
  split at h
  case h_1 idle =>
    cases h
    exact ⟨s.pending, State.tick_keeps (State.Keeps.refl s)⟩
  case h_2 c rest waiting =>
    have k := exec_keeps c (State.Keeps.refl { s with pending := rest })
    rw [h] at k
    exact ⟨rest, k.ident, rfl, k.clk, k.free, k.freeT, k.regs, k.mem, k.tabs, k.otp⟩

end Sys2Proof.Machine

namespace Sys2Proof.Proofs

open Sys2Proof.Machine

/-- Settles O5: every command and every clock keeps the unit (`step_keeps`), whatever waits in the queue. -/
theorem everyStepKeepsTheUnit : Obligations.EveryStepKeepsTheUnit := by
  intro s t h
  obtain ⟨q, k⟩ := step_keeps h
  exact ⟨k.ident, k.clk, k.free, k.canon⟩

/-- Settles O8: each gate lets a command through or leaves the state alone where the part has what the command names (log 17 for the ports
and groups that it has not). -/
theorem everyWellFormedCommandAnswers : Obligations.EveryWellFormedCommandAnswers := by
  intro i s fits
  cases island : i.onIsland with
  | true => exact (exec_onIsland s island).2
  | false => exact (exec_gated i s island).answers fits

/-- Settles O9: the gate of a port or group that is missing faults by name (log 17), and the gates of supply and clock are shut while the
die is not on (log 61). -/
theorem commandsThatDoNothing : Obligations.CommandsThatDoNothing := by
  refine ⟨fun i s unfit clocked => ?_, fun i s off fits island => (exec_gated i s island).held fits off⟩
  have island : i.onIsland = false := by
    rw [Bool.eq_false_iff]
    intro h
    simp [(exec_onIsland s h).1] at unfit
  exact (exec_gated i s island).absent unfit clocked

end Sys2Proof.Proofs
end

section
/-! Proofs about the written objects of calibration, inspection, the loop, bulk memory and the DMA movers. A row that stands for a write of
an object leaves what `applyWrite` leaves (Laws/Requests.lean) and answers; here stand the elements that the part has not, and the one
READ. -/

namespace Sys2Proof.Machine

/-- The dictionary's object of key `k` is carried out by the unit itself at its acceptance: IMMEDIATE, and not firmware-backed. -/
def takesEffectNow (k : Nat) : Bool := (objOf k).any fun o => o.commit == .imm && !o.fw

/-- The write that a row stands for leaves the state `u` and is answered. -/
theorem State.Writes.exec_eq {s t u : State} {i : Instr} {q : Req} (h : s.Writes i q t) {r : Dreq} {index sub k : Nat}
    (row : reqOf i = some ⟨r, .write, index, sub⟩) (key : index * 256 + sub = k) (now : takesEffectNow k = true)
    (effect : t.applyWrite k (t.valueOf q) = u) : Machine.exec i s = .next (u.answers q St.OK t.ct) := by
  obtain rfl : q = ⟨r, .write, index, sub⟩ := Option.some.inj (h.req.symm.trans row)
  obtain ⟨o, known, imm, unit⟩ : ∃ o, objOf k = some o ∧ o.commit = .imm ∧ o.fw = false := by
    simpa [takesEffectNow, Option.any_eq_true] using now
  exact effect ▸ h.exec rfl (Req.key_eq key) o known imm (.inl unit)

/-! ## Elements that the part has not (R4) -/

theorem State.elemHere_calAbort (t : State) (g : Fin 4) : t.elemHere (Key.CAL_ABORT g) = decide (g.val < t.nGroups) := by
  have index : Key.CAL_ABORT g / 256 = 0x2513 := by simp only [Key.CAL_ABORT]; omega
  have sub : Key.CAL_ABORT g % 256 = g.val := by simp only [Key.CAL_ABORT]; omega
  simp [State.elemHere, index, sub]

theorem State.elemHere_calRequest (t : State) (c : Fin 68) : t.elemHere (Key.CAL_REQUEST c) = t.hasChannel c := by
  have index : Key.CAL_REQUEST c / 256 = 0x2529 := by simp only [Key.CAL_REQUEST]; omega
  have sub : Key.CAL_REQUEST c % 256 = c.val := by simp only [Key.CAL_REQUEST]; omega
  simp [State.elemHere, index, sub]

/-- No window of a plane depends on an object that lies between those of the Delay Store and those of a port. -/
theorem needsWindows_of_between {k : Nat} (lo : 0x2220 ≤ k / 256) (hi : k / 256 < 0x3000) : needsWindows k = false := by
  simp only [needsWindows, Bool.or_eq_false_iff, Bool.and_eq_false_iff, decide_eq_false_iff_not]
  omega

theorem State.applyWrite_calAbort_absent (t : State) (v : Nat) (g : Fin 4) (h : t.nGroups ≤ g.val) :
    t.applyWrite (Key.CAL_ABORT g) v = t :=
  State.applyWrite_absent (by simp [State.elemHere_calAbort, h])
    (by simp only [Key.CAL_ABORT]; omega) (needsWindows_of_between (by simp only [Key.CAL_ABORT]; omega) (by simp only [Key.CAL_ABORT]; omega))

theorem State.applyWrite_calRequest_absent (t : State) (v : Nat) (c : Fin 68) (h : t.hasChannel c = false) :
    t.applyWrite (Key.CAL_REQUEST c) v = t :=
  State.applyWrite_absent (by rw [State.elemHere_calRequest, h])
    (by simp only [Key.CAL_REQUEST]; omega)
    (needsWindows_of_between (by simp only [Key.CAL_REQUEST]; omega) (by simp only [Key.CAL_REQUEST]; omega))

/-! ## A READ of WORD_DATA (R109, R472) -/

/-- What the first checks of an accepted request found: it spells a request (R113, R119) and names objects that exist (R103). -/
theorem State.Accepts.checked {s t : State} {q : Req} (h : s.Accepts q t) (names : q.op.noObject = false) :
    q.step1 = none ∧ (t.named q).any Option.isNone = false := by
  obtain ⟨u, -, -, early, takes⟩ := h.taken
  have same : t.named q = u.named q := by
    obtain ⟨-, rfl⟩ | ⟨-, -, rfl⟩ := takes <;> rfl
  simp only [State.early, names, Bool.false_eq_true, if_false, Option.orElse_eq_none] at early
  obtain ⟨spelled, found, -⟩ := early
  refine ⟨spelled, ?_⟩
  rw [same, Bool.eq_false_iff]
  intro missing
  simp only [State.step2, missing, if_true] at found
  split at found <;> cases found

/-- An operation that is not sealable is accepted unsealed only (R119). -/
theorem Req.unsealed_of_step1 {q : Req} (h : q.step1 = none) (n : q.op.sealable = false) : q.r.sealed = false := by
  rw [Bool.eq_false_iff]
  intro sealed
  simp [Req.step1, sealed, n] at h

theorem State.readValue_wordData {t : State} {q : Req} {o : Obj} (key : q.key = Key.WORD_DATA) (e : t.object Key.WORD_DATA = some o) :
    State.readValue q (t, []) 0 = (t.wordRead.1, valueBlocks o.ty t.wordRead.2) := by
  simp [State.readValue, key, e]

/-- The unit's own object has the type and the backing that the dictionary gives it. -/
theorem State.object_known {t : State} {k : Nat} {o : Obj} (h : t.object k = some o) :
    ∃ d, objOf k = some d ∧ o.ty = d.ty ∧ o.fw = d.fw := by
  unfold State.object at h
  split at h
  · obtain ⟨d, known, rfl⟩ := Option.map_eq_some_iff.1 h
    exact ⟨d, known, by split <;> rfl, by split <;> rfl⟩
  · cases h

theorem State.object_wordData {t : State} {o : Obj} (h : t.object Key.WORD_DATA = some o) : o.ty = .w72 ∧ o.fw = false := by
  have dictionary : (objOf Key.WORD_DATA).all (fun d => d.ty == .w72 && !d.fw) = true := by decide
  obtain ⟨d, known, ty, fw⟩ := State.object_known h
  simpa [known, ty, fw] using dictionary

/-- A READ of WORD_DATA alone is an access of bulk memory, answered with the word. -/
theorem State.Accepts.read_wordData {s t : State} {r : Dreq} (h : s.Accepts ⟨r, .read, 0x2902, 3⟩ t) (one : r.count.toNat ≤ 1) :
    s.dreq ⟨r, .read, 0x2902, 3⟩ false =
      t.wordRead.1.conclude ⟨r, .read, 0x2902, 3⟩ false ⟨St.OK, false, false, valueBlocks .w72 t.wordRead.2⟩ t.ct := by
  obtain ⟨spelled, found⟩ := h.checked rfl
  have n : Req.n ⟨r, .read, 0x2902, 3⟩ = 1 := by simp [Req.n, one]
  have key : Req.key ⟨r, .read, 0x2902, 3⟩ = Key.WORD_DATA := Req.key_eq (by norm_num)
  have named : t.named ⟨r, .read, 0x2902, 3⟩ = [t.object Key.WORD_DATA] := by simp [State.named, n, key]
  obtain ⟨o, here⟩ : ∃ o, t.object Key.WORD_DATA = some o := by
    rw [named] at found
    exact Option.isSome_iff_exists.1 (by simpa [← Option.isSome_eq_false_iff] using found)
  obtain ⟨wide, unit⟩ := State.object_wordData here
  have own : t.fwNamed ⟨r, .read, 0x2902, 3⟩ = false := by simp [State.fwNamed, State.objects, named, here, unit]
  rw [h.performed (.inl own), Req.unsealed_of_step1 spelled rfl]
  simp [State.perform, State.doRead, n, State.readValue_wordData key here, wide]

end Sys2Proof.Machine

namespace Sys2Proof.Proofs

open Sys2Proof.Machine

/-- Settles O35: each row is the accepted write of one IMMEDIATE object that the unit itself holds, so it leaves that object's effect; the
bell of a compare unit is taken as given (log 51). -/
theorem unitWritesAct : Obligations.UnitWritesAct := by
  intro s t q r g ch cam port d
  have group : takesEffectNow (Key.CAL_ABORT g) = true := by revert g; decide
  have channel : takesEffectNow (Key.CAL_REQUEST ch) = true := by revert ch; decide
  have camera : takesEffectNow (Key.CAM_ENABLE cam) = true ∧ takesEffectNow (Key.I2C_CMD cam) = true := by revert cam; decide
  have loop : takesEffectNow (Key.LOOP_CLEAR port) = true := by revert port; decide
  have mover : takesEffectNow (Key.CH_CMD d) = true := by revert d; decide
  refine ⟨fun h here => h.exec_eq rfl rfl group (State.applyWrite_calAbort t _ g here),
    fun h absent => h.exec_eq rfl rfl group (State.applyWrite_calAbort_absent t _ g absent),
    fun h here => h.exec_eq rfl rfl channel (State.applyWrite_calRequest t _ ch here),
    fun h absent => h.exec_eq rfl rfl channel (State.applyWrite_calRequest_absent t _ ch absent),
    fun h => h.exec_eq rfl (by simp [Key.CAM_ENABLE]; omega) camera.1 (State.applyWrite_camEnable t _ cam),
    fun h => h.exec_eq rfl (by simp [Key.I2C_CMD]; omega) camera.2 (State.applyWrite_i2cCmd t _ cam),
    fun h => h.exec_eq rfl rfl (by decide) (State.applyWrite_loopEnable t _),
    fun h => h.exec_eq rfl (by simp [Key.LOOP_CLEAR]; omega) loop (State.applyWrite_loopClear t _ port),
    fun h => h.exec_eq rfl rfl (by decide) (State.applyWrite_bmControl t _),
    fun h => h.exec_eq rfl (by simp [Key.CH_CMD]; omega) mover (State.applyWrite_chCmd t _ d),
    fun clocked => if_pos clocked,
    fun h => h.exec_eq rfl (by simp [Key.CH_CMD]; omega) mover (State.applyWrite_chCmd t _ d),
    fun h => h.exec_eq rfl (by simp [Key.CH_CMD]; omega) mover (State.applyWrite_chCmd t _ d),
    fun h => h.exec_eq rfl (by simp [Key.CH_CMD]; omega) mover (State.applyWrite_chCmd t _ d),
    fun h => h.exec_eq rfl rfl (by decide) (State.applyWrite_wordData t _),
    fun h one => ?_⟩
  rw [exec_request (i := .wordData r false) rfl h.clocked]
  exact congrArg _ (h.read_wordData one)

end Sys2Proof.Proofs
end

section
/-! The clock of the unit, for the statement about an idle queue. No operation of the model but the end of a core clock moves `clk`: one rule
per operation that a core clock can reach, through commands of the dictionary that waited too (log 1). -/

namespace Sys2Proof.Machine

/-! ## Choices and repetitions -/

/-- The decision is an implicit argument: it may speak of a state that `simp` has already rewritten in the proposition. -/
@[simp] theorem State.clk_ite (c : Prop) {_ : Decidable c} (a b : State) : (if c then a else b).clk = if c then a.clk else b.clk :=
  apply_ite State.clk c a b

@[simp] theorem State.fst_clk_ite {β : Type} (c : Prop) {_ : Decidable c} (a b : State × β) :
    (if c then a else b).1.clk = if c then a.1.clk else b.1.clk :=
  apply_ite (fun r : State × β => r.1.clk) c a b

theorem clk_of_ite_some {c : Prop} {_ : Decidable c} {s u : State} {o : Option State} (hu : u.clk = s.clk)
    (ho : ∀ t, o = some t → t.clk = s.clk) : ∀ t, (if c then some u else o) = some t → t.clk = s.clk := by
  intro t h
  split at h
  · cases h
    exact hu
  · exact ho t h

@[simp] theorem foldl_clk {α : Type} {f : State → α → State} (hf : ∀ t a, (f t a).clk = t.clk) (l : List α) (s : State) :
    (l.foldl f s).clk = s.clk := by
  induction l generalizing s with
  | nil => rfl
  | cons a l ih => rw [List.foldl_cons, ih, hf]

@[simp] theorem foldl_fst_clk {α β : Type} {f : State × β → α → State × β} (hf : ∀ t a, (f t a).1.clk = t.1.clk) (l : List α)
    (r : State × β) : (l.foldl f r).1.clk = r.1.clk := by
  induction l generalizing r with
  | nil => rfl
  | cons a l ih => rw [List.foldl_cons, ih, hf]

@[simp] theorem State.forEach_clk {f : Nat → State → State} (hf : ∀ i t, (f i t).clk = t.clk) (l : List Nat) (s : State) :
    (s.forEach l f).clk = s.clk :=
  foldl_clk (fun t i => hf i t) l s

/-! ## No operation moves the clock

Where `simp` would close a goal by unfolding two large states, the rules are named with `rw`, or its steps are proofs
(`-implicitDefEqProofs`): the kernel then compares no states. -/

section

variable (s : State)

/-! ### Shared operations (Machine/Ops) -/

@[simp] theorem State.pmc_clk (ev q n : Nat) : (s.pmc ev q n).clk = s.clk := by simp [State.pmc]

@[simp] theorem State.tracePut_clk (sealed : Bool) (v : Nat) : (s.tracePut sealed v).clk = s.clk := by simp [State.tracePut]

@[simp] theorem State.traceRec_clk (kind data : Nat) : (s.traceRec kind data).clk = s.clk := by simp [State.traceRec]

@[simp] theorem State.traceEnd_clk : s.traceEnd.clk = s.clk := by simp [State.traceEnd]

/-! ### Lanes (Machine/Lanes) -/

@[simp] theorem State.dropImage_clk (i : Nat) : (s.dropImage i).clk = s.clk := by simp [State.dropImage]

@[simp] theorem State.loseLane_clk (i : Nat) : (s.loseLane i).clk = s.clk := by simp [State.loseLane]

@[simp] theorem State.downLane_clk (i : Nat) : (s.downLane i).clk = s.clk := by simp [State.downLane]

@[simp] theorem State.sendAlign_clk (i : Nat) : (s.sendAlign i).clk = s.clk := by simp [State.sendAlign]

@[simp] theorem State.alignTick_clk : s.alignTick.clk = s.clk := by simp [State.alignTick]

/-! ### The chain (Machine/Chain) -/

@[simp] theorem State.putFrame_clk (p : ChainPort) (kind : Nat) (f : Frame) : (s.putFrame p kind f).clk = s.clk := by simp [State.putFrame]

@[simp] theorem State.transmit_clk (p : ChainPort) (fwd : Bool) (kind : Nat) (f : Frame) : (s.transmit p fwd kind f).clk = s.clk := by
  simp [State.transmit]

@[simp] theorem State.txTick_clk (p : ChainPort) : (s.txTick p).clk = s.clk := by
  unfold State.txTick
  split
  · split <;> simp
  · rfl

@[simp] theorem State.sendFrame_clk (p : ChainPort) (kind seq dest : Nat) (data : List Block) :
    (s.sendFrame p kind seq dest data).clk = s.clk := by
  simp [State.sendFrame]

@[simp] theorem State.nextSeq_clk : s.nextSeq.1.clk = s.clk := by simp [State.nextSeq]

@[simp] theorem State.geyserTick_clk : s.geyserTick.clk = s.clk := by simp [State.geyserTick]

/-! ### Answers (Machine/Answer) -/

@[simp] theorem State.countAnswer_clk (q : Req) (st : Nat) : (s.countAnswer q st).clk = s.clk := by simp [State.countAnswer]

@[simp] theorem State.answer_clk (q : Req) (p : Reply) (acc : Nat) : (s.answer q p acc).clk = s.clk := by simp [State.answer]

@[simp] theorem State.bcastDone_clk (st : Nat) : (s.bcastDone st).clk = s.clk := by simp [State.bcastDone]

@[simp] theorem State.finish_clk (q : Req) (took : Bool) (p : Reply) (acc : Nat) : (s.finish q took p acc).clk = s.clk := by
  simp [State.finish]

@[simp] theorem State.poison_clk (g : Nat) : (s.poison g).clk = s.clk := by
  unfold State.poison
  split <;> simp

@[simp] theorem State.conclude_clk (q : Req) (took : Bool) (p : Reply) (acc : Nat) : (s.conclude q took p acc).clk = s.clk := by
  simp [State.conclude]

@[simp] theorem State.fwDown_clk : s.fwDown.clk = s.clk := by simp [State.fwDown]

/-! ### Position (Machine/Position) -/

@[simp] theorem State.countEdge_clk (t : Nat) : (s.countEdge t).clk = s.clk := by
  unfold State.countEdge
  split <;> simp

@[simp] theorem State.restartTicks_clk : s.restartTicks.clk = s.clk := by simp [State.restartTicks]

@[simp] theorem State.syncDir_clk : s.syncDir.clk = s.clk := by simp [State.syncDir]

@[simp] theorem State.seekRef_clk : s.seekRef.clk = s.clk := by simp [State.seekRef]

@[simp] theorem State.syncEncOut_clk : s.syncEncOut.clk = s.clk := by simp [State.syncEncOut]

@[simp] theorem State.slipRestart_clk : s.slipRestart.clk = s.clk := by simp [State.slipRestart]

@[simp] theorem State.setLocal_clk (x : Nat) : (s.setLocal x).clk = s.clk := by
  rw [State.setLocal, State.updPos_clk, State.updPos_clk]

@[simp] theorem State.ssiUse_clk (diffSt : Int) (u : SsiUse) : (s.ssiUse diffSt u).clk = s.clk := by
  cases u with
  | test => rfl
  | start => rw [State.ssiUse, State.setReg_clk, State.updPos_clk, State.setLocal_clk]
  | recovery => simp [State.ssiUse]

@[simp] theorem State.ssiEnd_clk (r : SsiRes) (diffSt : Int) : (s.ssiEnd r diffSt).clk = s.clk := by simp [State.ssiEnd]

@[simp] theorem State.ssiBegin_clk (first : Option SsiShot) : (s.ssiBegin first).clk = s.clk := by simp [State.ssiBegin]

@[simp] theorem State.ssiTick_clk : s.ssiTick.clk = s.clk := by
  unfold State.ssiTick
  split <;> simp

@[simp] theorem State.ssiStart_clk (u : SsiUse) : (s.ssiStart u).clk = s.clk := by simp [State.ssiStart]

@[simp] theorem State.encConfig_clk (key old : Nat) : (s.encConfig key old).clk = s.clk := by simp [State.encConfig]

@[simp] theorem State.ssiCommandWrite_clk : s.ssiCommandWrite.clk = s.clk := by
  unfold State.ssiCommandWrite
  split <;> simp

@[simp] theorem State.dirConfig_clk (key old : Nat) : (s.dirConfig key old).clk = s.clk := by simp [State.dirConfig]

@[simp] theorem State.ssiModulusWrite_clk : s.ssiModulusWrite.clk = s.clk := by simp [State.ssiModulusWrite]

@[simp] theorem State.presetLocal_clk (x : Nat) : (s.presetLocal x).clk = s.clk := by simp [State.presetLocal]

@[simp] theorem State.posRoleWrite_clk : s.posRoleWrite.clk = s.clk := by simp [State.posRoleWrite]

@[simp] theorem State.posPresetWrite_clk : s.posPresetWrite.clk = s.clk := by
  rw [State.posPresetWrite, State.setReg_clk, State.presetLocal_clk]

/-! ### The grid and its compare units (Machine/Grid) -/

@[simp] theorem State.setupGrid_clk : s.setupGrid.clk = s.clk := by simp [State.setupGrid]

@[simp] theorem State.markDict_clk (c : Commit) (f : Nat → Bool → Bool) : (s.markDict c f).clk = s.clk := by simp [State.markDict]

@[simp] theorem State.markPending_clk (c : Commit) (f : Nat → Bool → Bool) : (s.markPending c f).clk = s.clk := by simp [State.markPending]

@[simp] theorem State.markAll_clk (f : Nat → Bool → Bool) : (s.markAll f).clk = s.clk := by simp [State.markAll]

@[simp] theorem State.reacceptAll_clk : s.reacceptAll.clk = s.clk := by simp [State.reacceptAll]

@[simp] theorem State.dropFreeze_clk : s.dropFreeze.clk = s.clk := by simp [State.dropFreeze]

@[simp] theorem State.gridEnableWrite_clk (old : Nat) : (s.gridEnableWrite old).clk = s.clk := by simp [State.gridEnableWrite]

@[simp] theorem State.freezeNow_clk (c : Commit) : (s.freezeNow c).clk = s.clk := by simp [State.freezeNow]

@[simp] theorem State.freezeAll_clk : s.freezeAll.clk = s.clk := by simp [State.freezeAll]

@[simp] theorem State.queueSheetNow_clk (q : Nat) : (s.queueSheetNow q).clk = s.clk := by simp [State.queueSheetNow]

@[simp] theorem State.queueWaiting_clk : s.queueWaiting.clk = s.clk := by simp [State.queueWaiting]

@[simp] theorem State.queueSheet_clk (q : Nat) : (s.queueSheet q).clk = s.clk := by simp [State.queueSheet]

@[simp] theorem State.cmpFlag_clk (c i : Nat) (b : Bool) : (s.cmpFlag c i b).clk = s.clk := by simp [State.cmpFlag]

@[simp] theorem State.cmpArm_clk (c : Nat) : (s.cmpArm c).clk = s.clk := by simp [State.cmpArm]

@[simp] theorem State.cmpCtrlWrite_clk (c old : Nat) : (s.cmpCtrlWrite c old).clk = s.clk := by simp [State.cmpCtrlWrite]

@[simp] theorem State.cmpTargetWrite_clk (c : Nat) : (s.cmpTargetWrite c).clk = s.clk := by simp [State.cmpTargetWrite]

@[simp] theorem State.cmpTick_clk : s.cmpTick.clk = s.clk := by simp [State.cmpTick]

/-! ### Scratch Banks and bulk memory (Machine/Memory) -/

@[simp] theorem State.loopWord_clk (x : Nat) (w : Word) : (s.loopWord x w).clk = s.clk := by
  unfold State.loopWord
  split
  · rfl
  · exact State.forEach_clk (fun p t => State.updLport_clk t p _) _ s

@[simp] theorem State.putScratch_clk (x : Nat) (w : Word) : (s.putScratch x w).clk = s.clk := by simp [State.putScratch]

@[simp] theorem State.readScratch_clk (portB : Bool) (x : Nat) : (s.readScratch portB x).1.clk = s.clk := by
  unfold State.readScratch
  split <;> simp

@[simp] theorem State.writeScratch_clk (portB : Bool) (a : Nat) (v : Word) : (s.writeScratch portB a v).1.clk = s.clk := by
  simp [State.writeScratch]

@[simp] theorem State.portA_clk (a : Nat) : (s.portA a).clk = s.clk := by simp [State.portA]

@[simp] theorem State.bmOutOfRange_clk : s.bmOutOfRange.clk = s.clk := by simp [State.bmOutOfRange]

@[simp] theorem State.readBulk_clk (a : Nat) : (s.readBulk a).1.clk = s.clk := by
  unfold State.readBulk
  repeat' split
  all_goals simp

@[simp] theorem State.putBulk_clk (a : Nat) (w : Word) : (s.putBulk a w).clk = s.clk := by simp [State.putBulk]

@[simp] theorem State.writeBulk_clk (a : Nat) (w : Word) : (s.writeBulk a w).clk = s.clk := by simp [State.writeBulk]

@[simp] theorem State.writeBulks_clk (a : Nat) (ws : List Word) : (s.writeBulks a ws).clk = s.clk := by simp [State.writeBulks]

@[simp] theorem State.pmcBulk_clk (write : Bool) (who a n : Nat) : (s.pmcBulk write who a n).clk = s.clk := by simp [State.pmcBulk]

@[simp] theorem State.bmTrainBegin_clk : s.bmTrainBegin.clk = s.clk := by simp [State.bmTrainBegin]

/-! ### Raster ingress (Machine/Ingress) -/

@[simp] theorem State.freeBelow_clk (q e : Nat) : (s.freeBelow q e).clk = s.clk := by simp [State.freeBelow]

@[simp] theorem State.setBottom_clk (q b : Nat) (afresh : Bool) : (s.setBottom q b afresh).clk = s.clk := by simp [State.setBottom]

@[simp] theorem State.windowPlane_clk (start : Bool) (q : Nat) : (s.windowPlane start q).clk = s.clk := by
  unfold State.windowPlane
  dsimp only
  split <;> simp

@[simp] theorem State.judgeShallow_clk (handed : Bool) (q : Nat) : (s.judgeShallow handed q).clk = s.clk := by
  unfold State.judgeShallow
  rw [State.clk_ite, State.cause_clk, ite_self]

@[simp] theorem State.windows_clk (start : Bool) : (s.windows start).clk = s.clk := by
  unfold State.windows
  rw [State.forEach_clk fun q t => State.judgeShallow_clk t false q]
  split
  · exact State.forEach_clk (fun q t => State.updPlane_clk t q _) _ s
  · split
    · exact State.forEach_clk (fun q t => State.updPlane_clk t q _) _ s
    · exact State.forEach_clk (fun q t => State.windowPlane_clk t start q) _ s

@[simp] theorem State.windowsHanded_clk : s.windowsHanded.clk = s.clk := by simp [State.windowsHanded]

@[simp] theorem State.relayout_clk (l : List Nat) : (s.relayout l).clk = s.clk := by
  unfold State.relayout
  rw [State.windows_clk, State.setReg_clk]
  exact State.forEach_clk (fun i t => State.updIlane_clk t i _) _ _

@[simp] theorem State.laneEnableWrite_clk : s.laneEnableWrite.clk = s.clk := by simp [State.laneEnableWrite]

@[simp] theorem State.freeBuffer_clk (lane : Nat) : (s.freeBuffer lane).clk = s.clk := by simp [State.freeBuffer]

@[simp] theorem State.putEntry_clk (e : InProg) : (s.putEntry e).clk = s.clk := by simp [State.putEntry]

@[simp] theorem State.writePacket_clk (lane : Nat) (h : RasterHdr) (ws : List Word) (e : InProg) :
    (s.writePacket lane h ws e).clk = s.clk := by
  simp [State.writePacket]

@[simp] theorem State.takePacket_clk (lane : Nat) (h : RasterHdr) (ws : List Word) : (s.takePacket lane h ws).clk = s.clk := by
  unfold State.takePacket
  dsimp only
  repeat' split
  all_goals simp

@[simp] theorem State.packetIn_clk (lane : Fin 4) (hdr : RasterHdr) (words : List Word) (crc : BitVec 32) :
    (s.packetIn lane hdr words crc).clk = s.clk := by
  simp [State.packetIn]

@[simp] theorem State.packetsHeld_clk : s.packetsHeld.clk = s.clk := by simp [State.packetsHeld]

/-! ### Screening (Machine/Screening) -/

@[simp] theorem State.failWords_clk (l : List (Nat × Nat)) : (s.failWords l).clk = s.clk := by simp [State.failWords]

@[simp] theorem State.tableFails_clk (p n : Nat) : (s.tableFails p n).clk = s.clk := by simp [State.tableFails]

@[simp] theorem State.screenLine_clk (p g pass : Nat) (l : List Noz) : (s.screenLine p g pass l).1.clk = s.clk := by
  simp [State.screenLine]

@[simp] theorem State.countScreened_clk (p : Nat) : (s.countScreened p).clk = s.clk := by simp [State.countScreened]

@[simp] theorem State.resetCarry_clk (p : Nat) : (s.resetCarry p).clk = s.clk := by simp [State.resetCarry]

@[simp] theorem State.judgeDead_clk (p : Nat) : (s.judgeDead p).clk = s.clk := by simp [State.judgeDead]

/-! ### Waveforms (Machine/Wave) -/

@[simp] theorem State.refreshWave_clk (p : Nat) : (s.refreshWave p).clk = s.clk := by
  unfold State.refreshWave
  rw [State.setReg_clk, State.setReg_clk]
  exact State.forEach_clk (fun w t => State.setReg_clk t _ _) _ s

@[simp] theorem State.snapScale_clk (p w : Nat) : (s.snapScale p w).clk = s.clk := by
  unfold State.snapScale
  split <;> simp

@[simp] theorem State.stepScale_clk (p w : Nat) : (s.stepScale p w).clk = s.clk := by
  unfold State.stepScale
  split <;> simp

@[simp] theorem State.judgeSense_clk (p : Nat) (k : SenseChk) : (s.judgeSense p k).clk = s.clk := by simp [State.judgeSense]

@[simp] theorem State.settleSense_clk (p : Nat) : (s.settleSense p).clk = s.clk := by simp [State.settleSense]

@[simp] theorem State.draw_clk (p t8 : Nat) (w0Only tickle : Bool) (sense : List Nat) : (s.draw p t8 w0Only tickle sense).clk = s.clk := by
  unfold State.draw
  dsimp only
  split <;> simp

@[simp] theorem State.shipOut_clk (p g : Nat) (l : ShipLink) (codes : List Nat) : (s.shipOut p g l codes).clk = s.clk := by
  simp [State.shipOut]

/-! ### Firing (Machine/Fire) -/

@[simp] theorem State.beginShip_clk (p : Nat) : (s.beginShip p).clk = s.clk := by
  unfold State.beginShip
  dsimp only
  split <;> simp

@[simp] theorem State.startPort_clk (p : Nat) : (s.startPort p).clk = s.clk := by simp [State.startPort]

@[simp] theorem State.recordStop_clk (p cause : Nat) (cut partial_ : Bool) (ct : Nat) :
    (s.recordStop p cause cut partial_ ct).clk = s.clk := by
  unfold State.recordStop
  split <;> simp

@[simp] theorem State.portDisarmed_clk (p : Nat) : (s.portDisarmed p).clk = s.clk := by simp [State.portDisarmed]

@[simp] theorem State.clearAfter_clk (p t8 : Nat) : (s.clearAfter p t8).clk = s.clk := by simp [State.clearAfter]

@[simp] theorem State.endPort_clk (p : Nat) : (s.endPort p).clk = s.clk := by simp [State.endPort]

@[simp] theorem State.disarmPort_clk (p : Nat) : (s.disarmPort p).clk = s.clk := by
  unfold State.disarmPort
  dsimp only
  split <;> simp

@[simp] theorem State.lineStop_clk (p : Nat) : (s.lineStop p).clk = s.clk := by
  unfold State.lineStop
  dsimp only
  repeat' split
  all_goals simp

@[simp] theorem State.stopAtLine_clk (cause p : Nat) : (s.stopAtLine cause p).clk = s.clk := by
  unfold State.stopAtLine
  dsimp only
  split <;> simp

@[simp] theorem State.rampPort_clk (p t8 : Nat) : (s.rampPort p t8).clk = s.clk := by simp [State.rampPort]

@[simp] theorem State.cutPort_clk (cause : Nat) (hold : Bool) (p : Nat) : (s.cutPort cause hold p).clk = s.clk := by
  unfold State.cutPort
  dsimp only
  split <;> simp

@[simp] theorem State.fireInhibit_clk : s.fireInhibit.clk = s.clk := by simp [State.fireInhibit]

@[simp] theorem State.gateRise_clk (g : Nat) : (s.gateRise g).clk = s.clk := by simp [State.gateRise]

@[simp] theorem State.restartHeld_clk (p : Nat) : (s.restartHeld p).clk = s.clk := by simp [State.restartHeld]

@[simp] theorem State.gateFall_clk (g : Nat) : (s.gateFall g).clk = s.clk := by simp [State.gateFall]

@[simp] theorem State.gateCfgWrite_clk (g old : Nat) : (s.gateCfgWrite g old).clk = s.clk := by simp [State.gateCfgWrite]

@[simp] theorem State.slotReport_clk (p line : Nat) (drop : Bool) (late : Nat) : (s.slotReport p line drop late).clk = s.clk := by
  simp [State.slotReport]

@[simp] theorem State.slotTrace_clk (p line kind : Nat) : (s.slotTrace p line kind).clk = s.clk := by simp [State.slotTrace]

@[simp] theorem State.advanceSlot_clk (p t8 rel8 : Nat) : (s.advanceSlot p t8 rel8).clk = s.clk := by simp [State.advanceSlot]

@[simp] theorem State.markFired_clk (p g : Nat) : (s.markFired p g).clk = s.clk := by
  unfold State.markFired
  rw [foldl_clk fun t e => State.updTests_clk t _ _ _]
  simp

@[simp] theorem State.dropSlot_clk (p t8 : Nat) : (s.dropSlot p t8).clk = s.clk := by simp [State.dropSlot]

@[simp] theorem State.fireSlot_clk (p tg8 t8 : Nat) (sense : List Nat) : (s.fireSlot p tg8 t8 sense).clk = s.clk := by
  simp [State.fireSlot]

@[simp] theorem State.deferDecide_clk (p tg8 t8 : Nat) (sense : List Nat) : (s.deferDecide p tg8 t8 sense).clk = s.clk := by
  unfold State.deferDecide
  split <;> simp

@[simp] theorem State.paceStages_clk (p tg8 : Nat) : (s.paceStages p tg8).clk = s.clk := by simp [State.paceStages]

@[simp] theorem State.judgeSlot_clk (p t8 : Nat) (sense : List Nat) : (s.judgeSlot p t8 sense).clk = s.clk := by
  unfold State.judgeSlot
  dsimp only
  repeat' split
  all_goals simp

@[simp] theorem State.fireInstant_clk (p t8 : Nat) (sense : List Nat) : (s.fireInstant p t8 sense).clk = s.clk := by
  simp [State.fireInstant]

@[simp] theorem State.tickle_clk (p : Nat) (sense : List Nat) : (s.tickle p sense).clk = s.clk := by simp [State.tickle]

@[simp] theorem State.armPorts_clk (mask : Nat) : (s.armPorts mask).clk = s.clk := by simp [State.armPorts]

@[simp] theorem State.disarmPorts_clk (mask : Nat) : (s.disarmPorts mask).clk = s.clk := by simp [State.disarmPorts]

@[simp] theorem State.judgeWave_clk (p : Nat) : (s.judgeWave p).clk = s.clk := by simp [State.judgeWave]

/-! ### Heaters (Machine/Thermal) -/

@[simp] theorem State.heatForce_clk (p : Nat) : (s.heatForce p).clk = s.clk := by simp [State.heatForce]

@[simp] theorem State.heatModeWrite_clk (p old : Nat) : (s.heatModeWrite p old).clk = s.clk := by simp [State.heatModeWrite]

/-! ### Drive Calibration (Machine/Cal) -/

@[simp] theorem State.correctAt_clk (c : Nat) (td : Option Int) : (s.correctAt c td).clk = s.clk := by
  unfold State.correctAt
  split <;> simp

@[simp] theorem State.recompute_clk (c : Nat) : (s.recompute c).clk = s.clk := by simp [State.recompute]

@[simp] theorem State.queueHov_clk (g : Nat) (l : List HovCmd) : (s.queueHov g l).clk = s.clk := by simp [State.queueHov]

@[simp] theorem State.calFinal_clk (g c : Nat) : (s.calFinal g c).clk = s.clk := by
  rw [State.calFinal, State.updCal_clk, State.setReg_clk, State.setReg_clk, State.setReg_clk]

@[simp] theorem State.writeSet_clk (c : Nat) (temp : Int) (f : CalFit) : (s.writeSet c temp f).clk = s.clk := by simp [State.writeSet]

@[simp] theorem State.calAbort_clk (detail g : Nat) : (s.calAbort detail g).clk = s.clk := by
  unfold State.calAbort
  dsimp only
  split <;> simp

@[simp] theorem State.queueSwap_clk (line : Bool) (g : Nat) : (s.queueSwap line g).clk = s.clk := by
  unfold State.queueSwap
  dsimp only
  split <;> simp

@[simp] theorem State.calConclude_clk (g c : Nat) : (s.calConclude g c).clk = s.clk := by
  unfold State.calConclude
  dsimp only
  repeat' split
  all_goals simp

@[simp] theorem State.roundDone_clk (g c : Nat) (sums refs : List Nat) : (s.roundDone g c sums refs).clk = s.clk := by
  unfold State.roundDone
  dsimp only
  repeat' split
  all_goals simp

@[simp] theorem State.handBack_clk (g : Nat) : (s.handBack g).clk = s.clk := by
  unfold State.handBack
  dsimp only
  repeat' split
  all_goals simp

@[simp] theorem State.calEnd_clk (g : Nat) : (s.calEnd g).clk = s.clk := by
  unfold State.calEnd
  dsimp only
  split <;> simp

@[simp] theorem State.calAbortWrite_clk (g : Nat) : (s.calAbortWrite g).clk = s.clk := by
  unfold State.calAbortWrite
  split
  · rw [State.calAbort_clk, State.setReg_clk]
  · rw [State.clk_ite, State.setRegBit_clk, State.setReg_clk, ite_self]

/-! ### Cameras (Machine/Camera) -/

@[simp] theorem State.updFrame_clk (cam : Nat) (f : CamFrame → CamFrame) : (s.updFrame cam f).clk = s.clk := by simp [State.updFrame]

@[simp] theorem State.capture_clk (f : CamFrame) (k e : Nat) (line : List Nat) : (s.capture f k e line).clk = s.clk := by
  simp [State.capture]

@[simp] theorem State.endFrameOf_clk (cam : Nat) (late : Bool) : (s.endFrameOf cam late).clk = s.clk := by
  unfold State.endFrameOf
  split <;> simp

@[simp] theorem State.storeLine_clk (cam e : Nat) (f : CamFrame) (pixels : List Nat) (crcOk : Bool) :
    (s.storeLine cam e f pixels crcOk).clk = s.clk := by
  simp [State.storeLine]

@[simp] theorem State.lateLines_clk (cam : Nat) : (s.lateLines cam).clk = s.clk := by
  unfold State.lateLines
  rw [foldl_clk fun t x => by split <;> simp]
  simp

@[simp] theorem State.endFrame_clk (cam : Nat) (late : Bool) : (s.endFrame cam late).clk = s.clk := by simp [State.endFrame]

@[simp] theorem State.camEnd_clk (cam : Nat) : (s.camEnd cam).clk = s.clk := by simp [State.camEnd]

@[simp] theorem State.unbegin_clk (cam : Nat) : (s.unbegin cam).clk = s.clk := by
  unfold State.unbegin
  split <;> simp

@[simp] theorem State.camEnableWrite_clk (cam old : Nat) : (s.camEnableWrite cam old).clk = s.clk := by simp [State.camEnableWrite]

@[simp] theorem State.camSilentWrite_clk (cam : Nat) : (s.camSilentWrite cam).clk = s.clk := by simp [State.camSilentWrite]

@[simp] theorem State.camsStop_clk : s.camsStop.clk = s.clk := by simp [State.camsStop]

@[simp] theorem State.i2cStart_clk (cam : Nat) : (s.i2cStart cam).clk = s.clk := by simp [State.i2cStart]

/-! ### The inspection pipeline (Machine/Pipe) -/

@[simp] theorem State.drainWord_clk : s.drainWord.clk = s.clk := by
  unfold State.drainWord
  extract_lets go
  have drained : ∀ cam t, go cam = some t → t.clk = s.clk := by
    intro cam t h
    simp only [go] at h
    split at h
    · cases h
    · cases h
      simp
  split
  · exact drained 0 _ ‹_›
  · exact drained 1 _ ‹_›
  · rfl

@[simp] theorem State.outputTick_clk : s.outputTick.clk = s.clk := by simp [State.outputTick]

@[simp] theorem State.pipeEnd_clk : s.pipeEnd.clk = s.clk := by
  unfold State.pipeEnd
  dsimp only
  repeat' split
  all_goals simp

/-! ### The nozzle health loop (Machine/Loop) -/

@[simp] theorem State.skipBlock_clk (u cam : Nat) : (s.skipBlock u cam).clk = s.clk := by simp [State.skipBlock]

@[simp] theorem State.barScreened_clk (p : Nat) (l : List Noz) : (s.barScreened p l).clk = s.clk := by simp [State.barScreened]

@[simp] theorem State.startScreening_clk (p : Nat) (done : Bool) (bad : List (Nat × Nat)) : (s.startScreening p done bad).clk = s.clk := by
  unfold State.startScreening
  dsimp only
  repeat' split
  all_goals simp

@[simp] theorem State.loopOff_clk : s.loopOff.clk = s.clk := by
  refine State.forEach_clk (fun c t => ?_) _ s
  dsimp only
  rw [foldl_clk fun u k => State.setRegBit_clk u k 63 false, State.updCmp_clk, State.setRegBit_clk]

@[simp] theorem State.loopRelease_clk : s.loopRelease.clk = s.clk := by simp [State.loopRelease]

@[simp] theorem State.loopEnableWrite_clk : s.loopEnableWrite.clk = s.clk := by simp [State.loopEnableWrite]

@[simp] theorem State.loopRegrid_clk : s.loopRegrid.clk = s.clk := by simp [State.loopRegrid]

@[simp] theorem State.loopClearWrite_clk (p old : Nat) : (s.loopClearWrite p old).clk = s.clk := by simp [State.loopClearWrite]

/-! ### DMA movers (Machine/Dma) -/

@[simp] theorem State.moverRead_clk (a : Nat) : (s.moverRead a).1.clk = s.clk := by
  unfold State.moverRead
  dsimp only
  repeat' split
  all_goals simp

@[simp] theorem State.moverWrite_clk (a v : Nat) : (s.moverWrite a v).1.clk = s.clk := by
  unfold State.moverWrite
  dsimp only
  repeat' split
  all_goals simp

@[simp] theorem State.collided_clk (n : Nat) : (s.collided n).clk = s.clk := by simp [State.collided]

@[simp] theorem State.selectMover_clk (m : Nat) : (s.selectMover m).clk = s.clk := by simp [State.selectMover]

@[simp] theorem State.dmaHold_clk : s.dmaHold.clk = s.clk := by simp [State.dmaHold]

@[simp] theorem State.dmaEnqueue_clk (c : Nat) (pos : DmaAt) : (s.dmaEnqueue c pos).clk = s.clk := by simp [State.dmaEnqueue]

@[simp] theorem State.chainError_clk (c d : Nat) : (s.chainError c d).clk = s.clk := by simp [State.chainError]

@[simp] theorem State.dmaIrq_clk (c : Nat) : (s.dmaIrq c).clk = s.clk := by simp [State.dmaIrq]

@[simp] theorem State.dmaBell_clk (c : Nat) : (s.dmaBell c).clk = s.clk := by simp [State.dmaBell]

@[simp] theorem State.dmaFinish_clk (c outcome err : Nat) : (s.dmaFinish c outcome err).clk = s.clk := by simp [State.dmaFinish]

@[simp] theorem State.dmaOutcome_clk (c : Nat) : (s.dmaOutcome c).clk = s.clk := by simp [State.dmaOutcome]

@[simp] theorem State.retryChannel_clk (c : Nat) : (s.retryChannel c).clk = s.clk := by simp [State.retryChannel]

@[simp] theorem State.dmaEnd_clk : s.dmaEnd.clk = s.clk := by simp [State.dmaEnd]

@[simp] theorem State.dmaPauseCh_clk (c : Nat) : (s.dmaPauseCh c).clk = s.clk := by
  unfold State.dmaPauseCh
  dsimp only
  split <;> simp

@[simp] theorem State.dmaResumeCh_clk (c : Nat) : (s.dmaResumeCh c).clk = s.clk := by simp [State.dmaResumeCh]

@[simp] theorem State.dmaAbortCh_clk (c : Nat) : (s.dmaAbortCh c).clk = s.clk := by
  unfold State.dmaAbortCh
  dsimp only
  repeat' split
  all_goals simp

@[simp] theorem State.dmaCmd_clk (c v : Nat) : (s.dmaCmd c v).clk = s.clk := by
  unfold State.dmaCmd
  split <;> simp

@[simp] theorem State.wordWrite_clk (v : Nat) : (s.wordWrite v).clk = s.clk := by simp [State.wordWrite]

@[simp] theorem State.wordRead_clk : s.wordRead.1.clk = s.clk := by simp [State.wordRead]

/-! ### The log (Machine/Log) -/

@[simp] theorem State.norWrite_clk (region : Nat) (f : Nor → Nor) : (s.norWrite region f).clk = s.clk := by simp [State.norWrite]

@[simp] theorem State.calderaEvent_clk (code arg : Nat) : (s.calderaEvent code arg).clk = s.clk := by simp [State.calderaEvent]

@[simp] theorem State.logAdd_clk (kind code : Nat) (payload : List Nat) (mark : Option Nat) :
    (s.logAdd kind code payload mark).clk = s.clk := by
  simp [State.logAdd]

@[simp] theorem State.logConfig_clk (kind : Nat) (payload : List Nat) : (s.logConfig kind payload).clk = s.clk := by simp [State.logConfig]

theorem execLogProgram_clk {t : State} (h : execLogProgram s = .next t) : t.clk = s.clk := by
  unfold execLogProgram whenOn at h
  split at h
  · cases h
    dsimp only
    repeat' split
    all_goals simp
  · cases h
    rfl

/-! ### The Fault Collector (Machine/Faults) -/

@[simp] theorem State.issue_clk (e : Nat × Bool) : (s.issue e).clk = s.clk := by simp [State.issue]

@[simp] theorem State.reactionsNow_clk : s.reactionsNow.clk = s.clk := by simp [State.reactionsNow]

@[simp] theorem State.putFirst_clk (w : Nat × Nat) : (s.putFirst w).clk = s.clk := by simp [State.putFirst]

@[simp] theorem State.clearSrc_clk (k : Nat) : (s.clearSrc k).clk = s.clk := by
  unfold State.clearSrc
  split <;> simp

@[simp] theorem State.faultClear_clk (v : Nat) : (s.faultClear v).clk = s.clk := by simp [State.faultClear]

@[simp] theorem State.firstClear_clk : s.firstClear.clk = s.clk := by
  unfold State.firstClear
  split <;> simp

@[simp] theorem State.emptyHistory_clk : s.emptyHistory.clk = s.clk := by
  unfold State.emptyHistory
  rw [State.updFaults_clk]
  exact State.forEach_clk (fun i t => State.setReg_clk t _ _) _ s

@[simp] theorem State.histClear_clk : s.histClear.clk = s.clk := by simp [State.histClear]

@[simp] theorem State.faultTick_clk : s.faultTick.clk = s.clk := by simp [State.faultTick]

@[simp] theorem State.injectArm_clk (k : Nat) : (s.injectArm k).clk = s.clk := by simp [State.injectArm]

/-! ### The end of a clock (Machine/Slots) -/

@[simp] theorem State.decideNow_clk (p : Nat) (e : Nat × List Nat) : (s.decideNow p e).clk = s.clk := by
  unfold State.decideNow
  split <;> simp

@[simp] theorem State.instantNow_clk (p : Nat) (e : Nat × List Nat) : (s.instantNow p e).clk = s.clk := by simp [State.instantNow]

@[simp] theorem State.settleSlots_clk (p : Nat) : (s.settleSlots p).clk = s.clk := by
  unfold State.settleSlots
  dsimp only
  split <;> simp

@[simp] theorem State.clockEnd_clk : s.clockEnd.clk = s.clk := by simp [State.clockEnd]

@[simp] theorem State.lastOfClock_clk : s.lastOfClock.clk = s.clk := by simp [State.lastOfClock]

/-! ### Caldera (Machine/Caldera) -/

@[simp] theorem State.reportBank_clk (b : Nat) : (s.reportBank b).clk = s.clk := by simp [State.reportBank]

@[simp] theorem State.updateState_clk (st b : Nat) : (s.updateState st b).clk = s.clk := by simp [State.updateState]

@[simp] theorem State.updateResult_clk (outcome detail svn : Nat) : (s.updateResult outcome detail svn).clk = s.clk :=
  State.setReg_clk s _ _

@[simp] theorem State.commitRecord_clk (b : Nat) (trial other : Bool) (st : Nat) : (s.commitRecord b trial other st).clk = s.clk := by
  simp [State.commitRecord]

@[simp] theorem State.updBank2_clk (b : Nat) (f : FwBank → FwBank) : (s.updBank2 b f).clk = s.clk := by simp [State.updBank2]

@[simp] theorem State.imageOpen_clk (len : Nat) : (s.imageOpen len).clk = s.clk := by simp [State.imageOpen]

@[simp] theorem State.imageWrite_clk (off : Nat) (ws : List Nat) : (s.imageWrite off ws).clk = s.clk := by simp [State.imageWrite]

@[simp] theorem State.imageStaged_clk : s.imageStaged.clk = s.clk := by simp [State.imageStaged]

@[simp] theorem State.endStaging_clk : s.endStaging.clk = s.clk := by simp [State.endStaging]

@[simp] theorem State.updateInstall_clk : s.updateInstall.clk = s.clk := by
  unfold State.updateInstall
  simp -implicitDefEqProofs

@[simp] theorem State.updateActivate_clk : s.updateActivate.clk = s.clk := by simp [State.updateActivate]

@[simp] theorem State.burnFloor_clk (v : Nat) : (s.burnFloor v).clk = s.clk := by simp [State.burnFloor]

@[simp] theorem State.updateConfirm_clk : s.updateConfirm.clk = s.clk := by simp [State.updateConfirm]

@[simp] theorem State.abortUpdate_clk (d : Nat) : (s.abortUpdate d).clk = s.clk := by
  unfold State.abortUpdate
  dsimp only
  split <;> simp -implicitDefEqProofs

@[simp] theorem State.updateAbort_clk : s.updateAbort.clk = s.clk := by
  rw [State.updateAbort, State.clk_ite, State.setRegBit_clk, State.abortUpdate_clk, ite_self]

@[simp] theorem State.restartNow_clk (cause : Nat) : (s.restartNow cause).clk = s.clk := by simp [State.restartNow]

@[simp] theorem State.storeSticky_clk (a : Nat) : (s.storeSticky a).clk = s.clk := by simp [State.storeSticky]

/-! ### Lifecycle, keys, power and trace (Machine/Life) -/

@[simp] theorem State.traceStart_clk : s.traceStart.clk = s.clk := by simp [State.traceStart]

@[simp] theorem State.traceTo_clk (m : Nat) : (s.traceTo m).clk = s.clk := by simp [State.traceTo]

@[simp] theorem State.traceModeWrite_clk (old : Nat) : (s.traceModeWrite old).clk = s.clk := by simp [State.traceModeWrite]

@[simp] theorem State.traceRestart_clk : s.traceRestart.clk = s.clk := by simp [State.traceRestart]

@[simp] theorem State.pmcSelWrite_clk (k : Nat) : (s.pmcSelWrite k).clk = s.clk := by simp [State.pmcSelWrite]

@[simp] theorem State.syncLife_clk : s.syncLife.clk = s.clk := by simp [State.syncLife]

@[simp] theorem State.lifeTo_clk (lc : Nat) : (s.lifeTo lc).clk = s.clk := by simp [State.lifeTo]

@[simp] theorem State.retire_clk : s.retire.clk = s.clk := by simp [State.retire]

@[simp] theorem State.sealRestart_clk : s.sealRestart.clk = s.clk := by simp [State.sealRestart]

@[simp] theorem State.keyInstall_clk : s.keyInstall.clk = s.clk := by
  unfold State.keyInstall
  split <;> simp

@[simp] theorem State.powerReqWrite_clk (v : Nat) : (s.powerReqWrite v).clk = s.clk := by simp [State.powerReqWrite]

@[simp] theorem State.powerEnd_clk (r : Nat) : (s.powerEnd r).clk = s.clk := by simp [State.powerEnd]

@[simp] theorem State.leaveRun_clk : s.leaveRun.clk = s.clk := by simp [State.leaveRun]

@[simp] theorem State.idleLanes_clk : s.idleLanes.clk = s.clk := by
  refine foldl_clk (fun t l => ?_) _ s
  rw [State.clk_ite, State.emit_clk, State.forEach_clk (fun i u => State.updLane_clk u i _), ite_self]

@[simp] theorem State.enterRest_clk (v : Nat) : (s.enterRest v).clk = s.clk := by simp [State.enterRest]

@[simp] theorem State.enterShelf_clk : s.enterShelf.clk = s.clk := by
  unfold State.enterShelf
  extract_lets s1 woken s2
  have logged : s1.clk = s.clk := by
    refine foldl_clk (f := fun s _ => if s.logDue then (match execLogProgram s with
      | .next t => t
      | _ => s) else s) (fun t _ => ?_) (List.range 258) s
    split
    · split
      · exact execLogProgram_clk t ‹_›
      · rfl
    · rfl
  dsimp only
  rw [State.clk_ite, State.setReg_clk, ite_self, State.setReg_clk, State.inc_clk, logged]

@[simp] theorem State.powerStep_clk : s.powerStep.clk = s.clk := by
  unfold State.powerStep
  dsimp only
  repeat' split
  all_goals simp -implicitDefEqProofs

@[simp] theorem State.powerEnding_clk : s.powerEnding.clk = s.clk := by simp [State.powerEnding]

/-! ### Resets (Machine/Reset) -/

@[simp] theorem State.discardGroup_clk (g : Nat) (st : SessSt) : (s.discardGroup g st).clk = s.clk := by
  unfold State.discardGroup
  rw [State.updGroup_clk]
  exact foldl_clk (fun t e => by cases e <;> simp) _ s

@[simp] theorem State.dropFrames_clk (cam : Nat) : (s.dropFrames cam).clk = s.clk := by
  unfold State.dropFrames
  dsimp only
  split <;> simp

@[simp] theorem State.bmRestart_clk : s.bmRestart.clk = s.clk := by simp [State.bmRestart]

/-! ### What a written value does (Machine/Effects) -/

@[simp] theorem State.waveChanged_clk (p : Nat) : (s.waveChanged p).clk = s.clk := by simp [State.waveChanged]

@[simp] theorem State.settleKeys_clk (keys : List Nat) : (s.settleKeys keys).clk = s.clk := by simp [State.settleKeys]

@[simp] theorem State.portEffect_clk (p sub9 sub old key : Nat) : (s.portEffect p sub9 sub old key).clk = s.clk := by
  unfold State.portEffect
  split <;> simp

@[simp] theorem State.posEffect_clk (key old : Nat) : (s.posEffect key old).clk = s.clk := by simp [State.posEffect]

@[simp] theorem State.gridEffect_clk (old : Nat) : (s.gridEffect old).clk = s.clk := by simp [State.gridEffect]

@[simp] theorem State.schedEffect_clk (key old : Nat) : (s.schedEffect key old).clk = s.clk := by
  unfold State.schedEffect
  dsimp only
  repeat' split
  all_goals simp

@[simp] theorem State.ingressEffect_clk (key : Nat) : (s.ingressEffect key).clk = s.clk := by
  unfold State.ingressEffect
  dsimp only
  repeat' split
  all_goals simp

@[simp] theorem State.camEffect_clk (key old : Nat) : (s.camEffect key old).clk = s.clk := by
  unfold State.camEffect
  dsimp only
  repeat' split
  all_goals simp

@[simp] theorem State.objEffect_clk (key old : Nat) : (s.objEffect key old).clk = s.clk := by simp [State.objEffect]

theorem State.command_clk (k v : Nat) : ∀ t, s.command k v = some t → t.clk = s.clk := by
  unfold State.command
  exact clk_of_ite_some (by simp) <| clk_of_ite_some (by simp) <| clk_of_ite_some (by simp) <| clk_of_ite_some (by simp) <|
    clk_of_ite_some (by simp) <| clk_of_ite_some (by simp) <| clk_of_ite_some (by simp) <| clk_of_ite_some (by simp) <|
    clk_of_ite_some (by simp) <| clk_of_ite_some (by simp) <| clk_of_ite_some (by simp) <| clk_of_ite_some (by split <;> simp) <|
    clk_of_ite_some (by simp) <| clk_of_ite_some (by simp) <| clk_of_ite_some (by simp) <| clk_of_ite_some (by simp) fun _ h => nomatch h

@[simp] theorem State.putWrite_clk (k v : Nat) : (s.putWrite k v).clk = s.clk := by
  unfold State.putWrite
  split
  · rfl
  · split
    · exact State.command_clk s k v _ ‹_›
    · simp

@[simp] theorem State.applyWrite_clk (key v : Nat) : (s.applyWrite key v).clk = s.clk := by simp [State.applyWrite]

@[simp] theorem State.setsReplaced_clk (g : Nat) : (s.setsReplaced g).clk = s.clk := by simp [State.setsReplaced]

@[simp] theorem State.tableEffect_clk (index : Nat) : (s.tableEffect index).clk = s.clk := by
  unfold State.tableEffect
  dsimp only
  repeat' split
  all_goals simp

@[simp] theorem State.applySession_clk (k : Nat) : (s.applySession k).clk = s.clk := by simp [State.applySession]

/-! ### The Dictionary Server (Machine/Dict) -/

@[simp] theorem State.sessionDone_clk (line : Nat) (forced : Bool) (k : Nat) : (s.sessionDone line forced k).clk = s.clk := by
  simp [State.sessionDone]

@[simp] theorem State.applyEntry_clk (line : Nat) (forced : Bool) (e : Entry) : (s.applyEntry line forced e).clk = s.clk := by
  unfold State.applyEntry
  split <;> simp

@[simp] theorem State.applyGroup_clk (line : Nat) (forced : Bool) (g : Nat) : (s.applyGroup line forced g).clk = s.clk := by
  simp [State.applyGroup]

@[simp] theorem State.applyItem_clk (line : Nat) (forced : Bool) (i : Item) : (s.applyItem line forced i).clk = s.clk := by
  unfold State.applyItem
  split <;> simp

@[simp] theorem State.applyItems_clk (line : Nat) (forced : Bool) (l : List Item) : (s.applyItems line forced l).clk = s.clk := by
  simp [State.applyItems]

@[simp] theorem State.markHandOver_clk (c : Commit) (line : Nat) : (s.markHandOver c line).clk = s.clk := by simp [State.markHandOver]

@[simp] theorem State.epochLast_clk (c : Commit) (line : Nat) : (s.epochLast c line).clk = s.clk := by simp [State.epochLast]

@[simp] theorem State.commitNow_clk : s.commitNow.clk = s.clk := by simp [State.commitNow]

@[simp] theorem State.nextOrder_clk : s.nextOrder.1.clk = s.clk := by simp [State.nextOrder]

@[simp] theorem State.groupEntry_clk (g : Nat) (c : Commit) (e : Entry) : (s.groupEntry g c e).1.clk = s.clk := by
  unfold State.groupEntry
  dsimp only
  split <;> simp

@[simp] theorem State.expireGroup_clk (g : Nat) : (s.expireGroup g).clk = s.clk := by simp [State.expireGroup]

@[simp] theorem State.closeGroup_clk (g : Nat) : (s.closeGroup g).1.clk = s.clk := by
  unfold State.closeGroup
  dsimp only
  split
  · simp
  · split
    · simp
    · split
      · simp
      · rw [State.updGroup_clk, foldl_clk (fun t e => by cases e <;> simp)]
        simp
  · simp

@[simp] theorem State.abortGroup_clk (g : Nat) : (s.abortGroup g).1.clk = s.clk := by
  unfold State.abortGroup
  dsimp only
  split <;> simp

@[simp] theorem State.domOpen_clk (o : Obj) (q : Req) : (s.domOpen o q).1.clk = s.clk := by
  unfold State.domOpen
  split <;> simp

@[simp] theorem State.domWrite_clk (q : Req) : (s.domWrite q).1.clk = s.clk := by
  unfold State.domWrite
  split <;> simp

@[simp] theorem State.commitSession_clk (o : Obj) (g k : Nat) : (s.commitSession o g k).1.clk = s.clk := by simp [State.commitSession]

@[simp] theorem State.domCommit_clk (o : Obj) (q : Req) : (s.domCommit o q).1.clk = s.clk := by
  unfold State.domCommit
  dsimp only
  repeat' split
  all_goals simp

@[simp] theorem State.sessAborted_clk (k : Nat) : (s.sessAborted k).clk = s.clk := by simp [State.sessAborted]

@[simp] theorem State.abortEntry_clk (k : Nat) : (s.abortEntry k).1.clk = s.clk := by
  unfold State.abortEntry
  dsimp only
  split <;> simp

@[simp] theorem State.domAbort_clk (q : Req) : (s.domAbort q).1.clk = s.clk := by
  unfold State.domAbort
  split <;> simp

@[simp] theorem State.readValue_clk (q : Req) (r : State × List Block) (i : Nat) : (State.readValue q r i).1.clk = r.1.clk := by
  simp [State.readValue]

@[simp] theorem State.doRead_clk (q : Req) : (s.doRead q).1.clk = s.clk :=
  foldl_fst_clk (fun r i => State.readValue_clk q r i) _ (s, [])

@[simp] theorem State.doWrite_clk (o : Obj) (q : Req) : (s.doWrite o q).1.clk = s.clk := by simp [State.doWrite]

@[simp] theorem State.perform_clk (q : Req) : (s.perform q).1.clk = s.clk := by
  unfold State.perform
  split <;> simp [reply, replyLate]

@[simp] theorem State.wordResume_clk : s.wordResume.clk = s.clk := by simp [State.wordResume]

/-! ### One core clock (Machine/Tick) -/

@[simp] theorem State.pmcWait_clk : s.pmcWait.clk = s.clk := by simp [State.pmcWait]

@[simp] theorem State.clockWork_clk : s.clockWork.clk = s.clk := by simp [State.clockWork]

end

/-! ## A core clock counts -/

theorem State.advance_clk (s : State) : s.advance.clk = s.clk + 1 := by
  simp [State.advance]

theorem State.tick_clk (s : State) : s.tick.clk = s.clk + 1 := by
  change s.advance.clockWork.clk = s.clk + 1
  rw [State.clockWork_clk, State.advance_clk]

theorem State.tick_ident (s : State) : s.tick.ident = s.ident := (State.tick_keeps (State.Keeps.refl s)).ident

theorem step_idle {s : State} (h : s.pending = []) : step s = .next s.tick := by
  simp [step, h]

end Sys2Proof.Machine

namespace Sys2Proof.Proofs

open Sys2Proof.Machine

/-- Settles O2: with no command waiting the step is the tick (log 1), and of all that a tick does only the end of the clock moves the
counter. -/
theorem emptyQueuePassesOneClock : Obligations.EmptyQueuePassesOneClock := fun s idle =>
  ⟨s.tick, step_idle idle, s.tick_clk, s.tick_ident⟩

end Sys2Proof.Proofs
end

section
/-! Proofs about the end of a chain cycle and the sample of the position source. -/

namespace Sys2Proof.Machine

/-- The decision is an implicit argument: it may speak of a state that `simp` has already rewritten in the proposition. -/
theorem State.reg_ite (c : Prop) {_ : Decidable c} (a b : State) (k : Nat) : (if c then a else b).reg k = if c then a.reg k else b.reg k :=
  apply_ite (State.reg · k) c a b

/-! ## What the end of a cycle leaves alone beside its counts -/

/-- The count of missed broadcasts, the event allowance and all that a cycle's end does not write; the count of encoder edges that come too
fast may move, for the sample counts the edges that the wheel still holds (R147, R151). -/
structure State.CycleKept (s t : State) : Prop where
  time : t.link.ct8 = s.link.ct8
  allowance : t.link.tok16 = s.link.tok16
  missed : t.recv.missed = s.recv.missed
  accepted : t.recv.accepted = s.recv.accepted
  mem : t.mem = s.mem
  tabs : t.tabs = s.tabs
  ports : t.ports = s.ports
  out : t.out = s.out
  reg : ∀ k, k ≠ Key.TICK_OVERRATE → t.reg k = s.reg k

namespace State.CycleKept

theorem refl (s : State) : s.CycleKept s := ⟨rfl, rfl, rfl, rfl, rfl, rfl, rfl, rfl, fun _ _ => rfl⟩

theorem trans {s t u : State} (h : s.CycleKept t) (g : t.CycleKept u) : s.CycleKept u where
  time := g.time.trans h.time
  allowance := g.allowance.trans h.allowance
  missed := g.missed.trans h.missed
  accepted := g.accepted.trans h.accepted
  mem := g.mem.trans h.mem
  tabs := g.tabs.trans h.tabs
  ports := g.ports.trans h.ports
  out := g.out.trans h.out
  reg k ne := (g.reg k ne).trans (h.reg k ne)

theorem ite {s a b : State} {c : Prop} {_ : Decidable c} (ha : s.CycleKept a) (hb : s.CycleKept b) : s.CycleKept (if c then a else b) := by
  split
  · exact ha
  · exact hb

theorem updPos (s : State) (f : Pos → Pos) : s.CycleKept (s.updPos f) := ⟨rfl, rfl, rfl, rfl, rfl, rfl, rfl, rfl, fun _ _ => rfl⟩

theorem cause (s : State) (k i : Nat) (on : Bool) (d : Nat) : s.CycleKept (s.cause k i on d) := by constructor <;> simp

/-- An edge that comes too fast is counted and raised (R147). -/
theorem tooFast (s : State) : s.CycleKept ((s.inc Key.TICK_OVERRATE).raise 0x21 0) := by constructor <;> simp +contextual

theorem countEdge (s : State) (t : Nat) : s.CycleKept (s.countEdge t) := by
  unfold State.countEdge
  refine .trans ?_ (updPos _ _)
  split
  · exact .ite (tooFast s) (refl s)
  · exact refl s

theorem countEdges (held : List Nat) (s : State) : s.CycleKept (held.foldl (fun u t => u.countEdge t) s) := by
  induction held generalizing s with
  | nil => exact refl s
  | cons t held ih => exact (countEdge s t).trans (ih _)

theorem restartTicks (s : State) : s.CycleKept s.restartTicks := ((updPos s _).trans (countEdges _ _)).trans (updPos _ _)

theorem syncDir (s : State) : s.CycleKept s.syncDir := .ite (refl s) ((restartTicks s).trans (updPos _ _))

theorem samplePos (s : State) : s.CycleKept s.samplePos := .ite ((syncDir s).trans (updPos _ _)) (updPos s _)

end State.CycleKept

/-! ## The sample of the position source -/

/-- A unit that is not the position source has no sample (R168). -/
theorem State.samplePos_other {s : State} (role : s.reg Key.ROLE_IN_FORCE ≠ 1) : s.samplePos.pos.sampled = none := by
  simp [State.samplePos, role]

/-- The position source samples its valid position at the start of the cycle (R75, R168). -/
theorem State.samplePos_source {s : State} (role : s.reg Key.ROLE_IN_FORCE = 1) (valid : s.flag Key.POS_LOCAL_VALID = true) :
    ∃ b, s.samplePos.pos.sampled = some b ∧ b.sample = s.ct / 500 * 500 ∧ b.src = s.addr := by
  rw [State.samplePos, if_pos ⟨role, valid⟩]
  exact ⟨_, rfl, rfl, (State.CycleKept.syncDir s).reg _ (by decide)⟩

/-! ## The counts of a cycle -/

/-- A cycle without an accepted POS is counted while loss is judged; the next cycle has accepted none (R29). -/
def State.countCycle (s : State) : State :=
  let judging := s.recv.judging && decide (s.power.quietTo ≤ s.clk)
  (if judging ∧ ¬ s.recv.accepted then s.inc Key.POS_MISSED else s).updRecv fun r => { r with
    missed := if s.recv.accepted then 0 else if judging then s.recv.missed + 1 else 0, accepted := false, lost := r.lost && !r.accepted }

/-- The event allowance of a cycle (R81, log 34). -/
def State.growAllowance (s : State) (rate : Nat) : State := s.updLink fun l => { l with tok16 := min 128 (l.tok16 + rate) }

/-- A cycle's end counts, ends the conditions of loss and of a second source, grows the allowance and samples. -/
theorem exec_chainCycleEnd {s : State} (clocked : s.clocked = true) :
    ∃ u, s.countCycle.CycleKept u ∧ exec .chainCycleEnd s = .next (u.growAllowance (s.reg Key.EVENT_RATE)).samplePos := by
  refine ⟨_, ?_, if_pos clocked⟩
  have received : s.countCycle.CycleKept (if s.recv.accepted then s.countCycle.cause 0x1A 0 false 0 else s.countCycle) :=
    .ite (.cause _ _ _ _ _) (.refl _)
  have forgets (c : Prop) {_ : Decidable c} : s.countCycle.CycleKept (if c then
      (if s.recv.accepted then s.countCycle.cause 0x1A 0 false 0 else s.countCycle).updLink fun l => { l with posSeq := [] }
    else if s.recv.accepted then s.countCycle.cause 0x1A 0 false 0 else s.countCycle) :=
    .ite (received.trans ⟨rfl, rfl, rfl, rfl, rfl, rfl, rfl, rfl, fun _ _ => rfl⟩) received
  have oneSource (u : State) : u.CycleKept ((u.cause 0x29 0 false 0).updRecv fun r => { r with dualAt := none }) := by
    constructor <;> simp
  split
  · exact .ite ((forgets _).trans (oneSource _)) (forgets _)
  · exact forgets _

theorem State.countCycle_received {s : State} (h : s.recv.accepted = true) :
    s.countCycle.recv.missed = 0 ∧ s.countCycle.reg Key.POS_MISSED = s.reg Key.POS_MISSED := by
  simp [State.countCycle, h]

theorem State.countCycle_missed {s : State} (h : s.recv.accepted = false) (judging : s.recv.judging = true) (loud : s.power.quietTo ≤ s.clk) :
    s.countCycle.recv.missed = s.recv.missed + 1 ∧
      s.countCycle.reg Key.POS_MISSED = (s.reg Key.POS_MISSED + 1) % 2 ^ keyWidth Key.POS_MISSED := by
  have width : keyWidth Key.POS_MISSED ≤ 72 := by decide
  simp [State.countCycle, h, judging, loud, State.inc_reg_self _ width]

/-- Beside its counts a cycle's end, up to the sample, changes nothing of objects, tables, memory, ports and outputs. -/
theorem State.countCycle_frame (s : State) :
    s.countCycle.link = s.link ∧ s.countCycle.mem = s.mem ∧ s.countCycle.tabs = s.tabs ∧ s.countCycle.ports = s.ports ∧
      s.countCycle.out = s.out ∧ ∀ k, k ≠ Key.POS_MISSED → s.countCycle.reg k = s.reg k := by
  simp +contextual [State.countCycle, apply_ite State.link, apply_ite State.mem, apply_ite State.tabs, apply_ite State.ports,
    apply_ite State.out, State.reg_ite]

theorem State.countCycle_accepted (s : State) : s.countCycle.recv.accepted = false := rfl

end Sys2Proof.Machine

namespace Sys2Proof.Proofs

open Sys2Proof.Machine

/-- Settles O21: a cycle's end changes its counts (`countCycle`) and the allowance, and the sample keeps both (`CycleKept`). -/
theorem chainCycleBookkeeping : Obligations.ChainCycleBookkeeping := by
  intro s clocked
  obtain ⟨u, counted, run⟩ := exec_chainCycleEnd clocked
  obtain ⟨link, mem, tabs, ports, out, reg⟩ := s.countCycle_frame
  set v := u.growAllowance (s.reg Key.EVENT_RATE)
  have sampled : v.CycleKept v.samplePos := .samplePos v
  have object {k : Nat} (tick : k ≠ Key.TICK_OVERRATE) (missed : k ≠ Key.POS_MISSED) : v.reg k = s.reg k :=
    (counted.reg k tick).trans (reg k missed)
  have counter : v.samplePos.reg Key.POS_MISSED = s.countCycle.reg Key.POS_MISSED :=
    (sampled.reg _ (by decide)).trans (counted.reg _ (by decide))
  have inRow : v.samplePos.recv.missed = s.countCycle.recv.missed := sampled.missed.trans counted.missed
  have time : v.ct = s.ct := congrArg (· / 8) (counted.time.trans (congrArg Link.ct8 link))
  have role : v.reg Key.ROLE_IN_FORCE = s.reg Key.ROLE_IN_FORCE := object (by decide) (by decide)
  have valid : v.flag Key.POS_LOCAL_VALID = s.flag Key.POS_LOCAL_VALID := congrArg (· != 0) (object (by decide) (by decide))
  have addr : v.addr = s.addr := object (by decide) (by decide)
  refine ⟨v.samplePos, run, ?_, sampled.accepted.trans (counted.accepted.trans s.countCycle_accepted), ?_, ?_, ?_, ?_,
    sampled.mem.trans (counted.mem.trans mem), sampled.tabs.trans (counted.tabs.trans tabs), sampled.ports.trans (counted.ports.trans ports),
    sampled.out.trans (counted.out.trans out)⟩
  · rw [sampled.allowance, ← link, ← counted.allowance]
    rfl
  · rw [counter, inRow]
    exact State.countCycle_received
  · rw [counter, inRow]
    exact State.countCycle_missed
  · rw [← role]
    exact State.samplePos_other
  · rw [← role, ← valid, ← time, ← addr]
    exact State.samplePos_source

end Sys2Proof.Proofs
end

section
/-! Proofs about the slots of a port: the end of a clock on which one port has something to judge, and the judging itself. -/

namespace Sys2Proof.Machine

/-- A command of a port that the part has is carried out while its block is clocked. -/
theorem whenClocked_onPort {s k : State} {p : Nat} (clocked : s.clocked = true) (here : p < s.nPorts) :
    whenClocked s (onPort p s k) = .next k := by
  simp [whenClocked, onPort, clocked, here]

theorem State.updPort_congr {s : State} {p : Nat} {f g : Port → Port} (h : f (s.port p) = g (s.port p)) : s.updPort p f = s.updPort p g :=
  congrArg (fun r => { s with ports := Map.put (fun _ => {}) s.ports p r }) h

/-! ## The end of the clock (log 22) -/

/-- What came for a port on this clock is taken from it to be judged. -/
def Port.taken (r : Port) : Port := { r with fireNow := [], deferNow := [], tickleNow := none, scrNow := [] }

/-- Where one port alone has something to judge, the clock ends with its slots; a slot that calls for HALT goes before the fire inhibit, and
the rest after it (R203). -/
theorem State.lastOfClock_of_soleWait {n : State} {p : Nat} (idle : n.pending = []) (sole : n.SoleWait p) :
    n.lastOfClock = if n.haltsNow p then ((n.settleSlots p).fireInhibit.settleSlots p).endPort p else (n.settleSlots p).endPort p := by
  obtain ⟨quiet, alone⟩ := sole
  have ends : n.lastOfClock = n.clockEnd := by simp [State.lastOfClock, idle]
  simp only [ends, State.clockEnd, quiet, alone]
  cases halts : n.haltsNow p <;> simp [halts, State.forEach]

section

variable {n : State} {p : Nat} (noFire : (n.port p).fireNow = []) (noDefer : (n.port p).deferNow = []) (noTickle : (n.port p).tickleNow = none)
  (noScr : (n.port p).scrNow = [])

include noDefer noTickle noScr in
theorem State.settleSlots_of_fireNow {e : Nat × List Nat} (fire : (n.port p).fireNow = [e]) :
    n.settleSlots p = State.instantNow p (n.updPort p Port.taken) e := by
  simp only [State.settleSlots, fire, noDefer, noTickle, noScr]
  rfl

include noFire noTickle noScr in
theorem State.settleSlots_of_deferNow {e : Nat × List Nat} (decision : (n.port p).deferNow = [e]) :
    n.settleSlots p = State.decideNow p (n.updPort p Port.taken) e := by
  simp only [State.settleSlots, decision, noFire, noTickle, noScr]
  rfl

include noFire noDefer noTickle in
theorem State.settleSlots_of_scrNow {e : Bool × List (Nat × Nat)} (scr : (n.port p).scrNow = [e]) :
    n.settleSlots p = (n.updPort p Port.taken).startScreening p e.1 e.2 := by
  simp only [State.settleSlots, scr, noFire, noDefer, noTickle]
  rfl

include noFire noDefer in
/-- A port without a fire instant or a decision on this clock calls for no HALT. -/
theorem State.haltsNow_of_none : n.haltsNow p = false := by simp [State.haltsNow, noFire, noDefer]

end

/-! ## Screening (R22, R239) -/

/-- Screening of a slot whose assembly is not done does not begin. -/
theorem State.startScreening_notDone {s : State} {p g t8 : Nat} {late : Bool} {rest : List (Nat × Nat × Bool)} {bad : List (Nat × Nat)}
    (due : (s.port p).scrDue = (g, t8, late) :: rest) :
    s.startScreening p false bad =
      if late then s else (s.updPort p fun r => { r with scrDue := (g, t8, true) :: rest }).inc (Key.ASSEMBLY_LATE p) := by
  unfold State.startScreening
  rw [due]
  dsimp only
  cases (s.port p).asm.find? (fun a => a.g = g) <;> rfl

theorem State.startScreening_done {s : State} {p g t8 : Nat} {late : Bool} {rest : List (Nat × Nat × Bool)} {a : AsmLine}
    {bad : List (Nat × Nat)} (due : (s.port p).scrDue = (g, t8, late) :: rest) (whole : (s.port p).asm.find? (fun a => a.g = g) = some a) :
    ∃ u codes, (u, codes) = State.screenLine (State.barScreened ((s.updPort p fun r =>
        { r with scrDue := rest, asm := r.asm.filter fun a => a.g ≠ g }).failWords bad) p a.noz) p g a.pass a.noz ∧
      s.startScreening p true bad = u.updPort p fun r => { r with
        scr := ⟨g, (if late then s.at8 0 else t8) + 8 * s.screenClocks, a.missing, a.policy, codes⟩ :: r.scr,
        scrEnds := ((if late then s.at8 0 else t8) + 8 * s.screenClocks) :: r.scrEnds } := by
  refine ⟨_, _, Prod.mk.eta, ?_⟩
  unfold State.startScreening
  rw [due]
  dsimp only
  rw [whole]

theorem State.startScreening_nothingDue {s : State} {p : Nat} {done : Bool} {bad : List (Nat × Nat)} (nothing : (s.port p).scrDue = []) :
    s.startScreening p done bad = s := by
  simp [State.startScreening, nothing]

/-! ## Judging a slot (R198-R203, R241) -/

/-- The raster line of a slot depends on the port's assemblies and its STAGGER alone (R193). -/
theorem State.slotLine_inc_shipLate (s : State) (p : Nat) (g : Nat) : (s.inc (Key.SHIP_LATE p)).slotLine p g = s.slotLine p g := by
  have other : Key.STAGGER p ≠ Key.SHIP_LATE p := by simp only [Key.STAGGER, Key.SHIP_LATE]; omega
  unfold State.slotLine
  rw [State.inc_reg_ne _ other]
  rfl


/-- A held port passes its slot and counts it (R312). -/
theorem State.fireInstant_held {s : State} {p : Nat} (t8 : Nat) (sense : List Nat) (held : (s.port p).isHeld = true) :
    s.fireInstant p t8 sense =
      (s.inc (Key.GATE_SUPPRESSED p)).updPort p fun r => { r with slot := s.lineAfterSlot r.slot 1, since8 := t8 } := by
  simp [State.fireInstant, held]

/-- The first slot after the fill slots begins the firing of its port (R303). -/
theorem State.fireInstant_first {s : State} {p : Nat} (t8 : Nat) (sense : List Nat) (held : (s.port p).isHeld = false)
    (first : (s.port p).st = .filling ∧ (s.port p).fill = 0) :
    s.fireInstant p t8 sense = ((s.updPort p fun r => { r with st := .firing }).paceStages p t8).judgeSlot p t8 sense := by
  simp [State.fireInstant, held, first]

theorem State.fireInstant_later {s : State} {p : Nat} (t8 : Nat) (sense : List Nat) (held : (s.port p).isHeld = false)
    (later : ¬ ((s.port p).st = .filling ∧ (s.port p).fill = 0)) :
    s.fireInstant p t8 sense = (s.paceStages p t8).judgeSlot p t8 sense := by
  simp only [State.fireInstant, held, if_neg later, Bool.false_eq_true, if_false]

section

variable {s : State} {p t8 : Nat} (sense : List Nat) (raster : (s.port p).missingDrop = none)

include raster in
/-- A slot that is shipped and past the minimum period fires (R198). -/
theorem State.judgeSlot_inTime (ripe : s.slotEarly p t8 = false) (shipped : s.slotUnshipped p t8 = false) :
    s.judgeSlot p t8 sense = s.fireSlot p t8 t8 sense := by
  simp [State.judgeSlot, raster, ripe, shipped]

/-- The count of a slot whose shipping is late (R198). -/
def State.countShipLate (s : State) (p t8 : Nat) : State := if s.slotUnshipped p t8 = true then s.inc (Key.SHIP_LATE p) else s

theorem State.countShipLate_slotLine (s : State) (p t8 g : Nat) : (s.countShipLate p t8).slotLine p g = s.slotLine p g := by
  unfold State.countShipLate
  split
  · exact s.slotLine_inc_shipLate p g
  · rfl

include raster in
/-- A late slot is counted and treated as OVERRUN_POLICY says (R198, R199). -/
theorem State.judgeSlot_late (late : s.slotEarly p t8 = true ∨ s.slotUnshipped p t8 = true) {u : State} (hu : u = s.countShipLate p t8) :
    (s.reg Key.OVERRUN_POLICY = 0 →
      s.judgeSlot p t8 sense = u.updPort p fun r => { r with deferred := some ⟨r.slot, u.slotLine p r.slot, 0, t8, 0⟩ }) ∧
    (s.reg Key.OVERRUN_POLICY = 1 → s.judgeSlot p t8 sense = u.dropSlot p t8) ∧
    (2 ≤ s.reg Key.OVERRUN_POLICY → s.judgeSlot p t8 sense = (u.dropSlot p t8).raise 0x2C p ∧ s.slotHalts p t8 = true) := by
  have notInTime : ¬ (¬ s.slotEarly p t8 = true ∧ ¬ s.slotUnshipped p t8 = true) := by tauto
  simp only [State.judgeSlot, raster, if_neg notInTime]
  subst hu
  refine ⟨fun policy => ?_, fun policy => ?_, fun policy => ⟨?_, ?_⟩⟩
  · simp only [policy, State.countShipLate_slotLine]
    rfl
  · simp only [policy]
    rfl
  · obtain ⟨k, hk⟩ := Nat.exists_eq_add_of_le' policy
    simp only [hk]
    rfl
  · simpa [State.slotHalts, raster, policy] using late

include raster in
/-- A deferred slot fires within DEFER_LIMIT, and is dropped beyond it (R199). -/
theorem State.deferDecide_raster (tg8 : Nat) :
    s.deferDecide p tg8 t8 sense = if s.deferOk p t8 then s.fireSlot p tg8 t8 sense else s.dropSlot p t8 := by
  simp [State.deferDecide, raster]

end

/-- A slot without raster is dropped, with the unit's halt where LATE_POLICY says so (R241). -/
theorem State.judgeSlot_missing {s : State} {p : Nat} {c : CodeLine} (t8 : Nat) (sense : List Nat) (missing : (s.port p).missingDrop = some c) :
    s.judgeSlot p t8 sense = if c.policy = 2 then (s.dropSlot p t8).raise 0x31 p else s.dropSlot p t8 := by
  simp [State.judgeSlot, missing]

theorem State.firesAt_iff (s : State) (p ph : Nat) :
    s.firesAt p ph = true ↔ (s.port p).evaluates = true ∧ s.firePhase p = some ph := by
  simp [State.firesAt]

/-! ## A slot's commands on a clock of their own -/

section

variable {s n u : State} {p : Fin 16} {ph : Fin 8} {sense : List Nat} (clocked : s.clocked = true) (here : p.val < s.nPorts)
  (idle : s.pending = []) (noTickle : (s.port p).tickleNow = none) (noScr : (s.port p).scrNow = []) (sole : n.SoleWait p)
  (hu : u = n.updPort p Port.taken)

include clocked here idle noTickle noScr sole in
theorem exec_screeningStart_sole {done : Bool} {bad : List (Nat × Nat)} (noFire : (s.port p).fireNow = [])
    (noDefer : (s.port p).deferNow = []) (hn : n = s.updPort p fun r => { r with scrNow := r.scrNow ++ [(done, bad)] }) :
    exec (.screeningStart p done bad) s = .next (((n.updPort p Port.taken).startScreening p done bad).endPort p) := by
  have run : exec (.screeningStart p done bad) s = .next n.lastOfClock := hn ▸ whenClocked_onPort clocked here
  have port : n.port p = { s.port p with scrNow := [(done, bad)] } := by simp [hn, noScr]
  have fire : (n.port p).fireNow = [] := port ▸ noFire
  have defer : (n.port p).deferNow = [] := port ▸ noDefer
  rw [run, State.lastOfClock_of_soleWait (hn ▸ idle) sole, State.haltsNow_of_none fire defer,
    State.settleSlots_of_scrNow fire defer (port ▸ noTickle) (congrArg Port.scrNow port)]
  rfl

include clocked here idle noTickle noScr sole hu in
/-- A fire instant that falls on its clock is carried out when the clock ends; with HALT the fire inhibit follows (R203). -/
theorem exec_fireSlot_sole (noFire : (s.port p).fireNow = []) (noDefer : (s.port p).deferNow = [])
    (hn : n = s.updPort p fun r => { r with fireNow := [(ph.val, sense)] }) (fires : u.firesAt p ph = true) :
    exec (.fireSlot p ph sense) s = .next (if n.haltsNow p then (((u.fireInstant p (s.at8 ph) sense).fireInhibit).settleSlots p).endPort p
      else (u.fireInstant p (s.at8 ph) sense).endPort p) := by
  have appended : s.updPort p (fun r => { r with fireNow := r.fireNow ++ [(ph.val, sense)] }) = n :=
    (State.updPort_congr (by rw [noFire]; rfl)).trans hn.symm
  have run : exec (.fireSlot p ph sense) s = .next n.lastOfClock := appended ▸ whenClocked_onPort clocked here
  have port : n.port p = { s.port p with fireNow := [(ph.val, sense)] } := by simp [hn]
  have now : u.at8 ph = s.at8 ph := by rw [hu, hn]; rfl
  rw [run, State.lastOfClock_of_soleWait (hn ▸ idle) sole,
    State.settleSlots_of_fireNow (port ▸ noDefer) (port ▸ noTickle) (port ▸ noScr) (congrArg Port.fireNow port), ← hu, State.instantNow,
    if_pos fires, now]

include clocked here idle noTickle noScr sole hu in
/-- A deferred slot that is decided on this clock is judged when the clock ends. -/
theorem exec_deferredFire_sole {d : SlotRec} (noFire : (s.port p).fireNow = []) (noDefer : (s.port p).deferNow = [])
    (hn : n = s.updPort p fun r => { r with deferNow := [(ph.val, sense)] }) (decides : u.decidesAt p ph = true)
    (calm : n.haltsNow p = false) (deferred : (s.port p).deferred = some d) :
    exec (.deferredFire p ph sense) s = .next ((u.deferDecide p d.tg8 (s.at8 ph) sense).endPort p) := by
  have appended : s.updPort p (fun r => { r with deferNow := r.deferNow ++ [(ph.val, sense)] }) = n :=
    (State.updPort_congr (by rw [noDefer]; rfl)).trans hn.symm
  have run : exec (.deferredFire p ph sense) s = .next n.lastOfClock := appended ▸ whenClocked_onPort clocked here
  have port : n.port p = { s.port p with deferNow := [(ph.val, sense)] } := by simp [hn]
  have waits : (u.port p).deferred = some d := by simp [hu, port, Port.taken, deferred]
  have now : u.at8 ph = s.at8 ph := by rw [hu, hn]; rfl
  rw [run, State.lastOfClock_of_soleWait (hn ▸ idle) sole, calm,
    State.settleSlots_of_deferNow (port ▸ noFire) (port ▸ noTickle) (port ▸ noScr) (congrArg Port.deferNow port), ← hu, State.decideNow,
    waits]
  simp [decides, now]

end

end Sys2Proof.Machine

namespace Sys2Proof.Proofs

open Sys2Proof.Machine

/-- Settles O39: a command of a slot is noted and carried out when its clock ends (log 22), which where no other waits is the end of a clock
with this port alone (`lastOfClock_of_soleWait`); what is then judged is one equation a case. -/
theorem slotsRunAndAreJudged : Obligations.SlotsRunAndAreJudged := by
  refine ⟨fun s p clocked here => ?_, fun s p ph sense clocked here => ?_⟩
  · refine ⟨fun g t l due => ?_, fun nothing => ?_, fun done bad => whenClocked_onPort clocked here,
      fun done bad n hn idle sole noScr noFire noDefer noTickle =>
        exec_screeningStart_sole clocked here idle noTickle noScr sole noFire noDefer hn,
      fun g t8 late rest a bad due whole => State.startScreening_done due whole,
      fun g t8 rest bad due => State.startScreening_notDone due, fun g t8 rest bad due => State.startScreening_notDone due,
      fun b bad => State.startScreening_nothingDue, fun due => ?_, fun notDue => ?_⟩
    · exact (whenClocked_onPort clocked here).trans (by rw [due])
    · exact (whenClocked_onPort clocked here).trans (by rw [nothing])
    · exact (whenClocked_onPort clocked here).trans (by rw [if_pos due])
    · exact (whenClocked_onPort clocked here).trans (by rw [if_neg (Bool.eq_false_iff.1 notDue)])
  · refine ⟨whenClocked_onPort clocked here, whenClocked_onPort clocked here, fun noFire noDefer noTickle noScr idle => ⟨?_, ?_⟩,
      s.firesAt_iff p ph, fun t8 => State.fireInstant_held t8 sense, fun t8 held st fill => State.fireInstant_first t8 sense held ⟨st, fill⟩,
      fun t8 => State.fireInstant_later t8 sense, fun t8 raster => ⟨State.judgeSlot_inTime sense raster,
        fun u late hu => State.judgeSlot_late sense raster late hu, fun tg8 ok => ?_, fun tg8 ok => ?_⟩, fun t8 c missing => ⟨?_, ?_⟩⟩
    · intro n u hn hu sole fires
      have run := exec_fireSlot_sole clocked here idle noTickle noScr sole hu noFire noDefer hn fires
      exact ⟨fun calm => by simpa [calm] using run, fun halts => by simpa [halts] using run⟩
    · intro n u hn hu sole decides calm d deferred
      exact exec_deferredFire_sole clocked here idle noTickle noScr sole hu noFire noDefer hn decides calm deferred
    · rw [State.deferDecide_raster sense raster, if_pos ok]
    · rw [State.deferDecide_raster sense raster, ok]
      rfl
    · intro policy
      rw [State.judgeSlot_missing t8 sense missing, if_neg policy]
    · intro policy
      exact ⟨by rw [State.judgeSlot_missing t8 sense missing, if_pos policy], by simp [State.slotHalts, missing, policy]⟩

end Sys2Proof.Proofs
end

section
/-! Proofs about the trace port. -/

namespace Sys2Proof.Machine

/-! ## The frame of a record (R549) -/

theorem nibbles_length (k n : Nat) : (nibbles k n).length = k := by
  induction k with
  | zero => rfl
  | succ k ih => rw [nibbles, List.length_cons, ih]

/-- A record as it stands in its frame: the marker A55A, the record's number, and its 128 bits. -/
def State.traceNibbles (s : State) (e : TraceEnt) : List Nat :=
  nibbles 4 0xA55A ++ nibbles 8 (e.no % 2 ^ 32) ++ nibbles 32 (s.traceBits e)

theorem State.traceNibbles_length (s : State) (e : TraceEnt) : (s.traceNibbles e).length = 44 := by
  simp [State.traceNibbles, nibbles_length]

theorem State.traceNibbles_marker (s : State) (e : TraceEnt) : (s.traceNibbles e).take 4 = [0xA, 5, 5, 0xA] := by
  rw [State.traceNibbles, List.append_assoc, List.take_left' (nibbles_length 4 _)]
  decide

theorem State.traceNibbles_number (s : State) (e : TraceEnt) : ((s.traceNibbles e).drop 4).take 8 = nibbles 8 (e.no % 2 ^ 32) := by
  rw [State.traceNibbles, List.append_assoc, List.drop_left' (nibbles_length 4 _), List.take_left' (nibbles_length 8 _)]

/-- The record of a session that is not sealed stands in clear (R550). -/
theorem State.traceNibbles_clear (s : State) {e : TraceEnt} (clear : e.sealed = false) : (s.traceNibbles e).drop 12 = nibbles 32 e.rec_ := by
  rw [State.traceNibbles, List.drop_left' (by simp [nibbles_length]), State.traceBits, clear]
  rfl

/-- The oldest record leaves the queue and is counted. -/
theorem exec_traceFrame {s : State} {e : TraceEnt} {rest : List TraceEnt} (clocked : s.clocked = true) (oldest : s.trace.queue = e :: rest) :
    exec .traceFrame s = .next
      ((({ s with trace := { s.trace with queue := rest } } : State).emit (.trace (s.traceNibbles e))).inc Key.TRACE_RECORDS) :=
  (if_pos clocked).trans (by rw [oldest]; rfl)

/-! ## The end of a clock (R551) -/

/-- Records that are queued take the next numbers. -/
theorem State.tracePuts_trace (sealed : Bool) (l : List TraceNew) (s : State) :
    ∃ q, q.length = l.length ∧ (l.foldl (fun u e => u.tracePut sealed e.bits128) s).trace =
      { s.trace with recNo := s.trace.recNo + l.length, queue := s.trace.queue ++ q } := by
  induction l generalizing s with
  | nil => exact ⟨[], rfl, by simp⟩
  | cons e l ih =>
    obtain ⟨q, length, trace⟩ := ih (s.tracePut sealed e.bits128)
    refine ⟨⟨s.trace.recNo, s.reg Key.TRACE_NONCE, sealed, e.bits128⟩ :: q, by simp [length], ?_⟩
    rw [List.foldl_cons, trace]
    simp [State.tracePut, Nat.add_assoc, Nat.add_comm 1]

/-- Where no loss is owed, the records of the clock are queued while there is room for 1,024, and the loss of the others is owed. -/
theorem State.traceEnd_trace {s : State} (paid : s.trace.lossOwed = 0) :
    ∃ q, q.length = min (1024 - s.trace.queue.length) s.trace.now.length ∧ s.traceEnd.trace = { s.trace with
      now := [], recNo := s.trace.recNo + q.length, queue := s.trace.queue ++ q,
      lossOwed := s.trace.now.length - (1024 - s.trace.queue.length) } := by
  obtain quiet | busy := eq_or_ne s.trace.now []
  · have same : s.traceEnd = s := by simp [State.traceEnd, quiet, paid]
    refine ⟨[], by simp [quiet], ?_⟩
    rw [same]
    generalize s.trace = r at quiet paid ⊢
    cases r
    simp_all
  · obtain ⟨q, length, trace⟩ := State.tracePuts_trace (s.reg Key.TRACE_MODE == 3)
      ((s.trace.now.insertionSort fun a b => a.rank ≤ b.rank).take (1024 - s.trace.queue.length))
      (State.addReg { s with trace := { s.trace with now := [], lossOwed := s.trace.now.length - (1024 - s.trace.queue.length) } } Key.TRACE_LOST
        (s.trace.now.length - (1024 - s.trace.queue.length)))
    rw [List.length_take, List.length_insertionSort] at length trace
    refine ⟨q, length, ?_⟩
    simp [State.traceEnd, paid, busy, trace, length, List.length_insertionSort, b2n]

/-- A loss that is owed is told once the queue has room (R551). -/
theorem State.traceEnd_tells {s : State} (owed : s.trace.lossOwed ≠ 0) (quiet : s.trace.now = []) (room : s.trace.queue.length < 1024) :
    s.traceEnd.trace.lossOwed = 0 ∧ s.traceEnd.trace.queue.length = s.trace.queue.length + 1 := by
  have free : 0 < 1024 - s.trace.queue.length := by omega
  simp [State.traceEnd, quiet, Nat.pos_of_ne_zero owed, free, State.tracePut]

end Sys2Proof.Machine
end

section
/-! Proofs about changes of power state and wakes. -/

namespace Sys2Proof.Machine

/-! ## What a change leads to (R541) -/

/-- The unit as it has left RUN, where it is in RUN and has not yet. -/
def State.left (s : State) : State := if s.reg Key.POWER_STATE = 0 ∧ s.power.leaving = false then s.leaveRun else s

/-- Entry to the power state `v`. -/
def State.enterPower (s : State) (v : Nat) : State :=
  match v with
  | 0 => (s.setReg Key.POWER_STATE 0).forEach [0, 1] fun c s => s.updCam c fun m => { m with quietFrom := s.ct }
  | 1 => s.setReg Key.POWER_STATE 1
  | 4 => s.enterShelf
  | _ => s.enterRest v

section

variable {s : State} {v : Nat} {at_ : Option Nat} (due : s.powerDue = true) (req : s.power.req = some (v, at_))

theorem State.powerStep_notDue (notDue : s.powerDue = false) : s.powerStep = s := by simp [State.powerStep, notDue]

include due req in
theorem State.powerStep_present (same : v = s.reg Key.POWER_STATE) : s.powerStep = s.powerEnd 1 := by
  simp [State.powerStep, due, req, same]

include due req in
theorem State.powerStep_armed (other : v ≠ s.reg Key.POWER_STATE) (armed : s.armed = true) : s.powerStep = s.powerEnd 2 := by
  simp [State.powerStep, due, req, other, armed]

include due req in
/-- A unit in RUN waits until every board is RESTORED; the others enter the state. -/
theorem State.powerStep_leaves (other : v ≠ s.reg Key.POWER_STATE) (quiet : s.armed = false) :
    s.powerStep = if s.reg Key.POWER_STATE = 0 ∧ ¬ s.left.allRestored = true then s.left else (s.left.powerEnd 1).enterPower v := by
  simp only [State.powerStep, due, req, if_neg other, quiet, State.left, Bool.not_eq_true, Bool.false_eq_true, if_false]
  rfl

include due req in
theorem State.powerStep_waits (other : v ≠ s.reg Key.POWER_STATE) (quiet : s.armed = false) (run : s.reg Key.POWER_STATE = 0)
    (moving : s.left.allRestored = false) : s.powerStep = s.left := by
  rw [State.powerStep_leaves due req other quiet, if_pos ⟨run, by simp [moving]⟩]

include due req in
theorem State.powerStep_enters (other : v ≠ s.reg Key.POWER_STATE) (quiet : s.armed = false)
    (ready : s.reg Key.POWER_STATE ≠ 0 ∨ s.left.allRestored = true) : s.powerStep = (s.left.powerEnd 1).enterPower v := by
  rw [State.powerStep_leaves due req other quiet, if_neg (by tauto)]

end

theorem exec_powerChange_alone {s : State} (on : s.on = true) (idle : s.pending = []) : exec .powerChange s = .next s.powerStep :=
  (if_pos on).trans (by simp [idle])

theorem exec_powerChange_waits {s : State} (on : s.on = true) (busy : s.pending ≠ []) :
    exec .powerChange s = .next (s.updPower fun p => { p with now := true }) :=
  (if_pos on).trans (by simp [busy])

/-- In RUN the silence of the cameras is judged anew (R379). -/
theorem State.enterPower_run (s : State) : (s.enterPower 0).regs = (s.setReg Key.POWER_STATE 0).regs ∧
    (∀ c < 2, (s.enterPower 0).cam c = { s.cam c with quietFrom := s.ct }) ∧ (s.enterPower 0).ports = s.ports ∧
    (s.enterPower 0).mem = s.mem ∧ (s.enterPower 0).tabs = s.tabs := by
  refine ⟨rfl, fun c camera => ?_, rfl, rfl, rfl⟩
  obtain rfl | rfl : c = 0 ∨ c = 1 := by omega
  · exact (State.updCam_cam_ne _ _ (by decide)).trans (State.updCam_cam_self _ 0 _)
  · exact (State.updCam_cam_self _ 1 _).trans (by rw [State.updCam_cam_ne _ _ (by decide)]; rfl)

/-! ## Entry to DOZE, SLEEP and SHELF (R542, R543) -/

/-- What each turn of a loop keeps, the loop keeps. -/
theorem State.foldl_proj {β : Type} {π : State → β} {f : State → Nat → State} (hf : ∀ t i, π (f t i) = π t) (l : List Nat) (s : State) :
    π (l.foldl f s) = π s := by
  induction l generalizing s with
  | nil => rfl
  | cons i l ih => exact (ih (f s i)).trans (hf s i)

/-- Holding the channels changes the channels alone. -/
theorem State.dmaHold_reg (s : State) (k : Nat) : s.dmaHold.reg k = s.reg k := by
  refine State.foldl_proj (π := (State.reg · k)) (fun t c => ?_) _ s
  dsimp only
  split
  · rfl
  · split <;> rfl

theorem State.heatForce_reg (s : State) (p k : Nat) (other : k ≠ Key.HEAT_DUTY p) : (s.heatForce p).reg k = s.reg k := by
  unfold State.heatForce
  split
  · simp [other]
  · rfl

theorem State.markPending_reg (s : State) (c : Commit) (f : Nat → Bool → Bool) (k : Nat) : (s.markPending c f).reg k = s.reg k := rfl

theorem State.dropFreeze_reg (s : State) (k : Nat) : s.dropFreeze.reg k = s.reg k := by
  rw [State.dropFreeze, State.updGrid_reg, State.markAll, State.markPending_reg, State.markPending_reg, State.markPending_reg]

/-- The grid that is switched off drops its freeze points and changes no object (R181). -/
theorem State.gridEnableWrite_off {s : State} (off : s.reg Key.GRID_ENABLE = 0) (old k : Nat) : (s.gridEnableWrite old).reg k = s.reg k := by
  simp only [State.gridEnableWrite, off]
  split
  · rfl
  · exact s.dropFreeze_reg k

/-- Entry to DOZE or SLEEP leaves these objects as they are set on the way. -/
theorem State.enterRest_reg (s : State) {v k : Nat} (other : ∀ p, k ≠ Key.HEAT_DUTY p) : (s.enterRest v).reg k =
    (((s.idleLanes.setReg Key.GRID_ENABLE 0).setReg Key.POS_LOCAL_VALID 0).setReg Key.POWER_STATE v).reg k := by
  have off : (s.idleLanes.setReg Key.GRID_ENABLE 0).reg Key.GRID_ENABLE = 0 := State.setReg_reg_self _ (by positivity) (by decide)
  have forced (t : State) : (t.forEach (List.range t.nPorts) State.heatForce).reg k = t.reg k :=
    State.foldl_proj (π := (State.reg · k)) (fun t p => t.heatForce_reg p k (other p)) _ t
  unfold State.enterRest
  dsimp only
  rw [State.reg_ite, State.updLink_reg, ite_self, forced]
  simp only [State.setReg_reg, State.dmaHold_reg, State.gridEnableWrite_off off]

/-- DOZE and SLEEP: the grid is off and the local position invalid (R542). -/
theorem State.enterRest_objects (s : State) {v : Nat} (rest : v = 2 ∨ v = 3) : (s.enterRest v).reg Key.POWER_STATE = v ∧
    (s.enterRest v).reg Key.GRID_ENABLE = 0 ∧ (s.enterRest v).reg Key.POS_LOCAL_VALID = 0 ∧ (v = 3 → (s.enterRest v).link.ctValid = false) := by
  have width : keyWidth Key.POWER_STATE ≤ 72 ∧ 3 < 2 ^ keyWidth Key.POWER_STATE := by decide
  have state : (s.enterRest v).reg Key.POWER_STATE = v := by
    rw [State.enterRest_reg s (fun p => by simp only [Key.HEAT_DUTY, Key.POWER_STATE]; omega)]
    exact State.setReg_reg_self _ (by omega) width.1
  have grid : (s.enterRest v).reg Key.GRID_ENABLE = 0 := by
    rw [State.enterRest_reg s (fun p => by simp only [Key.HEAT_DUTY, Key.GRID_ENABLE]; omega)]
    simp [State.setReg_reg]
  have position : (s.enterRest v).reg Key.POS_LOCAL_VALID = 0 := by
    rw [State.enterRest_reg s (fun p => by simp only [Key.HEAT_DUTY, Key.POS_LOCAL_VALID]; omega)]
    simp [State.setReg_reg]
  refine ⟨state, grid, position, ?_⟩
  rintro rfl
  rfl

/-- Programming a log record leaves the power record alone. -/
theorem State.calderaEvent_power (s : State) (c a : Nat) : (s.calderaEvent c a).power = s.power := State.event_power s _ _ _

theorem State.logAdd_power (s : State) (kind code : Nat) (payload : List Nat) (mark : Option Nat) :
    (s.logAdd kind code payload mark).power = s.power := by
  unfold State.logAdd
  split
  · rfl
  · split <;> rfl

theorem execLogProgram_power {s t : State} (h : execLogProgram s = .next t) : t.power = s.power := by
  unfold execLogProgram whenOn at h
  dsimp only at h
  repeat' split at h
  all_goals
    cases h
    simp [State.calderaEvent_power, State.logAdd_power]

/-- The entry to SHELF writes the log and lets the supply fall, unless WAKE_N has come on the way (R543, R545). -/
theorem State.enterShelf_supply (s : State) : s.enterShelf.boot.phase = .shelf ∧ s.enterShelf.power.pwrEn = s.power.woken ∧
    (s.power.woken = true → s.enterShelf.reg Key.WAKE_CAUSE = 3) := by
  unfold State.enterShelf
  generalize List.range 258 = turns
  extract_lets s1 woken s2
  have power : s1.power = s.power := by
    refine State.foldl_proj (π := State.power) (fun t _ => ?_) _ s
    split
    · split
      · exact execLogProgram_power ‹_›
      · rfl
    · rfl
  have wakes : woken = s.power.woken := congrArg Power.woken power
  refine ⟨rfl, wakes, fun h => ?_⟩
  have caused : (if woken then s2.setReg Key.WAKE_CAUSE 3 else s2).reg Key.WAKE_CAUSE = 3 := by
    rw [if_pos (wakes.trans h)]
    exact State.setReg_reg_self _ (by decide) (by decide)
  exact caused

/-! ## The return (R542, R544) -/

/-- What the return from DOZE or SLEEP leaves alone once it has set it: the reception, the power record, the position and the role to come. -/
structure State.ReturnKept (s t : State) : Prop where
  state : t.reg Key.POWER_STATE = s.reg Key.POWER_STATE
  recv : t.recv = s.recv
  power : t.power = s.power
  position : t.pos.pos = s.pos.pos
  role : t.pos.newRole = s.pos.newRole

namespace State.ReturnKept

theorem refl (s : State) : s.ReturnKept s := ⟨rfl, rfl, rfl, rfl, rfl⟩

theorem trans {s t u : State} (h : s.ReturnKept t) (g : t.ReturnKept u) : s.ReturnKept u :=
  ⟨g.state.trans h.state, g.recv.trans h.recv, g.power.trans h.power, g.position.trans h.position, g.role.trans h.role⟩

theorem ite {s a b : State} {c : Prop} {_ : Decidable c} (ha : s.ReturnKept a) (hb : s.ReturnKept b) : s.ReturnKept (if c then a else b) := by
  split
  · exact ha
  · exact hb

theorem forEach {f : Nat → State → State} (hf : ∀ i t, State.ReturnKept t (f i t)) (l : List Nat) (s : State) :
    s.ReturnKept (s.forEach l f) := by
  induction l generalizing s with
  | nil => exact refl s
  | cons i l ih => exact (hf i s).trans (ih _)

theorem setReg (s : State) {k : Nat} (v : Nat) (other : Key.POWER_STATE ≠ k) : s.ReturnKept (s.setReg k v) :=
  ⟨State.setReg_reg_ne s v other, rfl, rfl, rfl, rfl⟩

theorem wakeBank (b : Nat) (s : State) : s.ReturnKept (s.wakeBank b) := .ite ⟨rfl, rfl, rfl, rfl, rfl⟩ (refl s)

theorem updDch (s : State) (c : Nat) (f : DmaCh → DmaCh) : s.ReturnKept (s.updDch c f) := ⟨rfl, rfl, rfl, rfl, rfl⟩

theorem foldl_fst {f : State × Bool → Nat → State × Bool} (hf : ∀ a c, State.ReturnKept a.1 (f a c).1) (l : List Nat) (a : State × Bool) :
    a.1.ReturnKept (l.foldl f a).1 := by
  induction l generalizing a with
  | nil => exact refl a.1
  | cons c l ih => exact (hf a c).trans (ih _)

theorem selectMover (s : State) (m : Nat) : s.ReturnKept (s.selectMover m) := by
  refine .ite (refl s) (foldl_fst (fun a c => ?_) _ (s, false))
  split
  · exact refl _
  · split
    · exact updDch _ c _
    · split
      · exact updDch _ c _
      · exact ⟨rfl, rfl, rfl, rfl, rfl⟩

theorem dmaUnhold (s : State) : s.ReturnKept s.dmaUnhold :=
  (forEach (fun c t => .ite (updDch t c _) (refl t)) _ s).trans (forEach (fun m t => selectMover t m) _ _)

theorem updLane (s : State) (i : Nat) (f : Lane → Lane) : s.ReturnKept (s.updLane i f) := ⟨rfl, rfl, rfl, rfl, rfl⟩

theorem loseLane (s : State) (i : Nat) : s.ReturnKept (s.loseLane i) := by
  refine .ite ⟨rfl, rfl, rfl, rfl, rfl⟩ (.ite ((updLane s i _).trans (setReg _ _ ?_)) (updLane s i _))
  split <;> decide

theorem downLane (s : State) (i : Nat) : s.ReturnKept (s.downLane i) := .ite (loseLane s i) (updLane s i _)

theorem emit (s : State) (o : Out) : s.ReturnKept (s.emit o) := ⟨rfl, rfl, rfl, rfl, rfl⟩

theorem sendBurst (s : State) (l : LinkSel) : s.ReturnKept (s.sendBurst l) :=
  forEach (fun i t => (emit t (.fastExit i (t.trainBlock i true) (t.alignBlock i))).trans (updLane _ i _)) _ s

theorem updMem (s : State) (f : Mem → Mem) : s.ReturnKept (s.updMem f) := ⟨rfl, rfl, rfl, rfl, rfl⟩

/-- A change of the wheel's record beside its position and the role to come. -/
theorem updPos (s : State) {f : Pos → Pos} (position : (f s.pos).pos = s.pos.pos) (role : (f s.pos).newRole = s.pos.newRole) :
    s.ReturnKept (s.updPos f) := ⟨rfl, rfl, rfl, position, role⟩

theorem traceStart (s : State) : s.ReturnKept s.traceStart :=
  (setReg s (k := Key.TRACE_NONCE) _ (by decide)).trans ⟨rfl, rfl, rfl, rfl, rfl⟩

theorem syncEncOut (s : State) : s.ReturnKept s.syncEncOut := by
  unfold State.syncEncOut
  exact updPos s rfl rfl

theorem seekRef (s : State) : s.ReturnKept s.seekRef := updPos s rfl rfl

theorem ssiBegin (s : State) (first : Option SsiShot) : s.ReturnKept (s.ssiBegin first) := by
  unfold State.ssiBegin
  exact (setReg s (k := Key.SSI_READS) _ (by decide)).trans (updPos _ rfl rfl)

theorem ssiStart (s : State) (u : SsiUse) : s.ReturnKept (s.ssiStart u) := by
  unfold State.ssiStart
  exact .ite (updPos s rfl rfl) ((updPos s rfl rfl).trans ((updPos _ rfl rfl).trans (ssiBegin _ _)))

theorem cause (s : State) (k i : Nat) (on : Bool) (d : Nat) : s.ReturnKept (s.cause k i on d) := by constructor <;> simp

end State.ReturnKept

/-- A wheel whose position starts again from 0, with its pins as they are and the role to come (R163, R565). -/
def Pos.cleared (p : Pos) : Pos :=
  { raw := p.raw, lineBad := p.lineBad, dirPin := p.dirPin, dirPrev := p.dirPin, hall := p.hall, ssiReady := p.ssiReady, newRole := p.newRole }

theorem State.clearPosition_kept (s : State) : (s.updPos Pos.cleared).ReturnKept s.clearPosition := by
  have sought : (s.updPos Pos.cleared).ReturnKept ((((s.updPos Pos.cleared).syncEncOut).cause 0x23 0 false 0).seekRef) :=
    ((ReturnKept.syncEncOut _).trans (.cause _ _ _ _ _)).trans (.seekRef _)
  exact .ite sought (.ite (sought.trans (.ssiStart _ _)) (sought.trans (.setReg _ _ (by decide))))

/-- The unit as the wake sets it before its blocks return. -/
def State.ready (s : State) : State :=
  ((s.updRecv fun r => { r with judging := false, missed := 0, accepted := false }).setReg Key.POWER_STATE 1).updPower
    fun p => { p with quietTo := s.clk + 500000 }

/-- The blocks' return keeps what the wake has set, and starts the position from 0. -/
theorem State.wakeUp_kept (s : State) : ∃ t, s.ready.ReturnKept t ∧ (t.updPos Pos.cleared).ReturnKept s.wakeUp := by
  refine ⟨s.ready.forEach (List.range 4) State.wakeBank, .forEach .wakeBank _ _, ?_⟩
  generalize hu : s.ready.forEach (List.range 4) State.wakeBank = u
  unfold State.wakeUp
  have blocks (f : Mem → Mem) : (u.updPos Pos.cleared).ReturnKept (u.clearPosition.updMem f).dmaUnhold :=
    (u.clearPosition_kept.trans (.updMem _ f)).trans (.dmaUnhold _)
  have lanes (f : Mem → Mem) (c : Prop) {_ : Decidable c} : (u.updPos Pos.cleared).ReturnKept (if c then
      (u.clearPosition.updMem f).dmaUnhold.forEach (List.range 8) (fun i s => s.downLane i)
      else ((u.clearPosition.updMem f).dmaUnhold.sendBurst (.chain .u)).sendBurst (.chain .d)) :=
    .ite ((blocks f).trans (.forEach (fun i t => .downLane t i) _ _)) (((blocks f).trans (.sendBurst _ _)).trans (.sendBurst _ _))
  subst hu
  exact .ite ((lanes _ _).trans (.traceStart _)) (lanes _ _)

/-- A wake makes the unit READY, judges no loss for 1 ms nor before a broadcast has been accepted, and starts the position from 0. -/
theorem State.wakeUp_ready (s : State) : s.wakeUp.reg Key.POWER_STATE = 1 ∧ s.wakeUp.recv.judging = false ∧
    s.wakeUp.recv.accepted = false ∧ s.wakeUp.power.quietTo = s.clk + 500000 ∧ s.wakeUp.pos.pos = 0 ∧
    s.wakeUp.pos.newRole = s.pos.newRole := by
  obtain ⟨t, before, after⟩ := s.wakeUp_kept
  have state : s.ready.reg Key.POWER_STATE = 1 := (State.updPower_reg _ _ _).trans (State.setReg_reg_self _ (by decide) (by decide))
  refine ⟨after.state.trans (before.state.trans state), ?_, ?_, ?_, after.position, after.role.trans before.role⟩
  · rw [after.recv, State.updPos_recv, before.recv]
    rfl
  · rw [after.recv, State.updPos_recv, before.recv]
    rfl
  · rw [after.power, State.updPos_power, before.power]
    rfl

/-! ## The wake of a unit (R544, R545) -/

section

variable {s : State} {source : Nat} (on : s.on = true)

include on in
/-- A source that is off does nothing. -/
theorem exec_wake_off (off : s.wakeOk source = false) : exec (.wake source) s = .next s :=
  (if_pos on).trans (by simp [off])

include on in
/-- A unit in DOZE or SLEEP returns. -/
theorem exec_wake_resting (ok : s.wakeOk source = true) (rests : 2 ≤ s.reg Key.POWER_STATE) :
    exec (.wake source) s = .next (s.setReg Key.WAKE_CAUSE source).wakeUp :=
  (if_pos on).trans (by simp [ok, rests])

include on in
/-- A unit that is awake, with no change of power state that could take effect on this clock, is left alone. -/
theorem exec_wake_awake (ok : s.wakeOk source = true) (awake : s.reg Key.POWER_STATE < 2) (stays : s.powerDue = false ∨ s.armed = true) :
    exec (.wake source) s = .next s := by
  have rests : ¬ 2 ≤ s.reg Key.POWER_STATE := by omega
  have noChange : (s.powerDue && !s.armed) = false := by obtain h | h := stays <;> simp [h]
  refine (if_pos on).trans ?_
  simp only [ok, rests, noChange]
  rfl

include on in
/-- At the instant of entry to DOZE or SLEEP the wake wins, and the request reads WOKEN; another change is left to its own command. -/
theorem exec_wake_entering {v : Nat} {at_ : Option Nat} (ok : s.wakeOk source = true) (awake : s.reg Key.POWER_STATE < 2) (due : s.powerDue = true)
    (quiet : s.armed = false) (req : s.power.req = some (v, at_)) :
    exec (.wake source) s = .next (if (v = 2 ∨ v = 3) ∧ (s.reg Key.POWER_STATE ≠ 0 ∨ s.left.allRestored = true) then
      ((s.left.powerEnd 3).setReg Key.POWER_STATE 1).setReg Key.WAKE_CAUSE source else s) := by
  have rests : ¬ 2 ≤ s.reg Key.POWER_STATE := by omega
  refine (if_pos on).trans ?_
  simp only [ok, rests, due, quiet, req, State.left, Bool.not_eq_true]
  rfl

theorem State.wakeOk_iff (s : State) (first : 1 ≤ source) (last : source ≤ 3) : s.wakeOk source = true ↔
    bit (s.reg Key.WAKE_ENABLE) (source - 1) = true ∧ ¬ (s.reg Key.POWER_STATE = 3 ∧ source = 2) := by
  simp [State.wakeOk, first, last, imp_iff_not_or]

end

end Sys2Proof.Machine

namespace Sys2Proof.Proofs

open Sys2Proof.Machine

/-- Settles O60: a change of power state is decided case by case (`powerStep`); what a state's entry and the return leave is read from what
the blocks' operations keep (`enterRest_reg`, `wakeUp_kept`); and the end of a clock queues what the trace queue has room for
(`traceEnd_trace`). -/
theorem powerTraceAndWake : Obligations.PowerTraceAndWake := by
  refine ⟨fun s on => ⟨exec_powerChange_waits on, fun idle notDue => ?_, fun v at_ idle due req => ⟨fun same => ?_, fun other armed => ?_,
      fun other quiet => ⟨fun run still moving => ?_, fun run leaving moving => ?_, fun u hu ready => ?_⟩⟩,
      fun v rest => s.enterRest_objects rest, s.enterShelf_supply⟩,
    fun s source on => ⟨exec_wake_off on, exec_wake_resting on, s.wakeOk_iff, fun v at_ u ok awake due quiet req hu => ?_,
      exec_wake_awake on, s.wakeUp_ready⟩,
    fun s clocked => ⟨fun empty => ?_, fun e rest oldest => ?_, fun paid room => ?_, fun paid fits full => ?_, State.traceEnd_tells,
      fun notDue => ?_, fun due => ?_⟩⟩
  · rw [exec_powerChange_alone on idle, State.powerStep_notDue notDue]
  · rw [exec_powerChange_alone on idle, State.powerStep_present due req same]
  · rw [exec_powerChange_alone on idle, State.powerStep_armed due req other armed]
  · have left : s.left = s.leaveRun := if_pos ⟨run, still⟩
    rw [exec_powerChange_alone on idle, State.powerStep_waits due req other quiet run (left ▸ moving), left]
  · have left : s.left = s := if_neg (by simp [leaving])
    rw [exec_powerChange_alone on idle, State.powerStep_waits due req other quiet run (left.symm ▸ moving), left]
  · have left : u = s.left := hu
    have run : exec .powerChange s = .next ((u.powerEnd 1).enterPower v) := by
      rw [exec_powerChange_alone on idle, State.powerStep_enters due req other quiet (left ▸ ready), left]
    rw [run]
    refine ⟨?_, ?_, ?_, ?_⟩
    · rintro rfl
      exact ⟨_, rfl, (u.powerEnd 1).enterPower_run⟩
    · rintro rfl
      rfl
    · rintro (rfl | rfl) <;> rfl
    · rintro rfl
      rfl
  · have left : u = s.left := hu
    rw [exec_wake_entering on ok awake due quiet req, ← left]
    refine ⟨fun rest ready => congrArg _ (if_pos ⟨rest, ready.imp (by omega) id⟩), fun no => congrArg _ (if_neg ?_)⟩
    rintro ⟨rest, ready⟩
    obtain other | ⟨run, moving⟩ := no
    · omega
    · simp [run, moving] at ready
  · exact (if_pos clocked).trans (by rw [empty])
  · have width : keyWidth Key.TRACE_RECORDS ≤ 72 := by decide
    exact ⟨_, s.traceNibbles e, exec_traceFrame clocked oldest, rfl, s.traceNibbles_length e, s.traceNibbles_marker e, s.traceNibbles_number e,
      State.inc_reg_self _ width, s.traceNibbles_clear, rfl, fun k other => State.inc_reg_ne _ other, rfl, rfl, rfl⟩
  · obtain ⟨q, length, trace⟩ := State.traceEnd_trace paid
    rw [trace]
    refine ⟨rfl, ?_, ?_, ?_⟩ <;> simp [length]
    all_goals omega
  · obtain ⟨q, length, trace⟩ := State.traceEnd_trace paid
    rw [trace]
    refine ⟨?_, ?_⟩ <;> simp [length]
    all_goals omega
  · exact (if_pos clocked).trans (by rw [if_neg (Bool.eq_false_iff.1 notDue)])
  · exact (if_pos clocked).trans (by rw [if_pos due])

end Sys2Proof.Proofs
end

section
/-! Proofs about the lanes: bring-up, its timeouts, loss, idle and fast exit (R47-R55). -/

namespace Sys2Proof.Machine

/-! ## Loops over a list of numbers -/

/-- Two loops that do the same at each number of the list do the same. -/
theorem State.forEach_congr {f g : Nat → State → State} {l : List Nat} (h : ∀ i ∈ l, ∀ t, f i t = g i t) (s : State) :
    s.forEach l f = s.forEach l g :=
  List.foldl_ext _ _ s fun t i hi => h i hi t

/-- What holds at the start and is kept by each turn holds at the end. -/
theorem State.forEach_holds {P : State → Prop} {f : Nat → State → State} {l : List Nat} (keeps : ∀ i ∈ l, ∀ t, P t → P (f i t))
    {s : State} (start : P s) : P (s.forEach l f) := by
  induction l generalizing s with
  | nil => exact start
  | cons i l ih => exact ih (fun j hj => keeps j (List.mem_cons_of_mem i hj)) (keeps i (List.mem_cons_self ..) s start)

/-- The turn of `i` leads from `Q` to `R`; the other turns keep `Q` before it and `R` after it. -/
theorem State.forEach_settles {Q R : State → Prop} {f : Nat → State → State} {l : List Nat} {i : Nat} (nodup : l.Nodup) (mem : i ∈ l)
    (before : ∀ j ≠ i, ∀ t, Q t → Q (f j t)) (turn : ∀ t, Q t → R (f i t)) (after : ∀ j ≠ i, ∀ t, R t → R (f j t)) {s : State}
    (start : Q s) : R (s.forEach l f) := by
  induction l generalizing s with
  | nil => cases mem
  | cons j l ih =>
    obtain ⟨new, rest⟩ := List.nodup_cons.1 nodup
    by_cases same : j = i
    · subst same
      exact State.forEach_holds (fun k hk => after k (ne_of_mem_of_not_mem hk new)) (turn s start)
    · exact ih rest ((List.mem_cons.1 mem).resolve_left (Ne.symm same)) (before j same s start)

/-! ## What one command does to a lane in a known state -/

theorem exec_laneSignalDetect_down {s : State} {lane : Fin 8} (on : s.on = true) (down : (s.lane lane).st = .down)
    (free : (s.lane lane).retryAt = none) (enabled : s.laneHeld lane = false) :
    exec (.laneSignalDetect lane) s = .next (s.updLane lane fun l => { l with st := .signal, since := s.clk }) :=
  (if_pos on).trans (congrArg _ (if_pos ⟨down, free, by simp [enabled]⟩))

theorem exec_laneSignalDetect_waiting {s : State} {lane : Fin 8} {n : Nat} (on : s.on = true) (wait : (s.lane lane).retryAt = some n) :
    exec (.laneSignalDetect lane) s = .next s :=
  (if_pos on).trans (congrArg _ (if_neg (by simp [wait])))

theorem exec_blockLock_signal {s : State} {lane : Fin 8} (on : s.on = true) (signal : (s.lane lane).st = .signal) :
    exec (.blockLock lane) s = .next (s.updLane lane fun l => { l with st := .lock, since := s.clk, run := 0 }) :=
  (if_pos on).trans (congrArg _ (if_pos signal))

section Train

variable {s : State} {lane : Fin 8} {hdr : BitVec 2} {blk : Block} (on : s.on = true)
include on

theorem exec_train_lock {inv : Bool} {b : Nat} (lock : (s.lane lane).st = .lock)
    (reads : readTrain (s.lane lane).polInv hdr blk = some (inv, b)) :
    exec (.train lane hdr blk) s = .next (s.updLane lane (Lane.lockTrain lane s.clk inv b)) := by
  refine (if_pos on).trans ?_
  rw [lock, reads]

/-- A block that is no acceptable TRAIN breaks the run (R47). -/
theorem exec_train_lock_other (lock : (s.lane lane).st = .lock) (other : readTrain (s.lane lane).polInv hdr blk = none) :
    exec (.train lane hdr blk) s = .next (s.updLane lane fun l => { l with run := 0 }) := by
  refine (if_pos on).trans ?_
  rw [lock, other]

theorem exec_train_ready {inv : Bool} {b : Nat} (train : (s.lane lane).st = .train)
    (reads : readTrain (s.lane lane).polInv hdr blk = some (inv, b)) (ready : bit b 23 = true) :
    exec (.train lane hdr blk) s =
      .next (((s.updLane lane (Lane.seeKind lane b)).updLane lane fun l => { l with ready := l.ready + 1 }).trained lane) := by
  refine (if_pos on).trans ?_
  rw [train, reads]
  exact congrArg _ (if_pos ready)

end Train

section Align

variable {s : State} {p : ChainPort} {skew : Nat} (on : s.on = true)
include on

theorem exec_align_first (deskew : ∀ i ∈ linkLanes (.chain p), (s.lane i).st = .deskew ∧ (s.lane i).lastSkew ≠ some skew) :
    exec (.align (.chain p) skew) s =
      .next (s.forEach (linkLanes (.chain p)) fun i t => t.updLane i fun l => { l with lastSkew := some skew }) := by
  refine (if_pos on).trans (congrArg _ (State.forEach_congr (fun i hi t => ?_) s))
  obtain ⟨st, other⟩ := deskew i hi
  exact (if_pos st).trans (if_neg fun same => other same.1)

/-- The second ALIGN pair of the same skew brings the port UP (R47). -/
theorem exec_align_again (small : skew ≤ 16)
    (deskew : ∀ i ∈ linkLanes (.chain p), (s.lane i).st = .deskew ∧ (s.lane i).lastSkew = some skew) :
    exec (.align (.chain p) skew) s = .next (s.forEach (linkLanes (.chain p)) fun i t =>
      t.updLane i fun l => { l with st := .up, skew := skew, fails := 0, alignFrom := s.clk }) := by
  refine (if_pos on).trans (congrArg _ (State.forEach_congr (fun i hi t => ?_) s))
  obtain ⟨st, same⟩ := deskew i hi
  exact (if_pos st).trans (if_pos ⟨same, small⟩)

/-- An UP port that shows another skew is lost (R50). -/
theorem exec_align_other (up : ∀ i ∈ linkLanes (.chain p), (s.lane i).st = .up ∧ (s.lane i).skew ≠ skew) :
    exec (.align (.chain p) skew) s = .next (s.forEach (linkLanes (.chain p)) fun i t => t.loseLane i) := by
  refine (if_pos on).trans (congrArg _ (State.forEach_congr (fun i hi t => ?_) s))
  obtain ⟨st, other⟩ := up i hi
  exact (if_neg (by simp [st])).trans (if_pos ⟨st, other⟩)

end Align

theorem exec_align_image {s : State} {i : Fin 4} {skew : Nat} (on : s.on = true) : exec (.align (.image i) skew) s = .next s := if_pos on

/-! ## Timeouts of bring-up (R47, R51) -/

/-- The lane after its bring-up failed: DOWN, with one failure more and a wait (R51). -/
def Lane.failed (clk : Nat) (l : Lane) : Lane :=
  { l.toDown with fails := l.fails + 1, retryAt := some (clk + if 8 ≤ l.fails + 1 then 5000000 else 500000) }

/-- Only the states of bring-up have a timeout (R47). -/
theorem laneTimeout_of_mem {st : LaneSt} {n : Nat}
    (h : (st, n) ∈ [(LaneSt.signal, 25000), (.lock, 10000), (.train, 100000), (.deskew, 25000)]) : laneTimeout st = some n := by
  simp only [List.mem_cons, Prod.mk.injEq, List.not_mem_nil, or_false] at h
  obtain ⟨rfl, rfl⟩ | ⟨rfl, rfl⟩ | ⟨rfl, rfl⟩ | ⟨rfl, rfl⟩ := h <;> rfl

theorem Lane.timedOut_eq {l : Lane} {n : Nat} (h : laneTimeout l.st = some n) (clk : Nat) : l.timedOut clk = decide (l.since + n ≤ clk) := by
  simp [Lane.timedOut, h]

theorem exec_laneBringupTimeout_early {s : State} {lane : Fin 8} {n : Nat} (on : s.on = true) (limit : laneTimeout (s.lane lane).st = some n)
    (early : s.clk < (s.lane lane).since + n) : exec (.laneBringupTimeout lane) s = .next s :=
  (if_pos on).trans (congrArg _ (if_neg (by rw [Lane.timedOut_eq limit]; simpa using early)))

/-- Every part has source 0x18, lane-bring-up-failed (R475). -/
theorem srcExists_laneBringup (ports : Nat) : srcExists ports 0x18 = true := by
  have listed : (srcRow 0x18).isSome = true := by decide
  simp [srcExists, listed]

/-- The unit after the bring-up of a lane failed: the failure counts, and the eighth in a row raises lane-bring-up-failed (R51). -/
def State.failLane (s : State) (lane : Fin 8) : State :=
  ((s.updLane lane (Lane.failed s.clk)).inc Key.BRINGUP_FAIL).updFaults fun f => { f with
    raised := f.raised ++ if (s.lane lane).fails + 1 = 8 then [⟨0x18, lane.val, false⟩] else [] }

theorem exec_laneBringupTimeout_over {s : State} {lane : Fin 8} {n : Nat} (on : s.on = true) (limit : laneTimeout (s.lane lane).st = some n)
    (late : (s.lane lane).since + n ≤ s.clk) : exec (.laneBringupTimeout lane) s = .next (s.failLane lane) := by
  refine (if_pos on).trans (congrArg _ ((if_pos (by rw [Lane.timedOut_eq limit]; simpa using late)).trans ?_))
  unfold State.failLane
  by_cases eighth : (s.lane lane).fails + 1 = 8
  · rw [if_pos eighth, if_pos eighth, State.raise_eq, if_pos (srcExists_laneBringup _), Nat.mod_eq_of_lt (by omega : lane.val < 65536)]
    rfl
  · rw [if_neg eighth, if_neg eighth]
    simp only [List.append_nil]
    rfl

theorem exec_laneRetry_over {s : State} {lane : Fin 8} {n : Nat} (on : s.on = true) (wait : (s.lane lane).retryAt = some n) (late : n ≤ s.clk) :
    exec (.laneRetry lane) s = .next (s.updLane lane fun l => { l with retryAt := none }) :=
  (if_pos on).trans (congrArg _ (if_pos (by simpa [wait] using late)))

theorem exec_laneRetry_early {s : State} {lane : Fin 8} {n : Nat} (on : s.on = true) (wait : (s.lane lane).retryAt = some n) (early : s.clk < n) :
    exec (.laneRetry lane) s = .next s :=
  (if_pos on).trans (congrArg _ (if_neg (by simpa [wait] using early)))

/-! ## Loss, idle and fast exit (R50, R52-R54) -/

section Up

variable {s : State} {lane : Fin 8} (on : s.on = true)
include on

theorem exec_laneLossOfSignal_up (up : (s.lane lane).st = .up) : exec (.laneLossOfSignal lane) s = .next (s.loseLane lane) :=
  (if_pos on).trans (congrArg _ (if_pos up))

theorem exec_eidle_up (up : (s.lane lane).st = .up) :
    exec (.eidle lane) s = .next (s.updLane lane fun l => { l with st := .idle }) :=
  (if_pos on).trans (congrArg _ (if_pos up))

/-- The clocks of the invalid headers within the last 125 µs (R50). -/
def Lane.recentBad (clk : Nat) (l : Lane) : List Nat := l.bad.filter fun t => decide (clk < t + 62500)

theorem exec_invalidSyncHeader_few {hdr : BitVec 2} {ty : BitVec 8} (up : (s.lane lane).st = .up) (bad : hdr = 0 ∨ hdr = 3)
    (few : ((s.lane lane).recentBad s.clk).length < 15) :
    exec (.invalidSyncHeader lane hdr ty) s = .next (s.updLane lane fun l => { l with bad := s.clk :: (s.lane lane).recentBad s.clk }) := by
  have below : ¬ 16 ≤ (s.clk :: (s.lane lane).recentBad s.clk).length := by simpa using few
  exact (if_pos on).trans (congrArg _ ((if_neg (not_not_intro up)).trans ((if_pos bad).trans (if_neg below))))

theorem exec_invalidSyncHeader_many {hdr : BitVec 2} {ty : BitVec 8} (up : (s.lane lane).st = .up) (bad : hdr = 0 ∨ hdr = 3)
    (many : 15 ≤ ((s.lane lane).recentBad s.clk).length) :
    exec (.invalidSyncHeader lane hdr ty) s = .next (s.loseLane lane) := by
  have reached : 16 ≤ (s.clk :: (s.lane lane).recentBad s.clk).length := by simpa using many
  exact (if_pos on).trans (congrArg _ ((if_neg (not_not_intro up)).trans ((if_pos bad).trans (if_pos reached))))

end Up

theorem linkLanes_chain_ge {p : ChainPort} {i : Nat} (h : i ∈ linkLanes (.chain p)) : 4 ≤ i := by
  cases p <;> simp only [linkLanes, List.mem_cons, List.not_mem_nil, or_false] at h <;> omega

theorem exec_fastExit_intime {s : State} {link : LinkSel} {lock skew : Nat} (on : s.on = true) (soon : lock ≤ 64)
    (idle : ∀ i ∈ linkLanes link, (s.lane i).st = .idle ∧ (4 ≤ i → (s.lane i).skew = skew)) :
    exec (.fastExit link lock skew true) s = .next (s.forEach (linkLanes link) fun i t =>
      t.updLane i fun l => { l with st := .up, alignFrom := s.clk }) := by
  refine (if_pos on).trans (congrArg _ ((if_pos (by simpa using fun i hi => (idle i hi).1)).trans (State.forEach_congr (fun i hi t => ?_) s)))
  refine if_pos ⟨rfl, soon, ?_⟩
  cases link with
  | image j => rfl
  | chain p => exact decide_eq_true ((idle i hi).2 (linkLanes_chain_ge hi))

theorem exec_fastExit_fails {s : State} {link : LinkSel} {lock skew : Nat} {ok : Bool} (on : s.on = true) (fails : ok = false ∨ 64 < lock)
    (idle : ∀ i ∈ linkLanes link, (s.lane i).st = .idle) :
    exec (.fastExit link lock skew ok) s = .next (s.forEach (linkLanes link) fun i t => t.loseLane i) := by
  refine (if_pos on).trans (congrArg _ ((if_pos (by simpa using idle)).trans (State.forEach_congr (fun i hi t => if_neg ?_) s)))
  rintro ⟨good, soon, -⟩
  obtain bad | late := fails
  · simp [bad] at good
  · omega

/-! ## What the lane commands leave alone -/

/-- The counters that R50, R51, R55 and R217 name for the lane commands. -/
def laneCounters : List Nat := [Key.BRINGUP_FAIL, Key.LOCK_LOSS_U, Key.LOCK_LOSS_D, Key.PACKET_FORMAT, Key.KIND_UNKNOWN]

/-- From `s` to `t` nothing has changed but the lanes of `ls`, the counters of the lane commands, raises and the ingress of image lanes. -/
structure State.LaneKept (ls : List Nat) (s t : State) : Prop where
  reg : ∀ k, k ∉ laneCounters → t.reg k = s.reg k
  mem : t.mem = s.mem
  tabs : t.tabs = s.tabs
  otp : t.otp = s.otp
  nor : t.nor = s.nor
  ports : t.ports = s.ports
  pos : t.pos = s.pos
  recv : t.recv = s.recv
  dict : t.dict = s.dict
  grid : t.grid = s.grid
  out : t.out = s.out
  lane : ∀ i, i ∉ ls → t.lane i = s.lane i

namespace State.LaneKept

variable {ls : List Nat} {s t u : State}

theorem refl (s : State) : LaneKept ls s s := ⟨fun _ _ => rfl, rfl, rfl, rfl, rfl, rfl, rfl, rfl, rfl, rfl, rfl, fun _ _ => rfl⟩

theorem trans (h : LaneKept ls s t) (g : LaneKept ls t u) : LaneKept ls s u where
  reg k other := (g.reg k other).trans (h.reg k other)
  mem := g.mem.trans h.mem
  tabs := g.tabs.trans h.tabs
  otp := g.otp.trans h.otp
  nor := g.nor.trans h.nor
  ports := g.ports.trans h.ports
  pos := g.pos.trans h.pos
  recv := g.recv.trans h.recv
  dict := g.dict.trans h.dict
  grid := g.grid.trans h.grid
  out := g.out.trans h.out
  lane i other := (g.lane i other).trans (h.lane i other)

theorem ite {c : Prop} {_ : Decidable c} (ht : LaneKept ls s t) (hu : LaneKept ls s u) : LaneKept ls s (if c then t else u) := by
  split
  · exact ht
  · exact hu

theorem updLane (s : State) {i : Nat} (f : Lane → Lane) (own : i ∈ ls) : LaneKept ls s (s.updLane i f) :=
  ⟨fun _ _ => rfl, rfl, rfl, rfl, rfl, rfl, rfl, rfl, rfl, rfl, rfl,
    fun _ other => State.updLane_lane_ne s f (ne_of_mem_of_not_mem own other).symm⟩

theorem inc (s : State) {k : Nat} (counter : k ∈ laneCounters) : LaneKept ls s (s.inc k) :=
  ⟨fun _ other => State.inc_reg_ne s (ne_of_mem_of_not_mem counter other).symm, rfl, rfl, rfl, rfl, rfl, rfl, rfl, rfl, rfl, rfl,
    fun _ _ => rfl⟩

theorem raise (s : State) (k d : Nat) : LaneKept ls s (s.raise k d) := by constructor <;> simp [State.lane]

theorem dropImage (s : State) (i : Nat) : LaneKept ls s (s.dropImage i) :=
  ⟨fun _ _ => rfl, rfl, rfl, rfl, rfl, rfl, rfl, rfl, rfl, rfl, rfl, fun _ _ => rfl⟩

theorem loseLane (s : State) {i : Nat} (own : i ∈ ls) : LaneKept ls s (s.loseLane i) := by
  refine .ite ((updLane s _ own).trans (dropImage _ i)) (.ite ((updLane s _ own).trans (inc _ ?_)) (updLane s _ own))
  split <;> simp [laneCounters]

theorem forEach {f : Nat → State → State} {l : List Nat} (hf : ∀ i ∈ l, ∀ t, LaneKept ls t (f i t)) (s : State) :
    LaneKept ls s (s.forEach l f) :=
  State.forEach_holds (P := LaneKept ls s) (fun i hi t kept => kept.trans (hf i hi t)) (refl s)

end State.LaneKept

theorem mem_portLanes (lane : Fin 8) : lane.val ∈ portLanes lane := by revert lane; decide

namespace State.LaneKept

theorem trained (s : State) (lane : Fin 8) : LaneKept (portLanes lane) s (s.trained lane) :=
  .ite (refl s) (.ite (updLane s _ (mem_portLanes lane)) (.ite (forEach (fun _ hi t => updLane t _ hi) s) (refl s)))

/-- What a command answers when it takes hold only on a die that is on. -/
theorem of_whenOn {ls : List Nat} {s t v : State} (h : whenOn s (.next v) = .next t) (kept : LaneKept ls s v) : LaneKept ls s t := by
  unfold whenOn at h
  split at h <;> cases h
  · exact kept
  · exact refl s

variable {s t : State} {lane : Fin 8} {hdr : BitVec 2}

theorem of_laneSignalDetect (h : exec (.laneSignalDetect lane) s = .next t) : LaneKept (portLanes lane) s t :=
  of_whenOn h (.ite (updLane s _ (mem_portLanes lane)) (refl s))

theorem of_blockLock (h : exec (.blockLock lane) s = .next t) : LaneKept (portLanes lane) s t :=
  of_whenOn h (.ite (updLane s _ (mem_portLanes lane)) (refl s))

theorem of_laneBringupTimeout (h : exec (.laneBringupTimeout lane) s = .next t) : LaneKept (portLanes lane) s t := by
  have counted (f : Lane → Lane) : LaneKept (portLanes lane) s ((s.updLane lane f).inc Key.BRINGUP_FAIL) :=
    (updLane s f (mem_portLanes lane)).trans (inc _ (by simp [laneCounters]))
  exact of_whenOn h (.ite (.ite ((counted _).trans (raise _ _ _)) (counted _)) (refl s))

theorem of_laneRetry (h : exec (.laneRetry lane) s = .next t) : LaneKept (portLanes lane) s t :=
  of_whenOn h (.ite (updLane s _ (mem_portLanes lane)) (refl s))

theorem of_train {blk : Block} (h : exec (.train lane hdr blk) s = .next t) : LaneKept (portLanes lane) s t := by
  have own := mem_portLanes lane
  refine of_whenOn h ?_
  split
  · exact updLane s _ own
  · exact updLane s _ own
  · exact .ite (((updLane s _ own).trans (updLane _ _ own)).trans (trained _ lane)) (updLane s _ own)
  · exact updLane s _ own
  · exact updLane s _ own
  · exact updLane s _ own
  · exact refl s

theorem of_eidle (h : exec (.eidle lane) s = .next t) : LaneKept (portLanes lane) s t :=
  of_whenOn h (.ite (updLane s _ (mem_portLanes lane)) (refl s))

theorem of_laneLossOfSignal (h : exec (.laneLossOfSignal lane) s = .next t) : LaneKept (portLanes lane) s t :=
  of_whenOn h (.ite (loseLane s (mem_portLanes lane)) (refl s))

theorem of_invalidSyncHeader {ty : BitVec 8} (h : exec (.invalidSyncHeader lane hdr ty) s = .next t) : LaneKept (portLanes lane) s t := by
  have own := mem_portLanes lane
  have format : Key.PACKET_FORMAT ∈ laneCounters := by simp [laneCounters]
  have kind : Key.KIND_UNKNOWN ∈ laneCounters := by simp [laneCounters]
  exact of_whenOn h (.ite (refl s) (.ite (.ite (loseLane s own) (updLane s _ own))
    (.ite (.ite (.ite (refl s) (inc s format)) (.ite (refl s) (inc s kind))) (refl s))))

end State.LaneKept

end Sys2Proof.Machine

namespace Sys2Proof.Proofs

open Sys2Proof.Machine

/-- Settles O10: one lemma for each state of bring-up. -/
theorem laneBringUp : Obligations.LaneBringUp := fun _ _ on =>
  ⟨exec_laneSignalDetect_down on, exec_blockLock_signal on, fun _ _ _ _ => exec_train_lock on, fun _ _ => exec_train_lock_other on,
    fun _ _ _ _ => exec_train_ready on, fun _ _ => exec_align_first on, fun _ _ => exec_align_again on, fun _ _ => exec_align_image on⟩

/-- Settles O11: a failed bring-up changes its own lane, counts, and raises at the eighth (`exec_laneBringupTimeout_over`). -/
theorem laneTimeoutWaitsAndCounts : Obligations.LaneTimeoutWaitsAndCounts := by
  intro s lane on
  refine ⟨fun n timed => exec_laneBringupTimeout_early on (laneTimeout_of_mem timed), fun n timed late => ?_,
    fun n _ wait => exec_laneSignalDetect_waiting on wait, fun n => exec_laneRetry_over on, fun n => exec_laneRetry_early on⟩
  have lanes (i : Nat) : (s.failLane lane).lane i = (s.updLane lane (Lane.failed s.clk)).lane i := rfl
  have own : (s.failLane lane).lane lane = (s.lane lane).failed s.clk := (lanes lane).trans (State.updLane_lane_self s lane _)
  have count : (s.failLane lane).reg Key.BRINGUP_FAIL = (s.reg Key.BRINGUP_FAIL + 1) % 2 ^ 32 := by
    have width : keyWidth Key.BRINGUP_FAIL = 32 := by decide
    rw [State.failLane, State.updFaults_reg, State.inc_reg_self _ (by rw [width]; decide), width, State.updLane_reg]
  have objects (k : Nat) (other : k ≠ Key.BRINGUP_FAIL) : (s.failLane lane).reg k = s.reg k := by
    rw [State.failLane, State.updFaults_reg, State.inc_reg_ne _ other, State.updLane_reg]
  refine ⟨_, exec_laneBringupTimeout_over on (laneTimeout_of_mem timed) late, ?_, ?_, ?_, count, objects, rfl, rfl, rfl, rfl, rfl,
    fun i other => (lanes i).trans (State.updLane_lane_ne s _ other)⟩
  all_goals
    rw [own]
    rfl

/-- Settles O12: what becomes of an UP and of an idle lane, and the frame of every lane command (`LaneKept`). -/
theorem laneLossIdleAndFastExit : Obligations.LaneLossIdleAndFastExit := by
  refine ⟨fun s lane on => ⟨exec_laneLossOfSignal_up on, exec_eidle_up on, fun _ _ => exec_invalidSyncHeader_few on,
    fun _ _ => exec_invalidSyncHeader_many on, fun _ _ => exec_align_other on, fun _ _ _ => exec_fastExit_intime on,
    fun _ _ _ _ => exec_fastExit_fails on⟩, fun s t lane hdr ty blk run => ?_⟩
  have kept : State.LaneKept (portLanes lane) s t := by
    obtain h | h | h | h | h | h | h | h := run
    · exact .of_laneSignalDetect h
    · exact .of_blockLock h
    · exact .of_laneBringupTimeout h
    · exact .of_laneRetry h
    · exact .of_train h
    · exact .of_eidle h
    · exact .of_laneLossOfSignal h
    · exact .of_invalidSyncHeader h
  exact ⟨kept.reg, kept.mem, kept.tabs, kept.otp, kept.nor, kept.ports, kept.pos, kept.recv, kept.dict, kept.grid, kept.out, kept.lane⟩

end Sys2Proof.Proofs
end

section
/-! Proofs about the chain ports, the probes of the link delay and the forward CYCLE copy (R58-R73, R88-R94). -/

namespace Sys2Proof.Machine

/-! ## Objects -/

/-- An object of at most 72 bits holds the number cut to its width. -/
theorem State.setReg_reg_mod (s : State) {k : Nat} (v : Nat) (width : keyWidth k ≤ 72) : (s.setReg k v).reg k = v % 2 ^ keyWidth k := by
  rw [State.setReg_reg, if_pos rfl]
  exact Nat.mod_eq_of_lt (lt_of_lt_of_le (Nat.mod_lt _ (by positivity)) (Nat.pow_le_pow_right (by decide) width))

/-! ## Own events and the chain record -/

/-- An own event is queued with the next SEQ where fewer than 64 wait (R81). -/
theorem State.event_room {s : State} (room : s.link.events.length < 64) (cls code arg : Nat) : s.event cls code arg = s.updLink fun l => { l with
    txSeq := (l.txSeq + 1) % 2 ^ 16
    events := l.events ++ [⟨l.txSeq, s.ct, s.derived, cls % 256, code % 65536, arg % 2 ^ 32⟩] } :=
  if_pos room

/-- An own event leaves the rest of the chain record alone. -/
theorem State.event_link (s : State) (cls code arg : Nat) : ∃ seq events lost,
    (s.event cls code arg).link = { s.link with txSeq := seq, events := events, eventsLost := lost } := by
  by_cases room : s.link.events.length < 64
  · rw [State.event_room room]
    exact ⟨_, _, _, rfl⟩
  · rw [State.event, if_neg room]
    exact ⟨_, _, _, rfl⟩

section Event

variable (s : State) (cls code arg : Nat)

@[simp] theorem State.event_st : (s.event cls code arg).link.st = s.link.st := by
  obtain ⟨_, _, _, h⟩ := s.event_link cls code arg
  rw [h]

@[simp] theorem State.event_cport (p : ChainPort) : (s.event cls code arg).cport p = s.cport p := by
  obtain ⟨_, _, _, h⟩ := s.event_link cls code arg
  cases p <;> simp only [State.cport, h]

@[simp] theorem State.event_seqHi : (s.event cls code arg).link.seqHi = s.link.seqHi := by
  obtain ⟨_, _, _, h⟩ := s.event_link cls code arg
  rw [h]

@[simp] theorem State.event_seqSeen : (s.event cls code arg).link.seqSeen = s.link.seqSeen := by
  obtain ⟨_, _, _, h⟩ := s.event_link cls code arg
  rw [h]

@[simp] theorem State.event_wrapDue : (s.event cls code arg).link.wrapDue = s.link.wrapDue := by
  obtain ⟨_, _, _, h⟩ := s.event_link cls code arg
  rw [h]

end Event

/-! ## Chain ports (R88-R94) -/

/-- A chain port that comes UP (R47, R92). -/
def PortLink.raised (c : PortLink) : PortLink := { c with up := true, was := true, probedIn := none }

/-- A chain port that goes DOWN loses what waited to be sent on it, and its probes (R88, R92). -/
def PortLink.lowered (c : PortLink) : PortLink := { c with up := false, probes := [], txq := [] }

section Ports

variable {s : State} (on : s.on = true)
include on

/-- The first UP of the U port of a unit with an address attaches it and forgets the SEQ seen (R63, R88). -/
theorem exec_chainPortUp_attach (low : (s.cport .u).up = false) (link : s.linkUp .u = true) (st : s.link.st = .down) (addr : s.addr ≠ 0) :
    exec (.chainPortUp .u) s =
      .next (((s.updCport .u PortLink.raised).updLink fun l => { l.seqClear with st := .attached }).event 0x30 4 0) := by
  have addressed : (s.updCport .u fun c => { c with up := true, was := true, probedIn := none }).addr ≠ 0 := addr
  have down : (s.updCport .u fun c => { c with up := true, was := true, probedIn := none }).link.st = .down := st
  refine (if_pos on).trans (congrArg _ ((if_pos ⟨by simp [low], link⟩).trans ?_))
  simp only [if_neg addressed, down]
  rfl

theorem exec_chainPortUp_d (low : (s.cport .d).up = false) (link : s.linkUp .d = true) : exec (.chainPortUp .d) s =
    .next (if (s.cport .d).was then (s.updCport .d PortLink.raised).event 0x30 1 0 else s.updCport .d PortLink.raised) :=
  (if_pos on).trans (congrArg _ (if_pos ⟨by simp [low], link⟩))

theorem exec_chainPortDown_u (up : (s.cport .u).up = true) (lost : s.linkLost .u = true) {u : State}
    (hu : u = s.updCport .u PortLink.lowered) : exec (.chainPortDown .u) s =
      .next (if u.cutOff ∧ u.link.st ≠ .wrapped then u.detach
        else if u.link.st = .wrapped ∨ u.link.st = .down ∨ u.link.st = .detached then u
        else u.updLink fun l => { l with wrapArmed := true }) := by
  subst hu
  exact (if_pos on).trans (congrArg _ (if_pos ⟨up, lost⟩))

theorem exec_chainPortDown_d (up : (s.cport .d).up = true) (lost : s.linkLost .d = true) {u : State}
    (hu : u = (s.updCport .d PortLink.lowered).event 0x30 0 0) : exec (.chainPortDown .d) s =
      .next (if u.link.st = .wrapped ∧ ¬ u.linkUp .u then u.detach else u) := by
  subst hu
  exact (if_pos on).trans (congrArg _ (if_pos ⟨up, lost⟩))

end Ports

/-- The counter of damaged frames of a chain port (R58, R101). -/
def crcKey : ChainPort → Nat
  | .u => Key.CRC_ERR_U
  | .d => Key.CRC_ERR_D

/-- A frame with no EOF is counted at its port and ended as a stomped one on the other (R58). -/
theorem exec_frameEofTimeout {s : State} {p : ChainPort} (clocked : s.clocked = true) (link : s.linkUp p = true)
    (other : s.linkUp (otherPort p) = true) : exec (.frameEofTimeout p) s = .next ((s.inc (crcKey p)).emit (.stompEnd (otherPort p))) := by
  have stays : (s.inc (crcKey p)).linkUp (otherPort p) = true := other
  exact (if_pos clocked).trans (congrArg _ ((if_pos link).trans (if_pos stays)))

theorem State.detach_reg (s : State) (k : Nat) : s.detach.reg k = s.reg k := rfl

/-! ## Probes (R57, R69, R70) -/

section Probes

variable {s : State} {p : ChainPort} (clocked : s.clocked = true)
include clocked

theorem exec_probeSend_new {phase : Fin 8} (link : s.linkUp p = true) (path : p = .u ∨ s.flag Key.RING_MODE = true)
    (new : (s.cport p).probedIn ≠ some (s.ct / 500)) : exec (.probeSend p phase) s = .next ((s.updCport p fun c => { c with
      probes := (⟨(s.cport p).pseq, s.at8 phase, s.clk⟩ :: c.probes).take 256, pseq := ((s.cport p).pseq + 1) % 256,
      probedIn := some (s.ct / 500) }).emit (.block p (BitVec.ofNat 64 (fld (s.cport p).pseq 8 8 + 0x3C)))) :=
  (if_pos clocked).trans (congrArg _ (if_pos ⟨link, path, new⟩))

/-- Outside a ring the D port sends no probes (R69). -/
theorem exec_probeSend_line {phase : Fin 8} (line : s.flag Key.RING_MODE = false) : exec (.probeSend .d phase) s = .next s := by
  refine (if_pos clocked).trans (congrArg _ (if_neg ?_))
  rintro ⟨-, h | h, -⟩
  · cases h
  · exact Bool.eq_false_iff.1 line h

theorem exec_probe_up {blk : Block} {residence : Nat} (link : s.linkUp p = true) : exec (.probe p blk residence) s =
    .next (s.emit (.block p (BitVec.ofNat 64 (fld residence 24 40 + fld (bits blk.toNat 15 8) 8 8 + 0x5A)))) :=
  (if_pos clocked).trans (congrArg _ (if_pos link))

theorem exec_pret_inTime {blk : Block} {phase : Fin 8} {r : Probe} (link : s.linkUp p = true)
    (found : (s.cport p).probes.find? (fun r => r.pseq == bits blk.toNat 15 8) = some r) (inTime : s.clk ≤ r.sent + 1000) :
    exec (.pret p blk phase) s = .next ((s.updCport p fun c => { c with
      probes := c.probes.erase r
      samples := (((s.at8 phase : Int) - (r.t1 : Int) - (bits blk.toNat 63 40 : Int)) :: c.samples).take 64 }).setDelay p) := by
  refine (if_pos clocked).trans (congrArg _ ?_)
  rw [found]
  exact if_pos ⟨link, inTime⟩

/-- A PRET whose probes are all more than 2 µs old, or that names none, is ignored (R69). -/
theorem exec_pret_ignored {blk : Block} {phase : Fin 8}
    (old : ∀ r ∈ (s.cport p).probes, r.pseq = bits blk.toNat 15 8 → r.sent + 1000 < s.clk) : exec (.pret p blk phase) s = .next s := by
  refine (if_pos clocked).trans (congrArg _ ?_)
  split
  next => rfl
  next r found =>
    have named : r.pseq = bits blk.toNat 15 8 := by simpa using List.find?_some found
    have late : r.sent + 1000 < s.clk := old r (List.mem_of_find?_eq_some found) named
    exact if_neg fun h => absurd h.2 (by omega)

end Probes

/-! ## The forward CYCLE copy (R66-R68, R75, R91) -/

/-- The CYCLE block as it leaves: the delay it has met, one more hop, and the rest as it came (R67, log 34). -/
def cycleOnward (b delay residence : Nat) : Block :=
  BitVec.ofNat 64 (fld (bits b 63 40 + delay + residence) 24 40 + bits b 39 16 * 2 ^ 16 + fld (min 255 (bits b 15 8 + 1)) 8 8 + 0x4B)

/-- A unit that has no time and was told none takes none from a CYCLE (R68, R72). -/
theorem State.takeTime_untold {s : State} (invalid : s.link.ctValid = false) (untold : s.link.timeN = none) (acc cyc phase l : Nat) :
    s.takeTime acc cyc phase l = s := by
  simp [State.takeTime, invalid, untold]

theorem State.geyserCheck_invalid (s : State) (b : Nat) : s.geyserCheck false b = s := if_neg (by simp)

/-- The forward copy at U of a unit that follows it and takes no time from it. -/
theorem exec_cycle_u {s : State} {blk : Block} {phase : Fin 8} {residence : Nat} (clocked : s.clocked = true) (u : s.linkUp .u = true)
    (d : s.linkUp .d = true) (forth : bit blk.toNat 16 = false) (follows : s.activeUp = .u) (invalid : s.link.ctValid = false)
    (untold : s.link.timeN = none) (noBank : bit blk.toNat 19 = false) : exec (.cycle .u blk phase residence) s =
      .next ((((s.emit (.block .d (cycleOnward blk.toNat (s.reg Key.LINK_DELAY_U) residence))).updLink fun k => { k with
        lastFwd := some s.ct, wrapArmed := false }).setReg Key.ACC_DELAY_F (bits blk.toNat 63 40 + s.reg Key.LINK_DELAY_U)).updLink fun k => { k with
        posDue := some (resolveCycle (bits blk.toNat 39 20) (s.ct / 500)) }) := by
  refine (if_pos clocked).trans (congrArg _ ?_)
  have own : ¬ (¬ s.linkUp .u = true ∨ bit blk.toNat 16 ≠ decide (ChainPort.u = .d)) := by simp [u, forth]
  refine (if_neg own).trans ?_
  have onward : s.linkUp (otherPort .u) = true := d
  simp only [onward, follows, noBank, State.geyserCheck_invalid, if_true, untold, Option.getD_none]
  rw [State.takeTime_untold (by exact invalid) (by exact untold)]
  rfl

end Sys2Proof.Machine

namespace Sys2Proof.Proofs

open Sys2Proof.Machine

/-- Settles O13: one lemma for each way in which a port follows its lanes. -/
theorem chainPortsFollowTheirLanes : Obligations.ChainPortsFollowTheirLanes := by
  intro s on
  refine ⟨fun low link st addr => ?_, fun low first link => ?_, fun low again link => ?_, fun u hu up lost => ?_, fun u hu up lost => ?_,
    ⟨rfl, s.detach_reg⟩, fun clocked u d => ⟨exec_frameEofTimeout clocked u d, exec_frameEofTimeout clocked d u⟩⟩
  · refine ⟨_, exec_chainPortUp_attach on low link st addr, ?_, ?_, ?_, ?_, fun k other => ?_, ?_, ?_, ?_, fun room => ?_⟩
    · exact State.event_st _ _ _ _
    · rw [State.event_cport]
      rfl
    · exact State.event_seqHi _ _ _ _
    · exact State.event_seqSeen _ _ _ _
    · rw [State.event_reg_ne _ _ _ _ other]
      rfl
    · rw [State.event_mem]
      rfl
    · rw [State.event_tabs]
      rfl
    · rw [State.event_ports]
      rfl
    · rw [State.event_room (by exact room)]
      exact List.map_append
  · rw [exec_chainPortUp_d on low link, if_neg (by simp [first])]
    rfl
  · rw [exec_chainPortUp_d on low link, if_pos again]
    rfl
  · rw [exec_chainPortDown_u on up lost hu]
    refine ⟨fun cut ring => congrArg _ (if_pos ⟨cut, ring⟩), fun linked st => ?_, fun ring => ?_⟩
    · simp only [List.mem_cons, List.not_mem_nil, or_false] at st
      rw [if_neg (by simp [linked]), if_neg st]
    · rw [if_neg (by simp [ring]), if_pos (.inl ring)]
  · rw [exec_chainPortDown_d on up lost hu]
    refine ⟨fun ring down => congrArg _ (if_pos ⟨ring, by simp [down]⟩), fun stays => congrArg _ (if_neg ?_)⟩
    rintro ⟨ring, down⟩
    obtain other | back := stays
    · exact other ring
    · exact down back

/-- Settles O14: one lemma for each way of a probe and of its return. -/
theorem probesMeasureTheLink : Obligations.ProbesMeasureTheLink := by
  intro s p clocked link
  refine ⟨fun _ => exec_probeSend_new clocked link, fun line _ d => ?_, fun _ _ => exec_probe_up clocked link,
    fun _ _ _ => exec_pret_inTime clocked link, fun _ _ => exec_pret_ignored clocked, if_pos clocked⟩
  subst d
  exact exec_probeSend_line clocked line

/-- Settles O15: `exec_cycle_u` says all that the copy does. -/
theorem forwardCycleIsPassedOn : Obligations.ForwardCycleIsPassedOn := by
  intro s blk phase residence clocked spelt u d attached invalid untold noBank
  have forth : bit blk.toNat 16 = false := by
    simp only [Instr.wf, Bool.and_eq_true, beq_iff_eq] at spelt
    rw [bit, spelt.2]
    rfl
  have follows : s.activeUp = .u := by simp [State.activeUp, attached]
  have width : keyWidth Key.ACC_DELAY_F ≤ 72 := by decide
  refine ⟨_, exec_cycle_u clocked u d forth follows invalid untold noBank, rfl, ?_, fun k other => ?_, rfl, rfl, rfl, rfl, rfl, rfl, rfl⟩
  · rw [State.updLink_reg, State.setReg_reg_mod _ _ width]
  · rw [State.updLink_reg, State.setReg_reg_ne _ _ other]
    rfl

end Sys2Proof.Proofs
end

section
/-! Proofs about frames: what reception checks, what is sent, and what the frames from the Summit do (R58-R64, R81-R99). -/

namespace Sys2Proof.Machine

/-! ## What is sent (R58, R64, R548) -/

/-- A frame that is sent or queued changes the port records and the record of outputs, and nothing else (R64). -/
theorem State.transmit_eq (s : State) (p : ChainPort) (fwd : Bool) (kind : Nat) (f : Frame) :
    ∃ u d out, s.transmit p fwd kind f = { s with link := { s.link with u := u, d := d }, out := out } := by
  unfold State.transmit
  split
  · cases p <;> exact ⟨_, _, _, rfl⟩
  · cases p <;> exact ⟨_, _, _, rfl⟩

theorem State.transmit_link {s t : State} (same : t.link = s.link) (p : ChainPort) (fwd : Bool) (kind : Nat) (f : Frame) :
    ∃ u d, (t.transmit p fwd kind f).link = { s.link with u := u, d := d } := by
  obtain ⟨u, d, out, sent⟩ := t.transmit_eq p fwd kind f
  rw [sent, ← same]
  exact ⟨u, d, rfl⟩

/-- A frame of the unit's own changes no more than its sending. -/
theorem State.sendFrame_eq (s : State) (p : ChainPort) (kind seq dest : Nat) (data : List Block) :
    ∃ u d out, s.sendFrame p kind seq dest data = { s with link := { s.link with u := u, d := d }, out := out } := by
  unfold State.sendFrame
  split
  · exact State.transmit_eq ..
  · exact ⟨_, _, _, rfl⟩

/-- A port that is free, with nothing waiting, sends a frame at once (R64). -/
theorem State.transmit_free {s : State} {p : ChainPort} (free : (s.cport p).busyTo ≤ s.clk) (empty : (s.cport p).txq = []) (fwd : Bool)
    (kind : Nat) (f : Frame) : (s.transmit p fwd kind f).out = .frame p kind f :: s.out := by
  rw [State.transmit, if_pos ⟨free, empty⟩, State.putFrame, State.emit_out, State.updCport_out]

/-- A frame of the unit's own that leaves at once. -/
theorem State.sendFrame_free {s : State} {p : ChainPort} (link : s.linkUp p = true) (free : (s.cport p).busyTo ≤ s.clk)
    (empty : (s.cport p).txq = []) (kind seq dest : Nat) (data : List Block) :
    ∃ r, (s.sendFrame p kind seq dest data).out = .frame p kind r :: s.out ∧ r.src = BitVec.ofNat 8 s.addr ∧ r.data = data := by
  rw [State.sendFrame, if_pos link]
  exact ⟨_, State.transmit_free free empty _ _ _, rfl, rfl⟩

/-- Programmable counters count in objects alone. -/
theorem State.pmc_link (s : State) (ev q n : Nat) : (s.pmc ev q n).link = s.link := by
  unfold State.pmc
  split
  · rfl
  · refine State.foldl_proj (π := State.link) (fun t k => ?_) _ s
    dsimp only
    split <;> rfl

/-- A frame that is passed on changes of the chain record the port records alone. -/
theorem State.forward_link (s : State) (kind : Nat) (f : Frame) (stomp : Bool) :
    ∃ u d, (s.forward kind f stomp).link = { s.link with u := u, d := d } := by
  unfold State.forward
  split
  · exact State.transmit_link (State.pmc_link s _ _ _) _ _ _ _
  · exact ⟨_, _, rfl⟩

/-! ## SEQ of the Summit (R63) -/

/-- A taken SEQ is recorded in the SEQ records alone. -/
theorem Link.seqTake_eq (l : Link) (q : Nat) : ∃ hi seen, l.seqTake q = { l with seqHi := hi, seqSeen := seen } := by
  unfold Link.seqTake
  split
  · exact ⟨_, _, rfl⟩
  · split
    · exact ⟨_, _, rfl⟩
    · exact ⟨_, _, rfl⟩

theorem diff16_self (q : Nat) : diff 16 q q = 0 := by
  have whole : q % 2 ^ 16 + 2 ^ 16 - q % 2 ^ 16 = 2 ^ 16 := by omega
  rw [diff, whole]
  rfl

/-- Whether a SEQ is new depends on the SEQ records alone. -/
theorem Link.seqNew_congr {l k : Link} (hi : k.seqHi = l.seqHi) (seen : k.seqSeen = l.seqSeen) (q : Nat) : k.seqNew q = l.seqNew q := by
  unfold Link.seqNew
  rw [hi, seen]

/-- A SEQ that has been taken is not new: it is the highest, or among those seen. -/
theorem Link.seqNew_seqTake (l : Link) (q : Nat) : (l.seqTake q).seqNew q = false := by
  unfold Link.seqTake
  split
  next => simp [Link.seqNew, diff16_self]
  next h highest =>
    split
    next => simp [Link.seqNew, diff16_self]
    next notAhead => simp [Link.seqNew, highest, notAhead]

/-! ## Reception (R58-R63) -/

/-- A frame that the checks find whole: it stays to be judged by its SEQ (R58-R61). -/
structure State.Whole (s : State) (kind : Nat) (f : Frame) : Prop where
  link : s.linkUp f.port = true
  unstomped : f.stomp = false
  intact : frameDamaged kind f = false
  mode : f.hopmode = true → kind = 0x07
  listed : kindLen kind f.len.toNat = true

section Receive

variable {s u : State} {kind : Nat} {f : Frame} {mine all : Bool}

theorem State.recvCheck_stomped (link : s.linkUp f.port = true) (stomped : f.stomp = true) :
    s.recvCheck kind f = (s.forward kind f true, .pass) := by
  simp [State.recvCheck, link, stomped]

theorem State.recvCheck_damaged (link : s.linkUp f.port = true) (unstomped : f.stomp = false) (damaged : frameDamaged kind f = true) :
    s.recvCheck kind f = ((s.inc (crcKey f.port)).forward kind f true, .pass) := by
  simp only [State.recvCheck, link, unstomped, damaged, not_true_eq_false, if_false, if_true, Bool.false_eq_true]
  rfl

/-- A whole frame in HOPMODE of another kind than ENUM_ASSIGN is passed on and counted nowhere (log 34). -/
theorem State.recvCheck_hopmode (link : s.linkUp f.port = true) (unstomped : f.stomp = false) (intact : frameDamaged kind f = false)
    (hop : f.hopmode = true) (other : kind ≠ 0x07) : s.recvCheck kind f = (s.forward kind f false, .pass) := by
  simp [State.recvCheck, link, unstomped, intact, hop, other]

theorem State.recvCheck_unlisted (link : s.linkUp f.port = true) (unstomped : f.stomp = false) (intact : frameDamaged kind f = false)
    (mode : f.hopmode = true → kind = 0x07) (unlisted : kindLen kind f.len.toNat = false) :
    s.recvCheck kind f = ((s.inc Key.KIND_UNKNOWN).forward kind f false, .pass) := by
  simp [State.recvCheck, link, unstomped, intact, unlisted]
  exact fun hop other => absurd (mode hop) other

theorem State.Whole.recvCheck (h : s.Whole kind f) : s.recvCheck kind f = (s, .intact) := by
  simp [State.recvCheck, h.link, h.unstomped, h.intact, h.listed]
  exact h.mode

/-- A frame that the checks let through leaves the state as it was. -/
theorem State.recvCheck_intact (h : s.recvCheck kind f = (u, .intact)) : u = s := by
  unfold State.recvCheck at h
  repeat' split at h
  all_goals simp only [Prod.mk.injEq, reduceCtorEq, and_false, and_true] at h
  exact h.symm

theorem State.recvSummit_pass (h : s.recvCheck kind f = (u, .pass)) : s.recvSummit kind f mine all = (u, false) := by
  rw [State.recvSummit, h]

/-- The unit after it took the SEQ of a frame; one for every unit is passed on (R62, R63). -/
def State.took (s : State) (kind : Nat) (f : Frame) (mine : Bool) : State :=
  let t := s.updLink fun l => l.seqTake f.seq.toNat
  if mine then t else t.forward kind f false

theorem State.Whole.recvSummit_new (h : s.Whole kind f) (summit : f.origin = true) (named : mine = true ∨ all = true)
    (new : s.link.seqNew f.seq.toNat = true) : s.recvSummit kind f mine all = (s.took kind f mine, true) := by
  rw [State.recvSummit, h.recvCheck]
  dsimp only
  rw [if_neg (by simp [summit, named]), if_neg (by simp [new])]
  rfl

theorem State.Whole.recvSummit_again (h : s.Whole kind f) (summit : f.origin = true) (named : mine = true ∨ all = true)
    (old : s.link.seqNew f.seq.toNat = false) : s.recvSummit kind f mine all = ((s.inc Key.DUP_DISCARD).forward kind f false, false) := by
  rw [State.recvSummit, h.recvCheck]
  dsimp only
  rw [if_neg (by simp [summit, named]), if_pos (by simp [old])]

/-- A frame that the unit acts on has had its SEQ taken. -/
theorem State.recvSummit_taken (h : s.recvSummit kind f mine all = (u, true)) : u = s.took kind f mine := by
  unfold State.recvSummit at h
  split at h
  next => simp at h
  next t intact =>
    cases State.recvCheck_intact intact
    split at h
    next => simp at h
    next =>
      split at h
      next => simp at h
      next => exact (Prod.mk.inj h).1.symm

/-- Taking a SEQ changes of the chain record the SEQ records and the port records alone; the SEQ is no longer new. -/
theorem State.took_link (s : State) (kind : Nat) (f : Frame) (mine : Bool) :
    (∀ i, (s.took kind f mine).lane i = s.lane i) ∧ (s.took kind f mine).link.st = s.link.st ∧
      (s.took kind f mine).link.seqNew f.seq.toNat = false := by
  obtain ⟨hi, seen, taken⟩ := s.link.seqTake_eq f.seq.toNat
  have recorded : (s.updLink fun l => l.seqTake f.seq.toNat).link = { s.link with seqHi := hi, seqSeen := seen } := taken
  have old : ({ s.link with seqHi := hi, seqSeen := seen } : Link).seqNew f.seq.toNat = false := by
    rw [← taken]
    exact s.link.seqNew_seqTake _
  unfold State.took
  dsimp only
  split
  · unfold State.lane
    rw [recorded]
    exact ⟨fun _ => rfl, rfl, old⟩
  · obtain ⟨u, d, sent⟩ := (s.updLink fun l => l.seqTake f.seq.toNat).forward_link kind f false
    unfold State.lane
    rw [sent, recorded]
    exact ⟨fun _ => rfl, rfl, (Link.seqNew_congr rfl rfl _).trans old⟩

theorem State.linkUp_congr (lanes : ∀ i, u.lane i = s.lane i) (p : ChainPort) : u.linkUp p = s.linkUp p := by
  simp only [State.linkUp, lanes]

end Receive

end Sys2Proof.Machine

namespace Sys2Proof.Proofs

open Sys2Proof.Machine

/-- Settles O16: a frame is whole or passed on, and one that has been taken is not new when it comes again. -/
theorem summitFramesAreTakenOnce : Obligations.SummitFramesAreTakenOnce := by
  intro s kind f mine all link
  refine ⟨fun stomped => State.recvSummit_pass (State.recvCheck_stomped link stomped),
    fun unstomped damaged => State.recvSummit_pass (State.recvCheck_damaged link unstomped damaged),
    fun unstomped intact mode => ⟨fun unlisted => State.recvSummit_pass (State.recvCheck_unlisted link unstomped intact mode unlisted),
      fun listed summit named => ?_⟩⟩
  have whole : s.Whole kind f := ⟨link, unstomped, intact, mode, listed⟩
  cases new : s.link.seqNew f.seq.toNat with
  | false => exact ⟨_, whole.recvSummit_again summit named new, fun absurd => nomatch absurd⟩
  | true =>
    obtain ⟨lanes, -, old⟩ := s.took_link kind f mine
    have again : (s.took kind f mine).Whole kind f := ⟨(State.linkUp_congr lanes _).trans link, unstomped, intact, mode, listed⟩
    exact ⟨_, whole.recvSummit_new summit named new, fun _ => again.recvSummit_again summit named old⟩

end Sys2Proof.Proofs
end

section
/-! Proofs about what the frames from the Summit do, and the passage of the others (R61, R68, R85-R99). -/

namespace Sys2Proof.Machine

section Act

variable {s u : State} {f : Frame} (clocked : s.clocked = true)
include clocked

/-! ## Chain time and Geyser (R68, R96, R99) -/

theorem exec_time_taken (taken : s.recvAll 0x03 f = (u, true)) :
    exec (.time f) s = .next (u.updLink fun l => { l with timeN := some (f.payload 0 / 500) }) := by
  refine (if_pos clocked).trans ?_
  rw [taken]

theorem exec_geyser_taken {i : Instr} (taken : s.recvAll 0x04 f = (u, true)) (row : i ∈ [Instr.geyserArm f, .geyserCancel f]) :
    exec i s = .next (u.geyser (f.payload 0) (f.payload 1)) := by
  have run : whenClocked s (.next (s.recvGeyser f)) = .next (u.geyser (f.payload 0) (f.payload 1)) := by
    refine (if_pos clocked).trans ?_
    rw [State.recvGeyser, taken]
  simp only [List.mem_cons, List.not_mem_nil, or_false] at row
  obtain rfl | rfl := row
  · exact run
  · exact run

omit clocked in
/-- A bank whose target has been reached is MISSED, and any other is ARMED (R96). -/
theorem State.geyser_arm {d0 d1 tgt : Nat} (arms : bit d1 60 = false) (target : tgt = if bit d1 61 then d0 % 2 ^ 48 else d0) :
    u.geyser d0 d1 = if u.geyserReached (bit d1 61) tgt then u.updBank (bits d1 63 62) fun k => { k with st := .missed }
      else (u.updBank (bits d1 63 62) fun _ => { st := .armed, byPos := bit d1 61, prev := u.derived, words := [] }).setReg
        (Key.GEYSER_TARGET (bits d1 63 62)) tgt := by
  subst target
  exact if_neg (by simp [arms])

omit clocked in
/-- CANCEL empties an ARMED bank that does not latch on this clock (R99). -/
theorem State.geyser_cancel {d0 d1 : Nat} (cancels : bit d1 60 = true) :
    u.geyser d0 d1 = if (u.bank (bits d1 63 62)).st = .armed ∧ ¬ u.latchDue (bits d1 63 62)
      then u.updBank (bits d1 63 62) fun k => { k with st := .empty } else u :=
  if_pos cancels

/-! ## Enumeration (R85-R87, R89) -/

theorem exec_enumDiscover_taken (up : f.port = .u) (taken : s.recvAll 0x05 f = (u, true)) {hop : Nat} (h : hop = min 255 (f.hops.toNat + 1)) :
    exec (.enumDiscover f) s = .next
      ((if hop = 255 then ((u.setReg Key.CHAIN_HOP hop).updLink fun l => { l with enumerating := true }).setReg Key.CHAIN_ADDR 0
        else (u.setReg Key.CHAIN_HOP hop).updLink fun l => { l with enumerating := true }).sendReport false) := by
  subst h
  refine (if_pos clocked).trans (congrArg _ ((if_neg (by simp [up])).trans ?_))
  rw [taken]

/-- Is an ENUM_ASSIGN for the unit's hop (R86)? -/
def State.assignMine (s : State) (f : Frame) : Bool :=
  f.hopmode && f.dest.toNat == s.reg Key.CHAIN_HOP && decide (s.reg Key.CHAIN_HOP ≠ 0) && decide (s.reg Key.CHAIN_HOP ≠ 255)

/-- The unit with an address of its own, to be stored where the frame says so (R86, R87). -/
def State.addressed (u : State) (f : Frame) : State :=
  let t := u.setReg Key.CHAIN_ADDR (bits (f.payload 1) 63 56)
  if bit (f.payload 1) 55 then t.updLink fun l => { l with sticky := some (bits (f.payload 1) 63 56) } else t

/-- An ENUM_ASSIGN for this hop: another serial or no address does nothing, an armed unit keeps its address, any other takes it (R85-R87). -/
theorem exec_enumAssign_taken (taken : s.recvSummit 0x07 f (s.assignMine f) false = (u, true)) : exec (.enumAssign f) s = .next
    (if f.payload 0 ≠ u.ident.serial ∨ bits (f.payload 1) 63 56 = 0 ∨ bits (f.payload 1) 63 56 = 255 then u
      else if u.armed ∧ bits (f.payload 1) 63 56 ≠ u.addr then u.sendReport false
      else (u.addressed f).sendReport false) := by
  refine (if_pos clocked).trans ?_
  rw [State.assignMine] at taken
  rw [taken]
  rfl

theorem exec_enumAssign_address (taken : s.recvSummit 0x07 f (s.assignMine f) false = (u, true)) (serial : f.payload 0 = u.ident.serial)
    (zero : bits (f.payload 1) 63 56 ≠ 0) (all : bits (f.payload 1) 63 56 ≠ 255)
    (free : u.armed = false ∨ bits (f.payload 1) 63 56 = u.addr) : exec (.enumAssign f) s = .next ((u.addressed f).sendReport false) := by
  rw [exec_enumAssign_taken clocked taken, if_neg (by simp [serial, zero, all])]
  refine congrArg _ (if_neg ?_)
  rintro ⟨armed, other⟩
  obtain quiet | same := free
  · simp [quiet] at armed
  · exact other same

theorem exec_enumDone_taken (taken : s.recvAll 0x08 f = (u, true)) (addr : u.addr ≠ 0) (st : u.link.st = .attached ∨ u.link.st = .active) :
    exec (.enumDone f) s = .next (u.updLink fun l => { l with enumerating := false, st := .enumerated }) := by
  refine (if_pos clocked).trans ?_
  rw [taken]
  simp [State.updLink, addr, st]

/-! ## Ring (R90, R93) -/

theorem exec_ring_taken {i : Instr} (taken : s.recvAll 0x09 f = (u, true)) (row : i ∈ [Instr.ringEnable f, .ringDisable f, .ringRestore f]) :
    exec i s = .next (u.ring (ringOp f) (f.payload 1)) := by
  have run : whenClocked s (.next (s.recvRing f)) = .next (u.ring (ringOp f) (f.payload 1)) := by
    refine (if_pos clocked).trans ?_
    rw [State.recvRing, taken]
  simp only [List.mem_cons, List.not_mem_nil, or_false] at row
  obtain rfl | rfl | rfl := row
  · exact run
  · exact run
  · exact run

/-! ## Frames of other kinds (R58-R62) -/

/-- A frame of a kind that no row of its own acts on passes through. -/
theorem exec_frameForward_other {kind : BitVec 5} (other : ownKind kind.toNat = false) :
    exec (.frameForward kind f) s = .next (s.passFrame kind.toNat f) := by
  have passes : exec (.frameForward kind f) s = whenClocked s (.next (s.passFrame kind.toNat f)) := by
    change execFrameForward kind f s = _
    unfold execFrameForward
    generalize kind.toNat = k at other
    split
    case h_9 => rfl
    all_goals exact absurd other (by decide)
  exact passes.trans (if_pos clocked)

end Act

theorem State.passFrame_pass {s u : State} {kind : Nat} {f : Frame} (h : s.recvCheck kind f = (u, .pass)) : s.passFrame kind f = u := by
  rw [State.passFrame, h]

theorem State.Whole.passFrame {s : State} {kind : Nat} {f : Frame} (h : s.Whole kind f) : s.passFrame kind f = s.forward kind f false := by
  rw [State.passFrame, h.recvCheck]

/-- The kinds that reception would act on are not passed: 0x07 is one of them. -/
theorem ne_enumAssign_of_other {k : Nat} (other : ownKind k = false) : k ≠ 0x07 := by
  rintro rfl
  exact absurd other (by decide)

/-- A whole frame of another kind passes through whole (R61, log 34). -/
theorem State.passFrame_whole {s : State} {kind : Nat} {f : Frame} (link : s.linkUp f.port = true) (other : kind ≠ 0x07)
    (unstomped : f.stomp = false) (intact : frameDamaged kind f = false) (listed : kindLen kind f.len.toNat = true ∨ f.hopmode = true) :
    s.passFrame kind f = s.forward kind f false := by
  cases hop : f.hopmode with
  | true => exact State.passFrame_pass (State.recvCheck_hopmode link unstomped intact hop other)
  | false => exact (⟨link, unstomped, intact, by simp [hop], by simpa [hop] using listed⟩ : s.Whole kind f).passFrame

end Sys2Proof.Machine

namespace Sys2Proof.Proofs

open Sys2Proof.Machine

/-- Settles O17: what each frame does once it is taken, and the passage of the kinds that no row acts on. -/
theorem summitFramesAct : Obligations.SummitFramesAct := by
  refine ⟨fun s u f clocked => ⟨exec_time_taken clocked, ?_, ?_, ?_, ?_, ?_, exec_enumDone_taken clocked, ?_⟩,
    fun s kind f clocked link => ⟨fun other unstomped intact => ⟨fun listed => ?_, fun unlisted plain => ?_⟩,
      rfl, rfl, rfl, rfl, rfl, rfl, rfl⟩⟩
  · rintro i b taken row rfl
    rw [exec_geyser_taken clocked taken row]
    refine ⟨fun arms tgt target => ?_, fun cancels => ?_⟩
    · rw [State.geyser_arm arms target]
      exact ⟨fun reached => congrArg _ (if_pos reached), fun ahead => congrArg _ (if_neg (by simp [ahead]))⟩
    · rw [State.geyser_cancel cancels]
      refine ⟨fun armed stays => congrArg _ (if_pos ⟨armed, by simp [stays]⟩), fun no => congrArg _ (if_neg ?_)⟩
      rintro ⟨armed, stays⟩
      obtain other | latches := no
      · exact other armed
      · exact stays latches
  · intro taken up below
    rw [exec_enumDiscover_taken clocked up taken (hop := f.hops.toNat + 1) (by omega), if_neg (by omega)]
  · intro taken up last
    rw [exec_enumDiscover_taken clocked up taken (hop := 255) (by omega), if_pos rfl]
  · intro down
    exact (if_pos clocked).trans (congrArg _ (if_pos down))
  · intro taken
    refine ⟨fun serial => ?_, fun serial addr armed other => ?_, fun serial addr free => ?_⟩
    · rw [exec_enumAssign_taken clocked taken, if_pos (.inl serial)]
    · simp only [List.mem_cons, List.not_mem_nil, or_false, not_or] at addr
      rw [exec_enumAssign_taken clocked taken, if_neg (by simp [serial, addr]), if_pos ⟨armed, other⟩]
    · simp only [List.mem_cons, List.not_mem_nil, or_false, not_or] at addr
      rw [exec_enumAssign_address clocked taken serial addr.1 addr.2 free]
      refine ⟨fun volatile => ?_, fun sticky => ?_⟩
      · rw [State.addressed, volatile]
        rfl
      · rw [State.addressed, sticky]
        rfl
  · intro i taken row
    rw [exec_ring_taken clocked taken row]
    refine ⟨fun op => ?_, fun op => ?_, fun op => ?_⟩
    · rw [op]
      rfl
    · rw [op]
      rfl
    · rw [op]
      rfl
  · rw [exec_frameForward_other clocked other,
      State.passFrame_whole link (ne_enumAssign_of_other other) unstomped intact listed]
  · rw [exec_frameForward_other clocked other,
      State.passFrame_pass (State.recvCheck_unlisted link unstomped intact (by simp [plain]) unlisted)]

end Sys2Proof.Proofs
end

section
/-! Proofs about addresses and reports, own events, the chain state and the ring (R73, R81-R97, R542). -/

namespace Sys2Proof.Machine

/-! ## Reports (R85, R86) -/

/-- A report takes a SEQ and changes, beside it, no more than its sending. -/
theorem State.sendReport_eq (s : State) (unsolicited : Bool) : ∃ u d seq out,
    s.sendReport unsolicited = { s with link := { s.link with u := u, d := d, txSeq := seq }, out := out } := by
  unfold State.sendReport
  split
  · exact ⟨_, _, _, _, rfl⟩
  · obtain ⟨u, d, out, sent⟩ := s.nextSeq.1.sendFrame_eq s.nextSeq.1.activeUp 0x06 s.nextSeq.2 0 (s.enumReport unsolicited)
    exact ⟨u, d, _, out, sent⟩

/-- Once start-up is complete a report leaves at once where the active upstream port is idle. -/
theorem State.sendReport_free {s : State} (running : s.boot.phase = .running) (link : s.linkUp s.activeUp = true)
    (free : (s.cport s.activeUp).busyTo ≤ s.clk) (empty : (s.cport s.activeUp).txq = []) (unsolicited : Bool) :
    ∃ r, (s.sendReport unsolicited).out = .frame s.activeUp 0x06 r :: s.out ∧ r.src = BitVec.ofNat 8 s.addr := by
  have port (p : ChainPort) : s.nextSeq.1.cport p = s.cport p := by cases p <;> rfl
  have idle : (s.nextSeq.1.cport s.activeUp).busyTo ≤ s.clk ∧ (s.nextSeq.1.cport s.activeUp).txq = [] := by
    rw [port]
    exact ⟨free, empty⟩
  obtain ⟨r, out, src, -⟩ := State.sendFrame_free (s := s.nextSeq.1) link idle.1 idle.2 0x06 s.nextSeq.2 0 (s.enumReport unsolicited)
  refine ⟨r, ?_, src⟩
  rw [State.sendReport, if_neg (by simp [running])]
  exact out

/-! ## The unit with an address of its own (R85-R87) -/

/-- Beside the address, an assignment changes what is to be stored and nothing else. -/
theorem State.addressed_eq (u : State) (f : Frame) : ∃ sticky,
    u.addressed f = (u.setReg Key.CHAIN_ADDR (bits (f.payload 1) 63 56)).updLink fun l => { l with sticky := sticky } := by
  unfold State.addressed
  dsimp only
  split
  · exact ⟨_, rfl⟩
  · exact ⟨u.link.sticky, rfl⟩

theorem State.addressed_addr (u : State) (f : Frame) : (u.addressed f).addr = bits (f.payload 1) 63 56 := by
  obtain ⟨sticky, h⟩ := u.addressed_eq f
  have width : keyWidth Key.CHAIN_ADDR = 8 := by decide
  have byte : bits (f.payload 1) 63 56 < 2 ^ keyWidth Key.CHAIN_ADDR := by
    rw [width]
    exact Nat.mod_lt _ (by decide)
  rw [h]
  exact State.setReg_reg_self u byte (by rw [width]; decide)

theorem State.addressed_reg (u : State) (f : Frame) {k : Nat} (other : k ≠ Key.CHAIN_ADDR) : (u.addressed f).reg k = u.reg k := by
  obtain ⟨sticky, h⟩ := u.addressed_eq f
  rw [h, State.updLink_reg, State.setReg_reg_ne u _ other]

/-! ## Own events (R81, R88) -/

section Clocked

variable {s : State} (clocked : s.clocked = true)
include clocked

theorem exec_eventSend_ready {e : Event} {es : List Event} (oldest : s.link.events = e :: es) (allowed : 16 ≤ s.link.tok16)
    (here : s.link.st ≠ .down) (there : s.link.st ≠ .detached) : exec .eventSend s =
      .next (((s.updLink fun l => { l with events := es, tok16 := l.tok16 - 16 }).sendFrame .u 0x02 e.seq 0 (eventBlocks e)).sendFrame .d
        0x02 e.seq 0 (eventBlocks e)) := by
  have ready : s.eventReady = true := by simp [State.eventReady, oldest, allowed, here, there]
  refine (if_pos clocked).trans (congrArg _ ((if_pos ready).trans ?_))
  rw [oldest]

theorem exec_eventSend_held (spent : s.link.tok16 < 16) : exec .eventSend s = .next s := by
  have waits : ¬ s.eventReady = true := by simp [State.eventReady, spent]
  exact (if_pos clocked).trans (congrArg _ (if_neg waits))

/-- A sticky address is stored where Caldera runs (R87). -/
theorem exec_stickyStore {a : Nat} (sticky : s.link.sticky = some a) : exec .stickyStore s =
    .next (if s.calderaUp then (s.updLink fun l => { l with sticky := none }).storeSticky a else s) := by
  refine (if_pos (State.on_of_clocked clocked)).trans ?_
  rw [sticky]

/-! ## The ring (R91, R93) -/

theorem exec_forwardCycleTimeout_recent {t : Nat} (last : s.link.lastFwd = some t) (recent : s.ct < t + 1600) :
    exec .forwardCycleTimeout s = .next s := by
  refine (if_pos clocked).trans (congrArg _ (if_neg ?_))
  rintro ⟨-, -, -, late, -⟩
  rw [last] at late
  exact absurd (of_decide_eq_true late) (by omega)

theorem exec_forwardCycleTimeout_late (ring : s.flag Key.RING_MODE = true) (other : s.link.st ≠ .wrapped) (here : s.link.st ≠ .down)
    (late : ∀ t, s.link.lastFwd = some t → t + 1600 ≤ s.ct) (back : s.revArriving = true) :
    exec .forwardCycleTimeout s = .next (s.updLink fun l => { l with wrapArmed := true }) := by
  refine (if_pos clocked).trans (congrArg _ (if_pos ⟨ring, other, here, ?_, back⟩))
  split
  next => rfl
  next t last => exact decide_eq_true (late t last)

/-- The unit that turns to its D port, with the SEQ records of a detached one emptied (R63, R91). -/
def Link.wrapped (l : Link) : Link := { (if l.st = .detached then l.seqClear else l) with st := .wrapped, wrapDue := false, wrapArmed := false }

theorem exec_wrap_due (due : s.link.wrapDue = true) (ring : s.flag Key.RING_MODE = true) (other : s.link.st ≠ .wrapped) :
    exec .wrap s = .next (((s.updLink Link.wrapped).event 0x30 2 0).inc Key.WRAP_COUNT) :=
  (if_pos clocked).trans (congrArg _ (if_pos ⟨due, ring, other⟩))

theorem exec_wrap_not (no : s.link.wrapDue = false ∨ s.flag Key.RING_MODE = false ∨ s.link.st = .wrapped) :
    exec .wrap s = .next (s.updLink fun l => { l with wrapDue := false }) := by
  refine (if_pos clocked).trans (congrArg _ (if_neg ?_))
  rintro ⟨due, ring, other⟩
  obtain h | h | h := no
  · simp [h] at due
  · simp [h] at ring
  · exact other h

theorem exec_restoreSwitch_before {t : Nat} (set_ : s.link.switchCt = some t) (early : s.ct < t) : exec .restoreSwitch s = .next s := by
  refine (if_pos (State.on_of_clocked clocked)).trans ?_
  rw [set_]
  exact congrArg _ (if_pos early)

/-- At SWITCH_CT a wrapped unit returns where its U port is UP (R93, log 34). -/
theorem exec_restoreSwitch_due {t : Nat} (set_ : s.link.switchCt = some t) (due : t ≤ s.ct) : exec .restoreSwitch s =
    .next (if s.link.st = .wrapped ∧ s.linkUp .u then ((s.updLink fun l => { l with switchCt := none }).updLink fun l =>
        { l with st := if s.addr = 0 then .attached else .active }).event 0x30 3 0
      else s.updLink fun l => { l with switchCt := none }) := by
  refine (if_pos (State.on_of_clocked clocked)).trans ?_
  rw [set_]
  exact congrArg _ (if_neg (by omega))

end Clocked

end Sys2Proof.Machine

namespace Sys2Proof.Proofs

open Sys2Proof.Machine

/-- Settles O18: the frame that assigns takes its SEQ (`recvSummit_taken`), the address is set, and the report leaves (`sendReport_free`). -/
theorem addressAndReports : Obligations.AddressAndReports := by
  refine ⟨fun s u f clocked hop0 hop255 mode dest taken serial addr0 addr255 quiet running => ?_, fun s clocked => ?_⟩
  · have mine : s.assignMine f = true := by simp [State.assignMine, mode, dest, hop0, hop255]
    have took : u = s.updLink fun l => l.seqTake f.seq.toNat := State.recvSummit_taken taken
    obtain ⟨hi, seen, recorded⟩ := s.link.seqTake_eq f.seq.toNat
    have link : u.link = { s.link with seqHi := hi, seqSeen := seen } := by
      rw [took]
      exact recorded
    have run : exec (.enumAssign f) s = .next ((u.addressed f).sendReport false) :=
      exec_enumAssign_address clocked (by rw [mine]; exact taken) (by rw [took]; exact serial) addr0 addr255 (.inl (by rw [took]; exact quiet))
    obtain ⟨ru, rd, seq, out, sent⟩ := (u.addressed f).sendReport_eq false
    obtain ⟨sticky, put⟩ := u.addressed_eq f
    have objects (k : Nat) : ((u.addressed f).sendReport false).reg k = (u.addressed f).reg k := by
      rw [sent]
      rfl
    refine ⟨_, run, (objects _).trans (u.addressed_addr f), fun k other => (objects k).trans (u.addressed_reg f other), ?_, ?_, ?_, ?_,
      fun up free empty => ?_⟩
    · rw [sent, put, took]
      rfl
    · rw [sent, put, took]
      rfl
    · rw [sent, put, took]
      rfl
    · rw [sent, put, took]
      rfl
    · have active : (u.addressed f).activeUp = s.activeUp := by
        rw [put, State.activeUp, State.activeUp, State.updLink_link, State.setReg_link, link]
      have lanes (i : Nat) : (u.addressed f).lane i = s.lane i := by
        rw [put, State.lane, State.updLink_link, State.setReg_link, link]
        rfl
      have port (p : ChainPort) : (u.addressed f).cport p = u.cport p := by
        rw [put]
        cases p <;> rfl
      have clk : (u.addressed f).clk = u.clk := by
        rw [put]
        rfl
      obtain ⟨r, leaves, src⟩ := State.sendReport_free (s := u.addressed f) (by rw [put, took]; exact running)
        (by rw [active, State.linkUp_congr lanes]; exact up) (by rw [active, port, clk]; exact free)
        (by rw [active, port]; exact empty) false
      refine ⟨r, ?_, ?_⟩
      · rw [leaves, active, put]
        rfl
      · rw [src, u.addressed_addr f]
        exact Nat.mod_eq_of_lt (Nat.mod_lt _ (by decide))
  · refine ⟨fun e es => exec_eventSend_ready clocked, exec_eventSend_held clocked, fun lost room => ?_,
      fun due addr valid still running => ?_, fun none_ => ?_, fun a sticky up => ?_, fun a sticky down => ?_, fun b due => ?_, fun b not_ => ?_⟩
    · exact (if_pos clocked).trans (congrArg _ (if_pos ⟨lost, room⟩))
    · exact (if_pos clocked).trans (congrArg _ (if_pos ⟨due, addr, valid, by simp [still], running⟩))
    · exact (if_pos clocked).trans (congrArg _ (if_neg (by simp [none_])))
    · exact (exec_stickyStore clocked sticky).trans (congrArg _ (if_pos up))
    · exact (exec_stickyStore clocked sticky).trans (congrArg _ (if_neg (by simp [down])))
    · exact (if_pos clocked).trans (congrArg _ (if_pos due))
    · exact (if_pos clocked).trans (congrArg _ (if_neg (by simp [not_])))

/-- Settles O19: one lemma for each instant of the chain state and of the ring. -/
theorem chainStateAndRing : Obligations.ChainStateAndRing := by
  refine ⟨fun s clocked => ⟨fun st addr aligned => ?_, fun few => ?_, fun many judged => ?_, fun waking => ?_⟩, fun s clocked =>
    ⟨exec_forwardCycleTimeout_late clocked, fun t => exec_forwardCycleTimeout_recent clocked, fun due ring other => ?_,
      exec_wrap_not clocked, fun t at_ due st up addr => ?_, fun t at_ due no => ?_, fun t => exec_restoreSwitch_before clocked⟩⟩
  · exact (if_pos clocked).trans (congrArg _ (if_pos ⟨st, addr, aligned⟩))
  · exact (if_pos clocked).trans (congrArg _ (if_neg (by rintro ⟨-, -, many⟩; omega)))
  · exact (if_pos clocked).trans (congrArg _ (if_pos ⟨many, judged⟩))
  · exact (if_pos clocked).trans (congrArg _ (if_neg (by rintro ⟨-, judged⟩; omega)))
  · have width : keyWidth Key.WRAP_COUNT ≤ 72 := by decide
    have st : (((s.updLink Link.wrapped).event 0x30 2 0).inc Key.WRAP_COUNT).link.st = .wrapped := State.event_st (s.updLink Link.wrapped) _ _ _
    refine ⟨_, exec_wrap_due clocked due ring other, st, if_pos st, State.event_wrapDue (s.updLink Link.wrapped) _ _ _, ?_,
      fun k count lost => ?_, ?_, ?_, ?_⟩
    · rw [State.inc_reg_self _ width, State.event_reg_ne _ _ _ _ (by decide), State.updLink_reg]
    · rw [State.inc_reg_ne _ count, State.event_reg_ne _ _ _ _ lost, State.updLink_reg]
    · simp
    · simp
    · simp
  · rw [exec_restoreSwitch_due clocked at_ due, if_pos ⟨st, up⟩, if_neg addr]
    rfl
  · rw [exec_restoreSwitch_due clocked at_ due, if_neg]
    rintro ⟨st, up⟩
    obtain other | down := no
    · exact other st
    · simp [down] at up

end Sys2Proof.Proofs
end

section
/-! Proofs about a READ and its answer (R64, R107, R109, R116). -/

namespace Sys2Proof.Machine

/-! ## The counts of an answer (R144, R548, R549) -/

/-- From `s` to `t` nothing has changed but the counts of answers and programmable events, and the records that wait for trace. -/
structure State.BookKept (s t : State) : Prop where
  reg : ∀ k, k ∉ bookKeys → t.reg k = s.reg k
  link : t.link = s.link
  out : t.out = s.out
  clk : t.clk = s.clk
  mem : t.mem = s.mem
  tabs : t.tabs = s.tabs
  dict : t.dict = s.dict
  ports : t.ports = s.ports
  otp : t.otp = s.otp
  pos : t.pos = s.pos
  grid : t.grid = s.grid
  faults : t.faults = s.faults

namespace State.BookKept

variable {s t u : State}

theorem refl (s : State) : s.BookKept s := ⟨fun _ _ => rfl, rfl, rfl, rfl, rfl, rfl, rfl, rfl, rfl, rfl, rfl, rfl⟩

theorem trans (h : s.BookKept t) (g : t.BookKept u) : s.BookKept u where
  reg k other := (g.reg k other).trans (h.reg k other)
  link := g.link.trans h.link
  out := g.out.trans h.out
  clk := g.clk.trans h.clk
  mem := g.mem.trans h.mem
  tabs := g.tabs.trans h.tabs
  dict := g.dict.trans h.dict
  ports := g.ports.trans h.ports
  otp := g.otp.trans h.otp
  pos := g.pos.trans h.pos
  grid := g.grid.trans h.grid
  faults := g.faults.trans h.faults

theorem ite {c : Prop} {_ : Decidable c} (ht : s.BookKept t) (hu : s.BookKept u) : s.BookKept (if c then t else u) := by
  split
  · exact ht
  · exact hu

theorem addReg (s : State) {k : Nat} (n : Nat) (book : k ∈ bookKeys) : s.BookKept (s.addReg k n) :=
  ⟨fun _ other => State.addReg_reg_ne s n (ne_of_mem_of_not_mem book other).symm, rfl, rfl, rfl, rfl, rfl, rfl, rfl, rfl, rfl, rfl, rfl⟩

theorem forEach {f : Nat → State → State} {l : List Nat} (hf : ∀ i ∈ l, ∀ t, State.BookKept t (f i t)) (s : State) :
    s.BookKept (s.forEach l f) :=
  State.forEach_holds (P := s.BookKept) (fun i hi t kept => kept.trans (hf i hi t)) (refl s)

theorem pmc (s : State) (ev q n : Nat) : s.BookKept (s.pmc ev q n) := by
  refine .ite (refl s) (forEach (fun k counter t => .ite (addReg t n ?_) (refl t)) s)
  exact List.mem_append_right _ (List.mem_map_of_mem counter)

theorem traceRec (s : State) (kind data : Nat) : s.BookKept (s.traceRec kind data) :=
  .ite ⟨fun _ _ => rfl, rfl, rfl, rfl, rfl, rfl, rfl, rfl, rfl, rfl, rfl, rfl⟩ (refl s)

theorem countAnswer (s : State) (q : Req) (st : Nat) : s.BookKept (s.countAnswer q st) := by
  unfold State.countAnswer
  extract_lets s1 s2 s3
  have counted : s.BookKept s1 := addReg s 1 (by simp [bookKeys])
  have judged : s1.BookKept s2 := .ite (refl s1) (addReg s1 1 (by simp [bookKeys]))
  have busy : s2.BookKept s3 := .ite (addReg s2 1 (by simp [bookKeys])) (refl s2)
  exact ((counted.trans judged).trans busy).trans ((pmc s3 0x06 0 1).trans (traceRec _ 0x05 _))

end State.BookKept

/-! ## The answer (R116) -/

/-- Beside its counts an answer takes a SEQ and is sent, and changes nothing else. -/
theorem State.answer_eq (s : State) (q : Req) (p : Reply) (acc : Nat) : ∃ t link out,
    s.BookKept t ∧ s.answer q p acc = { t with link := link, out := out } := by
  have kept : s.BookKept (s.countAnswer q p.status) := .countAnswer s q p.status
  unfold State.answer
  generalize s.countAnswer q p.status = c at kept
  obtain ⟨u, d, out, sent⟩ := c.nextSeq.1.sendFrame_eq c.nextSeq.1.activeUp 0x0B c.nextSeq.2 0
    (BitVec.ofNat 64 (drspD0 q p) :: BitVec.ofNat 64 acc :: p.data)
  exact ⟨c, _, out, kept, sent⟩

/-- An answer leaves at once where the active upstream port is idle and no frame waits for it (R64, R116). -/
theorem State.answer_free {s : State} (link : s.linkUp s.activeUp = true) (free : (s.cport s.activeUp).busyTo ≤ s.clk)
    (empty : (s.cport s.activeUp).txq = []) (q : Req) (p : Reply) (acc : Nat) : ∃ f, (s.answer q p acc).out = .frame s.activeUp 0x0B f :: s.out ∧
      f.data = BitVec.ofNat 64 (drspD0 q p) :: BitVec.ofNat 64 acc :: p.data := by
  have kept : s.BookKept (s.countAnswer q p.status) := .countAnswer s q p.status
  unfold State.answer
  generalize s.countAnswer q p.status = c at kept
  have chain : c.nextSeq.1.link = { s.link with txSeq := (s.link.txSeq + 1) % 2 ^ 16 } := by
    rw [← kept.link]
    rfl
  have active : c.nextSeq.1.activeUp = s.activeUp := by rw [State.activeUp, State.activeUp, chain]
  have port (b : ChainPort) : c.nextSeq.1.cport b = s.cport b := by cases b <;> rw [State.cport, State.cport, chain]
  have lanes (i : Nat) : c.nextSeq.1.lane i = s.lane i := by rw [State.lane, State.lane, chain]
  have clk : c.nextSeq.1.clk = s.clk := kept.clk
  have out : c.nextSeq.1.out = s.out := kept.out
  obtain ⟨f, leaves, -, data⟩ := State.sendFrame_free (s := c.nextSeq.1) (p := s.activeUp) (by rw [State.linkUp_congr lanes]; exact link)
    (by rw [port, clk]; exact free) (by rw [port]; exact empty) 0x0B c.nextSeq.2 0
    (BitVec.ofNat 64 (drspD0 q p) :: BitVec.ofNat 64 acc :: p.data)
  dsimp only
  rw [active, leaves, out]
  exact ⟨f, rfl, data⟩

/-! ## A READ (R107, R109) -/

/-- The value that a READ gives: the one in force, or with SHADOW the pending one (R109). -/
def State.readOf (t : State) (r : Dreq) (key : Nat) : Nat := if r.shadow then t.pendOr key else t.objValue key

/-- An accepted READ of one object that the unit holds itself is its answer, and no more. -/
theorem State.Accepts.read {s t : State} {r : Dreq} {index sub : Nat} {o : Obj} (h : s.Accepts ⟨r, .read, index, sub⟩ t)
    (one : r.count.toNat ≤ 1) (word : index * 256 + sub ≠ Key.WORD_DATA) (here : t.object (index * 256 + sub) = some o) (unit : o.fw = false) :
    s.dreq ⟨r, .read, index, sub⟩ false = t.answer ⟨r, .read, index, sub⟩
      ⟨St.OK, false, false, valueBlocks o.ty (t.readOf r (index * 256 + sub))⟩ t.ct := by
  set q : Req := ⟨r, .read, index, sub⟩
  obtain ⟨spelled, found⟩ := h.checked rfl
  have n : q.n = 1 := by simp [q, Req.n, one]
  have key : q.key = index * 256 + sub := rfl
  have within : sub < 256 := by
    by_contra beyond
    simp [State.named, n, q, beyond] at found
  have named : t.named q = [some o] := by simp [State.named, n, key, here, q, within]
  have own : t.fwNamed q = false := by simp [State.fwNamed, State.objects, named, unit]
  have value : State.readValue q (t, []) 0 = (t, valueBlocks o.ty (t.readOf r (index * 256 + sub))) := by
    simp [State.readValue, key, word, here, State.readOf, q]
  have performed : t.perform q = (t, ⟨St.OK, false, false, valueBlocks o.ty (t.readOf r (index * 256 + sub))⟩) := by
    change t.doRead q = _
    simp [State.doRead, n, value]
  have plain : q.r.sealed = false := Req.unsealed_of_step1 spelled rfl
  rw [h.performed (.inl own), performed, plain]
  simp [State.conclude, State.finish, h.single, q, Op.grouped]

end Sys2Proof.Machine

namespace Sys2Proof.Proofs

open Sys2Proof.Machine

/-- Settles O28: an accepted READ is its answer (`Accepts.read`), which changes the counts alone (`answer_eq`). -/
theorem readAnswersAndChangesNothing : Obligations.ReadAnswersAndChangesNothing := by
  intro s t r index sub o one word accepts here unit
  have run : exec (.read r index sub) s = .next (s.dreq ⟨r, .read, index.toNat, sub.toNat⟩ false) := exec_request rfl accepts.clocked
  rw [accepts.read one word here unit] at run
  refine ⟨_, run, fun link free empty => State.answer_free link free empty _ _ _, ?_⟩
  obtain ⟨u, link, out, kept, sent⟩ := t.answer_eq ⟨r, .read, index.toNat, sub.toNat⟩
    ⟨St.OK, false, false, valueBlocks o.ty (t.readOf r (index.toNat * 256 + sub.toNat))⟩ t.ct
  rw [sent]
  exact ⟨kept.reg, kept.mem, kept.tabs, kept.dict, kept.ports, kept.otp, kept.pos, kept.grid, kept.faults⟩

end Sys2Proof.Proofs
end

section
/-! Proofs about block resets: when they take hold, and what they discard and keep (R63, R470, R488, R562-R564). -/

namespace Sys2Proof.Machine

/-! ## When a reset takes hold (R488, R562, R564) -/

section Asked

variable {s : State} {src b : Nat} (on : s.on = true) (hb : b = blockOf src)
include on hb

theorem exec_blockReset_waiting (waits : s.boot.blocks.contains b = true) :
    exec (.blockReset src) s = .next (if s.armed then s else (s.resetMet b).resetBlock b) := by
  subst hb
  exact (if_pos on).trans (congrArg _ (if_pos waits))

theorem exec_blockReset_unasked (fresh : s.boot.blocks.contains b = false) (unasked : s.blockAsked b = false) :
    exec (.blockReset src) s = .next s := by
  subst hb
  exact (if_pos on).trans (congrArg _ ((if_neg (by simp only [fresh, Bool.false_eq_true, not_false_eq_true])).trans (if_pos (by simp [unasked]))))

/-- One that cuts first sets the fire inhibit, armed ports or not (log 60). -/
theorem exec_blockReset_asked (fresh : s.boot.blocks.contains b = false) (asked : s.blockAsked b = true) {u : State}
    (hu : u = if cutsFirst b then s.fireInhibit else s) : exec (.blockReset src) s =
      .next (if cutsFirst b ∧ u.armed then (u.resetMet b).updBoot fun x => { x with blocks := b :: x.blocks }
        else (u.resetMet b).resetBlock b) := by
  subst hb hu
  exact (if_pos on).trans (congrArg _ ((if_neg (by simp only [fresh, Bool.false_eq_true, not_false_eq_true])).trans (if_neg (by simp [asked]))))

end Asked

/-! ## The Dictionary Server (R563) -/

/-- The session that is an entry of a discarded group ends. -/
def State.endEntry (st : SessSt) (s : State) : Entry → State
  | .session k => s.updSess k fun x => { x with st := st }
  | .write _ _ => s

/-- The sessions of a discarded group end, and no more changes. -/
theorem State.endEntries_eq (st : SessSt) (l : List Entry) (s : State) :
    ∃ sessions, l.foldl (State.endEntry st) s = { s with dict := { s.dict with sessions := sessions } } := by
  induction l generalizing s with
  | nil => exact ⟨_, rfl⟩
  | cons e l ih =>
    cases e with
    | session k =>
      obtain ⟨sessions, rest⟩ := ih (s.updSess k fun x => { x with st := st })
      exact ⟨sessions, rest⟩
    | write key val => exact ih s

theorem State.discardGroup_eq (s : State) (g : Nat) (st : SessSt) : ∃ sessions, s.discardGroup g st =
    ({ s with dict := { s.dict with sessions := sessions } } : State).updGroup g fun r => { r with st := .discarded, entries := [] } := by
  obtain ⟨sessions, ended⟩ := State.endEntries_eq st (s.group g).entries s
  exact ⟨sessions, congrArg (State.updGroup · g fun r => { r with st := .discarded, entries := [] }) ended⟩

/-- An OPEN or POISONED group is discarded and counted. -/
def State.dropGroup (g : Nat) (s : State) : State :=
  if (s.group g).st = .opened ∨ (s.group g).st = .poisoned then (s.discardGroup g .failed).inc Key.GROUP_EXPIRED else s

/-- An open session ends and is counted. -/
def State.dropSession (k : Nat) (s : State) : State :=
  if (s.sess k).st = .opened then (s.updSess k (fun x => { x with st := .failed })).inc Key.SESSION_EXPIRED else s

/-- The Dictionary Server with its queues empty. -/
def State.emptyQueues (s : State) : State := { s with dict := { s.dict with fw := [], wordWait := [] } }

theorem State.resetDict_eq (s : State) :
    s.resetDict = (s.emptyQueues.forEach ((List.range 15).map (· + 1)) State.dropGroup).forEach (List.range 4) State.dropSession := rfl

section Drop

variable (t : State)

/-- A group that is neither OPEN nor POISONED stays. -/
theorem State.dropGroup_stays {g : Nat} (h : (t.group g).st ≠ .opened ∧ (t.group g).st ≠ .poisoned) : t.dropGroup g = t :=
  if_neg (by tauto)

theorem State.dropGroup_group_self (g : Nat) : ((t.dropGroup g).group g).st ≠ .opened ∧ ((t.dropGroup g).group g).st ≠ .poisoned := by
  unfold State.dropGroup
  split
  next =>
    obtain ⟨sessions, h⟩ := t.discardGroup_eq g .failed
    have done : (((t.discardGroup g .failed).inc Key.GROUP_EXPIRED).group g).st = .discarded := by
      rw [h]
      exact congrArg Group.st (State.updGroup_group_self _ _ _)
    rw [done]
    exact ⟨by decide, by decide⟩
  next no => exact not_or.1 no

theorem State.dropGroup_group_ne {g j : Nat} (other : j ≠ g) : (t.dropGroup g).group j = t.group j := by
  unfold State.dropGroup
  split
  · obtain ⟨sessions, h⟩ := t.discardGroup_eq g .failed
    rw [h]
    exact State.updGroup_group_ne _ _ other
  · rfl

theorem State.dropGroup_queues (g : Nat) : (t.dropGroup g).dict.fw = t.dict.fw ∧ (t.dropGroup g).dict.wordWait = t.dict.wordWait := by
  unfold State.dropGroup
  split
  · obtain ⟨sessions, h⟩ := t.discardGroup_eq g .failed
    rw [h]
    exact ⟨rfl, rfl⟩
  · exact ⟨rfl, rfl⟩

theorem State.dropGroup_reg (g : Nat) {k : Nat} (other : k ≠ Key.GROUP_EXPIRED) : (t.dropGroup g).reg k = t.reg k := by
  unfold State.dropGroup
  split
  · obtain ⟨sessions, h⟩ := t.discardGroup_eq g .failed
    rw [State.inc_reg_ne _ other, h]
    rfl
  · rfl

theorem State.dropSession_group (k g : Nat) : (t.dropSession k).group g = t.group g := by
  unfold State.dropSession
  split <;> rfl

theorem State.dropSession_queues (k : Nat) : (t.dropSession k).dict.fw = t.dict.fw ∧ (t.dropSession k).dict.wordWait = t.dict.wordWait := by
  unfold State.dropSession
  split <;> exact ⟨rfl, rfl⟩

theorem State.dropSession_reg (j : Nat) {k : Nat} (other : k ≠ Key.SESSION_EXPIRED) : (t.dropSession j).reg k = t.reg k := by
  unfold State.dropSession
  split
  · exact State.inc_reg_ne _ other
  · rfl

theorem State.dropSession_sess_self (k : Nat) : ((t.dropSession k).sess k).st ≠ .opened := by
  unfold State.dropSession
  split
  next =>
    have done : (((t.updSess k fun x => { x with st := .failed }).inc Key.SESSION_EXPIRED).sess k).st = .failed :=
      congrArg Session.st (State.updSess_sess_self _ _ _)
    rw [done]
    decide
  next no => exact no

theorem State.dropSession_sess_ne {k j : Nat} (other : j ≠ k) : (t.dropSession k).sess j = t.sess j := by
  unfold State.dropSession
  split
  · exact State.updSess_sess_ne _ _ other
  · rfl

end Drop

section Dict

variable (s : State)

theorem State.resetDict_queues : s.resetDict.dict.fw = [] ∧ s.resetDict.dict.wordWait = [] := by
  rw [State.resetDict_eq]
  refine State.forEach_holds (P := fun t => t.dict.fw = [] ∧ t.dict.wordWait = []) (fun k _ t empty => ?_)
    (State.forEach_holds (P := fun t => t.dict.fw = [] ∧ t.dict.wordWait = []) (fun g _ t empty => ?_) ⟨rfl, rfl⟩)
  · rw [(t.dropSession_queues k).1, (t.dropSession_queues k).2]
    exact empty
  · rw [(t.dropGroup_queues g).1, (t.dropGroup_queues g).2]
    exact empty

theorem State.resetDict_reg {k : Nat} (group : k ≠ Key.GROUP_EXPIRED) (session : k ≠ Key.SESSION_EXPIRED) : s.resetDict.reg k = s.reg k := by
  rw [State.resetDict_eq]
  exact State.forEach_holds (P := fun t => t.reg k = s.reg k) (fun j _ t same => (t.dropSession_reg j session).trans same)
    (State.forEach_holds (P := fun t => t.reg k = s.reg k) (fun g _ t same => (t.dropGroup_reg g group).trans same) rfl)

theorem State.resetDict_group (g : Nat) :
    s.resetDict.group g = (s.emptyQueues.forEach ((List.range 15).map (· + 1)) State.dropGroup).group g := by
  rw [State.resetDict_eq]
  exact State.forEach_holds (P := fun t => t.group g = _) (fun k _ t same => (t.dropSession_group k g).trans same) rfl

theorem State.resetDict_noneOpen {g : Nat} (lo : 1 ≤ g) (hi : g < 16) :
    (s.resetDict.group g).st ≠ .opened ∧ (s.resetDict.group g).st ≠ .poisoned := by
  have listed : g ∈ (List.range 15).map (· + 1) := List.mem_map.2 ⟨g - 1, List.mem_range.2 (by omega), by omega⟩
  rw [State.resetDict_group]
  refine State.forEach_settles (Q := fun _ => True) (R := fun t => (t.group g).st ≠ .opened ∧ (t.group g).st ≠ .poisoned)
    (by decide) listed (fun _ _ _ _ => trivial) (fun t _ => t.dropGroup_group_self g) (fun j other t closed => ?_) trivial
  rw [t.dropGroup_group_ne (Ne.symm other)]
  exact closed

/-- A CLOSED group is kept (R563). -/
theorem State.resetDict_closed {g : Nat} (closed : (s.group g).st = .closed) : s.resetDict.group g = s.group g := by
  rw [State.resetDict_group]
  refine State.forEach_holds (P := fun t => t.group g = s.group g) (fun j _ t same => ?_) rfl
  by_cases own : g = j
  · subst own
    rw [t.dropGroup_stays (by simp [same, closed])]
    exact same
  · exact (t.dropGroup_group_ne own).trans same

theorem State.resetDict_sess {k : Nat} (hi : k < 4) : (s.resetDict.sess k).st ≠ .opened := by
  rw [State.resetDict_eq]
  refine State.forEach_settles (Q := fun _ => True) (R := fun t => (t.sess k).st ≠ .opened) (by decide) (List.mem_range.2 hi)
    (fun _ _ _ _ => trivial) (fun t _ => t.dropSession_sess_self k) (fun j other t ended => ?_) trivial
  rw [t.dropSession_sess_ne (Ne.symm other)]
  exact ended

end Dict

/-! ## Chain ports and Position Base (R63, R563) -/

theorem State.updCport_seqs (s : State) (p : ChainPort) (f : PortLink → PortLink) : (s.updCport p f).link.seqHi = s.link.seqHi ∧
    (s.updCport p f).link.seqSeen = s.link.seqSeen ∧ (s.updCport p f).link.posSeq = s.link.posSeq := by
  cases p <;> exact ⟨rfl, rfl, rfl⟩

/-- The SEQ records of a reset chain side are empty (R63). -/
theorem State.resetPorts_seqs (s : State) : s.resetPorts.link.seqHi = none ∧ s.resetPorts.link.seqSeen = [] ∧ s.resetPorts.link.posSeq = [] := by
  unfold State.resetPorts
  simp only [List.foldl_cons, List.foldl_nil, State.setReg_link, State.updCport_seqs]
  exact ⟨rfl, rfl, rfl⟩

theorem State.resetPorts_delays (s : State) : s.resetPorts.reg Key.LINK_DELAY_U = 0 ∧ s.resetPorts.reg Key.LINK_DELAY_D = 0 := by
  unfold State.resetPorts
  refine ⟨?_, State.setReg_reg_self _ (by positivity) (by decide)⟩
  rw [State.setReg_reg_ne _ _ (by decide)]
  exact State.setReg_reg_self _ (by positivity) (by decide)

/-- The wheel of a reset Position Base before its reference is sought again. -/
def Pos.resetPos (p : Pos) : Pos :=
  { p.restart with
    pending := 0, n := 0, q := 0, rm := 0, gapTicks := 0, steps := 0, stepTicks := 0, stepRev := none, ssi := {}, recoverDue := false }

theorem State.resetPosition_eq (s : State) : s.resetPosition = ((s.updPos Pos.resetPos).cause 0x23 0 false 0).seekRef := rfl

theorem State.resetPosition_pos (s : State) : s.resetPosition.pos =
    { s.pos.resetPos with ref := if s.refKind = 0 then .off else .seeking, haveBase := false, rejects := 0 } := by
  have kind : ((s.updPos Pos.resetPos).cause 0x23 0 false 0).refKind = s.refKind := by
    simp only [State.refKind, State.cause_reg, State.updPos_reg]
  rw [State.resetPosition_eq, State.seekRef, kind, State.updPos_pos, State.cause_pos, State.updPos_pos]

/-! ## The Line Scheduler (R563) -/

/-- A compare unit that is switched off. -/
def State.cmpOff (c : Nat) (s : State) : State :=
  (s.setRegBit (Key.CMP_CTRL c) 0 false).updCmp c fun r => { r with armed := false, fireAt := none, pulses := [] }

/-- The grid switched off, with the sheets and the edges that wait dropped. -/
def State.gridOff (s : State) : State :=
  ((s.setReg Key.GRID_ENABLE 0).gridEnableWrite (s.reg Key.GRID_ENABLE)).updGrid fun g =>
    { g with queue := [], cueWait := [], fast := [], slow := [] }

/-- The general outputs and the camera triggers low. -/
def State.pinsLow (s : State) : State := { s with gpo := 0, camTrig := 0 }

theorem State.pinsLow_reg (s : State) (k : Nat) : s.pinsLow.reg k = s.reg k := rfl

theorem State.pinsLow_cmp (s : State) (c : Nat) : s.pinsLow.cmp c = s.cmp c := rfl

theorem State.pinsLow_grid (s : State) : s.pinsLow.grid = s.grid := rfl

theorem State.resetScheduler_eq (s : State) : s.resetScheduler = (s.gridOff.forEach (List.range 32) State.cmpOff).pinsLow := rfl

theorem State.gridOff_enable (s : State) : s.gridOff.reg Key.GRID_ENABLE = 0 := by
  have off : (s.setReg Key.GRID_ENABLE 0).reg Key.GRID_ENABLE = 0 := State.setReg_reg_self _ (by positivity) (by decide)
  rw [State.gridOff, State.updGrid_reg, State.gridEnableWrite_off off, off]

/-- Clearing bit 0 leaves an even number, and so does cutting it to a width of at least one bit. -/
theorem bit_zero_of_cleared (n w v : Nat) : bit (setBit n 0 false % 2 ^ (w + 1) % 2 ^ (v + 1)) 0 = false := by
  have even : setBit n 0 false % 2 = 0 := by
    simp only [setBit, b2n, pow_zero, Nat.div_one, mul_one, Bool.false_eq_true, if_false, add_zero]
    omega
  have half (m k : Nat) : m % 2 ^ (k + 1) % 2 = m % 2 := Nat.mod_mod_of_dvd m (Dvd.intro_left _ (pow_succ 2 k).symm)
  simp only [bit, pow_zero, Nat.div_one, half, even]
  rfl

theorem State.cmpOff_ctrl (t : State) {c : Nat} (hi : c < 32) : bit ((t.cmpOff c).reg (Key.CMP_CTRL c)) 0 = false := by
  have width : ∀ c < 32, keyWidth (Key.CMP_CTRL c) = 31 + 1 := by decide
  rw [State.cmpOff, State.updCmp_reg, State.setRegBit, State.setReg_reg, if_pos rfl, width c hi]
  exact bit_zero_of_cleared _ 31 71

theorem State.resetScheduler_cmp (s : State) {c : Nat} (hi : c < 32) :
    bit (s.resetScheduler.reg (Key.CMP_CTRL c)) 0 = false ∧ (s.resetScheduler.cmp c).armed = false := by
  rw [State.resetScheduler_eq, State.pinsLow_reg, State.pinsLow_cmp]
  refine State.forEach_settles (Q := fun _ => True) (R := fun t => bit (t.reg (Key.CMP_CTRL c)) 0 = false ∧ (t.cmp c).armed = false)
    List.nodup_range (List.mem_range.2 hi) (fun _ _ _ _ => trivial) (fun t _ => ⟨t.cmpOff_ctrl hi, ?_⟩) (fun j other t off => ?_) trivial
  · rw [State.cmpOff, State.updCmp_cmp_self]
  · rw [State.cmpOff, State.updCmp_reg, State.setRegBit_reg_ne _ _ _ (by simp only [Key.CMP_CTRL]; omega),
      State.updCmp_cmp_ne _ _ (Ne.symm other)]
    exact off

theorem State.resetScheduler_enable (s : State) : s.resetScheduler.reg Key.GRID_ENABLE = 0 := by
  rw [State.resetScheduler_eq, State.pinsLow_reg]
  refine State.forEach_holds (P := fun t => t.reg Key.GRID_ENABLE = 0) (fun c _ t off => ?_) s.gridOff_enable
  rw [State.cmpOff, State.updCmp_reg, State.setRegBit_reg_ne _ _ _ (by simp only [Key.CMP_CTRL, Key.GRID_ENABLE]; omega)]
  exact off

theorem State.resetScheduler_queue (s : State) : s.resetScheduler.grid.queue = [] := by
  rw [State.resetScheduler_eq, State.pinsLow_grid]
  refine State.forEach_holds (P := fun t => t.grid.queue = []) (fun c _ t empty => ?_) ?_
  · rw [State.cmpOff, State.updCmp_grid, State.setRegBit_grid]
    exact empty
  · rw [State.gridOff, State.updGrid_grid]

/-! ## A mover (R470) -/

/-- A channel of a reset mover: IDLE, with CH_CUR at its descriptor in progress. -/
def State.idleChannel (c : Nat) (s : State) : State :=
  let s1 := match (s.dch c).pos with
    | .fetch d => s.setReg (Key.CH_CUR c) d
    | .link d => s.setReg (Key.CH_CUR c) d
    | _ => s
  s1.updDch c fun r => { r with
    st := .idle, pos := .none, pauseReq := false, latch := false, entry := none, part := 0, retry := [], tries := 0
    after := match r.pos with
      | .none => r.after
      | .link _ => true
      | _ => false }

theorem State.resetMover_eq (m : Nat) (s : State) : s.resetMover m =
    (s.forEach ((List.range 8).map (8 * m + ·)) State.idleChannel).updMover m fun x => { x with last := 7 } := rfl

theorem State.updMover_dch (s : State) (m : Nat) (f : Mover → Mover) (c : Nat) : (s.updMover m f).dch c = s.dch c := rfl

theorem State.resetMover_reg (m : Nat) (s : State) (k : Nat) :
    (s.resetMover m).reg k = (s.forEach ((List.range 8).map (8 * m + ·)) State.idleChannel).reg k := by
  rw [State.resetMover_eq, State.updMover_reg]

theorem State.resetMover_channel (m : Nat) (s : State) (c : Nat) :
    (s.resetMover m).dch c = (s.forEach ((List.range 8).map (8 * m + ·)) State.idleChannel).dch c := by
  rw [State.resetMover_eq, State.updMover_dch]

section Channel

variable (t : State)

/-- A channel that is made IDLE changes no object but its own CH_CUR, and no other channel. -/
theorem State.idleChannel_eq (c : Nat) : ∃ f v, t.idleChannel c = t.updDch c f ∨ t.idleChannel c = (t.setReg (Key.CH_CUR c) v).updDch c f := by
  unfold State.idleChannel
  dsimp only
  split
  · exact ⟨_, _, .inr rfl⟩
  · exact ⟨_, _, .inr rfl⟩
  · exact ⟨_, 0, .inl rfl⟩

theorem State.idleChannel_self (c : Nat) : ((t.idleChannel c).dch c).st = .idle := by
  unfold State.idleChannel
  rw [State.updDch_dch_self]

theorem State.idleChannel_dch_ne {c j : Nat} (other : j ≠ c) : (t.idleChannel c).dch j = t.dch j := by
  obtain ⟨f, v, h | h⟩ := t.idleChannel_eq c
  · rw [h, State.updDch_dch_ne _ _ other]
  · rw [h, State.updDch_dch_ne _ _ other]
    rfl

theorem State.idleChannel_reg_ne {c k : Nat} (other : k ≠ Key.CH_CUR c) : (t.idleChannel c).reg k = t.reg k := by
  obtain ⟨f, v, h | h⟩ := t.idleChannel_eq c
  · rw [h, State.updDch_reg]
  · rw [h, State.updDch_reg, State.setReg_reg_ne _ _ other]

/-- CH_CUR names the descriptor that is fetched, or linked to (R470). -/
theorem State.idleChannel_cur {c d : Nat} (hi : c < 32) (at_ : (t.dch c).pos = .fetch d ∨ (t.dch c).pos = .link d) :
    (t.idleChannel c).reg (Key.CH_CUR c) = d % 2 ^ keyWidth (Key.CH_CUR c) := by
  have width : ∀ c < 32, keyWidth (Key.CH_CUR c) ≤ 72 := by decide
  have set_ : (t.idleChannel c).reg (Key.CH_CUR c) = (t.setReg (Key.CH_CUR c) d).reg (Key.CH_CUR c) := by
    unfold State.idleChannel
    obtain h | h := at_
    · rw [State.updDch_reg, h]
    · rw [State.updDch_reg, h]
  rw [set_, State.setReg_reg_mod _ _ (width c hi)]

end Channel

section Mover

variable (s : State) {m c : Nat}

theorem mem_channels (own : c / 8 = m) : c ∈ (List.range 8).map (8 * m + ·) :=
  List.mem_map.2 ⟨c % 8, List.mem_range.2 (by omega), by omega⟩

theorem nodup_channels (m : Nat) : ((List.range 8).map (8 * m + ·)).Nodup :=
  List.nodup_range.map fun i j h => by simpa using h

theorem State.resetMover_idle (own : c / 8 = m) : ((s.resetMover m).dch c).st = .idle := by
  rw [State.resetMover_channel]
  refine State.forEach_settles (Q := fun _ => True) (R := fun t => (t.dch c).st = .idle) (nodup_channels m) (mem_channels own)
    (fun _ _ _ _ => trivial) (fun t _ => t.idleChannel_self c) (fun j other t idle => ?_) trivial
  rw [t.idleChannel_dch_ne (Ne.symm other)]
  exact idle

theorem State.resetMover_cur {d : Nat} (hi : c < 32) (own : c / 8 = m) (at_ : (s.dch c).pos = .fetch d ∨ (s.dch c).pos = .link d) :
    (s.resetMover m).reg (Key.CH_CUR c) = d % 2 ^ keyWidth (Key.CH_CUR c) := by
  rw [State.resetMover_reg]
  refine State.forEach_settles (Q := fun t => t.dch c = s.dch c) (R := fun t => t.reg (Key.CH_CUR c) = d % 2 ^ keyWidth (Key.CH_CUR c))
    (nodup_channels m) (mem_channels own) (fun j other t same => (t.idleChannel_dch_ne (Ne.symm other)).trans same)
    (fun t same => t.idleChannel_cur hi (by rw [same]; exact at_)) (fun j other t set_ => ?_) rfl
  rw [t.idleChannel_reg_ne (by simp only [Key.CH_CUR]; omega)]
  exact set_

theorem State.resetMover_other (other : c / 8 ≠ m) : (s.resetMover m).dch c = s.dch c := by
  rw [State.resetMover_channel]
  refine State.forEach_holds (P := fun t => t.dch c = s.dch c) (fun j hj t same => ?_) rfl
  obtain ⟨i, hi, rfl⟩ := List.mem_map.1 hj
  have below : i < 8 := List.mem_range.1 hi
  exact (t.idleChannel_dch_ne (by omega)).trans same

end Mover

/-! ## Which reset a block has (R563) -/

theorem State.resetBlock_dict (s : State) : s.resetBlock 0x15 = s.resetDict := rfl

theorem State.resetBlock_chain (s : State) : s.resetBlock 0x18 = s.resetPorts := rfl

theorem State.resetBlock_position (s : State) : s.resetBlock 0x20 = s.resetPosition := rfl

theorem State.resetBlock_scheduler (s : State) : s.resetBlock 0x2C = s.resetScheduler := rfl

theorem State.resetBlock_mover (s : State) {m : Nat} (hi : m < 4) : s.resetBlock (0x64 + m) = s.resetMover m := by
  unfold State.resetBlock
  split
  case h_19 =>
    rw [if_pos ⟨by omega, by omega⟩, Nat.add_sub_cancel_left]
  all_goals omega

end Sys2Proof.Machine

namespace Sys2Proof.Proofs

open Sys2Proof.Machine

/-- Settles O55: when a block reset takes hold, and for each block what its reset leaves. -/
theorem blockResets : Obligations.BlockResets := by
  refine ⟨fun s src b on _ hb => ⟨fun waits armed => ?_, fun waits quiet => ?_, exec_blockReset_unasked on hb, fun fresh asked plain => ?_,
    fun fresh asked cuts armed => ?_, fun fresh asked cuts quiet => ?_⟩, fun s => ⟨?_, ?_, ?_, ?_, rfl, ⟨rfl, rfl⟩, fun m hm c hc => ?_⟩⟩
  · rw [exec_blockReset_waiting on hb waits, if_pos armed]
  · rw [exec_blockReset_waiting on hb waits, if_neg (by simp [quiet])]
  · rw [exec_blockReset_asked on hb fresh asked (u := s) (by simp [plain]), if_neg (by simp [plain])]
  · rw [exec_blockReset_asked on hb fresh asked (u := s.fireInhibit) (by simp [cuts]), if_pos ⟨cuts, armed⟩]
  · rw [exec_blockReset_asked on hb fresh asked (u := s.fireInhibit) (by simp [cuts]), if_neg (by simp [quiet])]
  · obtain ⟨fw, words⟩ := s.resetDict_queues
    rw [State.resetBlock_dict]
    exact ⟨fw, words, s.resetDict_reg (by decide) (by decide), fun g => s.resetDict_noneOpen, fun g => s.resetDict_closed,
      fun k => s.resetDict_sess⟩
  · obtain ⟨high, seen, posSeq⟩ := s.resetPorts_seqs
    rw [State.resetBlock_chain]
    exact ⟨high, seen, posSeq, s.resetPorts_delays⟩
  · rw [State.resetBlock_position, s.resetPosition_pos]
    refine ⟨rfl, rfl, rfl, ?_, rfl⟩
    rw [s.resetPosition_eq, State.seekRef, State.updPos_reg, State.cause_reg, State.updPos_reg]
  · rw [State.resetBlock_scheduler]
    exact ⟨s.resetScheduler_enable, s.resetScheduler_queue, rfl, rfl, fun c => s.resetScheduler_cmp⟩
  · rw [s.resetBlock_mover hm]
    exact ⟨fun own => ⟨s.resetMover_idle own, fun d => s.resetMover_cur hc own⟩, s.resetMover_other⟩

end Sys2Proof.Proofs
end

section
/-! Proofs about the arrival of a request: its row, the checks in their order, and what an accepted one comes to (R103-R141). -/

namespace Sys2Proof.Machine

/-! ## The checks of a request (R118, R120, R135) -/

section Checks

variable {s u : State} {i : Instr} {q : Req} (row : reqOf i = some q) (clocked : s.clocked = true) (single : q.bcast = false)
  (addr : s.addr ≠ 0) (dest : q.r.frame.dest.toNat = s.addr) (taken : (s.wired i).recvSummit 0x0A q.frame true false = (u, true))
include row clocked single addr dest taken

/-- A row whose request arrives intact and new for this unit alone is that request in the state that has taken the frame. -/
theorem exec_arrived : exec i s = .next (u.request q (byCaldera i)) := by
  rw [exec_request row clocked, State.dreq_taken (byCaldera i) single (by rwa [State.wired_addr]) (by rwa [State.wired_addr]) taken]

/-- A full queue answers BUSY before any check (R118). -/
theorem exec_busy (full : u.queueFull q = true) : exec i s = .next (u.finish q false ⟨St.BUSY, false, false, []⟩ u.ct) := by
  rw [exec_arrived row clocked single addr dest taken]
  simp [State.request, single, full]

theorem exec_served (room : u.queueFull q = false) : exec i s = .next (u.serve q (byCaldera i)) := by
  rw [exec_arrived row clocked single addr dest taken]
  simp [State.request, single, room]

end Checks

section Serve

variable {s : State} {q : Req} (direct : Bool)

theorem State.serve_early {st : Nat} (h : s.early q = some st) :
    s.serve q direct = s.conclude q false ⟨st, false, false, []⟩ s.ct := by
  simp [State.serve, h]

theorem State.serve_unsealed (h : s.early q = none) (plain : q.r.sealed = false) : s.serve q direct = s.run q false direct := by
  simp [State.serve, h, plain]

theorem State.serve_refused {st : Nat} (h : s.early q = none) (sealed : q.r.sealed = true) (verdict : s.sealCheck q = .refused st) :
    s.serve q direct = (s.sealRefused st).conclude q false ⟨st, false, false, []⟩ s.ct := by
  simp [State.serve, h, sealed, verdict]

theorem State.serve_again {r : SealRec} (h : s.early q = none) (sealed : q.r.sealed = true) (verdict : s.sealCheck q = .again r) :
    s.serve q direct = s.conclude q false ⟨r.status, true, r.late, []⟩ s.ct := by
  simp [State.serve, h, sealed, verdict]

theorem State.serve_taken (h : s.early q = none) (sealed : q.r.sealed = true) (verdict : s.sealCheck q = .taken) :
    s.serve q direct = (s.setReg Key.SEAL_LAST q.seqNo).run q true direct := by
  simp [State.serve, h, sealed, verdict]

theorem State.run_late {st : Nat} (took : Bool) (h : s.late q = some st) :
    s.run q took direct = (s.refuseLate q st).conclude q took ⟨st, false, false, []⟩ s.ct := by
  simp [State.run, h]

end Serve

/-- An accepted request of a firmware-backed object that no group stages waits for Caldera (R118, R139). -/
theorem State.Accepts.leftToCaldera {s t : State} {q : Req} (h : s.Accepts q t) (fw : t.fwNamed q = true)
    (plain : ¬ (q.op = .write ∧ q.r.group ≠ 0)) : s.dreq q false =
      { t with dict := { t.dict with fw := t.dict.fw ++ [⟨q.r, q.op, q.index, q.sub, t.clk, t.ct⟩] } } := by
  have unstaged : ¬ (q.op = .write ∧ q.r.group.toNat ≠ 0) := by simpa [← BitVec.toNat_inj] using plain
  rw [h.dreq false]
  unfold State.run
  rw [h.late]
  dsimp only
  rw [if_neg (by simp [h.ready]), if_pos ⟨fw, by simp, unstaged⟩]

/-! ## The objects that a request names (R103) -/

section Single

variable {s : State} {q : Req} {o : Obj} (one : q.op ≠ .read) (sub : q.sub < 256) (here : s.object q.key = some o)
include one sub here

/-- A request of one object that exists names it alone. -/
theorem State.named_single : s.named q = [some o] := by
  simp [State.named, Req.n, one, sub, here]

theorem State.objects_single : s.objects q = [o] := by
  simp [State.objects, State.named_single one sub here]

end Single

/-! ## Sealed tables (R131) -/

section Table

variable {s : State} {q : Req} {o : Obj} (names : s.objects q = [o])
include names

theorem State.step34_unsealed (writes : q.op.reads = false) (closed : o.access = .rwa ∨ o.access = .woa) (plain : q.r.sealed = false) :
    s.step34 q = some St.SEAL_REQUIRED := by
  obtain e | e := closed <;> simp [State.step34, names, writes, e, plain]

theorem State.step34_writeOnly (reads : q.op.reads = true) (closed : o.access = .woa) : s.step34 q = some St.WRITE_ONLY := by
  simp [State.step34, names, reads, closed]

end Table

theorem Op.one_of_domain {op : Op} (table : op.domain = true) : op ≠ .read ∧ op ≠ .write ∧ op.noObject = false := by
  cases op <;> simp [Op.domain, Op.noObject] at table ⊢

theorem Op.reads_of_domain {op : Op} (table : op.domain = true) : op.reads = true ↔ op = .domRead := by
  cases op <;> simp [Op.domain, Op.reads] at table ⊢

/-- A table operation that spells a request for a table that exists is first judged by the class of the table (R120, R131). -/
theorem State.early_table {s : State} {q : Req} {o : Obj} {st : Nat} (table : q.op.domain = true) (spelled : q.step1 = none)
    (index : s.hasIndex q.index = true) (sub : q.sub < 256) (here : s.object q.key = some o) (barred : s.step34 q = some st) :
    s.early q = some st := by
  obtain ⟨notRead, notWrite, names⟩ := Op.one_of_domain table
  have found : s.step2 q = none := by
    simp [State.step2, index, State.named_single notRead sub here, State.objects_single notRead sub here, notRead, notWrite]
  simp [State.early, spelled, names, found, barred]

/-- The row of a table operation carries that operation, and reads no sensor. -/
theorem reqOf_table {r : Dreq} {index : BitVec 16} {sub : BitVec 8} {op : Op} {i : Instr}
    (row : (op, i) ∈ [(Op.domOpen, Instr.domOpen r index sub), (.domWrite, .domWrite r index sub), (.domCommit, .domCommit r index sub),
      (.domAbort, .domAbort r index sub), (.domRead, .domRead r index sub)]) (s : State) :
    reqOf i = some ⟨r, op, index.toNat, sub.toNat⟩ ∧ byCaldera i = false ∧ s.wired i = s ∧ op.domain = true := by
  simp only [List.mem_cons, Prod.mk.injEq, List.not_mem_nil, or_false] at row
  obtain ⟨rfl, rfl⟩ | ⟨rfl, rfl⟩ | ⟨rfl, rfl⟩ | ⟨rfl, rfl⟩ | ⟨rfl, rfl⟩ := row <;> exact ⟨rfl, rfl, rfl, rfl⟩

end Sys2Proof.Machine

namespace Sys2Proof.Proofs

open Sys2Proof.Machine

/-- Settles O25: a row is the arrival of its request; an accepted one is performed, or joins those that Caldera holds (log 38). -/
theorem requestsAreCarriedOut : Obligations.RequestsAreCarriedOut := by
  refine ⟨fun i s q row clocked => exec_request row clocked, fun i s t q row unit accepts => ?_⟩
  have run : exec i s = .next ((s.wired i).dreq q false) := by
    rw [exec_request row (by rw [← State.wired_clocked s i]; exact accepts.clocked), unit]
  rw [run]
  refine ⟨fun own => ?_, fun fw plain => by rw [accepts.leftToCaldera fw plain]⟩
  rw [accepts.performed]
  simpa [← BitVec.toNat_inj] using own

/-- Settles O26: BUSY on arrival, then the checks of `serve` in their order. -/
theorem requestChecksAnswerInOrder : Obligations.RequestChecksAnswerInOrder := by
  intro i s u q row clocked single addr dest taken
  have served (room : u.queueFull q = false) := exec_served row clocked single addr dest taken room
  refine ⟨exec_busy row clocked single addr dest taken, fun room st early => ?_, fun room early sealed => ⟨fun st verdict => ?_,
    fun r verdict => ?_, fun st verdict late => ?_⟩, fun room early plain st late => ?_⟩
  · rw [served room, State.serve_early _ early]
  · rw [served room, State.serve_refused _ early sealed verdict]
  · rw [served room, State.serve_again _ early sealed verdict]
  · rw [served room, State.serve_taken _ early sealed verdict, State.run_late _ _ late]
    rfl
  · rw [served room, State.serve_unsealed _ early plain, State.run_late _ _ late]

/-- Settles O27: the class of the table answers before the seal is looked at (`early_table`). -/
theorem sealedTablesNeedTheirSeal : Obligations.SealedTablesNeedTheirSeal := by
  intro s u r index sub o op i clocked row dest addr single taken room spelled here object dom
  obtain ⟨req, -, unwired, table⟩ := reqOf_table row s
  set q : Req := ⟨r, op, index.toNat, sub.toNat⟩
  have names : u.objects q = [o] := State.objects_single (Op.one_of_domain table).1 sub.isLt object
  have answers {st : Nat} (barred : u.step34 q = some st) :
      exec i s = .next (u.conclude q false ⟨st, false, false, []⟩ u.ct) := by
    rw [exec_served req clocked (by simpa [Req.bcast] using single) addr dest (by rw [unwired]; exact taken) room,
      State.serve_early _ (State.early_table table spelled here sub.isLt object barred)]
  have reads : q.op.reads = true ↔ op = .domRead := Op.reads_of_domain table
  exact ⟨fun writes closed plain => answers (State.step34_unsealed names (Bool.eq_false_iff.2 fun h => writes (reads.1 h)) closed plain),
    fun read closed => answers (State.step34_writeOnly names (reads.2 read) closed)⟩

end Sys2Proof.Proofs
end

section
/-! Proofs about accepted writes: at once, held for a boundary, or staged in a group (R107-R110, R121, R122). -/

namespace Sys2Proof.Machine

/-! ## The answer to a request that is carried out (R116, R122, R135) -/

/-- From `s` to `t` nothing has changed but the record of the last sealed request, the counts of answers, and what is sent. -/
structure State.Answered (s t : State) : Prop where
  dict : ∃ last, t.dict = { s.dict with lastSealed := last }
  reg : ∀ k, k ∉ bookKeys → t.reg k = s.reg k
  mem : t.mem = s.mem
  tabs : t.tabs = s.tabs
  ports : t.ports = s.ports
  pos : t.pos = s.pos
  grid : t.grid = s.grid

theorem State.Answered.group {s t : State} (h : s.Answered t) (g : Nat) : t.group g = s.group g := by
  obtain ⟨last, dict⟩ := h.dict
  rw [State.group, dict, State.group]

theorem State.answered_answer (s : State) (last : Option SealRec) (q : Req) (p : Reply) (acc : Nat) :
    s.Answered (State.answer { s with dict := { s.dict with lastSealed := last } } q p acc) := by
  obtain ⟨t, link, out, kept, sent⟩ := State.answer_eq { s with dict := { s.dict with lastSealed := last } } q p acc
  rw [sent]
  exact ⟨⟨last, kept.dict⟩, kept.reg, kept.mem, kept.tabs, kept.ports, kept.pos, kept.grid⟩

/-- A good answer to a request for this unit alone is no more than that. -/
theorem State.answered_answers {s : State} {q : Req} {st : Nat} (single : q.bcast = false) (good : stGood st = true) (acc : Nat) :
    s.Answered (s.answers q st acc) := by
  simp only [State.answers, State.conclude, good, State.finish, single, not_true_eq_false, false_and, and_false, if_false, Bool.false_eq_true]
  split
  · exact s.answered_answer _ q _ acc
  · exact s.answered_answer s.dict.lastSealed q _ acc

/-! ## Writes (R107, R109, R110, R121) -/

/-- A write of class LINE, BAND or SHEET at the end of the shadows (R107, R110). -/
def State.shadowed (t : State) (o : Obj) (q : Req) : State :=
  { t with dict := { t.dict with
      order := t.dict.order + 1
      shadows := t.dict.shadows ++ [⟨q.key, t.valueOf q, o.commit, t.dict.order, t.frozen o.commit, t.clk⟩] } }

theorem State.doWrite_waits {t : State} {o : Obj} {q : Req} (waits : o.commit ≠ .imm) : t.doWrite o q = (t.shadowed o q, St.OK_PENDING) :=
  if_neg waits

theorem State.objects_write {t : State} {r : Dreq} {index : BitVec 16} {sub : BitVec 8} {o : Obj}
    (here : t.object (index.toNat * 256 + sub.toNat) = some o) : t.objects ⟨r, .write, index.toNat, sub.toNat⟩ = [o] :=
  State.objects_single nofun sub.isLt here

section Write

variable {s t : State} {r : Dreq} {index : BitVec 16} {sub : BitVec 8} {o : Obj}
  (accepts : s.Accepts ⟨r, .write, index.toNat, sub.toNat⟩ t) (here : t.object (index.toNat * 256 + sub.toNat) = some o)
include accepts here

/-- An ungrouped write of an object that the unit itself holds is carried out (R107). -/
theorem State.Accepts.exec_write (plain : r.group = 0) (unit : o.fw = false) : exec (.write r index sub) s =
    .next ((t.doWrite o ⟨r, .write, index.toNat, sub.toNat⟩).1.answers ⟨r, .write, index.toNat, sub.toNat⟩
      (t.doWrite o ⟨r, .write, index.toNat, sub.toNat⟩).2 t.ct) := by
  have names := State.objects_write (r := r) here
  rw [exec_request (i := .write r index sub) rfl accepts.clocked]
  refine congrArg _ ((accepts.performed (.inl (by simp [State.fwNamed, names, unit]))).trans ?_)
  simp [State.perform, names, plain, reply, State.answers]

/-- A write into a group is staged, whoever holds its object (R121; log 38). -/
theorem State.Accepts.exec_grouped (group : r.group ≠ 0) {u : State} {st : Nat} (staged : t.groupEntry r.group.toNat o.commit
      (.write (index.toNat * 256 + sub.toNat) (t.valueOf ⟨r, .write, index.toNat, sub.toNat⟩)) = (u, st)) :
    exec (.write r index sub) s = .next (u.answers ⟨r, .write, index.toNat, sub.toNat⟩ st t.ct) := by
  have names := State.objects_write (r := r) here
  have nonzero : r.group.toNat ≠ 0 := by simpa [← BitVec.toNat_inj] using group
  rw [exec_request (i := .write r index sub) rfl accepts.clocked]
  refine congrArg _ ((accepts.performed (.inr (.inr ⟨rfl, nonzero⟩))).trans ?_)
  simp [State.perform, names, nonzero, reply, State.answers, Req.key, staged]

end Write

/-! ## Groups (R121, R122) -/

section Group

variable {t : State} {g : Nat} {c : Commit} {e : Entry}

/-- A FREE group opens with its first entry, and so does one whose result has only not been read yet. -/
theorem State.groupEntry_free (free : (t.group g).st ∈ [GroupSt.free, .applied, .discarded]) : t.groupEntry g c e =
    (t.updGroup g fun _ => { st := .opened, cls := c, entries := [e], since := t.ct }, St.OK_PENDING) := by
  simp only [List.mem_cons, List.not_mem_nil, or_false] at free
  unfold State.groupEntry
  obtain h | h | h := free <;> simp only [h]

theorem State.groupEntry_opened (opened : (t.group g).st = .opened) : t.groupEntry g c e =
    if c ≠ (t.group g).cls then (t, St.GROUP_CLASS)
    else if 64 ≤ (t.group g).entries.length then (t, St.GROUP_FULL)
    else (t.updGroup g fun x => { x with entries := x.entries ++ [e] }, St.OK_PENDING) := by
  simp only [State.groupEntry, opened]

theorem State.groupEntry_closed (closed : (t.group g).st = .closed) : t.groupEntry g c e = (t, St.GROUP_NOT_OPEN) := by
  simp only [State.groupEntry, closed]

theorem State.groupEntry_poisoned (poisoned : (t.group g).st = .poisoned) : t.groupEntry g c e = (t, St.GROUP_FAILED) := by
  simp only [State.groupEntry, poisoned]

theorem State.poison_closed (closed : (t.group g).st = .closed) : t.poison g = t := by
  simp only [State.poison, closed]

/-- A refusal poisons every group but a CLOSED one. -/
theorem State.poison_poisoned (h : (t.group g).st ≠ .closed) : ((t.poison g).group g).st = .poisoned := by
  cases st : (t.group g).st with
  | closed => exact absurd st h
  | poisoned => simp only [State.poison, st]
  | _ => simp only [State.poison, st, State.updGroup_group_self]

end Group

end Sys2Proof.Machine

namespace Sys2Proof.Proofs

open Sys2Proof.Machine

/-- Settles O29: an accepted write is `doWrite`, which acts at once or appends to the shadows. -/
theorem writesTakeEffectOrWait : Obligations.WritesTakeEffectOrWait := by
  intro s t r index sub o plain accepts here unit
  have run := accepts.exec_write here plain unit
  refine ⟨fun imm => ?_, fun waits => ?_⟩
  · rw [run, State.doWrite, if_pos imm, Req.key]
  · rw [State.doWrite_waits waits] at run
    have kept := State.answered_answers (s := t.shadowed o ⟨r, .write, index.toNat, sub.toNat⟩) (st := St.OK_PENDING) accepts.single rfl t.ct
    obtain ⟨last, dict⟩ := kept.dict
    exact ⟨_, run, congrArg Dict.shadows dict, congrArg Dict.order dict, kept.reg, kept.mem, kept.tabs, kept.ports, kept.pos, kept.grid,
      (congrArg Dict.groups dict :), (congrArg Dict.sessions dict :)⟩

/-- Settles O30: what each state of a group answers an entry, and a first entry of each class, which answers OK_PENDING (log 37). -/
theorem groupedWritesAreStaged : Obligations.GroupedWritesAreStaged := by
  refine ⟨fun t g c e => ⟨State.groupEntry_free, fun opened same room => ?_, fun opened same full => ?_, fun opened other => ?_,
    State.groupEntry_closed, State.groupEntry_poisoned, State.poison_poisoned, State.poison_closed⟩,
    fun s t r index sub o group accepts here free => ?_⟩
  · rw [State.groupEntry_opened opened, if_neg (by simp [same]), if_neg (by omega)]
  · rw [State.groupEntry_opened opened, if_neg (by simp [same]), if_pos full]
  · rw [State.groupEntry_opened opened, if_pos (Ne.symm other)]
  · have run := accepts.exec_grouped here group (State.groupEntry_free (by simp [free]))
    have kept (f) := State.answered_answers (s := t.updGroup r.group.toNat f) (st := St.OK_PENDING) accepts.single rfl t.ct
    refine ⟨_, run, ?_, ?_, ?_, fun g other => ((kept _).group g).trans (State.updGroup_group_ne _ _ other), (kept _).reg, (kept _).mem,
      (kept _).tabs, (kept _).ports⟩
    all_goals rw [(kept _).group, State.updGroup_group_self]

end Sys2Proof.Proofs
end

section
/-! Proofs about the end of a group, and about the operations without an object and on DOMAIN tables (R111, R121-R130). -/

namespace Sys2Proof.Machine

/-! ## GROUP_TIMEOUT (R124) -/

section Expire

variable {s : State} {g : Nat}

theorem State.groupDue_iff : s.groupDue g = true ↔
    ((s.group g).st = .opened ∨ (s.group g).st = .poisoned) ∧ (s.group g).since + s.reg Key.GROUP_TIMEOUT < s.ct := by
  simp [State.groupDue]

theorem State.expireGroup_stays (early : s.groupDue g = false) : s.expireGroup g = s := by
  simp [State.expireGroup, early]

theorem State.expireGroup_due (due : s.groupDue g = true) : s.expireGroup g = (s.discardGroup g .failed).inc Key.GROUP_EXPIRED := by
  simp [State.expireGroup, due]

theorem State.discardGroup_group (s : State) (g : Nat) (st : SessSt) : ((s.discardGroup g st).group g).st = .discarded := by
  obtain ⟨sessions, h⟩ := s.discardGroup_eq g st
  rw [h, State.updGroup_group_self]

/-- An expiry of the same instant wins over a GROUP_CLOSE (R124). -/
theorem State.closeGroup_due (due : s.groupDue g = true) : (s.closeGroup g).2 = St.GROUP_NOT_OPEN := by
  have discarded : (((s.discardGroup g .failed).inc Key.GROUP_EXPIRED).group g).st = .discarded := s.discardGroup_group g .failed
  simp only [State.closeGroup, State.expireGroup_due due, discarded]

end Expire

/-! ## GROUP_CLOSE and GROUP_ABORT (R121-R124) -/

section Close

variable {s : State} {g : Nat} (early : s.groupDue g = false)
include early

theorem State.closeGroup_poisoned (poisoned : (s.group g).st = .poisoned) :
    s.closeGroup g = (s.discardGroup g .failed, St.GROUP_FAILED) := by
  simp only [State.closeGroup, State.expireGroup_stays early, poisoned]

/-- An IMMEDIATE group whose entries fit takes effect when it closes (R123). -/
theorem State.closeGroup_imm (opened : (s.group g).st = .opened) (imm : (s.group g).cls = .imm) (fits : s.groupFits g = true) :
    s.closeGroup g = (((s.applyItems s.lineNow false [.group g]).traceRec 0x03 (fld s.lineNow 32 0)).windows false, St.OK) := by
  simp [State.closeGroup, State.expireGroup_stays early, opened, imm, fits]

/-- One whose entries together break the range of an object is refused (log 37). -/
theorem State.closeGroup_unfit (opened : (s.group g).st = .opened) (imm : (s.group g).cls = .imm) (fits : s.groupFits g = false) :
    s.closeGroup g = (s.updGroup g fun x => { x with st := .poisoned }, St.RANGE) := by
  simp [State.closeGroup, State.expireGroup_stays early, opened, imm, fits]

theorem State.closeGroup_free (free : (s.group g).st ∈ [GroupSt.free, .applied, .discarded]) : s.closeGroup g = (s, St.GROUP_NOT_OPEN) := by
  simp only [List.mem_cons, List.not_mem_nil, or_false] at free
  obtain h | h | h := free <;> simp only [State.closeGroup, State.expireGroup_stays early, h]

theorem State.abortGroup_open (opened : (s.group g).st ∈ [GroupSt.opened, .poisoned]) :
    s.abortGroup g = (s.discardGroup g .aborted, St.OK, false) := by
  simp only [List.mem_cons, List.not_mem_nil, or_false] at opened
  obtain h | h := opened <;> simp only [State.abortGroup, State.expireGroup_stays early, h]

theorem State.abortGroup_closed (closed : (s.group g).st = .closed) : s.abortGroup g =
    if s.past (s.group g).cls (s.group g).skip then (s, St.OK, true) else (s.discardGroup g .aborted, St.OK, false) := by
  simp only [State.abortGroup, State.expireGroup_stays early, closed]

theorem State.abortGroup_free (free : (s.group g).st ∈ [GroupSt.free, .applied, .discarded]) :
    s.abortGroup g = (s, St.GROUP_NOT_OPEN, false) := by
  simp only [List.mem_cons, List.not_mem_nil, or_false] at free
  obtain h | h | h := free <;> simp only [State.abortGroup, State.expireGroup_stays early, h]

end Close

/-- The session that is an entry of a group that closes waits with it (R127). -/
def State.pendEntry (s : State) : Entry → State
  | .session k => s.updSess k fun x => { x with st := .pending }
  | .write _ _ => s

theorem State.pendEntries_eq (l : List Entry) (s : State) :
    ∃ sessions, l.foldl State.pendEntry s = { s with dict := { s.dict with sessions := sessions } } := by
  induction l generalizing s with
  | nil => exact ⟨_, rfl⟩
  | cons e l ih =>
    cases e with
    | session k =>
      obtain ⟨sessions, rest⟩ := ih (s.updSess k fun x => { x with st := .pending })
      exact ⟨sessions, rest⟩
    | write key val => exact ih s

/-- A group of another class closes and waits for its boundary; its entries stay, and no object changes (R121, R123). -/
theorem State.closeGroup_waits {s : State} {g : Nat} (early : s.groupDue g = false) (opened : (s.group g).st = .opened)
    (other : (s.group g).cls ≠ .imm) : (s.closeGroup g).2 = St.OK_PENDING ∧ ((s.closeGroup g).1.group g).st = .closed ∧
      ((s.closeGroup g).1.group g).entries = (s.group g).entries ∧ ∀ k, (s.closeGroup g).1.reg k = s.reg k := by
  obtain ⟨sessions, pending⟩ := State.pendEntries_eq (s.group g).entries s.nextOrder.1
  have closed : s.closeGroup g = (((s.group g).entries.foldl State.pendEntry s.nextOrder.1).updGroup g (fun r => { r with
      st := .closed, order := s.nextOrder.2, skip := s.frozen r.cls, acc := s.clk }), St.OK_PENDING) := by
    simp only [State.closeGroup, State.expireGroup_stays early, opened, other, false_and, if_false]
    rfl
  rw [closed, pending]
  refine ⟨rfl, ?_, ?_, fun k => rfl⟩
  · rw [State.updGroup_group_self]
  · rw [State.updGroup_group_self]
    rfl

/-! ## Accepted operations (R111, R116, R121-R130) -/

section Operation

variable {s t : State} {q : Req} {i : Instr} (accepts : s.Accepts q t) (row : reqOf i = some q) (unit : byCaldera i = false)
  (unwired : s.wired i = s)
include accepts row unit unwired

/-- The row of an accepted request that the unit itself carries out. -/
theorem State.Accepts.exec_performed (own : t.fwNamed q = false) :
    exec i s = .next ((t.perform q).1.conclude q q.r.sealed (t.perform q).2 t.ct) := by
  rw [exec_request row accepts.clocked, unwired, unit, accepts.performed (.inl own)]

/-- The row of an accepted request on a firmware-backed table joins those that wait for Caldera (R118, R139). -/
theorem State.Accepts.exec_waits (table : q.op.domain = true) {o : Obj} (names : t.objects q = [o]) (fw : o.fw = true) :
    exec i s = .next { t with dict := { t.dict with fw := t.dict.fw ++ [⟨q.r, q.op, q.index, q.sub, t.clk, t.ct⟩] } } := by
  obtain ⟨-, notWrite, object⟩ := Op.one_of_domain table
  rw [exec_request row accepts.clocked, unwired, unit,
    accepts.leftToCaldera (by simp [State.fwNamed, object, names, fw]) (by simp [notWrite])]

end Operation

theorem State.fwNamed_noObject {t : State} {q : Req} (h : q.op.noObject = true) : t.fwNamed q = false := by
  simp [State.fwNamed, h]

theorem State.fwNamed_single {t : State} {q : Req} {o : Obj} (names : t.objects q = [o]) (unit : o.fw = false) : t.fwNamed q = false := by
  simp [State.fwNamed, names, unit]

end Sys2Proof.Machine

namespace Sys2Proof.Proofs

open Sys2Proof.Machine

/-- Settles O31: what each state of a group makes of a close, an abort and a timeout, with log 37 for an IMMEDIATE group out of range; and
the effect of each operation, which its answer follows, where Caldera does not hold the table. -/
theorem groupsCloseAbortAndExpire : Obligations.GroupsCloseAbortAndExpire := by
  refine ⟨⟨fun s g early => ⟨State.closeGroup_waits early, fun opened imm fits => ?_, State.closeGroup_unfit early,
    State.closeGroup_poisoned early, State.abortGroup_open early, fun closed frozen skip => ?_, fun closed free => ?_,
    fun free => ⟨State.closeGroup_free early free, State.abortGroup_free early free⟩⟩, fun s g clocked => ⟨fun due => ?_, fun stays => ?_,
    State.groupDue_iff⟩⟩, fun s t r i j q ans hq hans => ?_⟩
  · simp only [State.closeGroup_imm early opened imm fits, true_and]
  · rw [State.abortGroup_closed early closed, if_pos (by simp [State.past, frozen, skip])]
  · rw [State.abortGroup_closed early closed, if_neg (by obtain h | h := free <;> simp [State.past, h])]
  · exact ⟨(if_pos clocked).trans (congrArg _ (State.expireGroup_due due)), State.closeGroup_due due⟩
  · exact (if_pos clocked).trans (congrArg _ (State.expireGroup_stays stays))
  · have done {q : Req} {c : Instr} (row : reqOf c = some q ∧ byCaldera c = false ∧ s.wired c = s) (own : t.fwNamed q = false)
        (h : s.Accepts q t) : exec c s = .next ((t.perform q).1.conclude q q.r.sealed (t.perform q).2 t.ct) :=
      h.exec_performed row.1 row.2.1 row.2.2 own
    simp only [hq, hans]
    refine ⟨fun h => ?_, fun h => ?_, fun h => ?_, fun o names => ⟨fun unit => ?_, fun fw op c row h => ?_⟩⟩
    · rw [done ⟨rfl, rfl, rfl⟩ (State.fwNamed_noObject rfl) h]
      simp only [State.perform, reply]
    · rw [done ⟨rfl, rfl, rfl⟩ (State.fwNamed_noObject rfl) h]
      simp only [State.perform, replyLate]
    · rw [done ⟨rfl, rfl, rfl⟩ (State.fwNamed_noObject rfl) h]
      simp only [State.perform]
    · have own (op : Op) : t.fwNamed ⟨r, op, i.toNat, j.toNat⟩ = false := State.fwNamed_single (names op) unit
      refine ⟨fun h => ?_, fun h => ?_, fun h => ?_, fun h => ?_, fun h => ?_⟩
      all_goals
        rw [done ⟨rfl, rfl, rfl⟩ (own _) h]
        simp only [State.perform, names, reply, replyLate]
    · obtain ⟨req, unit, unwired, table⟩ := reqOf_table row s
      exact h.exec_waits req unit unwired table (names op) fw

end Sys2Proof.Proofs
end

section
/-! Proofs about the requests that Caldera holds, the timeout of sessions and the seal floor (R118, R125, R136, R137, R141). -/

namespace Sys2Proof.Machine

section Clocked

variable {s : State} (clocked : s.clocked = true)
include clocked

/-! ## Requests that Caldera holds (R118, R141) -/

theorem exec_fwRequestAnswered_none (empty : s.dict.fw = []) : exec .fwRequestAnswered s = .next s := by
  refine (if_pos clocked).trans ?_
  rw [empty]

theorem exec_fwRequestTimeout_none (empty : s.dict.fw = []) : exec .fwRequestTimeout s = .next s := by
  refine (if_pos clocked).trans ?_
  rw [empty]

variable {f : FwReq} {l : List FwReq} (oldest : s.dict.fw = f :: l)
include oldest

/-- The oldest request is answered while Caldera runs, has what it answers it with, and is in time. -/
theorem exec_fwRequestAnswered_oldest : exec .fwRequestAnswered s = .next
    (if s.calderaUp ∧ s.fwReady f ∧ ¬ s.fwLate f then { s with dict := { s.dict with fw := l } }.fwAnswer f else s) := by
  refine (if_pos clocked).trans ?_
  rw [oldest]

theorem exec_fwRequestTimeout_oldest : exec .fwRequestTimeout s = .next
    (if s.fwLate f then
      ({ s with dict := { s.dict with fw := l } }.inc Key.FW_TIMEOUT).conclude f.req f.r.sealed ⟨St.TIMEOUT, false, false, []⟩ f.acc
    else s) := by
  refine (if_pos clocked).trans ?_
  rw [oldest]

end Clocked

theorem State.fwLate_iff {s : State} {f : FwReq} : s.fwLate f = true ↔ f.since + 5000000 ≤ s.clk := by
  simp [State.fwLate]

/-! ## Sessions (R125) -/

theorem exec_sessionExpire {s : State} (clocked : s.clocked = true) (k : Fin 4) : exec (.sessionExpire k) s =
    .next (if s.sessDue k then (s.updSess k fun x => { x with st := .failed, words := [] }).inc Key.SESSION_EXPIRED else s) :=
  if_pos clocked

theorem State.sessDue_iff {s : State} {k : Nat} : s.sessDue k = true ↔ (s.sess k).st = .opened ∧ (s.sess k).last + 500000000 ≤ s.ct := by
  simp [State.sessDue]

/-! ## The seal floor (R136, R137) -/

section Floor

variable {s : State} (on : s.on = true)
include on

theorem exec_sealFloorRaise : exec .sealFloorRaise s = .next (if s.floorDue then
    { s with dict := { s.dict with floorWrite := some (min (s.reg Key.SEAL_FLOOR + 1024) 0xFFFFFC00) } } else s) :=
  if_pos on

theorem exec_sealFloorCommitted_none (none_ : s.dict.floorWrite = none) : exec .sealFloorCommitted s = .next s := by
  refine (if_pos on).trans ?_
  rw [none_]

/-- The floor in writing is in force where the flash has taken it; else the write has failed (R509). -/
theorem exec_sealFloorCommitted {v : Nat} (writing : s.dict.floorWrite = some v) : exec .sealFloorCommitted s = .next
    (if s.nor.ok then
      ((({ s with dict := { s.dict with floorWrite := none } }.updNor fun n => { n with floor := some v }).setReg Key.SEAL_FLOOR v).logConfig 1
        (beBytes 4 v))
    else { s with dict := { s.dict with floorWrite := none } }.raise 0x14 1) := by
  refine (if_pos on).trans ?_
  rw [writing]

end Floor

theorem State.floorDue_iff {s : State} : s.floorDue = true ↔ s.calderaUp = true ∧ s.nor.ok = true ∧ s.dict.floorWrite = none ∧
    s.reg Key.SEAL_FLOOR ≠ 0 ∧ s.reg Key.SEAL_FLOOR < 0xFFFFFC00 ∧ s.reg Key.SEAL_FLOOR ≤ s.reg Key.SEAL_LAST + 512 := by
  simp [State.floorDue, and_assoc]

end Sys2Proof.Machine

namespace Sys2Proof.Proofs

open Sys2Proof.Machine

/-- Settles O33: when the oldest request of Caldera, a session and the seal floor are due, and what each then becomes; `fwAnswer` judges state
and range again (log 38), and a session ends FAILED (log 37). -/
theorem firmwareRequestsEnd : Obligations.FirmwareRequestsEnd := by
  intro s clocked
  have on := State.on_of_clocked clocked
  refine ⟨fun f l oldest early => ⟨?_, fun up ready => ?_, fun held => ?_⟩,
    fun empty => ⟨exec_fwRequestAnswered_none clocked empty, exec_fwRequestTimeout_none clocked empty⟩, fun f l oldest late => ⟨?_, ?_⟩,
    fun k opened late => ?_, fun k stays => ?_, fun up ok idle zero below due => ?_, fun far => ?_, fun v writing bad => ?_,
    fun v writing ok => ?_, exec_sealFloorCommitted_none on⟩
  · rw [exec_fwRequestTimeout_oldest clocked oldest, if_neg (by rw [State.fwLate_iff]; omega)]
  · rw [exec_fwRequestAnswered_oldest clocked oldest, if_pos ⟨up, ready, by rw [State.fwLate_iff]; omega⟩]
  · rw [exec_fwRequestAnswered_oldest clocked oldest, if_neg (by obtain h | h := held <;> simp [h])]
  · rw [exec_fwRequestAnswered_oldest clocked oldest, if_neg (by rw [State.fwLate_iff]; tauto)]
  · rw [exec_fwRequestTimeout_oldest clocked oldest, if_pos (State.fwLate_iff.2 late)]
  · rw [exec_sessionExpire clocked, if_pos (State.sessDue_iff.2 ⟨opened, late⟩)]
  · rw [exec_sessionExpire clocked, if_neg]
    rintro due
    obtain ⟨opened, late⟩ := State.sessDue_iff.1 due
    obtain other | early := stays
    · exact other opened
    · omega
  · rw [exec_sealFloorRaise on, if_pos (State.floorDue_iff.2 ⟨up, ok, idle, zero, below, due⟩)]
  · rw [exec_sealFloorRaise on, if_neg]
    rintro due
    obtain ⟨-, -, -, -, -, near⟩ := State.floorDue_iff.1 due
    omega
  · rw [exec_sealFloorCommitted on writing, if_neg (by simp [bad])]
  · rw [exec_sealFloorCommitted on writing, if_pos ok]

end Sys2Proof.Proofs
end

section
/-! Proofs about DOMAIN sessions: opened, staged word by word, and committed (R125-R127). -/

namespace Sys2Proof.Machine

/-! ## Staged words (R126) -/

/-- Words from offset `off + n` on, put one after the other. -/
def stageFrom (m : Map (Option Word)) (off n : Nat) (ws : List Nat) : Map (Option Word) :=
  (ws.zipIdx n).foldl (fun m e => Map.put (fun _ => none) m (off + e.2) (some (BitVec.ofNat 72 e.1))) m

theorem stage_eq (m : Map (Option Word)) (off : Nat) (ws : List Nat) : stage m off ws = stageFrom m off 0 ws := rfl

theorem stageFrom_cons (m : Map (Option Word)) (off n w : Nat) (ws : List Nat) :
    stageFrom m off n (w :: ws) = stageFrom (Map.put (fun _ => none) m (off + n) (some (BitVec.ofNat 72 w))) off (n + 1) ws := rfl

theorem get_stageFrom_outside {m : Map (Option Word)} {off n j : Nat} {ws : List Nat} (out : j < off + n ∨ off + n + ws.length ≤ j) :
    Map.get (fun _ => none) (stageFrom m off n ws) j = Map.get (fun _ => none) m j := by
  induction ws generalizing m n with
  | nil => rfl
  | cons w ws ih =>
    rw [List.length_cons] at out
    rw [stageFrom_cons, ih (by omega), Map.get_put_ne _ _ (by omega)]

theorem get_stageFrom_word {m : Map (Option Word)} {off n i w : Nat} {ws : List Nat} (word : ws[i]? = some w) :
    Map.get (fun _ => none) (stageFrom m off n ws) (off + n + i) = some (BitVec.ofNat 72 w) := by
  induction ws generalizing m n i with
  | nil => cases word
  | cons v ws ih =>
    rw [stageFrom_cons]
    cases i with
    | zero =>
      obtain rfl : v = w := Option.some.inj word
      rw [get_stageFrom_outside (by omega)]
      exact Map.get_put_self ..
    | succ i =>
      rw [show off + n + (i + 1) = off + (n + 1) + i by omega]
      exact ih word

/-! ## DOM_OPEN and DOM_WRITE (R125, R126) -/

section Session

variable {s : State} {o : Obj} {q : Req} {k : Nat}

theorem State.sessionOf_index {index : Nat} (here : s.sessionOf index = some k) : (s.sess k).index = index := by
  have found := List.find?_some here
  simp only [Bool.and_eq_true, decide_eq_true_eq] at found
  exact found.2

theorem State.domOpen_busy (here : s.sessionOf q.index = some k) : s.domOpen o q = (s, St.DOMAIN_BUSY) := by
  simp [State.domOpen, here]

theorem State.domOpen_free (plain : q.index ≠ 0x5000) (none_ : s.sessionOf q.index = none)
    (free : (List.range 4).find? (fun k => !(s.sess k).st.inUse) = some k) : s.domOpen o q =
      if o.size < q.d1Hi then (s, St.DOMAIN_OFFSET)
      else (s.updSess k fun _ =>
        { st := .opened, index := q.index, length := q.d1Hi, crc := q.d1Lo, last := s.ct, cls := o.commit }, St.OK) := by
  simp only [State.domOpen, none_, free, plain, if_false]

/-- The session takes the time of the request. -/
def State.touch (s : State) (k : Nat) : State := s.updSess k fun x => { x with last := s.ct }

theorem State.touch_sess (s : State) (k : Nat) : (s.touch k).sess k = { s.sess k with last := s.ct } := State.updSess_sess_self ..

variable (here : s.sessionOf q.index = some k) (opened : (s.sess k).st = .opened)
include here opened

theorem State.domWrite_opened (plain : q.index ≠ 0x5000) : s.domWrite q =
    if (s.sess k).length < q.d1Hi + q.nwords then (s.touch k, St.DOMAIN_OFFSET)
    else ((s.touch k).updSess k fun x => { x with words := stage x.words q.d1Hi q.domWords }, St.OK) := by
  simp [State.domWrite, here, opened, plain, State.touch]

/-! ## DOM_COMMIT (R127) -/

theorem State.domCommit_opened (free : s.groupBars q.r.group.toNat = none) : s.domCommit o q =
    if (s.sess k).good then (s.touch k).commitSession o q.r.group.toNat k else (s.touch k, St.DOMAIN_CHECK) := by
  simp [State.domCommit, free, here, opened, State.touch]

end Session

theorem State.domCommit_barred {s : State} {o : Obj} {q : Req} {st : Nat} (bars : s.groupBars q.r.group.toNat = some st) :
    s.domCommit o q = (s, st) := by
  simp [State.domCommit, bars]

/-- An ungrouped session of an IMMEDIATE table is in force at its commit. -/
theorem State.commitSession_imm {s : State} {o : Obj} {k : Nat} (imm : o.commit = .imm) (plain : (s.sess k).index ≠ 0x5000) :
    s.commitSession o 0 k = (s.applyItems s.lineNow false [.session k], St.OK) := by
  simp [State.commitSession, imm, plain]

/-- One of another table waits for its boundary. -/
theorem State.commitSession_waits {s : State} {o : Obj} {k : Nat} (waits : o.commit ≠ .imm) : s.commitSession o 0 k =
    (s.nextOrder.1.updSess k fun x =>
      { x with st := .pending, group := 0, order := s.nextOrder.2, skip := s.frozen o.commit, acc := s.clk }, St.OK_PENDING) := by
  simp [State.commitSession, waits]

/-! ## A table replaced (R127, R190, R324) -/

theorem State.setTab_tab_self (s : State) (index : Nat) (t : Tab) : (s.setTab index t).tab index = t := Map.get_put_self _ _ _

theorem State.calFinal_tables (s : State) (g c : Nat) : (s.calFinal g c).dict = s.dict ∧ (s.calFinal g c).tabs = s.tabs := by
  constructor
  · rw [State.calFinal, State.updCal_dict, State.setReg_dict, State.setReg_dict, State.setReg_dict]
  · rw [State.calFinal, State.updCal_tabs, State.setReg_tabs, State.setReg_tabs, State.setReg_tabs]

/-- The end of a calibration leaves the Dictionary Server and the tables alone. -/
theorem State.calAbort_tables (s : State) (detail g : Nat) : (s.calAbort detail g).dict = s.dict ∧ (s.calAbort detail g).tabs = s.tabs := by
  unfold State.calAbort
  dsimp only
  split
  · exact ⟨rfl, rfl⟩
  · repeat' split
    all_goals simp only [State.calFinal_tables, State.queueHov, State.updCal_dict, State.updCal_tabs, and_self]

/-- So does what follows from a table that is not a port's. -/
theorem State.tableEffect_tables (s : State) {index : Nat} (other : index < 0x3000 ∨ 0x4400 ≤ index) :
    (s.tableEffect index).dict = s.dict ∧ (s.tableEffect index).tabs = s.tabs := by
  unfold State.tableEffect
  dsimp only
  rw [if_neg (by omega)]
  split
  · unfold State.setsReplaced
    dsimp only
    split
    · exact State.calAbort_tables _ 3 _
    · exact ⟨rfl, rfl⟩
  · split
    · exact ⟨rfl, rfl⟩
    · exact ⟨rfl, rfl⟩

theorem Part.ports_le (p : Part) : p.ports ≤ 16 := by cases p <;> decide

/-- Nothing else is judged by a table that is not a port's. -/
theorem State.settleKeys_table (s : State) {index : Nat} (other : index < 0x3000 ∨ 0x4400 ≤ index) : s.settleKeys [256 * index] = s := by
  have page : 256 * index / 256 = index := by omega
  have windows : needsWindows (256 * index) = false := by
    simp only [needsWindows, page, Bool.or_eq_false_iff, Bool.and_eq_false_iff, decide_eq_false_iff_not, beq_eq_false_iff_ne]
    omega
  have dead : deadPort (256 * index) = none := by
    simp only [deadPort, page]
    rw [if_neg (by omega), if_neg (by omega)]
  have wave : wavePort (256 * index) = none := by
    simp only [wavePort, page]
    rw [if_neg (by omega), if_neg (by omega)]
  have scale (p : Nat) (hp : p < s.nPorts) (w : Nat) (hw : w < 4) : snaps p w (256 * index) = false := by
    have bonded : p < 16 := lt_of_lt_of_le hp s.ident.part.ports_le
    simp only [snaps, page, Bool.or_eq_false_iff, beq_eq_false_iff_ne, List.any_eq_false, beq_iff_eq, List.mem_range, Key.WAVE_SEL,
      Key.SCALE_TEMP]
    exact ⟨⟨by omega, by omega⟩, fun i hi => by omega⟩
  have still (p : Nat) (hp : p < s.nPorts) : (List.range 4).filter (fun w => snaps p w (256 * index)) = [] := by
    simp only [List.filter_eq_nil_iff, List.mem_range, Bool.not_eq_true]
    exact scale p hp
  simp only [State.settleKeys, List.any_cons, List.any_nil, windows, List.filterMap_cons, List.filterMap_nil, dead, wave]
  simp only [Bool.or_false, Bool.false_eq_true, if_false, List.contains_nil, List.filter_false]
  refine State.forEach_holds (P := (· = s)) (fun p hp t same => ?_) rfl
  rw [still p (List.mem_range.1 hp)]
  exact same

/-- An image that takes effect replaces its table and ends its session APPLIED (R127). -/
theorem State.applyItems_session (s : State) {k line : Nat} {forced : Bool} (other : (s.sess k).index < 0x3000 ∨ 0x4400 ≤ (s.sess k).index)
    (plain : (s.sess k).index ≠ 0x5000) : ((s.applyItems line forced [.session k]).sess k).st = .applied ∧
      (s.applyItems line forced [.session k]).tab (s.sess k).index = (s.sess k).image := by
  have settled : s.applyItems line forced [.session k] = s.sessionDone line forced k := State.settleKeys_table _ other
  obtain ⟨dict, tabs⟩ := (s.setTab (s.sess k).index (s.sess k).image).tableEffect_tables other
  have applied : s.applySession k = (s.setTab (s.sess k).index (s.sess k).image).tableEffect (s.sess k).index := if_neg plain
  rw [settled, State.sessionDone, applied]
  constructor
  · exact congrArg Session.st (State.updSess_sess_self _ k _)
  · rw [State.tab, State.setReg_tabs, State.updSess_tabs, tabs]
    exact State.setTab_tab_self s _ _

end Sys2Proof.Machine

namespace Sys2Proof.Proofs

open Sys2Proof.Machine

/-- Settles O32: what a session takes at DOM_OPEN, what DOM_WRITE stages, and what DOM_COMMIT makes of a good image. -/
theorem sessionsStageAndCommit : Obligations.SessionsStageAndCommit := by
  intro s o q plain
  refine ⟨fun k none_ free => ⟨fun fits => ?_, fun long => ?_⟩, fun k here => State.domOpen_busy here, fun k here opened => ?_⟩
  · rw [State.domOpen_free plain none_ free, if_neg (by omega)]
  · rw [State.domOpen_free plain none_ free, if_pos long]
  have index := State.sessionOf_index here
  have touched : ((s.touch k).sess k).index = q.index := by rw [s.touch_sess, index]
  refine ⟨fun fits words => ?_, fun long => ?_, fun st bars => State.domCommit_barred bars, fun bad free => ?_, fun good group imm => ?_,
    fun good group waits => ?_⟩
  · rw [State.domWrite_opened here opened plain, if_neg (by omega)]
    simp only [State.updSess_sess_self, s.touch_sess, stage_eq]
    refine ⟨trivial, fun i w _ word => get_stageFrom_word word, fun i out => get_stageFrom_outside (by omega), rfl⟩
  · rw [State.domWrite_opened here opened plain, if_pos long]
  · rw [State.domCommit_opened here opened free, if_neg (by simp [bad])]
    refine ⟨rfl, ?_, rfl⟩
    rw [s.touch_sess]
    exact opened
  · have ungrouped : q.r.group.toNat = 0 := by simp [group]
    rw [State.domCommit_opened here opened (if_pos ungrouped), if_pos good, ungrouped, State.commitSession_imm imm (by rw [touched]; exact plain)]
    refine ⟨rfl, rfl, fun other => ?_⟩
    have done := (s.touch k).applyItems_session (line := s.lineNow) (forced := false) (by rw [touched]; exact other) (by rw [touched]; exact plain)
    rw [touched, s.touch_sess] at done
    exact done
  · have ungrouped : q.r.group.toNat = 0 := by simp [group]
    rw [State.domCommit_opened here opened (if_pos ungrouped), if_pos good, ungrouped, State.commitSession_waits waits]
    refine ⟨rfl, ?_, rfl⟩
    rw [State.updSess_sess_self]

end Sys2Proof.Proofs
end

section
/-! Proofs about boundary scan and the keys (R137, R518, R530-R539, R552, R576). -/

namespace Sys2Proof.Machine

/-! ## The instructions (R536-R538) -/

section Jtag

variable {s : State} (on : s.on = true)
include on

/-- An instruction that is not listed acts as BYPASS; a listed one that is refused too, and is counted. -/
theorem exec_jtagInstruction (op : BitVec 8) : exec (.jtagInstruction op) s = .next
    (if ¬ jtagListed op.toNat then { s with tap := ⟨0xFF, false⟩ }
    else if s.jtagAllows op.toNat then { s with tap := ⟨op.toNat, false⟩ } else s.jtagRefuse) :=
  if_pos on

theorem exec_lcAdvance : exec .lcAdvance s = .next (if s.jtagAllows 0x40 ∧ s.otp.vendor.isSome then s.lifeTo 1 else s.jtagRefuse) :=
  if_pos on

theorem exec_lcRetire : exec .lcRetire s = .next (if s.jtagAllows 0x44 then s.retire else s.jtagRefuse) :=
  if_pos on

theorem exec_recover (image : List (BitVec 8)) {l : List Nat} (bytes : l = image.map BitVec.toNat) : exec (.recover image) s = .next
    (if ¬ s.jtagAllows 0x42 then s.jtagRefuse
    else if s.imageCheck l.length (fun off n => (l.drop off).take n) = 0 then s.updMgmt (fun m => { m with image := some l, restartDue := some 7 })
    else s.updateResult 3 (s.imageCheck l.length fun off n => (l.drop off).take n) (hdr32 l 8)) := by
  subst bytes
  exact if_pos on

end Jtag

/-! ## The table of R537 and R552 -/

section Allows

variable {s : State}

theorem State.jtagAllows_bypass : s.jtagAllows 0xFF = true ∧ s.jtagAllows 0x01 = true := ⟨rfl, rfl⟩

theorem State.jtagAllows_resting (rest : 2 ≤ s.reg Key.POWER_STATE) {op : Nat} (other : op ≠ 0xFF ∧ op ≠ 0x01) : s.jtagAllows op = false := by
  simp [State.jtagAllows, other, rest]

variable (awake : s.reg Key.POWER_STATE < 2)
include awake

theorem State.jtagAllows_sample : s.jtagAllows 0x02 = true := by
  simp [State.jtagAllows, Nat.not_le.2 awake]

theorem State.jtagAllows_debug : s.jtagAllows 0x43 = true ↔ s.reg Key.LIFECYCLE ∈ [0, 1, 4] := by
  simp [State.jtagAllows, Nat.not_le.2 awake, or_assoc]

/-- EXTEST, CLAMP and HIGHZ drive the balls, so they wait for the end of firing (R576). -/
theorem State.jtagAllows_drive {op : Nat} (drives : op ∈ [0x03, 0x04, 0x05]) :
    s.jtagAllows op = true ↔ s.reg Key.LIFECYCLE ∈ [0, 1, 4] ∧ s.armed = false := by
  simp only [List.mem_cons, List.not_mem_nil, or_false] at drives
  obtain rfl | rfl | rfl := drives <;> simp [State.jtagAllows, Nat.not_le.2 awake, or_assoc]

theorem State.jtagAllows_advance : s.jtagAllows 0x40 = true ↔ s.reg Key.LIFECYCLE = 0 := by
  simp [State.jtagAllows, Nat.not_le.2 awake]

theorem State.jtagAllows_provision : s.jtagAllows 0x41 = true ↔ s.reg Key.LIFECYCLE ≤ 1 := by
  simp [State.jtagAllows, Nat.not_le.2 awake]
  omega

theorem State.jtagAllows_retire : s.jtagAllows 0x44 = true ↔ s.reg Key.LIFECYCLE ≤ 1 := by
  simp [State.jtagAllows, Nat.not_le.2 awake]
  omega

theorem State.jtagAllows_recover : s.jtagAllows 0x42 = true ↔
    s.reg Key.LIFECYCLE = 1 ∨ 2 ≤ s.reg Key.LIFECYCLE ∧ s.reg Key.CALDERA_STATE = 3 := by
  simp [State.jtagAllows, Nat.not_le.2 awake]

end Allows

/-- LC_ADVANCE needs a BLANK unit, and LC_RETIRE one that is BLANK or FACTORY, in every power state (R530). -/
theorem State.jtagAllows_life {s : State} : (s.reg Key.LIFECYCLE ≠ 0 → s.jtagAllows 0x40 = false) ∧
    (1 < s.reg Key.LIFECYCLE → s.jtagAllows 0x44 = false) := by
  by_cases awake : s.reg Key.POWER_STATE < 2
  · exact ⟨fun h => Bool.eq_false_iff.2 (mt (State.jtagAllows_advance awake).1 h),
      fun h => Bool.eq_false_iff.2 (mt (State.jtagAllows_retire awake).1 (by omega))⟩
  · have rest (op : Nat) (other : op ≠ 0xFF ∧ op ≠ 0x01) : s.jtagAllows op = false := State.jtagAllows_resting (by omega) other
    exact ⟨fun _ => rest 0x40 (by decide), fun _ => rest 0x44 (by decide)⟩

/-! ## PROVISION (R137, R532, R537) -/

theorem State.norWrite_nor {s : State} (ok : s.nor.ok = true) (region : Nat) (f : Nor → Nor) : (s.norWrite region f).nor = f s.nor := by
  rw [State.norWrite, if_pos ok, State.updNor_nor]

/-- A write of NOR flash leaves the objects, the Dictionary Server and the OTP alone, whether the flash takes it or not. -/
theorem State.norWrite_kept (s : State) (region : Nat) (f : Nor → Nor) :
    (∀ k, (s.norWrite region f).reg k = s.reg k) ∧ (s.norWrite region f).dict = s.dict ∧ (s.norWrite region f).otp = s.otp := by
  unfold State.norWrite
  split
  · exact ⟨fun k => rfl, rfl, rfl⟩
  · exact ⟨s.raise_reg 0x14 region, s.raise_dict 0x14 region, s.raise_otp 0x14 region⟩

/-- The sequence numbers start again, and so does their floor in the flash (R137). -/
theorem State.sealRestart_eq (s : State) : s.sealRestart.reg Key.SEAL_LAST = 0 ∧ s.sealRestart.reg Key.SEAL_FLOOR = 1024 ∧
    s.sealRestart.dict.floorWrite = none ∧ (s.nor.ok = true → s.sealRestart.nor.floor = some 1024) ∧ s.sealRestart.otp = s.otp := by
  unfold State.sealRestart
  extract_lets s1
  have last : s1.reg Key.SEAL_LAST = 0 :=
    (State.setReg_reg_ne _ _ (by decide)).trans (State.setReg_reg_self _ (by positivity) (by decide))
  have floor : s1.reg Key.SEAL_FLOOR = 1024 := State.setReg_reg_self _ (by decide) (by decide)
  obtain ⟨reg, dict, otp⟩ := State.norWrite_kept { s1 with dict := { s1.dict with floorWrite := none } } 1 fun n => { n with floor := some 1024 }
  refine ⟨(reg _).trans last, (reg _).trans floor, by rw [dict], fun ok => ?_, otp⟩
  rw [State.norWrite_nor (s := { s1 with dict := { s1.dict with floorWrite := none } }) ok]

/-- K_log is a secret key of P-256 (R532; log 12). -/
theorem logKey_range (v : Nat) : 1 ≤ logKey v ∧ logKey v < ecN := by
  have order : 1 < ecN := by decide
  have below : v % (ecN - 1) < ecN - 1 := Nat.mod_lt _ (by omega)
  unfold logKey
  omega

section Provision

variable {s : State} (on : s.on = true) (awake : s.reg Key.POWER_STATE < 2) (data : BitVec 256)
include on awake

theorem exec_provision_vendor (blank : s.reg Key.LIFECYCLE = 0) : exec (.provision 1 data) s = .next
    (if s.otp.vendor.isSome then s.jtagRefuse else s.burn fun o => { o with vendor := some data.toNat }) := by
  refine (if_pos on).trans ?_
  rw [if_neg (by simp [State.jtagAllows_provision awake, blank]), blank]
  rfl

variable (factory : s.reg Key.LIFECYCLE = 1)
include factory

theorem exec_provision_kcmd : exec (.provision 2 data) s = .next (if (s.otp.kcmd.headD none).isSome then s.jtagRefuse
    else (s.burn fun o => { o with kcmd := some (data.toNat % 2 ^ 128) :: o.kcmd.tail }).sealRestart) := by
  refine (if_pos on).trans ?_
  rw [if_neg (by simp [State.jtagAllows_provision awake, factory]), factory]
  rfl

theorem exec_provision_ktrace : exec (.provision 3 data) s = .next (if s.otp.ktrace.isSome then s.jtagRefuse
    else s.burn fun o => { o with ktrace := some (data.toNat % 2 ^ 128) }) := by
  refine (if_pos on).trans ?_
  rw [if_neg (by simp [State.jtagAllows_provision awake, factory]), factory]
  rfl

theorem exec_provision_klog : exec (.provision 4 data) s = .next (if s.otp.klog.isSome then s.jtagRefuse
    else { s.burn fun o => { o with klog := some (logKey (Config.kLog s.free).toNat) } with free := s.free + 1 }) := by
  refine (if_pos on).trans ?_
  rw [if_neg (by simp [State.jtagAllows_provision awake, factory]), factory]
  rfl

end Provision

/-- Every other field is refused, in every lifecycle state. -/
theorem exec_provision_other {s : State} (on : s.on = true) {field : Nat} (data : BitVec 256)
    (other : (field, s.reg Key.LIFECYCLE) ∉ [(1, 0), (2, 1), (3, 1), (4, 1)]) : exec (.provision field data) s = .next s.jtagRefuse := by
  refine (if_pos on).trans ?_
  simp only [List.mem_cons, Prod.mk.injEq, List.not_mem_nil, or_false, not_or] at other
  obtain ⟨vendor, kcmd, ktrace, klog⟩ := other
  split
  · rfl
  · split
    case h_1 lc => exact absurd ⟨rfl, lc⟩ vendor
    case h_2 lc => exact absurd ⟨rfl, lc⟩ kcmd
    case h_3 lc => exact absurd ⟨rfl, lc⟩ ktrace
    case h_4 lc => exact absurd ⟨rfl, lc⟩ klog
    case h_5 => rfl

end Sys2Proof.Machine

namespace Sys2Proof.Proofs

open Sys2Proof.Machine

/-- Settles O59: the table of instructions, what each changes of the lifecycle, and each field of PROVISION; an instruction that is loaded
changes nothing else (log 57), and K_log is a free secret key (log 12). -/
theorem boundaryScanAndKeys : Obligations.BoundaryScanAndKeys := by
  refine ⟨fun s op on => ⟨fun unlisted => ?_, fun listed allowed => ?_, fun listed refused => ?_, fun awake _ => ?_, State.jtagAllows_bypass,
    fun awake blank vendor => ?_, fun barred => ?_, fun awake early => ?_, fun late => ?_⟩, fun s field data on awake => ⟨fun blank free => ?_,
    fun factory free => ?_, s.sealRestart_eq, fun factory free => ?_, fun factory free => ?_, fun barred => ?_, fun image l c bytes check => ?_⟩⟩
  · rw [exec_jtagInstruction on, if_pos (by simp [unlisted])]
  · rw [exec_jtagInstruction on, if_neg (by simp [listed]), if_pos allowed]
  · rw [exec_jtagInstruction on, if_neg (by simp [listed]), if_neg (by simp [refused])]
  · exact ⟨State.jtagAllows_sample awake, State.jtagAllows_debug awake, fun o => State.jtagAllows_drive awake, State.jtagAllows_advance awake,
      State.jtagAllows_provision awake, State.jtagAllows_retire awake, State.jtagAllows_recover awake⟩
  · rw [exec_lcAdvance on, if_pos ⟨(State.jtagAllows_advance awake).2 blank, vendor⟩]
  · rw [exec_lcAdvance on, if_neg]
    rintro ⟨allowed, vendor⟩
    obtain notBlank | absent := barred
    · simp [State.jtagAllows_life.1 notBlank] at allowed
    · simp [absent] at vendor
  · rw [exec_lcRetire on, if_pos ((State.jtagAllows_retire awake).2 early)]
  · rw [exec_lcRetire on, if_neg (by simp [State.jtagAllows_life.2 late])]
  · rw [exec_provision_vendor on awake data blank, if_neg (by simp [free])]
  · rw [exec_provision_kcmd on awake data factory, if_neg (by rw [free]; simp)]
  · rw [exec_provision_ktrace on awake data factory, if_neg (by simp [free])]
  · rw [exec_provision_klog on awake data factory, if_neg (by simp [free])]
    obtain ⟨positive, below⟩ := logKey_range (Config.kLog s.free).toNat
    exact ⟨_, _, rfl, positive, below, rfl⟩
  · by_cases other : (field, s.reg Key.LIFECYCLE) ∉ [(1, 0), (2, 1), (3, 1), (4, 1)]
    · exact exec_provision_other on data other
    have burned := barred.resolve_left other
    simp only [not_not, List.mem_cons, Prod.mk.injEq, List.not_mem_nil, or_false] at other
    obtain ⟨rfl, lc⟩ | ⟨rfl, lc⟩ | ⟨rfl, lc⟩ | ⟨rfl, lc⟩ := other
    · rw [exec_provision_vendor on awake data lc, if_pos (by simpa using burned)]
    · rw [exec_provision_kcmd on awake data lc, if_pos (by simpa using burned)]
    · rw [exec_provision_ktrace on awake data lc, if_pos (by simpa using burned)]
    · rw [exec_provision_klog on awake data lc, if_pos (by simpa using burned)]
  · subst check
    rw [exec_recover on image bytes]
    refine ⟨fun refused => ?_, fun allowed good => ?_, fun allowed bad => ?_⟩
    · rw [if_pos (by simp [refused])]
    · rw [if_neg (by simp [allowed]), if_pos good]
    · rw [if_neg (by simp [allowed]), if_neg bad]

end Sys2Proof.Proofs
end

section
/-! Proofs about Caldera: restarts and boot, rails and clocks, watchdog and trial time (R136, R504-R509, R521, R524, R539). -/

namespace Sys2Proof.Machine

/-! ## What an answer leaves alone (R117, R122, R140) -/

theorem State.pmc_eq (s : State) (ev q n : Nat) : ∃ regs, s.pmc ev q n = { s with regs := regs } := by
  unfold State.pmc
  split
  · exact ⟨_, rfl⟩
  · refine State.forEach_holds (P := fun t => ∃ regs, t = { s with regs := regs }) (fun k _ t only => ?_) ⟨_, rfl⟩
    obtain ⟨regs, rfl⟩ := only
    dsimp only
    split <;> exact ⟨_, rfl⟩

theorem State.traceRec_eq (s : State) (kind data : Nat) : ∃ trace, s.traceRec kind data = { s with trace := trace } := by
  unfold State.traceRec
  dsimp only
  split <;> exact ⟨_, rfl⟩

theorem State.countAnswer_eq (s : State) (q : Req) (st : Nat) : ∃ regs trace, s.countAnswer q st = { s with regs := regs, trace := trace } := by
  unfold State.countAnswer
  extract_lets s1 s2 s3
  have inc (t : State) (k : Nat) (only : ∃ regs, t = { s with regs := regs }) : ∃ regs, t.inc k = { s with regs := regs } := by
    obtain ⟨regs, rfl⟩ := only
    exact ⟨_, rfl⟩
  have counted1 : ∃ regs, s1 = { s with regs := regs } := inc s _ ⟨_, rfl⟩
  have counted2 : ∃ regs, s2 = { s with regs := regs } := by
    simp only [s2]
    split
    · exact counted1
    · exact inc s1 _ counted1
  obtain ⟨counts, counted⟩ : ∃ regs, s3 = { s with regs := regs } := by
    simp only [s3]
    split
    · exact inc s2 _ counted2
    · exact counted2
  obtain ⟨regs, events⟩ := s3.pmc_eq 0x06 0 1
  obtain ⟨trace, traced⟩ := (s3.pmc 0x06 0 1).traceRec_eq 0x05 (fld q.op.code 4 52 + fld st 8 44 + fld q.index 16 24 + fld q.sub 8 16)
  exact ⟨regs, trace, by rw [traced, events, counted]⟩

/-- An answer changes objects, the trace, the chain and what is sent. -/
theorem State.answer_rest (s : State) (q : Req) (p : Reply) (acc : Nat) :
    ∃ regs trace link out, s.answer q p acc = { s with regs := regs, trace := trace, link := link, out := out } := by
  obtain ⟨regs, trace, counted⟩ := s.countAnswer_eq q p.status
  unfold State.answer
  dsimp only
  obtain ⟨u, d, out, leaves⟩ := (s.countAnswer q p.status).nextSeq.1.sendFrame_eq (s.countAnswer q p.status).nextSeq.1.activeUp 0x0B
    (s.countAnswer q p.status).nextSeq.2 0 (BitVec.ofNat 64 (drspD0 q p) :: BitVec.ofNat 64 acc :: p.data)
  rw [leaves, counted]
  exact ⟨regs, trace, _, out, rfl⟩

/-- From `s` to `t` requests have ended: beside the counts of answers and broadcasts, the trace, what is sent, and the Dictionary Server,
which holds the same requests for Caldera, nothing has changed. -/
structure State.Concluded (s t : State) : Prop where
  fw : t.dict.fw = s.dict.fw
  reg : ∀ k, k ∉ bookKeys → k ∉ [Key.BCAST_REFUSED, Key.BCAST_LAST_STATUS] → t.reg k = s.reg k
  mgmt : t.mgmt = s.mgmt
  ports : t.ports = s.ports
  pos : t.pos = s.pos
  grid : t.grid = s.grid
  mem : t.mem = s.mem
  tabs : t.tabs = s.tabs
  dma : t.dma = s.dma
  cals : t.cals = s.cals
  cams : t.cams = s.cams
  loop : t.loop = s.loop
  nor : t.nor = s.nor
  otp : t.otp = s.otp

namespace State.Concluded

variable {s t u : State}

theorem refl (s : State) : s.Concluded s := ⟨rfl, fun _ _ _ => rfl, rfl, rfl, rfl, rfl, rfl, rfl, rfl, rfl, rfl, rfl, rfl, rfl⟩

theorem trans (h : s.Concluded t) (g : t.Concluded u) : s.Concluded u where
  fw := g.fw.trans h.fw
  reg k other bcast := (g.reg k other bcast).trans (h.reg k other bcast)
  mgmt := g.mgmt.trans h.mgmt
  ports := g.ports.trans h.ports
  pos := g.pos.trans h.pos
  grid := g.grid.trans h.grid
  mem := g.mem.trans h.mem
  tabs := g.tabs.trans h.tabs
  dma := g.dma.trans h.dma
  cals := g.cals.trans h.cals
  cams := g.cams.trans h.cams
  loop := g.loop.trans h.loop
  nor := g.nor.trans h.nor
  otp := g.otp.trans h.otp

theorem ite {c : Prop} {_ : Decidable c} (ht : s.Concluded t) (hu : s.Concluded u) : s.Concluded (if c then t else u) := by
  split
  · exact ht
  · exact hu

/-- A change of the Dictionary Server's own records. -/
theorem dict (s : State) {d : Dict} (fw : d.fw = s.dict.fw) : s.Concluded { s with dict := d } :=
  ⟨fw, fun _ _ _ => rfl, rfl, rfl, rfl, rfl, rfl, rfl, rfl, rfl, rfl, rfl, rfl, rfl⟩

theorem answer (s : State) (q : Req) (p : Reply) (acc : Nat) : s.Concluded (s.answer q p acc) := by
  have reg (k : Nat) (other : k ∉ bookKeys) : (s.answer q p acc).reg k = s.reg k := by
    obtain ⟨t, link, out, kept, sent⟩ := s.answer_eq q p acc
    rw [sent]
    exact kept.reg k other
  obtain ⟨regs, trace, link, out, only⟩ := s.answer_rest q p acc
  rw [only] at reg ⊢
  exact ⟨rfl, fun k other _ => reg k other, rfl, rfl, rfl, rfl, rfl, rfl, rfl, rfl, rfl, rfl, rfl, rfl⟩

theorem bcastDone (s : State) (st : Nat) : s.Concluded (s.bcastDone st) := by
  refine .ite (refl s) ⟨rfl, fun k _ bcast => ?_, rfl, rfl, rfl, rfl, rfl, rfl, rfl, rfl, rfl, rfl, rfl, rfl⟩
  simp only [List.mem_cons, List.not_mem_nil, or_false, not_or] at bcast
  rw [State.setReg_reg_ne _ _ bcast.2, State.inc_reg_ne _ bcast.1]

theorem finish (s : State) (q : Req) (took : Bool) (p : Reply) (acc : Nat) : s.Concluded (s.finish q took p acc) := by
  have ended (t : State) (h : s.Concluded t) : s.Concluded (if q.bcast then t.bcastDone p.status else t.answer q p acc) :=
    h.trans (.ite (bcastDone t _) (answer t q p acc))
  exact ended _ (.ite (dict s rfl) (refl s))

theorem poison (s : State) (g : Nat) : s.Concluded (s.poison g) := by
  unfold State.poison
  split
  · exact dict s rfl
  · exact refl s
  · exact refl s
  · exact dict s rfl

theorem conclude (s : State) (q : Req) (took : Bool) (p : Reply) (acc : Nat) : s.Concluded (s.conclude q took p acc) := by
  have ended (t : State) (h : s.Concluded t) : s.Concluded (t.finish q took p acc) := h.trans (finish t q took p acc)
  exact ended _ (.ite (poison s _) (refl s))

theorem forEach {f : Nat → State → State} (hf : ∀ k t, State.Concluded t (f k t)) (l : List Nat) (s : State) : s.Concluded (s.forEach l f) :=
  State.forEach_holds (P := s.Concluded) (fun k _ t kept => kept.trans (hf k t)) (refl s)

theorem foldl {α : Type} {f : State → α → State} (hf : ∀ t a, State.Concluded t (f t a)) (l : List α) (s : State) :
    s.Concluded (l.foldl f s) := by
  induction l generalizing s with
  | nil => exact refl s
  | cons a l ih => exact (hf s a).trans (ih (f s a))

end State.Concluded

/-- Caldera stops with no request left; beside that nothing but what ends of requests touch has changed (R140). -/
theorem State.fwDown_concluded (s : State) : State.Concluded { s with dict := { s.dict with fw := [] } } s.fwDown := by
  unfold State.fwDown
  extract_lets own s1 held
  have sessions : s.Concluded s1 := by
    refine .forEach (fun k t => ?_) (List.range 4) s
    exact .ite (.dict t rfl) (.refl t)
  clear_value s1
  have answered : State.Concluded { s1 with dict := { s1.dict with fw := [] } } _ :=
    .foldl (fun t (f : FwReq) => .conclude t f.req f.r.sealed ⟨St.CALDERA_DOWN, false, false, []⟩ f.acc) s1.dict.fw _
  exact ⟨answered.fw, fun k other bcast => (answered.reg k other bcast).trans (sessions.reg k other bcast),
    answered.mgmt.trans sessions.mgmt, answered.ports.trans sessions.ports, answered.pos.trans sessions.pos, answered.grid.trans sessions.grid,
    answered.mem.trans sessions.mem, answered.tabs.trans sessions.tabs, answered.dma.trans sessions.dma, answered.cals.trans sessions.cals,
    answered.cams.trans sessions.cams, answered.loop.trans sessions.loop, answered.nor.trans sessions.nor, answered.otp.trans sessions.otp⟩

/-! ## Restart (R504, R505) -/

/-- What a restart with cause `n` leaves. -/
theorem State.restartNow_eq (s : State) {n : Nat} (code : n < 256) : (s.restartNow n).reg Key.CALDERA_STATE = 1 ∧
    (s.restartNow n).reg Key.RESTART_CAUSE = n ∧
    (s.restartNow n).reg Key.CALDERA_RESTARTS = (s.reg Key.CALDERA_RESTARTS + 1) % 2 ^ keyWidth Key.CALDERA_RESTARTS ∧
    ∀ k, k ∉ bookKeys → k ∉ [Key.CALDERA_STATE, Key.RESTART_CAUSE, Key.CALDERA_RESTARTS, Key.BCAST_REFUSED, Key.BCAST_LAST_STATUS] →
      (s.restartNow n).reg k = s.reg k := by
  have down (k : Nat) (other : k ∉ bookKeys) (bcast : k ∉ [Key.BCAST_REFUSED, Key.BCAST_LAST_STATUS]) : s.fwDown.reg k = s.reg k :=
    s.fwDown_concluded.reg k other bcast
  have regs (k : Nat) : (s.restartNow n).reg k =
      ((((s.fwDown).setReg Key.CALDERA_STATE 1).inc Key.CALDERA_RESTARTS).setReg Key.RESTART_CAUSE n).reg k := by
    unfold State.restartNow
    generalize s.fwDown = d
    rfl
  refine ⟨?_, ?_, ?_, fun k other own => ?_⟩
  · rw [regs, State.setReg_reg_ne _ _ (by decide), State.inc_reg_ne _ (by decide), State.setReg_reg_self _ (by decide) (by decide)]
  · rw [regs, State.setReg_reg_self _ code (by decide)]
  · rw [regs, State.setReg_reg_ne _ _ (by decide), State.inc_reg_self _ (by decide), State.setReg_reg_ne _ _ (by decide),
      down _ (by decide) (by decide)]
  · simp only [List.mem_cons, List.not_mem_nil, or_false, not_or] at own
    obtain ⟨state, cause, restarts, refused, status⟩ := own
    rw [regs, State.setReg_reg_ne _ _ cause, State.inc_reg_ne _ restarts, State.setReg_reg_ne _ _ state,
      down k other (by simp [refused, status])]

/-- What firmware held is gone, and no other block is touched (R504). -/
theorem State.restartNow_rest (s : State) (n : Nat) : (s.restartNow n).mgmt.restartDue = none ∧ (s.restartNow n).mgmt.queue = [] ∧
    (s.restartNow n).dict.fw = [] ∧ (n ≠ 7 → (s.restartNow n).mgmt.image = none) ∧
    (s.restartNow n).ports = s.ports ∧ (s.restartNow n).pos = s.pos ∧ (s.restartNow n).grid = s.grid ∧ (s.restartNow n).mem = s.mem ∧
    (s.restartNow n).tabs = s.tabs ∧ (s.restartNow n).dma = s.dma ∧ (s.restartNow n).cals = s.cals ∧ (s.restartNow n).cams = s.cams ∧
    (s.restartNow n).loop = s.loop ∧ (s.restartNow n).nor = s.nor ∧ (s.restartNow n).otp = s.otp := by
  have down := s.fwDown_concluded
  unfold State.restartNow
  generalize s.fwDown = d at down ⊢
  have empty : d.dict.fw = [] := down.fw
  simp +contextual [empty, down.ports, down.pos, down.grid, down.mem, down.tabs, down.dma, down.cals, down.cams, down.loop, down.nor,
    down.otp]

section On

variable {s : State} (on : s.on = true)
include on

/-- A restart that is due begins once Caldera's clock runs (R508). -/
theorem exec_calderaRestart {c : RestartCause} {n : Nat}
    (cause : (c, n) ∈ [(RestartCause.powerOn, 0), (.chipReset, 1), (.watchdog, 2), (.blockReset, 3), (.activate, 5), (.abort, 6), (.recover, 7),
      (.clock, 8)]) : n < 256 ∧
    exec (.calderaRestart c) s = .next (if s.mgmt.restartDue = some n ∧ s.calderaClocked then s.restartNow n else s) := by
  simp only [List.mem_cons, Prod.mk.injEq, List.not_mem_nil, or_false] at cause
  rcases cause with ⟨rfl, rfl⟩ | ⟨rfl, rfl⟩ | ⟨rfl, rfl⟩ | ⟨rfl, rfl⟩ | ⟨rfl, rfl⟩ | ⟨rfl, rfl⟩ | ⟨rfl, rfl⟩ | ⟨rfl, rfl⟩
  all_goals exact ⟨by decide, if_pos on⟩

theorem exec_wdtExpire : exec .wdtExpire s = .next
    (if (s.calderaUp ∨ s.mgmt.hostAt = some s.clk) ∧ s.mgmt.wdtFrom + 500000 * s.reg Key.WDT_PERIOD ≤ s.clk then
      (s.updMgmt fun m => { m with wdtAt := some s.clk }).raise 0x11 0
    else s) :=
  if_pos on

/-! ## Boot (R505, R509, R521, R539) -/

section Boot

variable (booting : s.reg Key.CALDERA_STATE = 1) (clocked : s.calderaClocked = true)
include booting clocked

/-- A recovered image runs from neither bank (R539); a floor that cannot be established is reported (R136). -/
theorem exec_calderaRunning_image {img : List Nat} (image : s.bootFloor.mgmt.image = some img) : exec .calderaRunning s = .next
    ((if s.bootFloor.reg Key.SEAL_FLOOR = 0 then s.bootFloor.raise 0x14 1 else s.bootFloor).firmwareStart 0xFF (hdr32 img 12) (hdr32 img 8)
      false) := by
  refine (if_pos on).trans ?_
  rw [if_neg (by simp [booting, clocked])]
  simp only [image]

variable (image : s.bootFloor.mgmt.image = none)
include image

/-- Without a recovered image and without a flash that answers, Caldera halts (R509). -/
theorem exec_calderaRunning_unread (bad : s.bootFloor.nor.ok = false) : exec .calderaRunning s = .next (s.bootFloor.haltCaldera 0) := by
  refine (if_pos on).trans ?_
  rw [if_neg (by simp [booting, clocked])]
  simp only [image, bad, Bool.false_eq_true, not_false_eq_true, if_true]

variable (ok : s.bootFloor.nor.ok = true) {w : State}
include ok

/-- Where no bank verifies, Caldera halts; else it runs the bank picked (R505, R521). -/
theorem exec_calderaRunning_halts (picked : ((s.bootFloor.reportBank 0).reportBank 1).pickBank = (w, none)) :
    exec .calderaRunning s = .next (w.haltCaldera 2) := by
  refine (if_pos on).trans ?_
  rw [if_neg (by simp [booting, clocked])]
  simp only [image, ok, not_true_eq_false, if_false, picked]

theorem exec_calderaRunning_starts {b : Nat} {trial : Bool}
    (picked : ((s.bootFloor.reportBank 0).reportBank 1).pickBank = (w, some (b, trial))) :
    exec .calderaRunning s = .next (w.firmwareStart b (w.bankVersion b) (w.bankSvn b) trial) := by
  refine (if_pos on).trans ?_
  rw [if_neg (by simp [booting, clocked])]
  simp only [image, ok, not_true_eq_false, if_false, picked]

end Boot

theorem exec_calderaRunning_waits (waits : s.reg Key.CALDERA_STATE ≠ 1 ∨ s.calderaClocked = false) : exec .calderaRunning s = .next s := by
  refine (if_pos on).trans ?_
  rw [if_pos (by simpa using waits)]

/-! ## Clocks and trial (R507, R508, R524) -/

theorem exec_clockFail (c : Fin 5) : exec (.clockFail c) s = .next
    (if c.val = 4 then (((s.setRegBit Key.CLOCK_STATUS c true).cause (clockSource c) 0 true 0).fwDown).setReg Key.CALDERA_STATE 0
    else (s.setRegBit Key.CLOCK_STATUS c true).cause (clockSource c) 0 true 0) :=
  if_pos on

theorem exec_clockRecover (c : Fin 5) : exec (.clockRecover c) s = .next
    (if ¬ bit (s.reg Key.CLOCK_STATUS) c then s
    else if c.val = 4 then ((s.setRegBit Key.CLOCK_STATUS c false).cause (clockSource c) 0 false 0).updMgmt fun m => { m with restartDue := some 8 }
    else (s.setRegBit Key.CLOCK_STATUS c false).cause (clockSource c) 0 false 0) :=
  if_pos on

theorem exec_trialTimeout : exec .trialTimeout s = .next (if s.trialOver then s.abortUpdate 2 else s) :=
  if_pos on

end On

end Sys2Proof.Machine

namespace Sys2Proof.Proofs

open Sys2Proof.Machine

/-- Settles O57: what each cause of a restart begins, what the boot ROM then does (log 53 for the DETAIL of a halt and the whole boot as one
command), and the monitors. -/
theorem calderaRestartsAndBoots : Obligations.CalderaRestartsAndBoots := by
  refine ⟨fun s c n on cause => ?_, fun s u v on hu hv => ?_, fun s r c on => ?_⟩
  · obtain ⟨code, run⟩ := exec_calderaRestart on cause
    refine ⟨fun idle => ?_, fun due clocked => ?_, fun up late => ?_, fun idle => ?_⟩
    · rw [run, if_neg (by simpa [imp_iff_not_or] using idle)]
    · rw [if_pos ⟨due, clocked⟩] at run
      obtain ⟨state, reason, restarts, others⟩ := s.restartNow_eq code
      obtain ⟨none_, queue, fw, image, untouched⟩ := s.restartNow_rest n
      exact ⟨_, run, state, reason, restarts, none_, queue, fw, image, others, untouched⟩
    · rw [exec_wdtExpire on, if_pos ⟨up, late⟩]
    · rw [exec_wdtExpire on, if_neg]
      rintro ⟨up, late⟩
      obtain ⟨down, other⟩ | early := idle
      · exact up.elim (by simp [down]) other
      · omega
  · rw [hu] at hv ⊢
    rw [hv]
    refine ⟨exec_calderaRunning_waits on, fun img booting clocked image => ?_, fun booting clocked image bad => ?_,
      fun w booting clocked image ok picked => ?_, fun w b trial booting clocked image ok picked => ?_⟩
    · rw [exec_calderaRunning_image on booting clocked image]
    · rw [exec_calderaRunning_unread on booting clocked image bad]
    · rw [exec_calderaRunning_halts on booting clocked image ok picked]
    · rw [exec_calderaRunning_starts on booting clocked image ok picked]
  · refine ⟨if_pos on, if_pos on, fun other => ?_, fun own => ?_, fun fine_ => ?_, fun bad other => ?_, fun bad own => ?_, fun past => ?_,
      fun runs => ?_⟩
    · rw [exec_clockFail on, if_neg other]
    · rw [exec_clockFail on, if_pos own]
    · rw [exec_clockRecover on, if_pos (by simp [fine_])]
    · rw [exec_clockRecover on, if_neg (by simp [bad]), if_neg other]
    · rw [exec_clockRecover on, if_neg (by simp [bad]), if_pos own]
    · rw [exec_trialTimeout on, if_pos past]
    · rw [exec_trialTimeout on, if_neg (by simp [runs])]

end Sys2Proof.Proofs
end

section
/-! Proofs about the Position Base: encoder edges (R145-R149, R155), a counted edge (R147, R148, R167), and the spreading of a correction
over its ticks (R152). -/

namespace Sys2Proof.Machine

/-! ## Edges of the encoder (R145, R146, R149, R155) -/

section Encoder

variable {s : State}

theorem exec_encEdge_same {level : Bool} (on : s.on = true) (reverted : Bool) (same : level = s.pos.raw) :
    exec (.encEdge level reverted) s = .next s :=
  (if_pos on).trans (congrArg _ (if_pos same))

/-- A change of the level is judged by the filter while the block is clocked. -/
theorem exec_encEdge_change {level : Bool} (clocked : s.clocked = true) (reverted : Bool) (change : level ≠ s.pos.raw) :
    exec (.encEdge level reverted) s = .next (if reverted = true ∧ s.reg Key.ENC_GLITCH ≠ 0 then s.inc Key.TICK_GLITCH
      else ((s.updPos fun p => { p with raw := level }).acceptEdge (level != s.flag Key.ENC_INVERT) (s.ct - s.reg Key.ENC_GLITCH)).syncEncOut) :=
  (if_pos (State.on_of_clocked clocked)).trans (congrArg _ ((if_neg change).trans (if_neg (by simp [clocked]))))

theorem exec_encLineFault (clocked : s.clocked = true) : exec .encLineFault s =
    .next (if s.lineJudged then (s.updPos fun p => { p with lineBad := true }).cause 0x20 0 true 0 else s) :=
  if_pos clocked

theorem exec_encLineClear (on : s.on = true) :
    exec .encLineClear s = .next ((s.updPos fun p => { p with lineBad := false }).cause 0x20 0 false 0) :=
  if_pos on

theorem exec_encDirEdge (on : s.on = true) (level : Bool) : exec (.encDirEdge level) s = .next (s.updPos fun p => { p with
    dirPrev := if p.dirAt ≤ s.clk then p.dirPin else p.dirPrev, dirPin := level, dirAt := s.clk + 10 }) :=
  if_pos on

/-- While counting is off or the line is bad no edge counts (R149). -/
theorem State.acceptEdge_suspended (rising : Bool) (t : Nat) (off : s.flag Key.ENC_ENABLE = false ∨ s.pos.lineBad = true) :
    s.acceptEdge rising t = s :=
  if_pos (by simpa using off)

end Encoder

/-! ## Numbers -/

theorem unsgn_modEq (w : Nat) (x : Int) : (unsgn w x : Int) ≡ x [ZMOD 2 ^ w] := by
  rw [unsgn, Int.toNat_of_nonneg (Int.emod_nonneg _ (by positivity))]
  exact Int.mod_modEq x _

theorem unsgn_of_modEq {w : Nat} {a : Nat} {x : Int} (h : (a : Int) ≡ x [ZMOD 2 ^ w]) : a % 2 ^ w = unsgn w x := by
  rw [unsgn, ← h]
  exact_mod_cast (Int.toNat_natCast (a % 2 ^ w)).symm

theorem tdiv_eq_sign_mul {v : Int} (nonzero : v ≠ 0) (n : Nat) : v.tdiv n = v.sign * (v.natAbs / n : Nat) := by
  obtain ⟨k, rfl | rfl⟩ := v.eq_nat_or_neg
  · rw [Int.sign_natCast_of_ne_zero (by simpa using nonzero), one_mul, Int.natAbs_natCast]
    rfl
  · rw [Int.neg_tdiv, Int.sign_neg, Int.sign_natCast_of_ne_zero (by simpa using nonzero), neg_one_mul, Int.natAbs_neg, Int.natAbs_natCast]
    rfl

theorem sign_eq_one_or_neg_one {v : Int} (nonzero : v ≠ 0) : v.sign = 1 ∨ v.sign = -1 :=
  (lt_or_gt_of_ne nonzero).elim (fun neg => .inr (Int.sign_eq_neg_one_of_neg neg)) (fun pos => .inl (Int.sign_eq_one_of_pos pos))

/-! ## A correction spread over its ticks (R152) -/

/-- The st of a plain tick, in the direction in force. -/
def Pos.plainTick (p : Pos) : Int := if p.rev then -256 else 256

theorem Pos.tickMove_eq (p : Pos) : p.tickMove = p.plainTick + p.tickShare := by
  simp only [Pos.tickShare, Pos.plainTick]
  ring

theorem Pos.tickShare_idle {p : Pos} (idle : p.n = 0) : p.tickShare = 0 := by
  simp [Pos.tickShare, Pos.tickMove, idle]

section Tick

variable (p : Pos) (m : Nat)

theorem Pos.tick_pending : (p.tick m).pending = p.pending - p.tickShare := by
  unfold Pos.tick
  by_cases idle : p.n = 0
  · simp [idle, Pos.tickShare_idle idle, Pos.move]
  · simp [idle]

theorem Pos.tick_pos : (p.tick m).pos = unsgn 48 (p.pos + (p.plainTick + p.tickShare)) := by
  rw [← Pos.tickMove_eq]
  unfold Pos.tick
  split <;> rfl

@[simp] theorem Pos.tick_plainTick : (p.tick m).plainTick = p.plainTick := by
  unfold Pos.tick
  split <;> rfl

end Tick

/-- A tick moves st from PENDING to the position and adds its own: their sum grows by one plain tick. -/
theorem Pos.tick_total (p : Pos) (m : Nat) :
    ((p.tick m).pos : Int) + (p.tick m).pending ≡ p.pos + p.pending + p.plainTick [ZMOD 2 ^ 48] := by
  rw [p.tick_pos, p.tick_pending]
  calc (unsgn 48 (p.pos + (p.plainTick + p.tickShare)) : Int) + (p.pending - p.tickShare)
      ≡ p.pos + (p.plainTick + p.tickShare) + (p.pending - p.tickShare) [ZMOD 2 ^ 48] := (unsgn_modEq 48 _).add_right _
    _ = p.pos + p.pending + p.plainTick := by ring

@[simp] theorem Pos.iterate_tick_plainTick (p : Pos) (m i : Nat) : ((Pos.tick m)^[i] p).plainTick = p.plainTick := by
  induction i with
  | zero => rfl
  | succ i ih => rw [Function.iterate_succ_apply', Pos.tick_plainTick, ih]

theorem Pos.iterate_tick_total (p : Pos) (m i : Nat) :
    (((Pos.tick m)^[i] p).pos : Int) + ((Pos.tick m)^[i] p).pending ≡ p.pos + p.pending + p.plainTick * i [ZMOD 2 ^ 48] := by
  induction i with
  | zero => simp
  | succ i ih =>
    rw [Function.iterate_succ_apply']
    calc _ ≡ _ [ZMOD 2 ^ 48] := Pos.tick_total _ m
      _ ≡ p.pos + p.pending + p.plainTick * i + p.plainTick [ZMOD 2 ^ 48] := by
        rw [Pos.iterate_tick_plainTick]
        exact ih.add_right _
      _ = p.pos + p.pending + p.plainTick * (i + 1 : Nat) := by push_cast; ring

/-- A slew of sign `e` has `n` ticks left, each of which takes `g` st, and the next `r` of them one more. -/
structure Pos.Slews (e : Int) (g r n : Nat) (p : Pos) : Prop where
  ticks : p.n = n
  share : p.q = e * g
  extra : p.rm = r
  rest : p.pending = e * (g * n + r)
  fits : r ≤ n

/-- The sign of what is left is that of the whole, so the extra st goes the same way to the end. -/
theorem Pos.Slews.tickShare {e : Int} {g r n : Nat} {p : Pos} (h : p.Slews e g r (n + 1)) (sign : e = 1 ∨ e = -1) :
    p.tickShare = e * (g + if r = 0 then 0 else 1) := by
  have share : p.tickShare = p.q + if p.rm = 0 then 0 else if 0 < p.pending then 1 else -1 := by
    simp [Pos.tickShare, Pos.tickMove, h.ticks]
  rw [share, h.share, h.extra, h.rest, mul_add]
  by_cases done : r = 0
  · simp [done]
  · have left : (0 : Int) < g * (n + 1 : Nat) + r := by positivity
    rw [if_neg done, if_neg done]
    obtain rfl | rfl := sign
    · rw [if_pos (by linarith), one_mul, one_mul]
    · rw [if_neg (by linarith)]
      ring

theorem Pos.Slews.tick {e : Int} {g r n : Nat} {p : Pos} (h : p.Slews e g r (n + 1)) (sign : e = 1 ∨ e = -1) (m : Nat) :
    (p.tick m).Slews e g (r - 1) n := by
  have busy : p.tick m = { p.move m p.tickMove with pending := p.pending - p.tickShare, n := p.n - 1, rm := p.rm - 1 } := by
    simp [Pos.tick, h.ticks]
  refine ⟨by rw [busy, h.ticks]; rfl, by rw [busy]; exact h.share, by rw [busy, h.extra], ?_, by have := h.fits; omega⟩
  rw [p.tick_pending, h.tickShare sign, h.rest]
  cases r with
  | zero => push_cast; ring
  | succ r => push_cast; ring

theorem Pos.Slews.iterate_tick {e : Int} {g r n : Nat} {p : Pos} (h : p.Slews e g r n) (sign : e = 1 ∨ e = -1) (m : Nat)
    {i : Nat} (le : i ≤ n) : ((Pos.tick m)^[i] p).Slews e g (r - i) (n - i) := by
  induction i with
  | zero => exact h
  | succ i ih =>
    have now := ih (by omega)
    rw [show n - i = n - (i + 1) + 1 by omega] at now
    rw [Function.iterate_succ_apply', Nat.sub_succ' r i]
    exact now.tick sign m

/-- N of a correction `v` (R152). -/
def slewTicks (v : Int) : Nat := max 64 (ceilDiv v.natAbs 32)

theorem slewTicks_pos (v : Int) : 0 < slewTicks v := lt_max_of_lt_left (by decide)

theorem Pos.setPending_eq (p : Pos) {v : Int} (nonzero : v ≠ 0) :
    p.setPending v = { p with
      pending := v, n := slewTicks v, q := v.tdiv (slewTicks v), rm := v.natAbs - (v.tdiv (slewTicks v)).natAbs * slewTicks v } :=
  if_neg nonzero

theorem Pos.setPending_slews (p : Pos) {v : Int} (nonzero : v ≠ 0) :
    (p.setPending v).Slews v.sign (v.natAbs / slewTicks v) (v.natAbs % slewTicks v) (slewTicks v) := by
  rw [p.setPending_eq nonzero]
  refine ⟨rfl, tdiv_eq_sign_mul nonzero _, ?_, ?_, (Nat.mod_lt _ (slewTicks_pos v)).le⟩
  · change v.natAbs - (v.tdiv (slewTicks v)).natAbs * slewTicks v = _
    rw [Int.natAbs_tdiv, Int.natAbs_natCast]
    exact Nat.mod_eq_sub_div_mul.symm
  · have whole : ((v.natAbs / slewTicks v : Nat) : Int) * slewTicks v + (v.natAbs % slewTicks v : Nat) = v.natAbs := by
      exact_mod_cast Nat.div_add_mod' v.natAbs (slewTicks v)
    rw [whole]
    exact (Int.sign_mul_natAbs v).symm

/-- N ticks of at most 32 st suffice for `v`, so an extra st is taken only where the share is less than 32. -/
theorem slewShare_le (v : Int) : v.natAbs / slewTicks v + (if v.natAbs % slewTicks v = 0 then 0 else 1) ≤ 32 := by
  have enough : v.natAbs ≤ 32 * slewTicks v := by
    have rounded : ceilDiv v.natAbs 32 ≤ slewTicks v := le_max_right _ _
    rw [ceilDiv] at rounded
    omega
  by_cases even : v.natAbs % slewTicks v = 0
  · rw [if_pos even, add_zero]
    exact Nat.div_le_of_le_mul (by rwa [mul_comm])
  · rw [if_neg even, Nat.succ_le_iff, Nat.div_lt_iff_lt_mul (slewTicks_pos v)]
    refine lt_of_le_of_ne enough fun all => even ?_
    rw [all, Nat.mul_mod_left]

/-- No tick takes more than 32 st of a correction. -/
theorem Pos.setPending_tickShare_le (p : Pos) (m : Nat) {v : Int} (nonzero : v ≠ 0) {i : Nat} (during : i < slewTicks v) :
    ((Pos.tick m)^[i] (p.setPending v)).tickShare.natAbs ≤ 32 := by
  have sign := sign_eq_one_or_neg_one nonzero
  have now := (p.setPending_slews nonzero).iterate_tick sign m during.le
  rw [show slewTicks v - i = slewTicks v - i - 1 + 1 by omega] at now
  rw [now.tickShare sign, Int.natAbs_mul, Int.natAbs_sign_of_ne_zero nonzero, one_mul]
  refine le_trans ?_ (slewShare_le v)
  norm_cast
  refine Nat.add_le_add_left ?_ _
  split_ifs <;> omega

/-! ## A counted edge (R147, R148, R152, R167) -/

/-- The edge at `t` follows the last one within 20 ct (R148). -/
def State.overRate (s : State) (t : Nat) : Bool := s.pos.tLast.any fun last => decide (t < last + 20)

/-- A counted edge judges the rate, and then it is one tick with its stamp: intervals, slip ticks and ticks of the clock follow too. -/
theorem State.countEdge_eq (s : State) (t : Nat) : ∃ ivals steps clk now,
    s.countEdge t = (if s.overRate t then (s.inc Key.TICK_OVERRATE).raise 0x21 0 else s).updPos fun _ =>
      { s.pos.tick (s.reg Key.SSI_MODULUS) with
        ivals := ivals, gapTicks := 0, fresh := false, tLast := some t, stopped := false
        hist := ((t, (s.pos.tick (s.reg Key.SSI_MODULUS)).pos) :: s.pos.hist).take 257
        stepTicks := steps, tickClk := clk, tickNow := now } := by
  unfold State.countEdge State.overRate State.updPos
  cases s.pos.tLast with
  | none => exact ⟨_, _, _, _, rfl⟩
  | some last =>
    simp only [Option.any_some, decide_eq_true_eq]
    split
    · simp only [State.raise_pos, State.inc_pos]
      exact ⟨_, _, _, _, rfl⟩
    · exact ⟨_, _, _, _, rfl⟩

theorem State.countEdge_reg (s : State) (t : Nat) {k : Nat} (other : k ≠ Key.TICK_OVERRATE) : (s.countEdge t).reg k = s.reg k := by
  obtain ⟨_, _, _, _, counted⟩ := s.countEdge_eq t
  rw [counted, State.updPos_reg]
  split
  · rw [State.raise_reg, State.inc_reg_ne s other]
  · rfl

/-- Every part has source 0x21, which an over-rate raises (R475). -/
theorem srcExists_overRate (ports : Nat) : srcExists ports 0x21 = true := rfl

/-- Edges closer than 20 ct are counted and raised (R148). -/
theorem State.countEdge_overRate {s : State} {t last : Nat} (before : s.pos.tLast = some last) (close : t < last + 20) :
    (s.countEdge t).reg Key.TICK_OVERRATE = (s.reg Key.TICK_OVERRATE + 1) % 2 ^ keyWidth Key.TICK_OVERRATE ∧
      (s.countEdge t).faults.raised = s.faults.raised ++ [⟨0x21, 0, false⟩] := by
  obtain ⟨_, _, _, _, counted⟩ := s.countEdge_eq t
  rw [counted, if_pos (by simp [State.overRate, before, close]), State.updPos_reg, State.updPos_faults, State.raise_reg, State.raise_eq,
    if_pos (srcExists_overRate _)]
  exact ⟨s.inc_reg_self (by decide), rfl⟩

end Sys2Proof.Machine

namespace Sys2Proof.Proofs

open Sys2Proof.Machine

/-- Settles O22: what the filter makes of a change of the level (`exec_encEdge_change`), and a counted edge as one tick with its stamp
(`countEdge_eq`). -/
theorem encoderEdgesMoveThePosition : Obligations.EncoderEdgesMoveThePosition := by
  refine ⟨fun s level clocked => ?_, fun s t => ?_⟩
  · have on := State.on_of_clocked clocked
    refine ⟨fun reverted same => exec_encEdge_same on reverted same, fun change filtered => ?_, fun reverted change taken => ?_,
      fun enabled pair => ?_, fun other => ?_, exec_encLineClear on, fun rising t off => State.acceptEdge_suspended rising t off,
      ⟨_, exec_encDirEdge on level, rfl, rfl, rfl, rfl, fun _ => rfl, rfl, rfl, rfl, rfl⟩⟩
    · rw [exec_encEdge_change clocked true change, if_pos ⟨rfl, filtered⟩]
    · rw [exec_encEdge_change clocked reverted change, if_neg]
      rintro ⟨back, filtered⟩
      exact taken.elim (by simp [back]) filtered
    · rw [exec_encLineFault clocked, if_pos (by simp [State.lineJudged, enabled, pair])]
    · rw [exec_encLineFault clocked, if_neg (by simpa [State.lineJudged, imp_iff_not_or] using other)]
  · obtain ⟨_, _, _, _, counted⟩ := s.countEdge_eq t
    have pos := congrArg State.pos counted
    rw [State.updPos_pos] at pos
    rw [pos]
    refine ⟨?_, s.pos.tick_pending _, rfl, rfl, rfl, fun k other => s.countEdge_reg t other,
      fun last before close => State.countEdge_overRate before close⟩
    rw [add_assoc]
    exact s.pos.tick_pos _

/-- Settles O23: what is left of a correction stays its share for each tick left and one more st for some of them (`Pos.Slews`), and position
and PENDING together grow by one plain tick at a time (`Pos.iterate_tick_total`). -/
theorem pendingIsSpreadExactly : Obligations.PendingIsSpreadExactly := by
  intro p m v nonzero
  have n : (p.setPending v).n = slewTicks v := (p.setPending_slews nonzero).ticks
  have done := (p.setPending_slews nonzero).iterate_tick (sign_eq_one_or_neg_one nonzero) m le_rfl
  have nothing : ((Pos.tick m)^[slewTicks v] (p.setPending v)).pending = 0 := by
    rw [done.rest, Nat.sub_eq_zero_of_le (p.setPending_slews nonzero).fits]
    simp
  rw [n]
  refine ⟨rfl, fun i during => p.setPending_tickShare_le m nonzero during, nothing, by rw [done.ticks, Nat.sub_self], ?_⟩
  have total := (p.setPending v).iterate_tick_total m (slewTicks v)
  rw [nothing, add_zero, p.setPending_eq nonzero] at total
  rw [p.setPending_eq nonzero]
  refine (unsgn_of_modEq total).trans (congrArg (unsgn 48) ?_)
  rw [Pos.plainTick]
  ring

end Sys2Proof.Proofs
end

section
/-! Proofs about the written objects of the Position Base, the Line Scheduler, the ingress layout and the Fire Sequencer. A row that stands for
a write of an object leaves what `applyWrite` leaves (Laws/Requests.lean) and answers; here stand the rows that name their object themselves,
and the value that a write can give. -/

namespace Sys2Proof.Machine

/-! ## The value of a write (R15, R105) -/

/-- A value of at most one block fits its type (R105). -/
theorem Req.value_lt (q : Req) {ty : Ty} (narrow : ty ≠ .w72) : (q.value ty).getD 0 < 2 ^ ty.width := by
  have zero : 0 < 2 ^ ty.width := by positivity
  unfold Req.value
  split
  case h_1 => exact absurd rfl narrow
  case h_2 =>
    dsimp only
    split_ifs with signed extended fits
    · exact Nat.mod_lt _ zero
    · exact zero
    · exact fits
    · exact zero

/-- The bits kept of a value are some of its own, but for TRACE_FILTER (R15, R553). -/
theorem State.keptVal_le (s : State) {k : Nat} (v : Nat) (plain : k ≠ Key.TRACE_FILTER) : s.keptVal k v ≤ v := by
  rw [State.keptVal, if_neg plain]
  exact Nat.and_le_left

/-- An accepted write gives its object a value that fits it. -/
theorem State.Writes.valueOf_lt {s t : State} {i : Instr} {q : Req} (h : s.Writes i q t) (write : q.op = .write) {o : Obj}
    (known : objOf q.key = some o) (narrow : o.ty ≠ .w72) (plain : q.key ≠ Key.TRACE_FILTER) : t.valueOf q < 2 ^ keyWidth q.key := by
  have named : t.objects q = [o] := h.accepts.written write known
  have width : keyWidth q.key = o.ty.width := by simp [keyWidth, known]
  rw [width, State.valueOf, named]
  exact lt_of_le_of_lt (t.keptVal_le _ plain) (q.value_lt narrow)

theorem State.Writes.valueOf_sheetAt {s t : State} {r : Dreq} {q : Req} (h : s.Writes (.sheetAt r) q t) :
    t.valueOf q < 2 ^ keyWidth Key.SHEET_AT := by
  have listed : (objOf Key.SHEET_AT).any (fun o => o.ty != .w72) = true := by decide
  obtain ⟨o, known, narrow⟩ : ∃ o, objOf Key.SHEET_AT = some o ∧ o.ty ≠ .w72 := by simpa [Option.any_eq_true] using listed
  obtain rfl : q = ⟨r, .write, 0x2102, 7⟩ := (Option.some.inj h.req).symm
  have key : Req.key ⟨r, .write, 0x2102, 7⟩ = Key.SHEET_AT := Req.key_eq rfl
  rw [← key] at known ⊢
  exact h.valueOf_lt rfl known narrow (by rw [key]; decide)

/-! ## Settings of the Position Base and of the ingress layout (R150, R229) -/

/-- A setting of the Position Base, the Line Scheduler or the ingress is no command, and but for PLANE_FIRST_LINE no window waits for it. -/
theorem State.applyWrite_setting (t : State) {k : Nat} (v : Nat) (lo : 0x2000 ≤ k / 256) (hi : k / 256 < 0x2300)
    (settled : needsWindows k = false) : t.applyWrite k v = (t.setReg k v).objEffect k (t.reg k) := by
  refine State.applyWrite_plain (State.elemHere_of (by omega) (by omega) (by omega) (by omega)) (State.command_none (by omega) (by omega) ?_)
    (.inl (by omega)) settled
  refine fun named => (?_ : ∀ c ∈ _, ¬ (0x2000 ≤ c / 256 ∧ c / 256 < 0x2300)) k named ⟨lo, hi⟩
  decide

theorem encConfigObject_iff {index sub : Nat} :
    encConfigObject index sub = true ↔ index = 0x2000 ∧ 1 ≤ sub ∧ sub ≤ 3 ∨ index = 0x2001 ∧ sub ≤ 2 := by
  simp [encConfigObject, and_assoc]

theorem layoutObject_iff {index sub : Nat} : layoutObject index sub = true ↔
    index = 0x2200 ∧ (sub = 0 ∨ sub = 4 ∨ sub = 5 ∨ sub = 7) ∨ 0x2210 ≤ index ∧ index ≤ 0x221F ∧ sub ≤ 2 := by
  simp [layoutObject, and_assoc, or_assoc]

/-- The settings of the encoder and of the wheel restart what they concern (R149, R150). -/
theorem State.posEffect_encConfig (t : State) {k : Nat} (old : Nat) (setting : encConfigObject (k / 256) (k % 256) = true) :
    t.posEffect k old = t.encConfig k old := by
  have listed := encConfigObject_iff.1 setting
  unfold State.posEffect Key.SSI_COMMAND Key.SSI_MODULUS Key.POS_ROLE Key.POS_PRESET Key.ENC_OUT_MODE Key.DIR_SOURCE Key.DIR_PIN_INVERT
    Key.SLIP_STEP_TICKS Key.SLIP_WINDOW
  rw [if_neg (by omega), if_neg (by omega), if_neg (by omega), if_neg (by omega), if_neg (by omega), if_neg (by omega), if_pos (by omega)]

/-- The layout objects begin a rewrite of the tags of their planes (R229). -/
theorem State.ingressEffect_layout (t : State) {k : Nat} (layout : layoutObject (k / 256) (k % 256) = true) :
    t.ingressEffect k = t.relayout (layoutPlanes k) := by
  unfold State.ingressEffect
  obtain ⟨unit, sub⟩ | ⟨lo, -, sub⟩ := layoutObject_iff.1 layout
  · rw [if_pos unit]
    obtain sub | sub | sub | sub := sub <;> simp only [sub]
  · rw [if_neg (by omega), if_pos (by omega)]

theorem State.applyWrite_encConfig (t : State) {k : Nat} (v : Nat) (setting : encConfigObject (k / 256) (k % 256) = true) :
    t.applyWrite k v = (t.setReg k v).encConfig k (t.reg k) := by
  have listed := encConfigObject_iff.1 setting
  rw [t.applyWrite_setting v (by omega) (by omega) (by simp [needsWindows]; omega), State.objEffect, if_neg (by omega), if_pos (by omega),
    State.posEffect_encConfig _ _ setting]

theorem State.applyWrite_layout (t : State) {k : Nat} (v : Nat) (layout : layoutObject (k / 256) (k % 256) = true) :
    t.applyWrite k v = (t.setReg k v).relayout (layoutPlanes k) := by
  have listed := layoutObject_iff.1 layout
  rw [t.applyWrite_setting v (by omega) (by omega) (by simp [needsWindows]; omega), State.objEffect, if_neg (by omega), if_neg (by omega),
    if_neg (by omega), if_pos (by omega), State.ingressEffect_layout _ layout]

theorem takesEffectNow_encConfig {k : Nat} (setting : encConfigObject (k / 256) (k % 256) = true) : takesEffectNow k = true := by
  have listed := encConfigObject_iff.1 setting
  have each : ∀ c ∈ [Key.ENC_INPUT, Key.ENC_INVERT, Key.ENC_EDGE, Key.TEETH, Key.REF_KIND, Key.REF_GAP], takesEffectNow c = true := by decide
  refine each k ?_
  simp only [List.mem_cons, List.not_mem_nil, or_false, Key.ENC_INPUT, Key.ENC_INVERT, Key.ENC_EDGE, Key.TEETH, Key.REF_KIND, Key.REF_GAP]
  omega

theorem takesEffectNow_layout {k : Nat} (layout : layoutObject (k / 256) (k % 256) = true) : takesEffectNow k = true := by
  have unit : ∀ c ∈ [Key.DS_BASE, Key.DS_SIZE, Key.PLANE_ENABLE, Key.INGRESS_MODE], takesEffectNow c = true := by decide
  have plane : ∀ (p : Fin 16) (j : Fin 3), takesEffectNow (256 * (0x2210 + p.val) + j.val) = true := by decide
  obtain ⟨index, sub⟩ | ⟨lo, hi, sub⟩ := layoutObject_iff.1 layout
  · refine unit k ?_
    simp only [List.mem_cons, List.not_mem_nil, or_false, Key.DS_BASE, Key.DS_SIZE, Key.PLANE_ENABLE, Key.INGRESS_MODE]
    omega
  · have at_ := plane ⟨k / 256 - 0x2210, by omega⟩ ⟨k % 256, by omega⟩
    rwa [show 256 * (0x2210 + (k / 256 - 0x2210)) + k % 256 = k by omega] at at_

/-! ## Rows that name their object (log 17) -/

theorem State.Writes.key_eq {s t : State} {i : Instr} {q : Req} (h : s.Writes i q t) {r : Dreq} {index sub : Nat}
    (row : reqOf i = some ⟨r, .write, index, sub⟩) : index * 256 + sub = q.key := by
  obtain rfl : q = ⟨r, .write, index, sub⟩ := Option.some.inj (h.req.symm.trans row)
  rfl

theorem State.Writes.names {s t : State} {i : Instr} {q : Req} (h : s.Writes i q t) {r : Dreq} {index sub : Nat}
    (row : reqOf i = some ⟨r, .write, index, sub⟩) (byte : sub < 256) : index = q.key / 256 ∧ sub = q.key % 256 := by
  have key := h.key_eq row
  omega

/-! ## Reads of the sensor (R163) -/

/-- SSI_COMMAND holds which read it starts. -/
theorem State.setReg_ssiCommand (t : State) {v : Nat} (byte : v < 256) : (t.setReg Key.SSI_COMMAND v).reg Key.SSI_COMMAND = v :=
  t.setReg_reg_self byte (by decide)

end Sys2Proof.Machine

namespace Sys2Proof.Proofs

open Sys2Proof.Machine

/-- Settles O34: each row is the accepted write of one IMMEDIATE object that the unit itself holds, so it leaves that object's effect; the row of
an encoder setting or of a layout object is a WRITE and acts by the object that its request names (log 17). -/
theorem positionAndPrintWritesAct : Obligations.PositionAndPrintWritesAct := by
  refine ⟨fun s t q r ready index sub => ?_, fun s t q r index sub c => ?_⟩
  · refine ⟨fun h => h.exec_eq rfl rfl (by decide) (State.applyWrite_encEnable t _),
      fun h => h.exec_eq rfl rfl (by decide) (State.applyWrite_ssiCommand t _),
      fun h => h.exec_eq rfl rfl (by decide) (State.applyWrite_ssiCommand t _),
      ⟨by simp [State.ssiCommandWrite, State.setReg_ssiCommand], by simp [State.ssiCommandWrite, State.setReg_ssiCommand]⟩,
      fun clocked due => (if_pos clocked).trans (congrArg _ (if_pos due)),
      fun clocked idle => (if_pos clocked).trans (congrArg _ (if_neg (by simp [idle]))),
      rfl, fun setting h => ?_,
      fun h => h.exec_eq rfl rfl (by decide) (State.applyWrite_posRole t _),
      fun h => h.exec_eq rfl rfl (by decide) (State.applyWrite_posPreset t _)⟩
    obtain ⟨index_eq, sub_eq⟩ := h.names rfl sub.isLt
    rw [index_eq, sub_eq] at setting
    exact h.exec_eq rfl (h.key_eq rfl) (takesEffectNow_encConfig setting) (t.applyWrite_encConfig _ setting)
  · have compare : takesEffectNow (Key.CMP_CTRL c) = true ∧ takesEffectNow (Key.CMP_TARGET c) = true := by revert c; decide
    refine ⟨fun h => h.exec_eq rfl rfl (by decide) (State.applyWrite_gridEnable t _),
      fun h => h.exec_eq rfl rfl (by decide) ?_,
      fun h => h.exec_eq rfl (by simp [Key.CMP_CTRL]; omega) compare.1 (State.applyWrite_cmpCtrl t _ c),
      fun h => h.exec_eq rfl (by simp [Key.CMP_TARGET]; omega) compare.2 (State.applyWrite_cmpTarget t _ c),
      rfl, fun layout h => ?_,
      fun h => h.exec_eq rfl rfl (by decide) (State.applyWrite_fireArm t _),
      fun h => h.exec_eq rfl rfl (by decide) (State.applyWrite_fireDisarm t _)⟩
    · rw [State.applyWrite_sheetAt, State.setReg_reg_self t h.valueOf_sheetAt (by decide)]
    · obtain ⟨index_eq, sub_eq⟩ := h.names rfl sub.isLt
      rw [index_eq, sub_eq] at layout
      exact h.exec_eq rfl (h.key_eq rfl) (takesEffectNow_layout layout) (t.applyWrite_layout _ layout)

end Sys2Proof.Proofs
end

section
/-! Proofs about the Line Scheduler: line events, freeze points and cue edges (R176-R190), and the compare units (R206-R210). -/

namespace Sys2Proof.Machine

section Grid

variable {s : State}

/-! ## Line events (R178-R184) -/

theorem exec_lineEvent_due (clocked : s.clocked = true) (due : s.lineDue = true) : exec .lineEvent s = .next
    (((((((s.countLine.handOver s.nextClasses s.grid.next).stepGrid (s.nextClasses.contains .band)).thaw s.nextClasses).queueWaiting).lineWork
      s.grid.next (s.nextClasses.contains .sheet)).pmc 2 0 1).traceRec 0x01 (fld (1 + 2 * b2n (s.nextClasses.contains .band) +
        4 * b2n (s.nextClasses.contains .sheet)) 3 53 + fld s.grid.next 32 0)) :=
  (if_pos clocked).trans (congrArg _ (if_pos due))

theorem exec_lineEvent_idle (clocked : s.clocked = true) (idle : s.lineDue = false) : exec .lineEvent s = .next s :=
  (if_pos clocked).trans (congrArg _ (if_neg (by simp [idle])))

theorem State.lineDue_gridOff (off : s.flag Key.GRID_ENABLE = false) : s.lineDue = false := by
  simp [State.lineDue, off]

/-- LINE_NOW is the line that is judged; what is counted after it are other objects. -/
theorem State.countLine_lineNow (s : State) : s.countLine.reg Key.LINE_NOW = s.grid.next % 2 ^ keyWidth Key.LINE_NOW := by
  have judged : (s.popSheets.setReg Key.LINE_NOW s.grid.next).reg Key.LINE_NOW = s.grid.next % 2 ^ keyWidth Key.LINE_NOW :=
    State.setReg_reg_mod _ _ (by decide)
  unfold State.countLine
  dsimp only
  rw [State.updGrid_reg]
  split_ifs <;> simp [judged]

theorem State.stepGrid_reg (s : State) (band : Bool) (k : Nat) : (s.stepGrid band).reg k = s.reg k := by
  simp [State.stepGrid]

/-- A sheet boundary is a band boundary, which is a line (R182). -/
theorem State.nextClasses_cases (s : State) :
    s.nextClasses = [.line] ∨ s.nextClasses = [.line, .band] ∨ s.nextClasses = [.line, .band, .sheet] := by
  unfold State.nextClasses
  split
  · exact .inr (.inr rfl)
  · split
    · exact .inr (.inl rfl)
    · exact .inl rfl

/-! ## Freeze points (R188, R189) -/

/-- What a freeze point of class `c` makes of the unit, short or not: what was accepted from now on waits for the boundary after. -/
def State.freezeMarked (s : State) (c : Commit) : State :=
  (s.markPending c fun acc skip => skip || decide (s.clk ≤ acc)).updGrid fun g => match c with
    | .line => { g with frozenLine := true }
    | .band => { g with frozenBand := true }
    | .sheet => { g with frozenSheet := true }
    | _ => g

theorem State.freezeMarked_reg (s : State) (c : Commit) (k : Nat) : (s.freezeMarked c).reg k = s.reg k := by
  rw [State.freezeMarked, State.updGrid_reg, State.markPending_reg]

theorem State.freezeMarked_frozen (s : State) (cls : Fin 3) : (s.freezeMarked (freezeClass cls)).frozen (freezeClass cls) = true := by
  fin_cases cls <;> rfl

theorem State.freezeMarked_next (s : State) (c : Commit) : (s.freezeMarked c).grid.next = s.grid.next := by
  cases c <;> rfl

/-- A freeze point that is due marks its class, and of all objects counts in FREEZE_SHORT at most. -/
theorem State.freezeNow_due {c : Commit} (due : s.freezeDue c = true) : ∃ regs,
    s.freezeNow c = { s.freezeMarked c with regs := regs } ∧
      ∀ k, k ≠ Key.FREEZE_SHORT → State.reg { s.freezeMarked c with regs := regs } k = s.reg k := by
  have taken : s.freezeNow c = if c = .line ∧ s.grid.evClk = some s.clk ∧ s.freezeAt (s.ct - 1) then
      (s.freezeMarked c).inc Key.FREEZE_SHORT else s.freezeMarked c := if_pos due
  rw [taken]
  split
  · exact ⟨_, rfl, fun k other => ((s.freezeMarked c).inc_reg_ne other).trans (s.freezeMarked_reg c k)⟩
  · exact ⟨_, rfl, fun k _ => s.freezeMarked_reg c k⟩

theorem exec_freezePoint_idle (clocked : s.clocked = true) {cls : Fin 3} (idle : s.freezeDue (freezeClass cls) = false) :
    exec (.freezePoint cls) s = .next s :=
  (if_pos clocked).trans (congrArg _ (if_neg (by simp [idle])))

/-! ## Cue edges (R185) -/

/-- An edge of the selected input and polarity is a sheet position CUE_OFFSET from the position at its stamp, but in reverse. -/
theorem exec_cueEdge_selected (clocked : s.clocked = true) {i : Fin 2} {level : Bool} (source : s.reg Key.SHEET_SOURCE = 1)
    (input : s.reg Key.CUE_SELECT = i.val) (edge : s.reg Key.CUE_EDGE = if level then 0 else 1) : exec (.cueEdge i level) s =
      .next (if s.revNow then s.inc Key.CUE_IGNORED else s.queueSheet
        (unsgn 48 ((s.derivedAt (s.ct - s.reg Key.CUE_FILTER * 500) : Int) + s.regI Key.CUE_OFFSET))) := by
  refine (if_pos clocked).trans (congrArg _ (if_neg ?_))
  cases level <;> simp [source, input, edge]

theorem exec_cueEdge_other (clocked : s.clocked = true) {i : Fin 2} (level : Bool)
    (other : s.reg Key.SHEET_SOURCE ≠ 1 ∨ s.reg Key.CUE_SELECT ≠ i.val) : exec (.cueEdge i level) s = .next s :=
  (if_pos clocked).trans (congrArg _ (if_pos (other.imp_right .inl)))

end Grid

/-! ## Compare units (R206-R210) -/

section Compare

variable {s : State} {c : Fin 32}

theorem exec_cmpFire_due (clocked : s.clocked = true) (due : s.cmpDue c = true) :
    exec (.cmpFire c) s = .next (((s.cmpRecord c).cmpAct c).cmpAfter c) :=
  (if_pos clocked).trans (congrArg _ (if_pos due))

theorem exec_cmpFire_idle (clocked : s.clocked = true) (idle : s.cmpDue c = false) : exec (.cmpFire c) s = .next s :=
  (if_pos clocked).trans (congrArg _ (if_neg (by simp [idle])))

theorem exec_cmpPulseEnd (clocked : s.clocked = true) : exec (.cmpPulseEnd c) s =
    .next (((s.cmp c).pulses.filter fun e => decide (e.2 ≤ s.ct)).foldl (fun u e => u.clearOutput e.1) s) :=
  if_pos clocked

/-- The objects that record a firing are as wide as chain time, a position and a count (R214). -/
theorem keyWidth_cmpFired (c : Fin 32) : keyWidth (Key.CMP_FIRED_CT c) = 64 ∧ keyWidth (Key.CMP_FIRED_POS c) = 48 ∧
    keyWidth (Key.CMP_FIRE_COUNT c) = 32 := by
  revert c
  decide

/-- The objects of one unit differ by their sub-index (R214). -/
theorem cmpKey_ne (c : Nat) {i j : Nat} (differ : i ≠ j) : i + 256 * c ≠ j + 256 * c := by
  omega

theorem State.derived_lt (s : State) : s.derived < 2 ^ 48 := Nat.mod_lt _ (by positivity)

/-- The flag FIRED stands in another object than what a firing records. -/
theorem State.cmpRecord_reg (s : State) (c : Nat) {k : Nat} (other : k ≠ Key.CMP_STATUS c) : (s.cmpRecord c).reg k =
    (((s.setReg (Key.CMP_FIRED_CT c) s.ct).setReg (Key.CMP_FIRED_POS c) s.derived).inc (Key.CMP_FIRE_COUNT c)).reg k :=
  State.setRegBit_reg_ne _ _ _ other

theorem State.cmpRecord_firedCt (s : State) (c : Fin 32) : (s.cmpRecord c).reg (Key.CMP_FIRED_CT c) = s.ct % 2 ^ 64 := by
  have width := (keyWidth_cmpFired c).1
  rw [State.cmpRecord_reg _ _ (cmpKey_ne c (by decide)), State.inc_reg_ne _ (cmpKey_ne c (by decide)),
    State.setReg_reg_ne _ _ (cmpKey_ne c (by decide)), State.setReg_reg_mod _ _ (by omega), width]

theorem State.cmpRecord_firedPos (s : State) (c : Fin 32) : (s.cmpRecord c).reg (Key.CMP_FIRED_POS c) = s.derived := by
  have width := (keyWidth_cmpFired c).2.1
  rw [State.cmpRecord_reg _ _ (cmpKey_ne c (by decide)), State.inc_reg_ne _ (cmpKey_ne c (by decide)),
    State.setReg_reg_self _ (by rw [width]; exact s.derived_lt) (by omega)]

theorem State.cmpRecord_fireCount (s : State) (c : Fin 32) :
    (s.cmpRecord c).reg (Key.CMP_FIRE_COUNT c) = (s.reg (Key.CMP_FIRE_COUNT c) + 1) % 2 ^ 32 := by
  have width := (keyWidth_cmpFired c).2.2
  rw [State.cmpRecord_reg _ _ (cmpKey_ne c (by decide)), State.inc_reg_self _ (by omega),
    State.setReg_reg_ne _ _ (cmpKey_ne c (by decide)), State.setReg_reg_ne _ _ (cmpKey_ne c (by decide)), width]

section Outputs

variable (s : State) (k : Nat) (b : Bool)

@[simp] theorem State.setGpo_gpo : (s.setGpo k b).gpo = setBit s.gpo k b := rfl
@[simp] theorem State.setGpo_camTrig : (s.setGpo k b).camTrig = s.camTrig := rfl
@[simp] theorem State.setGpo_reg (q : Nat) : (s.setGpo k b).reg q = s.reg q := rfl
@[simp] theorem State.setTrig_gpo : (s.setTrig k b).gpo = s.gpo := rfl
@[simp] theorem State.setTrig_camTrig : (s.setTrig k b).camTrig = setBit s.camTrig k b := rfl
@[simp] theorem State.setTrig_reg (q : Nat) : (s.setTrig k b).reg q = s.reg q := rfl

end Outputs

/-- What no item of a list changes stays. -/
theorem State.forEach_kept {α : Type} {view : State → α} {f : Nat → State → State} (kept : ∀ i t, view (f i t) = view t) (l : List Nat)
    (s : State) : view (s.forEach l f) = view s := by
  unfold State.forEach
  induction l generalizing s with
  | nil => rfl
  | cons i l ih => rw [List.foldl_cons, ih, kept]

/-- Ending the pulses of an output changes the compare units alone (R210): whatever does not depend on them stays. -/
theorem State.endPulses_kept {α : Type} (view : State → α) (blind : ∀ (i : Nat) (f : Cmp → Cmp) (t : State), view (t.updCmp i f) = view t)
    (s : State) (k : Nat) : view (s.endPulses k) = view s := by
  unfold State.endPulses
  refine State.forEach_kept (fun c t => ?_) _ s
  split
  · exact blind _ _ t
  · rfl

@[simp] theorem State.endPulses_gpo (s : State) (k : Nat) : (s.endPulses k).gpo = s.gpo :=
  State.endPulses_kept State.gpo (fun i f t => t.updCmp_gpo i f) s k

@[simp] theorem State.endPulses_camTrig (s : State) (k : Nat) : (s.endPulses k).camTrig = s.camTrig :=
  State.endPulses_kept State.camTrig (fun i f t => t.updCmp_camTrig i f) s k

@[simp] theorem State.endPulses_reg (s : State) (o k : Nat) : (s.endPulses o).reg k = s.reg k :=
  State.endPulses_kept (State.reg · k) (fun i f t => t.updCmp_reg i f k) s o

theorem State.clearOutput_gpo (s : State) {o : Nat} (gpo : o < 8) :
    (s.clearOutput o).gpo = setBit s.gpo o false ∧ (s.clearOutput o).camTrig = s.camTrig := by
  simp [State.clearOutput, gpo]

theorem State.clearOutput_camTrig (s : State) {o : Nat} (trigger : 8 ≤ o) :
    (s.clearOutput o).camTrig = setBit s.camTrig (o - 8) false ∧ (s.clearOutput o).gpo = s.gpo := by
  simp [State.clearOutput, trigger.not_gt]

theorem State.clearOutput_reg (s : State) (o k : Nat) : (s.clearOutput o).reg k = s.reg k := by
  unfold State.clearOutput
  split <;> simp

end Compare

end Sys2Proof.Machine

namespace Sys2Proof.Proofs

open Sys2Proof.Machine

/-- Settles O37: when the line event, a freeze point and a cue edge act and when they do nothing; a freeze point is its marks and at most one
count (`freezeNow_due`). -/
theorem lineEventsHandOver : Obligations.LineEventsHandOver := by
  refine ⟨fun s clocked => ?_, fun s clocked => ?_⟩
  · exact ⟨exec_lineEvent_due clocked, exec_lineEvent_idle clocked, fun off => exec_lineEvent_idle clocked (State.lineDue_gridOff off),
      s.countLine_lineNow, fun band u => ⟨rfl, rfl, u.stepGrid_reg band⟩, s.nextClasses_cases⟩
  · refine ⟨fun cls due => ?_, fun cls idle => exec_freezePoint_idle clocked idle, fun i level source input edge => ?_,
      fun i level other => exec_cueEdge_other clocked level other⟩
    · obtain ⟨regs, frozen, kept⟩ := State.freezeNow_due due
      exact ⟨_, (if_pos clocked).trans (congrArg _ frozen), s.freezeMarked_frozen cls, kept, rfl, rfl, rfl, s.freezeMarked_next _, rfl⟩
    · rw [exec_cueEdge_selected clocked source input edge]
      exact ⟨fun forward => by rw [forward]; rfl, fun reverse => by rw [reverse]; rfl⟩

/-- Settles O38: a firing is its record, its action and what follows (`cmpRecord_reg`), and the end of a pulse clears one output and the pulses
on it (`endPulses_kept`). -/
theorem compareUnitsFire : Obligations.CompareUnitsFire := by
  intro s c clocked
  refine ⟨exec_cmpFire_due clocked, exec_cmpFire_idle clocked, s.cmpRecord_firedCt c, s.cmpRecord_firedPos c, s.cmpRecord_fireCount c,
    fun o t ended => ?_, fun running => ?_, exec_cmpPulseEnd clocked, fun o gpo => s.clearOutput_gpo gpo,
    fun o trigger => s.clearOutput_camTrig trigger, fun o k => s.clearOutput_reg o k⟩
  · rw [exec_cmpPulseEnd clocked, ended]
    rfl
  · have none_ended : (s.cmp c).pulses.filter (fun e => decide (e.2 ≤ s.ct)) = [] :=
      List.filter_eq_nil_iff.2 fun e pulse => by simpa using running e pulse
    rw [exec_cmpPulseEnd clocked, none_ended]
    rfl

end Sys2Proof.Proofs
end

section
/-! Proofs about raster ingress: packets (R218-R222, R234, R243), whole lines (R228), credit (R221), and the writing of tags (R229, R234). -/

namespace Sys2Proof.Machine

variable {s : State}

/-! ## Packets (R218-R222, R234, R243) -/

section Packets

variable {lane : Fin 4} {hdr : RasterHdr} {words : List Word} {crc : BitVec 32}

theorem exec_rasterPacket_held (clocked : s.clocked = true) (up : (s.lane lane).st = .up)
    (event : s.lineDue = true ∨ s.posApplyDue = true) : exec (.rasterPacket lane hdr words crc) s =
      .next (s.updIngress fun g => { g with held := g.held ++ [(lane, ⟨hdr, words⟩, crc)] }) :=
  (if_pos clocked).trans (congrArg _ ((if_neg (not_not.2 up)).trans (if_pos event)))

theorem exec_rasterPacket_judged (clocked : s.clocked = true) (up : (s.lane lane).st = .up) (line : s.lineDue = false)
    (pos : s.posApplyDue = false) : exec (.rasterPacket lane hdr words crc) s = .next (s.packetIn lane hdr words crc) :=
  (if_pos clocked).trans (congrArg _ ((if_neg (not_not.2 up)).trans (if_neg (by simp [line, pos]))))

theorem exec_rasterPacketTimeout_up (clocked : s.clocked = true) (up : (s.lane lane).st = .up) :
    exec (.rasterPacketTimeout lane) s = .next ((s.inc Key.PACKET_FORMAT).freeBuffer lane) :=
  (if_pos clocked).trans (congrArg _ (if_neg (not_not.2 up)))

theorem State.packetIn_noBuffer (full : 32 ≤ (s.ilane lane).waiting.length) : s.packetIn lane hdr words crc =
    ((s.inc (Key.LANE_PACKETS lane)).inc Key.CREDIT_VIOLATION).raise 0x32 0 :=
  if_pos full

theorem State.packetIn_damaged (room : (s.ilane lane).waiting.length < 32)
    (damaged : hdr.rsop.toNat % 256 ≠ 0x87 ∨ words.length ≠ hdr.nwords ∨ crc.toNat ≠ packetCrc hdr words) :
    s.packetIn lane hdr words crc = ((s.inc (Key.LANE_PACKETS lane)).inc Key.PACKET_CRC).freeBuffer lane :=
  (if_neg room.not_ge).trans (if_pos damaged)

/-- A packet that passes the first check, counted and judged by its PSEQ: the lane's first is no gap, and the next is expected to follow it
(R220; log 41). -/
def State.sequenced (s : State) (lane : Fin 4) (hdr : RasterHdr) : State :=
  (if ∃ e, (s.ilane lane).pseq = some e ∧ e ≠ hdr.pseq then (s.inc (Key.LANE_PACKETS lane)).inc (Key.PSEQ_GAP lane)
    else s.inc (Key.LANE_PACKETS lane)).updIlane lane fun r => { r with pseq := some ((hdr.pseq + 1) % 256) }

/-- A sound packet is sequenced, then waits in its buffer where its pass is the next and the bank of that pass is being cleared (R234). -/
theorem State.packetIn_sound (room : (s.ilane lane).waiting.length < 32) (start : hdr.rsop.toNat % 256 = 0x87)
    (whole : words.length = hdr.nwords) (sound : crc.toNat = packetCrc hdr words) : s.packetIn lane hdr words crc =
      if (s.reg Key.GRID_DIR = 2 ∧ hdr.pass = (s.reg Key.PASS_COUNT + 1) % 16) ∧ s.planeOn hdr.plane = true ∧
          (s.plane hdr.plane).clearing = true then
        (s.sequenced lane hdr).updIlane lane fun r => { r with waiting := r.waiting ++ [⟨hdr, words⟩] }
      else (s.sequenced lane hdr).takePacket lane hdr words := by
  unfold State.packetIn State.sequenced
  rw [if_neg room.not_ge, if_neg (by simp [start, whole, sound])]
  cases expected : (s.ilane lane).pseq with
  | none => simp
  | some e => simp

end Packets

/-! ## Whole lines (R228) -/

theorem exec_lineComplete_done (clocked : s.clocked = true) {q : Fin 16} {line : BitVec 32} {pass : BitVec 16} {e : InProg}
    (entry : s.entryOf q line.toNat (pass.toNat % 16) = some e) (done : s.entryDone e = true) : exec (.lineComplete q line pass) s =
      .next ((((s.writeBulk (s.tagAddr q (s.slotOf q e.line e.pass)) (tagWord e.line e.pass true)).updIngress fun g => { g with
        entries := g.entries.filter fun x => x ≠ e
        fresh := (s.clk, q.val, e.line, e.pass) :: g.fresh.filter fun x => decide (s.clk ≤ x.1 + 1) }).inc
          (Key.LINES_COMPLETE q)).setReg (Key.LAST_COMPLETE_LINE q) e.line) := by
  refine (if_pos clocked).trans (congrArg _ ?_)
  rw [entry]
  exact if_neg (not_not.2 done)

theorem exec_lineComplete_none (clocked : s.clocked = true) {q : Fin 16} {line : BitVec 32} {pass : BitVec 16}
    (entry : s.entryOf q line.toNat (pass.toNat % 16) = none) : exec (.lineComplete q line pass) s = .next s := by
  refine (if_pos clocked).trans (congrArg _ ?_)
  rw [entry]

/-! ## Credit (R221) -/

/-- The CREDIT block of a lane for plane `q` (R221). -/
def State.creditBlock (s : State) (lane q : Nat) : BitVec 64 :=
  BitVec.ofNat 64 (fld (s.ilane lane).freed 8 56 + fld q 4 52 + fld (s.reg Key.PASS_COUNT) 4 48 + fld (s.plane q).top 32 16 +
    fld (b2n (s.planeOn q && s.flag Key.INGRESS_READY)) 1 15 + 0xB4)

/-- The fields below the count of freed buffers stop short of bit 56, those above the type begin at bit 15. -/
theorem State.creditBlock_fields (s : State) (lane q : Nat) :
    (s.creditBlock lane q).toNat % 256 = 0xB4 ∧ (s.creditBlock lane q).toNat / 2 ^ 56 = (s.ilane lane).freed % 256 := by
  unfold State.creditBlock fld
  rw [BitVec.toNat_ofNat]
  omega

theorem exec_creditSend_up (clocked : s.clocked = true) {lane : Fin 4} (up : (s.lane lane).st = .up) : exec (.creditSend lane) s =
    .next ((s.updIlane lane fun r => { r with plane := s.nextPlane (s.ilane lane).plane, told := r.freed, toldAt := some s.clk }).emit
      (.credit lane (s.creditBlock lane (s.nextPlane (s.ilane lane).plane)))) :=
  (if_pos clocked).trans (congrArg _ (if_neg (not_not.2 up)))

theorem exec_creditSend_down (clocked : s.clocked = true) {lane : Fin 4} (down : (s.lane lane).st ≠ .up) :
    exec (.creditSend lane) s = .next s :=
  (if_pos clocked).trans (congrArg _ (if_pos down))

/-! ## The writing of tags (R229, R234) -/

theorem exec_ingressReady_ready (clocked : s.clocked = true) (ready : s.bmReady = true) (waits : s.flag Key.INGRESS_READY = false) :
    exec .ingressReady s = .next ((((s.forEach (s.ingress.rewrite.filter s.planeOn) fun q s =>
      s.clearTags q 0 (s.planeBanks * s.reg (Key.PLANE_DEPTH q))).updIngress fun g => { g with rewrite := [] }).setReg
        Key.INGRESS_READY 1).windows false) :=
  (if_pos clocked).trans (congrArg _ (if_pos ⟨ready, by simp [waits]⟩))

theorem exec_ingressReady_notReady (clocked : s.clocked = true) (notReady : s.bmReady = false) : exec .ingressReady s = .next s :=
  (if_pos clocked).trans (congrArg _ (if_neg (by simp [notReady])))

theorem exec_bankClearDone_clearing (clocked : s.clocked = true) {q : Fin 16} (clearing : (s.plane q).clearing = true) :
    exec (.bankClearDone q) s = .next
      (((s.clearTags q ((s.reg Key.PASS_COUNT + 1) % 2 * s.reg (Key.PLANE_DEPTH q)) (s.reg (Key.PLANE_DEPTH q))).updPlane q fun p =>
        { p with clearing := false }).forEach (List.range 4) fun i u => ((u.ilane i).waiting.filter fun k => k.hdr.plane = q.val).foldl
          (fun v k => v.takePacket i k.hdr k.words)
          (u.updIlane i fun r => { r with waiting := (u.ilane i).waiting.filter fun k => k.hdr.plane ≠ q.val })) :=
  (if_pos clocked).trans (congrArg _ (if_neg (not_not.2 clearing)))

theorem exec_bankClearDone_idle (clocked : s.clocked = true) {q : Fin 16} (idle : (s.plane q).clearing = false) :
    exec (.bankClearDone q) s = .next s :=
  (if_pos clocked).trans (congrArg _ (if_pos (by simp [idle])))

end Sys2Proof.Machine

namespace Sys2Proof.Proofs

open Sys2Proof.Machine

/-- Settles O40: a packet is held, refused, or sequenced and then taken or left waiting (`packetIn_sound`), and a CREDIT block carries the count
of freed buffers above its other fields (`creditBlock_fields`). That PSEQ is judged only on packets that pass the first check, and that a
packet timeout returns its credit, are the model's choices (log 41). -/
theorem ingressTakesRasterData : Obligations.IngressTakesRasterData := by
  refine ⟨fun s lane hdr words crc clocked up => ?_, fun s clocked => ?_⟩
  · refine ⟨exec_rasterPacket_held clocked up, exec_rasterPacket_judged clocked up, State.packetIn_noBuffer, State.packetIn_damaged,
      fun room start whole sound => ⟨s.sequenced lane hdr, rfl, fun settled => ?_, fun clearing on scan pass => ?_⟩,
      exec_rasterPacketTimeout_up clocked up⟩
    · rw [State.packetIn_sound room start whole sound, if_neg (by simp [settled])]
    · rw [State.packetIn_sound room start whole sound, if_pos ⟨⟨scan, pass⟩, on, clearing⟩]
  · refine ⟨fun q line pass e entry done => exec_lineComplete_done clocked entry done,
      fun q line pass entry => exec_lineComplete_none clocked entry, fun lane up => ⟨_, exec_creditSend_up clocked up, ?_⟩,
      fun lane down => exec_creditSend_down clocked down, exec_ingressReady_ready clocked, exec_ingressReady_notReady clocked,
      fun q clearing => exec_bankClearDone_clearing clocked clearing, fun q idle => exec_bankClearDone_idle clocked idle⟩
    have sent := s.updIlane_ilane_self lane fun r =>
      { r with plane := s.nextPlane (s.ilane lane).plane, told := r.freed, toldAt := some s.clk }
    exact ⟨congrArg ImgLane.plane sent, congrArg ImgLane.told sent, congrArg ImgLane.toldAt sent,
      ⟨_, rfl, s.creditBlock_fields lane _⟩, fun k => rfl, rfl, rfl, rfl⟩

end Sys2Proof.Proofs
end

section
/-! Proofs about gates (R307-R313), and about the ends of a port: its safe ramp and clear latch (R304, R309, R312, R314), its idle tickle (R305)
and the identity of its head (R317). -/

namespace Sys2Proof.Machine

/-! ## Gates (R307-R313) -/

/-- The cuts of a gate that asserts, once its level is set and its cut is counted (R311, R312); MODE and coverage are those of `s`. -/
def State.gateCutPorts (s : State) (g : Nat) (u : State) : State :=
  u.forEach ((List.range s.nPorts).filter fun p => s.gateCovers g p)
    fun p s => s.cutPort (2 + g) (bit (s.reg (Key.GATE_CFG g)) 9 && !s.gatedDisarm p) p

/-- A gate that covers no armed port is not counted (log 43). -/
theorem State.gateRise_disarmed {s : State} {g : Nat} (disarmed : ∀ p < s.nPorts, s.gateCovers g p = true → (s.port p).st = .disarmed) :
    s.gateRise g = s.gateCutPorts g (s.setRegBit Key.GATE_LEVEL g true) := by
  have notCounted : ¬ ((List.range s.nPorts).filter fun p => s.gateCovers g p).any (fun p => (s.port p).st ≠ .disarmed) = true := by
    simpa using disarmed
  rw [State.gateRise, if_neg notCounted]
  rfl

/-- A gate that covers an armed port is counted and raises its source (R310, R313). -/
theorem State.gateRise_armed {s : State} {g p : Nat} (here : p < s.nPorts) (covers : s.gateCovers g p = true)
    (armed : (s.port p).st ≠ .disarmed) :
    s.gateRise g = s.gateCutPorts g
      (((s.setRegBit Key.GATE_LEVEL g true).inc (Key.GATE_CUTS g)).cause (0x3C + g) g true g) := by
  have counted : ((List.range s.nPorts).filter fun p => s.gateCovers g p).any (fun p => (s.port p).st ≠ .disarmed) = true := by
    simpa using ⟨p, here, covers, armed⟩
  rw [State.gateRise, if_pos counted]
  rfl

section Gate

variable {s : State} {g : Fin 4} (on : s.on = true)

include on

theorem exec_gateAssert_asserted (asserted : bit (s.reg Key.GATE_LEVEL) g = true) : exec (.gateAssert g) s = .next s :=
  (if_pos on).trans (congrArg _ (if_pos asserted))

theorem exec_gateAssert_released (released : bit (s.reg Key.GATE_LEVEL) g = false) : exec (.gateAssert g) s = .next (s.gateRise g) :=
  (if_pos on).trans (congrArg _ (if_neg (Bool.eq_false_iff.1 released)))

theorem exec_gateRelease_asserted (asserted : bit (s.reg Key.GATE_LEVEL) g = true) : exec (.gateRelease g) s = .next
    (((s.setRegBit Key.GATE_LEVEL g false).cause (0x3C + g) g false g).forEach (List.range s.nPorts) State.restartHeld) :=
  (if_pos on).trans (congrArg _ (if_pos asserted))

theorem exec_gateRelease_released (released : bit (s.reg Key.GATE_LEVEL) g = false) : exec (.gateRelease g) s = .next s :=
  (if_pos on).trans (congrArg _ (if_neg (Bool.eq_false_iff.1 released)))

end Gate

/-! ## The end of a port (R304, R309, R312, R314) -/

section Port

variable {s : State} {p : Fin 16} (clocked : s.clocked = true) (here : p.val < s.nPorts)

/-- The safe ramp of a port is behind it. -/
def State.rampOver (s : State) (p : Nat) : State := s.updPort p fun r => { r with rampEnd8 := none, ramps := [] }

include clocked here

theorem exec_rampEnd_none (noRamp : (s.port p).rampEnd8 = none) : exec (.rampEnd p) s = .next s :=
  (whenClocked_onPort clocked here).trans (by rw [noRamp])

theorem exec_rampEnd_early {e : Nat} (ramp : (s.port p).rampEnd8 = some e) (early : s.at8 8 ≤ e) : exec (.rampEnd p) s = .next s :=
  (whenClocked_onPort clocked here).trans (by simp only [ramp, if_pos early])

/-- A ramp that ends within this clock is followed by the clear latch, but for a disarmed port (R309). -/
theorem exec_rampEnd_due {e : Nat} (ramp : (s.port p).rampEnd8 = some e) (due : e < s.at8 8) : exec (.rampEnd p) s = .next
    (if (s.port p).st = .disarmed then s.rampOver p else (s.rampOver p).clearAfter p e) :=
  (whenClocked_onPort clocked here).trans (by simp only [ramp, if_neg (Nat.not_le.2 due)]; rfl)

theorem exec_clearLatch_none (noClear : (s.port p).clear8 = none) : exec (.clearLatch p) s = .next s :=
  (whenClocked_onPort clocked here).trans (by rw [noClear])

theorem exec_clearLatch_early {t : Nat} (clear : (s.port p).clear8 = some t) (early : s.at8 8 ≤ t) : exec (.clearLatch p) s = .next s :=
  (whenClocked_onPort clocked here).trans (by simp only [clear, if_pos early])

end Port

/-- The clear latch of a port at `t`: the empty line on its pairs, and the latch (R304). -/
def State.latchEmpty (s : State) (p t : Nat) : State :=
  ((s.shipOut p (s.port p).slot (s.port p).clearLink (List.replicate 2304 0)).emit
      (.latch p t (s.port p).clearLink.width (s.port p).clearLink.low)).updPort p
    fun r => { r with clear8 := none, release8 := t + (s.port p).clearLink.latchTime }

/-- What becomes of a port, as it was before, with its clear latch: a held one restarts, one that stops at a line boundary waits for it, any
other is disarmed (R304, R312, R314). -/
def State.afterClear (s : State) (r : Port) (p : Nat) : State :=
  if r.st = .held then s.restartHeld p else if r.st = .stopping ∧ r.stopAt = true then s else s.portDisarmed p

theorem exec_clearLatch_due {s : State} {p : Fin 16} (clocked : s.clocked = true) (here : p.val < s.nPorts) {t : Nat}
    (clear : (s.port p).clear8 = some t) (due : t < s.at8 8) :
    exec (.clearLatch p) s = .next ((s.latchEmpty p t).afterClear (s.port p) p) := by
  refine (whenClocked_onPort clocked here).trans ?_
  simp only [clear, if_neg (Nat.not_le.2 due), State.afterClear]
  cases (s.port p).st
  case stopping => cases (s.port p).stopAt <;> rfl
  all_goals rfl

/-! ## Idle tickles (R305) -/

theorem State.settleSlots_of_tickleNow {n : State} {p : Nat} {sense : List Nat} (noFire : (n.port p).fireNow = [])
    (noDefer : (n.port p).deferNow = []) (noScr : (n.port p).scrNow = []) (due : (n.port p).tickleNow = some sense) :
    n.settleSlots p = (n.updPort p Port.taken).tickle p sense := by
  simp only [State.settleSlots, noFire, noDefer, noScr, due]
  rfl

/-- An idle tickle with nothing else on its clock falls when the clock ends (log 22). -/
theorem exec_idleTickle_sole {s n : State} {p : Fin 16} {sense : List Nat} (clocked : s.clocked = true) (here : p.val < s.nPorts)
    (idle : s.pending = []) (noScr : (s.port p).scrNow = []) (noFire : (s.port p).fireNow = []) (noDefer : (s.port p).deferNow = [])
    (hn : n = s.updPort p fun r => { r with tickleNow := some sense }) (sole : n.SoleWait p) :
    exec (.idleTickle p sense) s = .next (((n.updPort p Port.taken).tickle p sense).endPort p) := by
  have run : exec (.idleTickle p sense) s = .next n.lastOfClock := hn ▸ whenClocked_onPort clocked here
  have port : n.port p = { s.port p with tickleNow := some sense } := by simp [hn]
  have fire : (n.port p).fireNow = [] := port ▸ noFire
  have defer : (n.port p).deferNow = [] := port ▸ noDefer
  rw [run, State.lastOfClock_of_soleWait (hn ▸ idle) sole, State.haltsNow_of_none fire defer,
    State.settleSlots_of_tickleNow fire defer (port ▸ noScr) (congrArg Port.tickleNow port)]
  rfl

/-! ## The identity of a head (R317) -/

section HeadId

variable {s : State} {p : Fin 16} (clocked : s.clocked = true) (here : p.val < s.nPorts)

include clocked here

theorem exec_headIdRead_calderaDown (down : s.reg Key.CALDERA_STATE ≠ 2) (l : Option (List (BitVec 8))) :
    exec (.headIdRead p l) s = .next s :=
  (whenClocked_onPort clocked here).trans (congrArg _ (if_pos down))

theorem exec_headIdRead_none (running : s.reg Key.CALDERA_STATE = 2) : exec (.headIdRead p none) s =
    .next ((s.updPort p fun r => { r with idRead := some s.clk }).setTab (0x400C + 0x40 * p) { len := some 0 }) :=
  (whenClocked_onPort clocked here).trans (congrArg _ (if_neg (not_not.2 running)))

/-- The 256 bytes that are read are kept as they come, byte 0 first (R317). -/
theorem exec_headIdRead_bytes (running : s.reg Key.CALDERA_STATE = 2) {l : List (BitVec 8)} (whole : l.length = 256) :
    exec (.headIdRead p (some l)) s = .next ((s.updPort p fun r => { r with idRead := some s.clk }).setTab (0x400C + 0x40 * p)
      (tabOf (streamWords 29 (ofBytes ((l.map BitVec.toNat).reverse))))) := by
  have bytes : (List.range 256).map (fun i => (l.getD i 0).toNat) = l.map BitVec.toNat :=
    List.ext_getElem (by simp [whole]) fun i _ inside => by
      have inside : i < l.length := by simpa using inside
      simp [inside]
  rw [← bytes]
  exact (whenClocked_onPort clocked here).trans (congrArg _ (if_neg (not_not.2 running)))

end HeadId

end Sys2Proof.Machine

namespace Sys2Proof.Proofs

open Sys2Proof.Machine

/-- Settles O41: what a gate does at each level, with a cut counted only where an armed port is covered (log 43); the end of a ramp and of a
clear latch (`exec_rampEnd_due`, `exec_clearLatch_due`); the idle tickle, which falls when its clock ends (log 22); and the head's identity. -/
theorem gatesAndPortEnds : Obligations.GatesAndPortEnds := by
  refine ⟨fun s g on => ⟨exec_gateAssert_asserted on, fun released disarmed => ?_, fun p here covers armed released => ?_,
    exec_gateRelease_asserted on, exec_gateRelease_released on⟩, fun s p clocked here => ?_⟩
  · exact (exec_gateAssert_released on released).trans (congrArg _ (State.gateRise_disarmed disarmed))
  · exact (exec_gateAssert_released on released).trans (congrArg _ (State.gateRise_armed here covers armed))
  · refine ⟨fun e ramp due armed => ?_, fun e ramp due disarmed => ?_, fun e => exec_rampEnd_early clocked here,
      exec_rampEnd_none clocked here, fun t clear due => ⟨s.latchEmpty p t, rfl, fun held => ?_, fun stopping stopAt => ?_,
        fun notHeld notAtLine => ?_⟩, exec_clearLatch_none clocked here, fun t => exec_clearLatch_early clocked here,
      fun sense => whenClocked_onPort clocked here, fun sense n u hn idle sole noScr noFire noDefer hu => ?_, fun sense due => if_pos due,
      fun sense notDue => if_neg (Bool.eq_false_iff.1 notDue), fun l running => exec_headIdRead_bytes clocked here running,
      exec_headIdRead_none clocked here, fun l down => exec_headIdRead_calderaDown clocked here down l⟩
    · rw [exec_rampEnd_due clocked here ramp due, if_neg armed]
      rfl
    · rw [exec_rampEnd_due clocked here ramp due, if_pos disarmed]
      rfl
    · rw [exec_clearLatch_due clocked here clear due, State.afterClear, if_pos held]
    · rw [exec_clearLatch_due clocked here clear due, State.afterClear, if_neg (by simp [stopping]), if_pos ⟨stopping, stopAt⟩]
    · rw [exec_clearLatch_due clocked here clear due, State.afterClear, if_neg notHeld, if_neg notAtLine]
    · exact hu ▸ exec_idleTickle_sole clocked here idle noScr noFire noDefer hn sole

end Sys2Proof.Proofs
end

section
/-! Proofs about Drive Calibration: the selection of a channel and the start of its measurement (R326, R327, R333, R337, R338), the rounds
(R338-R345, R348), and the HOV bus (R328-R334, R339). -/

namespace Sys2Proof.Machine

/-- A command of a group that the part has is carried out while its block is clocked. -/
theorem whenClocked_onGroup {s k : State} {g : Nat} (clocked : s.clocked = true) (here : g < s.nGroups) :
    whenClocked s (onGroup g s k) = .next k :=
  (if_pos clocked).trans (onGroup_of_lt here)

/-! ## Selection (R326, R327) -/

/-- The group's one selection after a scan is used up (R326). -/
def State.selectionUsed (s : State) (g : Nat) : State := s.updCal g fun r => { r with selDue := false }

/-- A start is deferred for the reason `why`: counted and raised once as long as the reason stays (R327). -/
def State.deferStart (s : State) (g why : Nat) : State :=
  if (s.cal g).refused = some why then s
  else ((s.inc (Key.CAL_DEFERRED g)).raise 0x40 g).updCal g fun r => { r with refused := some why }

/-- The calibration of channel `c` begins: a spare stands ready, any other waits for its hand-over (R333, R337). -/
def State.beginCal (s : State) (g c : Nat) : State :=
  ((s.setReg (Key.CAL_CHANNEL g) c).updCal g fun r => { r with
    ch := some c, refused := none, phase := if 64 ≤ c then .ready else .handOver, chDraws := true, spDraws := false
    fits := [], setDue := none, setDone := false, outcome := 0 }).queueSwap false g

section Start

variable {s : State} {g : Fin 4} (clocked : s.clocked = true) (here : g.val < s.nGroups)

include clocked here

theorem exec_calStart_idle (idle : (s.cal g).selDue = false ∨ (s.cal g).ch ≠ none) : exec (.calStart g) s = .next s :=
  (whenClocked_onGroup clocked here).trans
    (congrArg _ (if_pos (idle.imp Bool.eq_false_iff.1 Option.isSome_iff_ne_none.2)))

section Due

variable (due : (s.cal g).selDue = true) (free : (s.cal g).ch = none)

include due free

/-- A group whose selection is due, without a calibration, uses it up, and starts or defers what it finds. -/
theorem exec_calStart_due : exec (.calStart g) s = .next (match (s.selectionUsed g).calSelect g with
    | none => s.selectionUsed g
    | some c => if (s.selectionUsed g).calRefusal g c ≠ 0 then (s.selectionUsed g).deferStart g ((s.selectionUsed g).calRefusal g c)
      else (s.selectionUsed g).beginCal g c) :=
  (whenClocked_onGroup clocked here).trans (congrArg _ (if_neg (by simp [due, free])))

theorem exec_calStart_none (nothing : (s.selectionUsed g).calSelect g = none) :
    exec (.calStart g) s = .next (s.selectionUsed g) := by
  rw [exec_calStart_due clocked here due free, nothing]

theorem exec_calStart_refused {c : Nat} (selected : (s.selectionUsed g).calSelect g = some c)
    (refused : (s.selectionUsed g).calRefusal g c ≠ 0) :
    exec (.calStart g) s = .next ((s.selectionUsed g).deferStart g ((s.selectionUsed g).calRefusal g c)) := by
  simp only [exec_calStart_due clocked here due free, selected, if_pos refused]

theorem exec_calStart_accepted {c : Nat} (selected : (s.selectionUsed g).calSelect g = some c)
    (accepted : (s.selectionUsed g).calRefusal g c = 0) : exec (.calStart g) s = .next ((s.selectionUsed g).beginCal g c) := by
  simp only [exec_calStart_due clocked here due free, selected, if_neg (not_not.2 accepted)]

end Due

/-! ## The start of a measurement (R333, R337, R338) -/

/-- The measurement of channel `c` begins at drive temperature `temp`: its sense references are due, and its rest code is that of now. -/
def State.measureAt (s : State) (g c : Nat) (temp : Int) : State :=
  (s.queueHov g (senseFrames c)).updCal g fun r => { r with phase := .measure, temp := temp, rest := s.restCode c }

theorem exec_measureStart_none (free : (s.cal g).ch = none) : exec (.measureStart g) s = .next s :=
  (whenClocked_onGroup clocked here).trans (by rw [free])

theorem exec_measureStart_notReady {c : Nat} (chan : (s.cal g).ch = some c) (notReady : (s.cal g).phase ≠ .ready) :
    exec (.measureStart g) s = .next s :=
  (whenClocked_onGroup clocked here).trans (by simp only [chan, if_pos (Or.inl notReady)])

/-- A channel that is ready and rests is measured; where there is no drive temperature, the next free number stands for it (log 10). -/
theorem exec_measureStart_ready {c : Nat} (chan : (s.cal g).ch = some c) (ready : (s.cal g).phase = .ready)
    (rests : ∀ p, chPort c = some p → (s.port p).draws.any (fun d => d.ch = c ∧ s.at8 0 < d.end8) = false) :
    exec (.measureStart g) s = .next (match s.driveTemp g with
      | some t => s.measureAt g c t
      | none => { s with free := s.free + 1 }.measureAt g c (sgn 12 (Config.freeWord s.free).toNat)) := by
  have still : ¬ ((s.cal g).phase ≠ .ready ∨
      (chPort c).any (fun p => (s.port p).draws.any fun d => d.ch = c ∧ s.at8 0 < d.end8) = true) := by
    rintro (waiting | drawing)
    · exact waiting ready
    · obtain ⟨p, port, draws⟩ := Option.any_eq_true .. |>.1 drawing
      exact Bool.false_ne_true ((rests p port).symm.trans draws)
  exact (whenClocked_onGroup clocked here).trans (by simp only [chan, if_neg still]; rfl)

/-! ## The end of a round (R338-R345; log 22) -/

theorem exec_calRoundDone_early {sums refs : List Nat} (early : s.roundOver g = false) : exec (.calRoundDone g sums refs) s = .next s :=
  (whenClocked_onGroup clocked here).trans (congrArg _ (if_neg (Bool.eq_false_iff.1 early)))

theorem exec_calRoundDone_over {sums refs : List Nat} (through : s.roundOver g = true) : exec (.calRoundDone g sums refs) s =
    .next (s.updCal g fun r => { r with roundNow := some (sums, refs) }).lastOfClock :=
  (whenClocked_onGroup clocked here).trans (congrArg _ (if_pos through))

end Start

theorem State.lastOfClock_of_idle {s : State} (idle : s.pending = []) : s.lastOfClock = s.clockEnd := by
  simp [State.lastOfClock, idle]

section Round

variable {s : State} {g c : Nat} {sums refs : List Nat}

/-- The fit of a round, from its sums and its references (R339, R340, R343). -/
def State.roundFit (s : State) (sums refs : List Nat) : Option CalFit := s.calFit sums (refs.getD 0 0) (refs.getD 1 0) (refs.getD 2 0)

/-- A round with its fit noted; one that gives no line counts as implausible (log 45). -/
def State.fitNoted (s : State) (g c : Nat) (f : Option CalFit) : State :=
  (match f with
    | some x => s.setReg (Key.CAL_RESID_LAST c) (min 65535 x.resid.toNat)
    | none => s).updCal g fun r => { r with fits := f.getD CalFit.void :: r.fits, sweepAt := none }

theorem State.roundDone_first (two : s.reg Key.CAL_ACCEPT ≠ 0) (first : (s.cal g).fits = []) :
    s.roundDone g c sums refs = (s.fitNoted g c (s.roundFit sums refs)).queueHov g (senseFrames c) :=
  if_pos ⟨two, List.isEmpty_iff.2 first⟩

theorem State.roundDone_last (last : s.reg Key.CAL_ACCEPT = 0 ∨ (s.cal g).fits ≠ []) :
    s.roundDone g c sums refs = (s.fitNoted g c (s.roundFit sums refs)).calConclude g c :=
  if_neg fun ⟨two, first⟩ => last.elim two (· (List.isEmpty_iff.1 first))

/-- On a clock without a line event or a scan, the end of the clock brings the group its round alone (R341). -/
theorem State.calEnd_round (noLine : s.grid.evClk ≠ some s.clk) (noScan : s.therm.scanClk ≠ some s.clk) (chan : (s.cal g).ch = some c)
    (came : (s.cal g).roundNow = some (sums, refs)) :
    s.calEnd g = (s.updCal g fun r => { r with roundNow := none }).roundDone g c sums refs := by
  unfold State.calEnd
  simp only [if_neg noLine, if_neg fun moves : s.therm.scanClk = some s.clk ∧ _ => noScan moves.1, came, chan]

end Round

/-! ## Copies in NOR flash (R348) -/

section Copy

variable {s : State} {g : Fin 4} (here : g.val < s.nGroups)

include here

/-- Caldera copies the two words of the set that has waited longest (R348; log 45). -/
theorem exec_calSetCopy_running {w : Nat} {rest : List Nat} (on : s.on = true) (running : s.calderaUp = true)
    (waits : (s.cal g).copies = w :: rest) : exec (.calSetCopy g) s = .next
      (((s.updCal g fun r => { r with copies := rest }).norWrite 1 fun n => { n with
        sets := Map.put (fun _ => none) (Map.put (fun _ => none) n.sets (1024 * g + w) (some (BitVec.ofNat 72 (s.tabWord (0x4500 + g) w))))
          (1024 * g + w + 1) (some (BitVec.ofNat 72 (s.tabWord (0x4500 + g) (w + 1)))) }).logConfig 2
        (beBytes 9 (s.tabWord (0x4500 + g) w) ++ beBytes 9 (s.tabWord (0x4500 + g) (w + 1)))) :=
  (onGroup_of_lt here).trans (by rw [on, running, waits]; rfl)

theorem exec_calSetCopy_idle (idle : s.on = false ∨ s.calderaUp = false ∨ (s.cal g).copies = []) : exec (.calSetCopy g) s = .next s := by
  refine (onGroup_of_lt here).trans (congrArg _ ?_)
  split
  case h_1 running waits =>
    obtain ⟨on, up⟩ := Bool.and_eq_true_iff.1 running
    simp [on, up, waits] at idle
  case h_2 => rfl

end Copy

end Sys2Proof.Machine

namespace Sys2Proof.Proofs

open Sys2Proof.Machine

/-- Settles O42: what a selection finds is started or deferred (`exec_calStart_due`), a channel that is ready and rests is measured
(`exec_measureStart_ready`, log 10), and a round ends with its clock (log 22) in a second round or in a conclusion (`roundDone_first`,
`roundDone_last`). That a round which gives no line counts as implausible, and that a set is copied as its two words, are the model's choices
(log 45). -/
theorem calibrationRounds : Obligations.CalibrationRounds := by
  refine ⟨fun s u g clocked here hu => ?_, fun s u g c sums refs f here hf hu => ?_⟩
  · obtain rfl : u = s.selectionUsed g := hu
    refine ⟨exec_calStart_idle clocked here, exec_calStart_none clocked here, fun c due free selected refused => ?_,
      fun c due free => exec_calStart_accepted clocked here due free, fun c chan ready rests => ?_, fun c => exec_measureStart_notReady clocked here,
      exec_measureStart_none clocked here⟩
    · rw [exec_calStart_refused clocked here due free selected refused]
      exact ⟨fun new => congrArg _ (if_neg new), fun told => congrArg _ (if_pos told)⟩
    · rw [exec_measureStart_ready clocked here chan ready rests]
      exact ⟨fun t known => by rw [known]; rfl, fun unknown => by rw [unknown]; rfl⟩
  · obtain rfl : f = s.roundFit sums refs := hf
    obtain rfl : u = s.fitNoted g c (s.roundFit sums refs) := hu
    refine ⟨State.roundDone_first, State.roundDone_last, fun clocked => exec_calRoundDone_early clocked here,
      fun clocked => exec_calRoundDone_over clocked here, fun clocked through idle => ?_,
      fun chan came noLine noScan => State.calEnd_round noLine noScan chan came, fun w rest => exec_calSetCopy_running here,
      exec_calSetCopy_idle here⟩
    exact (exec_calRoundDone_over clocked here through).trans (congrArg _ (State.lastOfClock_of_idle idle))

end Sys2Proof.Proofs
end

section
/-! Proofs about the HOV bus: frames and whose turn it is (R328, R329), strobes (R331, R333, R334, R339), STATUS replies and the repeated
RESTORE (R330, R332, R336). -/

namespace Sys2Proof.Machine

/-! ## Frames (R328, R329) -/

/-- The bus is the group's where its frame is due, the bus has idled, and no other group has a frame on its way or due (R328). -/
theorem State.canSend_alone {s : State} {g t : Nat} (next : (s.cal g).dueClk = some t) (due : t ≤ s.clk)
    (idle : ∀ k < s.nGroups, (s.cal k).busTo ≤ s.clk) (alone : ∀ k < s.nGroups, k ≠ g → (s.cal k).dueClk = none) :
    s.canSend g = true := by
  have mine : ∀ k < s.nGroups, (match (s.cal k).dueClk with
      | none => true
      | some u => decide (t < u) || (u == t && decide (g ≤ k))) = true := by
    intro k here
    obtain rfl | other := eq_or_ne k g
    · simp [next]
    · rw [alone k here other]
  unfold State.canSend
  rw [next]
  simpa [due] using ⟨idle, mine⟩

section Bus

variable {s : State} {g : Fin 4} (clocked : s.clocked = true) (here : g.val < s.nGroups)

/-- The number of the group's next frame (R329). -/
def State.nextFseq (s : State) (g : Nat) : Nat := ((s.cal g).fseq + 1) % 256

include clocked here

theorem exec_hovFrame_waits (waits : s.canSend g = false) : exec (.hovFrame g) s = .next s :=
  (whenClocked_onGroup clocked here).trans (congrArg _ (if_pos (Bool.eq_false_iff.1 waits)))

theorem exec_hovFrame_status (turn : s.canSend g = true) (owed : (s.cal g).status ≠ none) : exec (.hovFrame g) s = .next
    ((s.emit (.hov g (hovFrame g (s.nextFseq g) ⟨0, 0, 0⟩))).updCal g fun c => { c with
      fseq := s.nextFseq g, frameEnd := s.clk + s.hovClks 32, busTo := s.clk + s.hovClks 36, statusOut := true }) :=
  (whenClocked_onGroup clocked here).trans
    (congrArg _ ((if_neg (not_not.2 turn)).trans (if_pos (Option.isSome_iff_ne_none.2 owed))))

theorem exec_hovFrame_command {x : HovCmd} {xs : List HovCmd} (turn : s.canSend g = true) (noStatus : (s.cal g).status = none)
    (waits : (s.cal g).frames = x :: xs) : exec (.hovFrame g) s = .next
      ((s.emit (.hov g (hovFrame g (s.nextFseq g) x))).updCal g fun c => { c with
        fseq := s.nextFseq g, frameEnd := s.clk + s.hovClks 32, busTo := s.clk + s.hovClks 36, cmdSeq := s.nextFseq g
        frames := xs, sent := some x }) := by
  refine (whenClocked_onGroup clocked here).trans (congrArg _ ((if_neg (not_not.2 turn)).trans ((if_neg (by simp [noStatus])).trans ?_)))
  rw [waits]
  rfl

/-! ## Strobes (R331, R333, R334, R339) -/

theorem exec_hovStrobe_none (nothing : (s.cal g).sent = none) : exec (.hovStrobe g) s = .next s :=
  (whenClocked_onGroup clocked here).trans (by rw [nothing])

theorem exec_hovStrobe_early (early : s.strobeDue g = false) : exec (.hovStrobe g) s = .next s := by
  refine (whenClocked_onGroup clocked here).trans (congrArg _ ?_)
  split
  · rfl
  · exact if_pos (Bool.eq_false_iff.1 early)

/-- The strobe applies the pending frame: what the spare drives, what is sensed, and the settling after a SENSE frame (R331, R339); a RESTORE
returns the sense input to normal (log 45). -/
theorem exec_hovStrobe_due {x : HovCmd} (pending : (s.cal g).sent = some x) (due : s.strobeDue g = true) : exec (.hovStrobe g) s = .next
    ((s.emit (.hovStrobe g)).updCal g fun c => { c with
      sent := none, status := some x, statusOut := false, dueAt := s.clk
      dwellTo := if x.op = 3 ∧ x.sense ≠ 0 then s.clk + s.settleClks + s.dwellClks else c.dwellTo
      sweepAt := if x.op = 3 ∧ x.sense = 0 then some (s.clk + s.settleClks) else c.sweepAt
      swapped := if x.op = 1 then some x.slot else if x.op = 2 then none else c.swapped
      sense := if x.op = 3 then x.sense else if x.op = 2 then 0 else c.sense }) :=
  (whenClocked_onGroup clocked here).trans (by simp only [pending, if_neg (not_not.2 due)])

omit clocked here in
/-- A pending frame is strobed once it has been shifted, a SENSE frame at once, any other when its channels let it (R333, R334). -/
theorem State.strobeDue_iff {x : HovCmd} (pending : (s.cal g).sent = some x) :
    s.strobeDue g = true ↔ s.strobeFrom g ≤ s.clk ∧ (x.op = 3 ∨ s.strobeOk g = true) := by
  simp [State.strobeDue, pending]

/-! ## STATUS replies (R330, R332, R336) -/

omit clocked here

/-- A STATUS reply of the group is taken: whether it fits, and which channel it shows (R330). -/
def State.replyTaken (s : State) (g : Nat) (ok : Bool) (slot : Nat) : State :=
  (s.setReg (Key.HOV_STATE g) (128 * b2n ok + slot)).updCal g fun r => { r with status := none, statusOut := false, dueAt := s.clk }

/-- A reply that does not fit: an error, the calibration aborted, and RESTORE from now on every 1 ms (R332). -/
def State.replyFailed (s : State) (g : Nat) : State :=
  (((s.inc (Key.HOV_ERRORS g)).raise 0x43 g).calAbort 4 g).updCal g fun r => { r with
    frames := [⟨2, 31, 0⟩], sent := none, unverified := true, retryAt := some (s.clk + 500000), chDraws := true, spDraws := r.ch.isSome }

/-- A SWAP is verified: the spare draws in the channel's stead, which is ready to be measured (R333). -/
def State.swapVerified (s : State) (g : Nat) : State :=
  s.updCal g fun r => { r with chDraws := false, phase := if r.phase = .handOver then .ready else r.phase }

/-- A RESTORE is verified: the board is known to stand unswapped, and the repeats end (R332, R348). -/
def State.restoreVerified (s : State) (g : Nat) : State :=
  s.updCal g fun r => { r with restored := true, unverified := false, retryAt := none }

/-- A verified RESTORE ends the calibration, as it was before the reply, that hands back (R336). -/
def State.restoreEnds (s : State) (r : CalGroup) (g : Nat) : State :=
  match r.ch with
  | some c => if r.phase = .handBack then (s.restoreVerified g).calFinal g c else s.restoreVerified g
  | none => s.restoreVerified g

/-- What follows a STATUS reply for the frame `x` that was strobed. -/
def State.afterReply (s : State) (r : CalGroup) (g : Nat) (x : HovCmd) (ok : Bool) : State :=
  if ¬ ok then s.replyFailed g else if x.op = 1 then s.swapVerified g else if x.op = 2 then s.restoreEnds r g else s

/-- Does a STATUS reply fit: it came, and shows the frame `x` applied (R330, R332)? -/
def State.replyFits (s : State) (g : Nat) (x : HovCmd) (reply : Option (BitVec 32)) : Bool :=
  reply.isSome && hovReplyOk g (s.cal g).cmdSeq (s.cal g).swapped { x with sense := (s.cal g).sense } ((reply.map BitVec.toNat).getD 0)

theorem State.replyFits_iff {x : HovCmd} {reply : Option (BitVec 32)} : s.replyFits g x reply = true ↔
    ∃ v, reply = some v ∧ hovReplyOk g (s.cal g).cmdSeq (s.cal g).swapped { x with sense := (s.cal g).sense } v.toNat = true := by
  cases reply <;> simp [State.replyFits]

/-- The channel that HOV_STATE shows after a reply; without one it stays (R330). -/
def State.replySlot (s : State) (g : Nat) (reply : Option (BitVec 32)) : Nat :=
  match reply with
  | some v => bits v.toNat 27 23
  | none => s.reg (Key.HOV_STATE g) % 32

include clocked here

theorem exec_hovVerify_none (noStatus : (s.cal g).status = none) (reply : Option (BitVec 32)) : exec (.hovVerify g reply) s = .next s :=
  (whenClocked_onGroup clocked here).trans (by rw [noStatus])

theorem exec_hovVerify_early (early : (s.cal g).statusOut = false ∨ s.clk < (s.cal g).frameEnd) (reply : Option (BitVec 32)) :
    exec (.hovVerify g reply) s = .next s := by
  refine (whenClocked_onGroup clocked here).trans (congrArg _ ?_)
  split
  · rfl
  · exact if_pos (early.imp_left Bool.eq_false_iff.1)

theorem exec_hovVerify_reply {x : HovCmd} (owed : (s.cal g).status = some x) (out : (s.cal g).statusOut = true)
    (shifted : (s.cal g).frameEnd ≤ s.clk) (reply : Option (BitVec 32)) : exec (.hovVerify g reply) s = .next
      ((s.replyTaken g (s.replyFits g x reply) (s.replySlot g reply)).afterReply (s.cal g) g x (s.replyFits g x reply)) := by
  have taken : ¬ (¬ (s.cal g).statusOut = true ∨ s.clk < (s.cal g).frameEnd) := by simp [out, shifted]
  refine (whenClocked_onGroup clocked here).trans ?_
  simp only [owed, if_neg taken]
  cases reply <;> rfl

/-! ## The repeated RESTORE (R332) -/

theorem exec_hovRestoreRetry_verified (verified : (s.cal g).unverified = false) : exec (.hovRestoreRetry g) s = .next s :=
  (whenClocked_onGroup clocked here).trans (congrArg _ (if_neg (by simp [verified])))

theorem exec_hovRestoreRetry_early {t : Nat} (next : (s.cal g).retryAt = some t) (early : s.clk < t) :
    exec (.hovRestoreRetry g) s = .next s :=
  (whenClocked_onGroup clocked here).trans (congrArg _ (if_neg (by simp [next, early])))

theorem exec_hovRestoreRetry_due {t : Nat} (unverified : (s.cal g).unverified = true) (next : (s.cal g).retryAt = some t)
    (due : t ≤ s.clk) : exec (.hovRestoreRetry g) s = .next
      ((if (s.cal g).quiet then s.queueHov g [⟨2, 31, 0⟩] else s).updCal g fun r => { r with retryAt := some (s.clk + 500000) }) :=
  (whenClocked_onGroup clocked here).trans (congrArg _ (if_pos ⟨unverified, by simp [next, due]⟩))

end Bus

end Sys2Proof.Machine

namespace Sys2Proof.Proofs

open Sys2Proof.Machine

/-- Settles O43: whose turn it is on the bus (`canSend_alone`) and what is sent; when a strobe falls (`strobeDue_iff`) and what it applies; and
what follows a STATUS reply, as it fits or not (`exec_hovVerify_reply`). That a RESTORE returns the sense input to normal and when the first
clock of a strobe is are the model's choices (log 45). -/
theorem handOverBusIsVerified : Obligations.HandOverBusIsVerified := by
  intro s g n clocked here hn
  obtain rfl : n = s.nextFseq g := hn
  refine ⟨exec_hovFrame_status clocked here, fun x xs => exec_hovFrame_command clocked here, exec_hovFrame_waits clocked here,
    fun t => State.canSend_alone, fun x => exec_hovStrobe_due clocked here, fun x => State.strobeDue_iff,
    exec_hovStrobe_early clocked here, exec_hovStrobe_none clocked here, exec_hovVerify_none clocked here,
    fun x reply chan ok owed out shifted hchan hok => ?_, fun reply early => exec_hovVerify_early clocked here early reply,
    fun unverified ⟨t, next, due⟩ => ?_, fun t => exec_hovRestoreRetry_early clocked here, exec_hovRestoreRetry_verified clocked here⟩
  · obtain rfl : ok = s.replyFits g x reply := Bool.eq_iff_iff.2 (hok.trans State.replyFits_iff.symm)
    obtain rfl : chan = s.replySlot g reply := hchan
    rw [exec_hovVerify_reply clocked here owed out shifted reply, State.afterReply]
    refine ⟨_, rfl, fun misfit => ?_, fun fits swap => ?_, fun fits restore noneBack => ?_, fun c fits restore chan back => ?_,
      fun fits notSwap notRestore => ?_⟩
    · rw [if_pos (by simp [misfit])]
      rfl
    · rw [if_neg (not_not.2 fits), if_pos swap]
      rfl
    · rw [if_neg (not_not.2 fits), if_neg (by simp [restore]), if_pos restore, State.restoreEnds]
      obtain free | away := noneBack
      · rw [free]
        rfl
      · cases (s.cal g).ch with
        | none => rfl
        | some c => exact congrArg _ (if_neg away)
    · rw [if_neg (not_not.2 fits), if_neg (by simp [restore]), if_pos restore, State.restoreEnds, chan]
      exact congrArg _ (if_pos back)
    · rw [if_neg (not_not.2 fits), if_neg notSwap, if_neg notRestore]
      rfl
  · rw [exec_hovRestoreRetry_due clocked here unverified next due]
    exact ⟨fun quiet => by rw [quiet]; rfl, fun busy => by rw [busy]; rfl⟩

end Sys2Proof.Proofs
end

section
/-! Proofs about the Thermal Monitor: when a scan is taken and what it makes Drive Calibration do (R324, R326, R355), and the periods of the
heaters (R368). -/

namespace Sys2Proof.Machine

/-! ## Scans (R324, R326, R355) -/

section Scan

variable {s : State}

theorem State.scanReady_first (first : s.therm.lastScan = none) : s.scanReady = true := by simp [State.scanReady, first]

theorem State.scanReady_iff {a b : Nat} (last : s.therm.lastScan = some (a, b)) :
    s.scanReady = true ↔ a + 50000 ≤ s.ct ∨ b + 50000 ≤ s.clk := by
  simp [State.scanReady, last]

theorem exec_thermalScan_early (clocked : s.clocked = true) (early : s.scanReady = false) (readings : Vector (BitVec 32) 80) :
    exec (.thermalScan readings) s = .next s :=
  (if_pos clocked).trans (congrArg _ (if_neg (Bool.eq_false_iff.1 early)))

theorem exec_thermalScan_ready (clocked : s.clocked = true) (ready : s.scanReady = true) (readings : Vector (BitVec 32) 80) :
    exec (.thermalScan readings) s = .next (s.scanDone readings) :=
  (if_pos clocked).trans (congrArg _ (if_pos ready))

end Scan

/-! ## Heater periods (R368) -/

section Heater

variable {s : State} {p : Nat}

/-- A PWM period of port `p` starts on this clock. -/
def State.heatStart (s : State) (p : Nat) : State := s.updHeat p fun h => { h with start := some s.clk }

/-- What forces a heater off does not depend on when its period began. -/
theorem State.heatStart_forced : (s.heatStart p).heatForced p = s.heatForced p := by
  rw [State.heatForced, State.heatStart, State.updHeat_heat_self]
  rfl

/-- Nor does the duty of its mode. -/
theorem State.heatStart_duty : (s.heatStart p).heatDuty p = s.heatDuty p := by simp [State.heatStart, State.heatDuty]

theorem State.heatDue_iff {t : Nat} (started : (s.heat p).start = some t) :
    s.heatDue p = true ↔ t + s.reg Key.HEAT_PERIOD * 500 ≤ s.clk := by
  rw [State.heatDue, started]
  exact decide_eq_true_iff

theorem State.heatPin_iff {t : Nat} (started : (s.heat p).start = some t) :
    s.heatPin p = true ↔ (s.clk - t) * 1024 < s.reg (Key.HEAT_DUTY p) * (s.reg Key.HEAT_PERIOD * 500) := by
  rw [State.heatPin, started]
  exact decide_eq_true_iff

end Heater

section HeaterPeriod

variable {s : State} {p : Fin 16} (clocked : s.clocked = true) (here : p.val < s.nPorts)

include clocked here

theorem exec_heatPeriodStart_early (early : s.heatDue p = false) : exec (.heatPeriodStart p) s = .next s :=
  (whenClocked_onPort clocked here).trans (congrArg _ (if_neg (Bool.eq_false_iff.1 early)))

/-- A period that is due takes its duty, none where heating is forced off as the period starts. -/
theorem exec_heatPeriodStart_due (due : s.heatDue p = true) : exec (.heatPeriodStart p) s = .next
    (if s.heatForced p then (s.heatStart p).heatForce p else (s.heatStart p).setReg (Key.HEAT_DUTY p) (s.heatDuty p)) := by
  rw [← s.heatStart_forced, ← s.heatStart_duty]
  exact (whenClocked_onPort clocked here).trans (congrArg _ (if_pos due))

end HeaterPeriod

end Sys2Proof.Machine

namespace Sys2Proof.Proofs

open Sys2Proof.Machine

/-- Settles O44: a scan that is ready is carried out with what follows it (`exec_thermalScan_ready`), and a heater period that is due takes
the duty of the state before it (`exec_heatPeriodStart_due`). That a sooner scan does nothing (log 46), and that the corrections and the
selection use the temperature of this scan (log 45), are the model's choices. -/
theorem thermalScansAndHeats : Obligations.ThermalScansAndHeats := by
  intro s readings p clocked
  refine ⟨fun u ready hu => ?_, fun early => exec_thermalScan_early clocked early readings, State.scanReady_first,
    fun a b => State.scanReady_iff, fun u hu here due free => ?_, fun u hu here due forced => ?_, fun t here started early => ?_,
    fun t started => (State.heatDue_iff started).2, fun t => State.heatPin_iff⟩
  · rw [exec_thermalScan_ready clocked ready, hu]
    rfl
  · obtain rfl : u = s.heatStart p := hu
    rw [exec_heatPeriodStart_due clocked here due, if_neg (Bool.eq_false_iff.1 free)]
  · obtain rfl : u = s.heatStart p := hu
    rw [exec_heatPeriodStart_due clocked here due, if_pos forced]
  · exact exec_heatPeriodStart_early clocked here (Bool.eq_false_iff.2 fun due => early.not_ge ((State.heatDue_iff started).1 due))

end Sys2Proof.Proofs
end

section
/-! Proofs about the cameras: Frame Start, Frame End and late frames (R378, R379, R403), the other CSI-2 packets (R375), and I²C transactions
(R377). -/

namespace Sys2Proof.Machine

/-! ## Commands that act in RUN alone (R405) -/

section PowerGate

variable {s t u : State} (clocked : s.clocked = true)

include clocked

theorem whenClocked_run (run : s.reg Key.POWER_STATE = 0) :
    whenClocked s (.next (if s.reg Key.POWER_STATE ≠ 0 then t else u)) = .next u :=
  (if_pos clocked).trans (congrArg _ (if_neg (not_not.2 run)))

theorem whenClocked_notRun (stopped : s.reg Key.POWER_STATE ≠ 0) :
    whenClocked s (.next (if s.reg Key.POWER_STATE ≠ 0 then t else u)) = .next t :=
  (if_pos clocked).trans (congrArg _ (if_pos stopped))

end PowerGate

/-- A camera that is on is in RUN (R378, R405). -/
theorem State.camOn_run {s : State} {cam : Nat} (on : s.camOn cam = true) : s.reg Key.POWER_STATE = 0 := by
  obtain ⟨-, run⟩ := Bool.and_eq_true_iff.1 on
  exact beq_iff_eq.1 run

/-! ## Frame Start and Frame End (R378, R403) -/

section Frames

variable {s : State} {cam : Fin 2} {vc : BitVec 2} {number : BitVec 16} (clocked : s.clocked = true)

include clocked

theorem exec_frameStart_notRun (stopped : s.reg Key.POWER_STATE ≠ 0) : exec (.frameStart cam vc number) s = .next s :=
  whenClocked_notRun clocked stopped

theorem exec_frameEnd_notRun (stopped : s.reg Key.POWER_STATE ≠ 0) : exec (.frameEnd cam vc) s = .next s :=
  whenClocked_notRun clocked stopped

/-- A frame begins with the Frame Start of exposure 0, and ends one that is under way as late (R378, R379). -/
theorem exec_frameStart_on (on : s.camOn cam = true) (first : s.exposureOf cam vc.toNat = some 0) :
    exec (.frameStart cam vc number) s = .next ((s.endFrame cam true).beginFrame cam number.toNat) :=
  (whenClocked_run clocked (State.camOn_run on)).trans (by simp only [first, if_pos on])

variable (run : s.reg Key.POWER_STATE = 0)

include run

/-- At a camera that is off, a Frame Start is out of frame on the clock on which the camera was turned off, and nothing later (R403). -/
theorem exec_frameStart_off (off : s.camOn cam = false) (first : s.exposureOf cam vc.toNat = some 0) :
    exec (.frameStart cam vc number) s = .next (if (s.cam cam).offAt = some s.clk then s.inc (Key.OUT_OF_FRAME cam) else s) :=
  (whenClocked_run clocked run).trans (by simp only [first, if_neg (Bool.eq_false_iff.1 off)])

theorem exec_frameStart_laterExposure {e : Nat} (later : s.exposureOf cam vc.toNat = some (e + 1)) :
    exec (.frameStart cam vc number) s = .next s :=
  (whenClocked_run clocked run).trans (by simp only [later])

theorem exec_frameStart_unknown (unknown : s.exposureOf cam vc.toNat = none) :
    exec (.frameStart cam vc number) s = .next (s.inc (Key.VC_DISCARDED cam)) :=
  (whenClocked_run clocked run).trans (by rw [unknown])

theorem exec_frameEnd_unknown (unknown : s.exposureOf cam vc.toNat = none) :
    exec (.frameEnd cam vc) s = .next (s.inc (Key.VC_DISCARDED cam)) :=
  (whenClocked_run clocked run).trans (by rw [unknown])

theorem exec_frameEnd_outside {e : Nat} (known : s.exposureOf cam vc.toNat = some e) (outside : (s.cam cam).receiving = none) :
    exec (.frameEnd cam vc) s = .next s :=
  (whenClocked_run clocked run).trans (by simp only [known, outside])

/-- The first Frame End of an exposure is noted in the frame, which ends with the last of them (R378). -/
theorem exec_frameEnd_new {e : Nat} {f : CamFrame} (known : s.exposureOf cam vc.toNat = some e) (under : (s.cam cam).receiving = some f)
    (new : f.ends.contains e = false) : exec (.frameEnd cam vc) s = .next
      (if f.ends.length + 1 = f.expo then (s.updFrame cam fun f' => { f' with ends := e :: f.ends }).endFrame cam false
        else s.updFrame cam fun f' => { f' with ends := e :: f.ends }) :=
  (whenClocked_run clocked run).trans (by simp only [known, under, if_neg (Bool.eq_false_iff.1 new), List.length_cons])

end Frames

/-! ## Late frames (R379, R403; log 22) -/

section Late

variable {s : State} {cam : Fin 2}

theorem exec_frameTimeout_idle (clocked : s.clocked = true) (idle : s.pending = []) :
    exec (.frameTimeout cam) s = .next (s.camEnd cam) :=
  (if_pos clocked).trans (congrArg _ (if_pos (List.isEmpty_iff.2 idle)))

theorem exec_frameTimeout_waits (clocked : s.clocked = true) (waits : s.pending ≠ []) : exec (.frameTimeout cam) s = .next s :=
  (if_pos clocked).trans (congrArg _ (if_neg (mt List.isEmpty_iff.1 waits)))

/-- Where no line waits for a slot, the end of a clock ends the frame that is late and does nothing else. -/
theorem State.camEnd_noLine {cam : Nat} (noLine : s.lateLines cam = s) :
    s.camEnd cam = if s.frameLate cam then s.endFrame cam true else s := by
  simp only [State.camEnd, noLine]

theorem State.frameLate_of_due {cam : Nat} {f : CamFrame} (under : (s.cam cam).receiving = some f) (due : f.fsCt + f.limit ≤ s.ct) :
    s.frameLate cam = true := by
  simp [State.frameLate, under, due]

theorem State.frameLate_of_outside {cam : Nat} (outside : (s.cam cam).receiving = none) : s.frameLate cam = false := by
  simp [State.frameLate, outside]

end Late

/-! ## Other packets (R375) -/

/-- A packet header is read: one with a correctable error is counted (R375). -/
def State.headerRead (s : State) (cam : Nat) (p : CsiPacket) : State :=
  if p.ecc = .corrected then s.inc (Key.HDR_ECC_CORRECTED cam) else s

section Packets

variable {s : State} {cam : Fin 2} {p : CsiPacket} (clocked : s.clocked = true) (run : s.reg Key.POWER_STATE = 0)

include clocked run

theorem exec_csiPacket_bad (bad : p.ecc = .bad) :
    exec (.csiPacket cam p) s = .next ((s.inc (Key.HDR_ECC_ERRORS cam)).raise (camSource cam 0) cam) :=
  (whenClocked_run clocked run).trans (congrArg _ (if_pos bad))

variable (usable : p.ecc ≠ .bad)

include usable

theorem exec_csiPacket_unknown (unknown : s.exposureOf cam p.vc.toNat = none) :
    exec (.csiPacket cam p) s = .next ((s.headerRead cam p).inc (Key.VC_DISCARDED cam)) :=
  (whenClocked_run clocked run).trans (congrArg _ ((if_neg usable).trans (by rw [unknown]; rfl)))

variable {e : Nat} (known : s.exposureOf cam p.vc.toNat = some e)

include known

/-- Line Start, Line End, generic short packets and embedded data are ignored (R375); a corrected header counts all the same (log 47). -/
theorem exec_csiPacket_ignored (kind : p.dataType.toNat ≤ 0x0F ∨ p.dataType.toNat = 0x12) :
    exec (.csiPacket cam p) s = .next (s.headerRead cam p) :=
  (whenClocked_run clocked run).trans (congrArg _ ((if_neg usable).trans (by rw [known]; exact if_pos kind)))

section LongPacket

variable (long : 0x0F < p.dataType.toNat) (notEmbedded : p.dataType.toNat ≠ 0x12)

include long notEmbedded

/-- A long packet is discarded where it has another data type or belongs to no frame; else it is a line, whose checksum is judged (R375,
R378). -/
theorem exec_csiPacket_long : exec (.csiPacket cam p) s = .next
    (if p.dataType.toNat ≠ s.reg (Key.DATA_TYPE cam) then (s.headerRead cam p).inc (Key.TYPE_DISCARDED cam)
      else match (s.cam cam).receiving with
        | none => (s.headerRead cam p).inc (Key.OUT_OF_FRAME cam)
        | some f =>
          if p.crcOk then (s.headerRead cam p).takeLine cam e f p.pixels p.crcOk
          else (((s.headerRead cam p).takeLine cam e f p.pixels p.crcOk).inc (Key.PAYLOAD_CRC cam)).raise (camSource cam 0) cam) := by
  have taken : ¬ (p.dataType.toNat ≤ 0x0F ∨ p.dataType.toNat = 0x12) := not_or.2 ⟨long.not_ge, notEmbedded⟩
  exact (whenClocked_run clocked run).trans (congrArg _ ((if_neg usable).trans (by rw [known]; exact if_neg taken)))

theorem exec_csiPacket_otherType (other : p.dataType.toNat ≠ s.reg (Key.DATA_TYPE cam)) :
    exec (.csiPacket cam p) s = .next ((s.headerRead cam p).inc (Key.TYPE_DISCARDED cam)) := by
  rw [exec_csiPacket_long clocked run usable known long notEmbedded, if_pos other]

section Line

variable (type : p.dataType.toNat = s.reg (Key.DATA_TYPE cam))

include type

theorem exec_csiPacket_outside (outside : (s.cam cam).receiving = none) :
    exec (.csiPacket cam p) s = .next ((s.headerRead cam p).inc (Key.OUT_OF_FRAME cam)) := by
  rw [exec_csiPacket_long clocked run usable known long notEmbedded, if_neg (not_not.2 type), outside]

theorem exec_csiPacket_line {f : CamFrame} (under : (s.cam cam).receiving = some f) (sound : p.crcOk = true) :
    exec (.csiPacket cam p) s = .next ((s.headerRead cam p).takeLine cam e f p.pixels true) := by
  simp only [exec_csiPacket_long clocked run usable known long notEmbedded, if_neg (not_not.2 type), under, sound, if_true]

theorem exec_csiPacket_badLine {f : CamFrame} (under : (s.cam cam).receiving = some f) (damaged : p.crcOk = false) :
    exec (.csiPacket cam p) s = .next
      ((((s.headerRead cam p).takeLine cam e f p.pixels false).inc (Key.PAYLOAD_CRC cam)).raise (camSource cam 0) cam) := by
  simp only [exec_csiPacket_long clocked run usable known long notEmbedded, if_neg (not_not.2 type), under, damaged, Bool.false_eq_true,
    if_false]

end Line

end LongPacket

end Packets

/-! ## I²C (R377) -/

section I2c

variable {s : State} {cam : Fin 2} (clocked : s.clocked = true)

include clocked

section Idle

variable (idle : s.reg (Key.I2C_STATUS cam) ≠ 1)

include idle

theorem exec_i2cDone_idle (nack : Bool) (data : BitVec 32) : exec (.i2cDone cam nack data) s = .next s :=
  (if_pos clocked).trans (congrArg _ (if_pos (Or.inl idle)))

theorem exec_i2cTimeout_idle : exec (.i2cTimeout cam) s = .next s :=
  (if_pos clocked).trans (congrArg _ (if_pos (Or.inl idle)))

end Idle

variable (run : s.reg Key.POWER_STATE = 0) (busy : s.reg (Key.I2C_STATUS cam) = 1)

include run busy

theorem exec_i2cTimeout_busy : exec (.i2cTimeout cam) s = .next ((s.setReg (Key.I2C_STATUS cam) 4).raise (camSource cam 4) cam) :=
  (if_pos clocked).trans (congrArg _ (if_neg (by simp [run, busy])))

theorem exec_i2cDone_nack (data : BitVec 32) :
    exec (.i2cDone cam true data) s = .next ((s.setReg (Key.I2C_STATUS cam) 3).raise (camSource cam 4) cam) :=
  (if_pos clocked).trans (congrArg _ (if_neg (by simp [run, busy])))

/-- A transaction that was acknowledged is DONE, and a read leaves its bytes (R377). -/
theorem exec_i2cDone_ack (data : BitVec 32) : exec (.i2cDone cam false data) s = .next
    (if bits (s.reg (Key.I2C_CMD cam)) 63 62 = 2 then (s.setReg (Key.I2C_STATUS cam) 2).setReg (Key.I2C_DATA cam)
        (data.toNat % 2 ^ (8 * bits (s.reg (Key.I2C_CMD cam)) 52 50))
      else s.setReg (Key.I2C_STATUS cam) 2) :=
  (if_pos clocked).trans (congrArg _ (if_neg (by simp [run, busy])))

end I2c

end Sys2Proof.Machine

namespace Sys2Proof.Proofs

open Sys2Proof.Machine

/-- Settles O45: each command that brings a packet or ends a transaction comes to one branch of the model, found by the power state, the
virtual channel and the frame under way (`exec_frameStart_on`, `exec_frameEnd_new`, `exec_csiPacket_long`, `exec_i2cDone_ack`); a late frame
ends with its clock (log 22, `camEnd_noLine`). That the corrected header of an ignored packet counts is the model's choice (log 47). -/
theorem camerasDeliverFrames : Obligations.CamerasDeliverFrames := by
  refine ⟨fun s cam vc number clocked => ⟨fun stopped => ?_, exec_frameStart_on clocked, fun run => ⟨fun off first => ?_,
    fun e => exec_frameStart_laterExposure clocked run, fun unknown => ?_, fun e => exec_frameEnd_outside clocked run,
    fun e f known under new => ?_⟩, exec_frameTimeout_idle clocked, exec_frameTimeout_waits clocked, fun f _ noLine under due => ?_,
    fun noLine outside => ?_⟩, fun s u cam p clocked run hu => ?_⟩
  · exact ⟨exec_frameStart_notRun clocked stopped, exec_frameEnd_notRun clocked stopped⟩
  · rw [exec_frameStart_off clocked run off first]
    exact ⟨fun now => congrArg _ (if_pos now), fun before => congrArg _ (if_neg before)⟩
  · exact ⟨exec_frameStart_unknown clocked run unknown, exec_frameEnd_unknown clocked run unknown⟩
  · rw [exec_frameEnd_new clocked run known under new]
    exact ⟨fun last => congrArg _ (if_pos last), fun more => congrArg _ (if_neg more)⟩
  · rw [State.camEnd_noLine noLine, if_pos (State.frameLate_of_due under due)]
  · rw [State.camEnd_noLine noLine, if_neg (Bool.eq_false_iff.1 (State.frameLate_of_outside outside))]
  · obtain rfl : u = s.headerRead cam p := hu
    refine ⟨exec_csiPacket_bad clocked run, exec_csiPacket_unknown clocked run, fun e usable => exec_csiPacket_ignored clocked run usable,
      fun e f usable known long notEmbedded => ?_, fun busy data => ?_, fun idle nack data => ?_⟩
    · exact ⟨exec_csiPacket_otherType clocked run usable known long notEmbedded,
        exec_csiPacket_outside clocked run usable known long notEmbedded,
        fun type => exec_csiPacket_line clocked run usable known long notEmbedded type,
        fun type => exec_csiPacket_badLine clocked run usable known long notEmbedded type⟩
    · rw [exec_i2cDone_ack clocked run busy]
      exact ⟨exec_i2cDone_nack clocked run busy data, fun read => congrArg _ (if_pos read), fun write => congrArg _ (if_neg write),
        exec_i2cTimeout_busy clocked run busy⟩
    · exact ⟨exec_i2cDone_idle clocked idle nack data, exec_i2cTimeout_idle clocked idle⟩

end Sys2Proof.Proofs
end

section
/-! Proofs about the inspection pipeline: grants and the latch of the settings (R385-R388), lines processed and table words that fail (R387,
R404), units that are done (R385, R387, R400), and silent cameras (R381). -/

namespace Sys2Proof.Machine

/-! ## Grants (R385-R388) -/

/-- The pipeline is granted to camera `c`, with a context switch of 64 clocks where another was served before (R386, R387). -/
def State.granted (s : State) (c : Nat) : State :=
  (if s.pipe.last = some c then s else s.inc Key.CTX_SWITCHES).updPipe fun p => { p with
    cur := some c, last := some c, unitEnd := ((s.cam c).frames.head?.map s.unitEndOf).getD 0, since := s.ct
    freeAt := s.clk + 64 * (if s.pipe.last = some c then 0 else 1), lineEnd := none }

section Grant

variable {s : State}

theorem exec_pipeGrant_granted {c : Nat} (clocked : s.clocked = true) (free : s.pipe.cur = none) (run : s.reg Key.POWER_STATE = 0)
    (grantee : s.grantee = some c) :
    exec .pipeGrant s = .next (if s.pending.isEmpty then (s.granted c).pipeEnd else s.granted c) := by
  refine (if_pos clocked).trans (congrArg _ ((if_neg (by simp [free, run])).trans ?_))
  obtain served | other := eq_or_ne s.pipe.last (some c)
  · simp [grantee, State.granted, served, b2n]
  · simp [grantee, State.granted, other, b2n]

theorem exec_pipeGrant_none (clocked : s.clocked = true)
    (none_ : s.grantee = none ∨ s.pipe.cur ≠ none ∨ s.reg Key.POWER_STATE ≠ 0) : exec .pipeGrant s = .next s := by
  refine (if_pos clocked).trans (congrArg _ ?_)
  obtain noRequest | taken := none_
  · rw [noRequest]
    exact ite_self _
  · exact if_pos (taken.imp_left Option.isSome_iff_ne_none.2)

/-- The end of a clock begins the next line of the unit, once that is complete and the pipeline is free for it (R387). -/
theorem State.pipeEnd_lineEnd {c : Nat} {f : CamFrame} (serves : s.pipe.cur = some c) (head : (s.cam c).frames.head? = some f)
    (none_ : s.pipe.lineEnd = none) (inUnit : f.done < s.pipe.unitEnd) (ready : f.lineReady f.done = true) :
    s.pipeEnd.pipe.lineEnd = some (max s.clk s.pipe.freeAt + lineClocks f.width) := by
  have begins : s.pipe.lineEnd.isNone = true ∧ f.done < s.pipe.unitEnd ∧ f.lineReady f.done = true :=
    ⟨by rw [none_]; rfl, inUnit, ready⟩
  simp only [State.pipeEnd, serves, head, if_pos begins]
  rfl

end Grant

/-! ## Lines (R387, R404) -/

/-- The settings that hold for a frame of camera `c`: those it latched, or those in force (R388). -/
def State.settings (s : State) (c : Nat) (f : CamFrame) : PipeCfg := f.cfg.getD (s.pipeCfg c)

/-- The table words of camera `c` that fail on this line and had not failed before (R404). -/
def newFails (c : Nat) (cfg : PipeCfg) (tableErr : List (Fin 3 × Nat)) : List (Nat × Nat) :=
  ((tableErr.map fun e => (0x4600 + 2 * e.1.val + c, e.2)).filter fun e => !cfg.bad.contains e).dedup

/-- One more line of the frame at the head of camera `c` is processed, under the settings `cfg` and with the new failing words `new` (R387,
R404). -/
def State.lineProcessed (s : State) (c : Nat) (cfg : PipeCfg) (new : List (Nat × Nat)) : State :=
  ((s.updCam c fun m => { m with frames := modAt (fun x => { x with
    done := x.done + 1, tableErr := x.tableErr || !(new ++ cfg.bad).isEmpty, cfg := some { cfg with bad := new ++ cfg.bad } }) 0 m.frames
    }).failPipe c cfg new).updPipe fun p => { p with freeAt := s.clk, lineEnd := none }

/-- Every failing word of a line counts, and raises the fault: those of earlier lines again (R404, log 42). -/
def State.countFails (s : State) (bad : List (Nat × Nat)) : State :=
  if bad.isEmpty then s else (s.addReg Key.PIPE_TABLE_ERRORS bad.length).raise 0x5A 0

theorem State.countFails_none {s : State} {bad : List (Nat × Nat)} (none_ : bad = []) : s.countFails bad = s :=
  if_pos (List.isEmpty_iff.2 none_)

theorem State.countFails_some {s : State} {bad : List (Nat × Nat)} (some_ : bad ≠ []) :
    s.countFails bad = (s.addReg Key.PIPE_TABLE_ERRORS bad.length).raise 0x5A 0 :=
  if_neg (mt List.isEmpty_iff.1 some_)

section Line

variable {s : State} (clocked : s.clocked = true)

include clocked

theorem exec_pipeLineDone_free (free : s.pipe.cur = none) (tableErr : List (Fin 3 × Nat)) : exec (.pipeLineDone tableErr) s = .next s :=
  (if_pos clocked).trans (by rw [free])

variable {c : Nat} {f : CamFrame} (serves : s.pipe.cur = some c) (head : (s.cam c).frames.head? = some f)

include serves head

theorem exec_pipeLineDone_early (early : s.pipe.unitEnd ≤ f.done ∨ f.lineReady f.done = false ∨ s.pipe.lineEnd = none ∨
    ∃ t, s.pipe.lineEnd = some t ∧ s.clk < t) (tableErr : List (Fin 3 × Nat)) : exec (.pipeLineDone tableErr) s = .next s := by
  refine (if_pos clocked).trans (congrArg _ ?_)
  simp only [serves, head]
  refine if_pos ?_
  obtain through | incomplete | notBegun | ⟨t, ends, before⟩ := early
  · exact .inr (.inr (.inl through))
  · exact .inr (.inr (.inr (Bool.eq_false_iff.1 incomplete)))
  · exact .inr (.inl (by simp [notBegun]))
  · exact .inr (.inl (by simp [ends, before]))

/-- A line whose time has come adds to its frame; the output lags it by two lines (R387). -/
theorem exec_pipeLineDone_due {t : Nat} (inUnit : f.done < s.pipe.unitEnd) (ready : f.lineReady f.done = true)
    (run : s.reg Key.POWER_STATE = 0) (ends : s.pipe.lineEnd = some t) (due : t ≤ s.clk) {cfg : PipeCfg} (latched : cfg = s.settings c f)
    {new : List (Nat × Nat)} {tableErr : List (Fin 3 × Nat)} (fails : new = newFails c cfg tableErr) :
    exec (.pipeLineDone tableErr) s = .next
      (if 2 ≤ f.done then ((s.lineProcessed c cfg new).countFails (new ++ cfg.bad)).outputLine c (f.done - 2)
        else (s.lineProcessed c cfg new).countFails (new ++ cfg.bad)) := by
  have begun : ¬ (s.reg Key.POWER_STATE ≠ 0 ∨ s.pipe.lineEnd.all (fun t => decide (s.clk < t)) = true ∨ s.pipe.unitEnd ≤ f.done ∨
      ¬ f.lineReady f.done = true) := by
    simp [run, ends, due, inUnit, ready]
  subst fails latched
  refine (if_pos clocked).trans (congrArg _ ?_)
  simp only [serves, head, if_neg begun]
  rfl

end Line

/-! ## Units (R385, R387, R400) -/

/-- A unit that is done is counted with the time it took, and frees the pipeline (R385, R407). -/
def State.unitFreed (s : State) : State :=
  ((s.inc Key.PIPE_UNITS).addReg Key.PIPE_BUSY_CT (s.ct - s.pipe.since)).updPipe fun p => { p with cur := none, lineEnd := none }

section Unit

variable {s : State} (clocked : s.clocked = true)

include clocked

theorem exec_pipeUnitDone_free (free : s.pipe.cur = none) : exec .pipeUnitDone s = .next s :=
  (if_pos clocked).trans (by rw [free])

variable {c : Nat} {f : CamFrame} (serves : s.pipe.cur = some c) (head : (s.cam c).frames.head? = some f)

include serves head

theorem exec_pipeUnitDone_early (early : s.unitOver f = false) : exec .pipeUnitDone s = .next s :=
  (if_pos clocked).trans (by simp only [serves, head, if_pos (Bool.eq_false_iff.1 early)])

theorem exec_pipeUnitDone_over (ended : s.unitOver f = true) :
    exec .pipeUnitDone s = .next (if f.height ≤ f.done then s.unitFreed.finishFrame c f else s.unitFreed) :=
  (if_pos clocked).trans (by simp only [serves, head, if_neg (not_not.2 ended)]; rfl)

end Unit

/-! ## Silence (R381) -/

section Silence

variable {s : State} {cam : Fin 2} (clocked : s.clocked = true)

include clocked

theorem exec_camSilent_quiet (quiet : s.camQuiet cam = true) :
    exec (.camSilent cam) s = .next (s.cause (camSource cam 3) cam true cam) :=
  (if_pos clocked).trans (congrArg _ (if_pos quiet))

theorem exec_camSilent_heard (heard : s.camQuiet cam = false) : exec (.camSilent cam) s = .next s :=
  (if_pos clocked).trans (congrArg _ (if_neg (Bool.eq_false_iff.1 heard)))

end Silence

end Sys2Proof.Machine

namespace Sys2Proof.Proofs

open Sys2Proof.Machine

/-- Settles O46: a free pipeline is granted (`exec_pipeGrant_granted`), the end of a clock begins a line (`pipeEnd_lineEnd`), a line that is
due is processed (`exec_pipeLineDone_due`), and a unit that is over frees the pipeline (`exec_pipeUnitDone_over`). That a failing table word
fails again on every later line and counts once a line (log 42), and that settings are latched when the clock of the first grant ends (logs 47
and 22), are the model's choices. -/
theorem pipelineServesCameras : Obligations.PipelineServesCameras := by
  intro s clocked
  refine ⟨fun c u free run grantee hu => ?_, fun c f => State.pipeEnd_lineEnd, exec_pipeGrant_none clocked,
    fun c f te serves head early => exec_pipeLineDone_early clocked serves head early te, exec_pipeLineDone_free clocked,
    fun c f te t u cfg new serves head inUnit ready run ends due hcfg hnew hu => ?_, fun c f serves head ended => ⟨s.unitFreed, rfl, ?_⟩,
    fun c f => exec_pipeUnitDone_early clocked, exec_pipeUnitDone_free clocked, fun cam => exec_camSilent_quiet clocked,
    fun cam => exec_camSilent_heard clocked⟩
  · obtain rfl : u = s.granted c := hu
    rw [exec_pipeGrant_granted clocked free run grantee]
    exact ⟨fun idle => congrArg _ (if_pos (List.isEmpty_iff.2 idle)), fun waits => congrArg _ (if_neg (mt List.isEmpty_iff.1 waits))⟩
  · obtain rfl : u = s.lineProcessed c cfg new := hu
    rw [exec_pipeLineDone_due clocked serves head inUnit ready run ends due hcfg hnew]
    refine ⟨fun sound early => ?_, fun sound lags => ?_, fun failed early => ?_, fun failed lags => ?_⟩
    · rw [if_neg early.not_ge, State.countFails_none sound]
    · rw [if_pos lags, State.countFails_none sound]
    · rw [if_neg early.not_ge, State.countFails_some failed]
    · rw [if_pos lags, State.countFails_some failed]
  · rw [exec_pipeUnitDone_over clocked serves head ended]
    exact ⟨fun whole => congrArg _ (if_pos whole), fun part => congrArg _ (if_neg part.not_ge)⟩

end Sys2Proof.Proofs
end

section
/-! Proofs about the Nozzle Health Loop: when a test is armed, given up and checked (R415-R417). -/

namespace Sys2Proof.Machine

section LoopTests

variable {s : State} {c : Fin 2} (clocked : s.clocked = true)

include clocked

/-! ## Arming (R415, R416) -/

theorem exec_loopArm_none (noTest : s.loopTests c = []) : exec (.loopArm c) s = .next s :=
  (if_pos clocked).trans (by rw [noTest])

theorem exec_loopCheck_none (noTest : s.loopTests c = []) : exec (.loopCheck c) s = .next s :=
  (if_pos clocked).trans (by rw [noTest])

section Oldest

variable {k : LoopBlock} {t : LoopTest} {rest : List (LoopBlock × LoopTest)} (oldest : s.loopTests c = (k, t) :: rest)

include oldest

theorem exec_loopArm_latched (latched : t.phase = 0) : exec (.loopArm c) s = .next (s.armTest c k t).loopRelease :=
  (if_pos clocked).trans (by simp only [oldest, if_pos latched])

/-- A test that is armed waits for its frame (R415). -/
theorem exec_loopArm_waits (armed : t.phase ≠ 0) (awaited : s.loopLost c = false) : exec (.loopArm c) s = .next s :=
  (if_pos clocked).trans (by simp only [oldest, if_neg armed, if_neg (Bool.eq_false_iff.1 awaited)])

/-! ## Checking (R417) -/

theorem exec_loopCheck_recorded (armed : t.phase = 1) (recorded : s.loopFrame c = true) :
    exec (.loopCheck c) s = .next ((s.checkBlock c k t).setPhase k.n0 c 2).loopRelease :=
  (if_pos clocked).trans (by simp only [oldest, if_pos (And.intro armed recorded)])

theorem exec_loopCheck_early (early : t.phase ≠ 1 ∨ s.loopFrame c = false) : exec (.loopCheck c) s = .next s := by
  have notYet : ¬ (t.phase = 1 ∧ s.loopFrame c = true) := not_and_or.2 (early.imp_right Bool.eq_false_iff.1)
  exact (if_pos clocked).trans (by simp only [oldest, if_neg notYet])

end Oldest

/-! ## Tests whose frame is lost (R415) -/

variable {k : LoopBlock} {t : LoopTest}

theorem exec_loopArm_lost_alone (alone : s.loopTests c = [(k, t)]) (armed : t.phase ≠ 0) (lost : s.loopLost c = true) :
    exec (.loopArm c) s = .next (s.setPhase k.n0 c 2).loopRelease :=
  (if_pos clocked).trans (by simp only [alone, if_neg armed, if_pos lost])

theorem exec_loopArm_lost_next {k' : LoopBlock} {t' : LoopTest} {rest : List (LoopBlock × LoopTest)}
    (oldest : s.loopTests c = (k, t) :: (k', t') :: rest) (armed : t.phase ≠ 0) (lost : s.loopLost c = true) :
    exec (.loopArm c) s = .next ((s.setPhase k.n0 c 2).armTest c k' t').loopRelease :=
  (if_pos clocked).trans (by simp only [oldest, if_neg armed, if_pos lost])

end LoopTests

end Sys2Proof.Machine

namespace Sys2Proof.Proofs

open Sys2Proof.Machine

/-- Settles O47: the oldest unfinished test of a camera is armed when latched (`exec_loopArm_latched`), then waits until its frame is lost
(`exec_loopArm_lost_alone`, `exec_loopArm_lost_next`) or recorded (`exec_loopCheck_recorded`). That an armed test which is given up goes to
its end without being counted as analysed or skipped is the model's choice (log 49). -/
theorem loopTestsAreArmedAndChecked : Obligations.LoopTestsAreArmedAndChecked := by
  intro s c clocked
  exact ⟨fun k t rest => exec_loopArm_latched clocked,
    fun k t => exec_loopArm_lost_alone clocked,
    fun k t k' t' rest => exec_loopArm_lost_next clocked,
    fun k t rest => exec_loopArm_waits clocked,
    fun noTest => ⟨exec_loopArm_none clocked noTest, exec_loopCheck_none clocked noTest⟩,
    fun k t rest => exec_loopCheck_recorded clocked,
    fun k t rest => exec_loopCheck_early clocked⟩

end Sys2Proof.Proofs
end

section
/-! Proofs about the whole machine: what a reset leaves, how a step takes its command, and what no step undoes in the OTP (R519, R529, R534,
R537, R559, R565). -/

namespace Sys2Proof.Proofs

open Sys2Proof.Machine

/-- Settles O6: what a step keeps of the OTP (`step_keeps`) is that it only grows, operation by operation (`Otp.Grows`). -/
theorem noStepUnburnsOtp : Obligations.NoStepUnburnsOtp := by
  intro s t h
  obtain ⟨q, kept⟩ := step_keeps h
  obtain ⟨floor, pair, vendor, ktrace, klog⟩ := kept.otp
  exact ⟨floor, pair, vendor, ktrace, klog⟩

/-- Settles O1: `step` takes the queue apart. -/
theorem stepRunsFrontCommand : Obligations.StepRunsFrontCommand := by
  intro s c rest waiting
  unfold step
  rw [waiting]

/-- Settles O3: each record of the reset state is the one without entries, so it reads its default; an object without a stated default reads
0 (log 6). -/
theorem resetLeavesDefaults : Obligations.ResetLeavesDefaults := by
  have quiet : State.reset.armed = false := by decide
  exact ⟨rfl, rfl, State.reset_reg, fun _ => rfl, rfl, quiet, fun _ => rfl, fun _ => rfl, fun _ => rfl, fun _ => rfl, fun _ => rfl,
    fun _ _ => rfl⟩

/-- Settles O4: a sparse array without entries is in canonical form. -/
theorem resetIsCanonical : Obligations.ResetIsCanonical := ⟨rfl, rfl, rfl⟩

/-- Settles O7: every command keeps the queue (`exec_keeps`). -/
theorem commandsLeaveTheQueueAlone : Obligations.CommandsLeaveTheQueueAlone := by
  intro i s t h
  have kept := exec_keeps i (State.Keeps.refl s)
  rw [h] at kept
  exact kept.pending

end Sys2Proof.Proofs
end

section
/-! Proofs about the Scratch Banks: the windows, the two ports, errors (R436-R441). -/

namespace Sys2Proof.Machine

/-! ## Words and marks -/

variable (s : State)

theorem State.scratchWord_congr {s t : State} (mem : t.mem = s.mem) (x : Nat) : t.scratchWord x = s.scratchWord x := by
  rw [State.scratchWord, State.scratchWord, mem]

theorem State.scratchBad_congr {s t : State} (mem : t.mem = s.mem) (x : Nat) : t.scratchBad x = s.scratchBad x := by
  rw [State.scratchBad, State.scratchBad, mem]

@[simp] theorem State.emit_scratchWord (o : Out) (x : Nat) : (s.emit o).scratchWord x = s.scratchWord x := rfl

@[simp] theorem State.inc_scratchWord (k x : Nat) : (s.inc k).scratchWord x = s.scratchWord x := rfl

@[simp] theorem State.markPortB_scratchWord (l : List (Nat × Nat)) (x : Nat) :
    (s.updMem fun m => { m with portB := l }).scratchWord x = s.scratchWord x := rfl

theorem State.putScratch_word (x : Nat) (w : Word) (y : Nat) : (s.putScratch x w).scratchWord y = if y = x then w else s.scratchWord y :=
  Map.get_put _ x y w

theorem State.putScratch_bad (x : Nat) (w : Word) (y : Nat) : (s.putScratch x w).scratchBad y = if y = x then 0 else s.scratchBad y :=
  Map.get_put _ x y 0

theorem State.loopWord_mem (x : Nat) (w : Word) : (s.loopWord x w).mem = s.mem := by
  obtain ⟨m, h⟩ := s.loopWord_loop x w
  rw [h]

/-! ## A read by the mark of its word (R441) -/

section Read

variable {s : State} {x : Nat} (portB : Bool)

theorem State.readScratch_clean (clean : s.scratchBad x = 0) : s.readScratch portB x = (s, .word (s.scratchWord x)) := by
  unfold State.readScratch
  rw [clean]
  rfl

theorem State.readScratch_correctable (marked : s.scratchBad x = 1) :
    s.readScratch portB x = ((s.inc Key.SCRATCH_CE).raise 0x5C 0, .word (s.scratchWord x)) := by
  unfold State.readScratch
  rw [marked]
  rfl

/-- What an uncorrectable word leaves: counted, noted and raised. -/
def State.scratchFails (x : Nat) (s : State) : State := ((s.inc Key.SCRATCH_UE).setReg Key.SCRATCH_LAST_ERR x).raise 0x5D 0

theorem State.readScratch_uncorrectable (bad : 2 ≤ s.scratchBad x) :
    s.readScratch portB x = if portB then ((s.scratchFails x).loopWord x 0, .word 0) else (s.scratchFails x, .uncorrectable) := by
  obtain ⟨n, more⟩ := Nat.exists_eq_add_of_le' bad
  unfold State.readScratch
  rw [more]
  rfl

/-- The three marks of a word (R441). -/
theorem State.scratchBad_cases (s : State) (x : Nat) : s.scratchBad x = 0 ∨ s.scratchBad x = 1 ∨ 2 ≤ s.scratchBad x := by omega

theorem State.readScratch_mem (s : State) (x : Nat) : (s.readScratch portB x).1.mem = s.mem := by
  obtain clean | marked | bad := s.scratchBad_cases x
  · rw [State.readScratch_clean portB clean]
  · rw [State.readScratch_correctable portB marked, State.raise_mem]
    rfl
  · rw [State.readScratch_uncorrectable portB bad]
    split <;> simp [State.loopWord_mem, State.scratchFails]

/-- A word that is not uncorrectable answers a read with its value. -/
theorem State.readScratch_word (good : s.scratchBad x < 2) : (s.readScratch portB x).2 = .word (s.scratchWord x) := by
  obtain clean | marked | bad := s.scratchBad_cases x
  · rw [State.readScratch_clean portB clean]
  · rw [State.readScratch_correctable portB marked]
  · omega

end Read

/-! ## What an access leaves alone -/

/-- What tells of bad words of the banks (R441). -/
def scratchErrors : List Nat := [Key.SCRATCH_CE, Key.SCRATCH_UE, Key.SCRATCH_LAST_ERR]

/-- From `s` to `t` the banks, the loop's state and the objects `counts` may have changed, and nothing else that is named here. -/
structure State.ScratchKept (counts : List Nat) (s t : State) : Prop where
  reg : ∀ k, k ∉ counts → t.reg k = s.reg k
  out : t.out = s.out
  bulk : t.mem.bulk = s.mem.bulk
  tabs : t.tabs = s.tabs
  ports : t.ports = s.ports
  pos : t.pos = s.pos
  grid : t.grid = s.grid

namespace State.ScratchKept

variable {counts : List Nat} {s t u : State}

theorem refl (s : State) : ScratchKept counts s s := ⟨fun _ _ => rfl, rfl, rfl, rfl, rfl, rfl, rfl⟩

theorem trans (h : ScratchKept counts s t) (g : ScratchKept counts t u) : ScratchKept counts s u where
  reg k other := (g.reg k other).trans (h.reg k other)
  out := g.out.trans h.out
  bulk := g.bulk.trans h.bulk
  tabs := g.tabs.trans h.tabs
  ports := g.ports.trans h.ports
  pos := g.pos.trans h.pos
  grid := g.grid.trans h.grid

theorem setReg (s : State) {k : Nat} (v : Nat) (counted : k ∈ counts) : ScratchKept counts s (s.setReg k v) :=
  ⟨fun _ other => State.setReg_reg_ne s v (ne_of_mem_of_not_mem counted other).symm, rfl, rfl, rfl, rfl, rfl, rfl⟩

theorem inc (s : State) {k : Nat} (counted : k ∈ counts) : ScratchKept counts s (s.inc k) := setReg s _ counted

theorem raise (s : State) (k d : Nat) : ScratchKept counts s (s.raise k d) := by constructor <;> simp

theorem putScratch (s : State) (x : Nat) (w : Word) : ScratchKept counts s (s.putScratch x w) := ⟨fun _ _ => rfl, rfl, rfl, rfl, rfl, rfl, rfl⟩

theorem loopWord (s : State) (x : Nat) (w : Word) : ScratchKept counts s (s.loopWord x w) := by
  obtain ⟨m, h⟩ := s.loopWord_loop x w
  rw [h]
  exact ⟨fun _ _ => rfl, rfl, rfl, rfl, rfl, rfl, rfl⟩

theorem ofBook (book : bookKeys ⊆ counts) (kept : s.BookKept t) : ScratchKept counts s t :=
  ⟨fun k other => kept.reg k fun listed => other (book listed), kept.out, by rw [kept.mem], kept.tabs, kept.ports, kept.pos, kept.grid⟩

/-- A read counts the errors that it finds (R441). -/
theorem readScratch (s : State) (portB : Bool) (x : Nat) (correctable : Key.SCRATCH_CE ∈ counts)
    (uncorrectable : 2 ≤ s.scratchBad x → Key.SCRATCH_UE ∈ counts ∧ Key.SCRATCH_LAST_ERR ∈ counts) :
    ScratchKept counts s (s.readScratch portB x).1 := by
  obtain clean | marked | bad := s.scratchBad_cases x
  · rw [State.readScratch_clean portB clean]
    exact refl s
  · rw [State.readScratch_correctable portB marked]
    have told : ScratchKept counts s ((s.inc Key.SCRATCH_CE).raise 0x5C 0) := (inc s correctable).trans (raise _ _ _)
    exact told
  · obtain ⟨counted, noted⟩ := uncorrectable bad
    have told : ScratchKept counts s (s.scratchFails x) := ((inc s counted).trans (setReg _ x noted)).trans (raise _ _ _)
    rw [State.readScratch_uncorrectable portB bad]
    cases portB
    · exact told
    · exact told.trans (loopWord _ _ _)

end State.ScratchKept

/-! ## Writes -/

/-- What a write of `v` through window `k` makes of a word that holds `old` (R439). -/
def aliased (k : Nat) (old v : Word) : Word := if k = 0 then v else if k = 1 then old ||| v else old &&& ~~~v

/-- A port puts a word: what port A puts into banks 14 and 15 stands for the loop (R438). -/
def State.portPut (portB : Bool) (x : Nat) (w : Word) (t : State) : State :=
  if portB then t.putScratch x w else (t.putScratch x w).loopWord x w

theorem State.portPut_mem (portB : Bool) (x : Nat) (w : Word) : (s.portPut portB x w).mem = (s.putScratch x w).mem := by
  unfold State.portPut
  split
  · rfl
  · rw [State.loopWord_mem]

theorem State.portPut_word (portB : Bool) (x : Nat) (w : Word) (y : Nat) :
    (s.portPut portB x w).scratchWord y = if y = x then w else s.scratchWord y := by
  rw [State.scratchWord_congr (s.portPut_mem portB x w), State.putScratch_word]

theorem State.portPut_bad (portB : Bool) (x : Nat) (w : Word) (y : Nat) :
    (s.portPut portB x w).scratchBad y = if y = x then 0 else s.scratchBad y := by
  rw [State.scratchBad_congr (s.portPut_mem portB x w), State.putScratch_bad]

theorem State.portPut_kept {counts : List Nat} (portB : Bool) (x : Nat) (w : Word) : ScratchKept counts s (s.portPut portB x w) := by
  unfold State.portPut
  split
  · exact .putScratch s x w
  · exact (ScratchKept.putScratch s x w).trans (.loopWord _ x w)

/-- The state in which a write through a window puts its word: a bit-set or bit-clear window reads the word first (R439). -/
def State.beforePut (portB : Bool) (a : Nat) (t : State) : State :=
  if a / 0x100000 = 0 then t else (t.readScratch portB (a % 0x100000)).1

theorem State.beforePut_mem (portB : Bool) (a : Nat) : (s.beforePut portB a).mem = s.mem := by
  unfold State.beforePut
  split
  · rfl
  · exact State.readScratch_mem portB s _

theorem State.writeScratch_plain {a : Nat} (plain : a / 0x100000 = 0) (portB : Bool) (v : Word) :
    s.writeScratch portB a v = (s.portPut portB (a % 0x100000) v, .done) := by
  unfold State.writeScratch
  dsimp only
  rw [if_pos plain]
  rfl

/-- An uncorrectable word is not written through a bit-set or bit-clear window (R441). -/
theorem State.writeScratch_bad {s : State} {a : Nat} (masked : a / 0x100000 ≠ 0) (bad : s.scratchBad (a % 0x100000) = 2) (portB : Bool) (v : Word) :
    s.writeScratch portB a v = s.readScratch portB (a % 0x100000) := by
  unfold State.writeScratch
  dsimp only
  rw [if_neg masked, if_pos bad]

theorem State.writeScratch_done {s : State} {a : Nat} (written : a / 0x100000 = 0 ∨ s.scratchBad (a % 0x100000) ≠ 2) (portB : Bool) (v : Word) :
    s.writeScratch portB a v = ((s.beforePut portB a).portPut portB (a % 0x100000)
      (aliased (a / 0x100000) (s.scratchWord (a % 0x100000)) v), .done) := by
  by_cases plain : a / 0x100000 = 0
  · rw [s.writeScratch_plain plain, State.beforePut, if_pos plain, aliased, if_pos plain]
  · unfold State.writeScratch
    dsimp only
    rw [if_neg plain, if_neg (written.resolve_left plain), State.beforePut, if_neg plain, aliased, if_neg plain]
    rfl

theorem State.writeScratch_kept {counts : List Nat} (portB : Bool) (a : Nat) (v : Word) (correctable : Key.SCRATCH_CE ∈ counts)
    (uncorrectable : 2 ≤ s.scratchBad (a % 0x100000) → Key.SCRATCH_UE ∈ counts ∧ Key.SCRATCH_LAST_ERR ∈ counts) :
    ScratchKept counts s (s.writeScratch portB a v).1 := by
  have read := ScratchKept.readScratch s portB (a % 0x100000) correctable uncorrectable
  by_cases written : a / 0x100000 = 0 ∨ s.scratchBad (a % 0x100000) ≠ 2
  · rw [State.writeScratch_done written]
    refine ScratchKept.trans ?_ (State.portPut_kept _ portB _ _)
    unfold State.beforePut
    split
    · exact .refl s
    · exact read
  · obtain ⟨masked, bad⟩ := not_or.1 written
    rw [State.writeScratch_bad masked (not_not.1 bad)]
    exact read

/-! ## Accesses -/

/-- An access within the windows, after the programmable counters of port A (R438, R439). -/
theorem State.accessScratch_in {a : ScratchAcc} (inside : a.addr < 0x300000) (portB : Bool) : ∃ u, s.BookKept u ∧
    s.accessScratch portB a = if a.write then u.writeScratch portB a.addr a.data else u.readScratch portB (a.addr % 0x100000) := by
  unfold State.accessScratch
  rw [if_neg (by simp [inScratch, inside])]
  cases portB
  · exact ⟨s.portA a.addr, .pmc s _ _ _, rfl⟩
  · exact ⟨s, .refl s, rfl⟩

theorem State.accessScratch_out {a : ScratchAcc} (outside : 0x300000 ≤ a.addr) (portB : Bool) : s.accessScratch portB a = (s, .busError) := by
  unfold State.accessScratch
  rw [if_pos (by simp [inScratch, outside])]

/-! ## The commands (R438-R440) -/

/-- The writes of port B on this clock are noted, and nothing else changes. -/
theorem State.markB_eq (b : Option ScratchAcc) : ∃ l, s.markB b = s.updMem fun m => { m with portB := l } := by
  unfold State.markB
  split
  · exact ⟨s.mem.portB, rfl⟩
  · exact ⟨_, rfl⟩

theorem State.markB_read {b : Option ScratchAcc} (reads : ∀ y ∈ b, y.write = false) : s.markB b = s := by
  have none_ : b.filter (fun y => y.write && inScratch y.addr) = none := Option.filter_eq_none_iff.2 fun y hy => by simp [reads y hy]
  rw [State.markB, none_]

theorem exec_scratchAccess_a {s : State} (clocked : s.clocked = true) (a : ScratchAcc) : exec (.scratchAccess (some a) none) s =
    .next ((s.accessScratch false a).1.emit (.scratch false (s.accessScratch false a).2)) := if_pos clocked

theorem exec_scratchAccess_b {s : State} (clocked : s.clocked = true) (b : ScratchAcc) : exec (.scratchAccess none (some b)) s =
    .next (((s.accessScratch true b).1.emit (.scratch true (s.accessScratch true b).2)).markB (some b)) := if_pos clocked

/-- The access of one port alone. -/
theorem exec_scratchAccess_one {s : State} (clocked : s.clocked = true) {portB : Bool} {acc : ScratchAcc} {i : Instr}
    (row : portB = false ∧ i = .scratchAccess (some acc) none ∨ portB = true ∧ i = .scratchAccess none (some acc)) : ∃ b, (∀ y ∈ b, y = acc) ∧
    exec i s = .next (((s.accessScratch portB acc).1.emit (.scratch portB (s.accessScratch portB acc).2)).markB b) := by
  obtain ⟨rfl, rfl⟩ | ⟨rfl, rfl⟩ := row
  · exact ⟨none, by simp, exec_scratchAccess_a clocked acc⟩
  · exact ⟨some acc, by simp, exec_scratchAccess_b clocked acc⟩

section Alias

variable {s : State} {acc : ScratchAcc} {x k : Nat} (portB : Bool) (low : x < 0x100000) (window : k < 3) (at_ : acc.addr = x + 0x100000 * k)
  (good : s.scratchBad x < 2)
include low window at_ good

/-- A write through window `k` puts the word that it makes of the old one, with fresh check bits (R439, R441). -/
theorem State.accessScratch_write (writes : acc.write = true) : ∃ u, ScratchKept (Key.SCRATCH_CE :: bookKeys) s u ∧ u.mem = s.mem ∧
    s.accessScratch portB acc = (u.portPut portB x (aliased k (s.scratchWord x) acc.data), .done) := by
  obtain ⟨u, kept, access⟩ := s.accessScratch_in (a := acc) (by omega) portB
  have word : acc.addr % 0x100000 = x := by omega
  have which : acc.addr / 0x100000 = k := by omega
  have mark : u.scratchBad (acc.addr % 0x100000) < 2 := by rw [word, State.scratchBad_congr kept.mem]; exact good
  have before : ScratchKept (Key.SCRATCH_CE :: bookKeys) u (u.beforePut portB acc.addr) := by
    unfold State.beforePut
    split
    · exact .refl u
    · exact .readScratch u portB _ (by simp) fun bad => by omega
  refine ⟨u.beforePut portB acc.addr, (ScratchKept.ofBook (by simp) kept).trans before, (u.beforePut_mem portB _).trans kept.mem, ?_⟩
  rw [access, if_pos writes, State.writeScratch_done (.inr (by omega)), word, which, State.scratchWord_congr kept.mem]

/-- A read through any window gives the plain word (R439). -/
theorem State.accessScratch_read (reads : acc.write = false) : ∃ u, ScratchKept (Key.SCRATCH_CE :: bookKeys) s u ∧ u.mem = s.mem ∧
    s.accessScratch portB acc = (u, .word (s.scratchWord x)) := by
  obtain ⟨u, kept, access⟩ := s.accessScratch_in (a := acc) (by omega) portB
  have word : acc.addr % 0x100000 = x := by omega
  have mark : u.scratchBad x < 2 := by rw [State.scratchBad_congr kept.mem]; exact good
  refine ⟨(u.readScratch portB x).1, (ScratchKept.ofBook (by simp) kept).trans (.readScratch u portB _ (by simp) fun bad => by omega),
    (State.readScratch_mem portB u x).trans kept.mem, ?_⟩
  rw [access, if_neg (by simp [reads]), word, ← State.scratchWord_congr kept.mem, ← State.readScratch_word portB mark]

end Alias

/-! ## Both ports at one word (R440) -/

section Congr

variable {s t : State} (mem : t.mem = s.mem) (portB : Bool)
include mem

theorem State.readScratch_congr (x : Nat) : (t.readScratch portB x).2 = (s.readScratch portB x).2 := by
  have bad := State.scratchBad_congr mem x
  have word := State.scratchWord_congr mem x
  obtain clean | marked | lost := s.scratchBad_cases x
  · rw [State.readScratch_clean portB clean, State.readScratch_clean portB (bad.trans clean), word]
  · rw [State.readScratch_correctable portB marked, State.readScratch_correctable portB (bad.trans marked), word]
  · rw [State.readScratch_uncorrectable portB lost, State.readScratch_uncorrectable portB (by rwa [bad])]
    split <;> rfl

theorem State.portPut_congr (x : Nat) (w : Word) : (t.portPut portB x w).mem = (s.portPut portB x w).mem := by
  rw [State.portPut_mem, State.portPut_mem, State.putScratch, State.putScratch, State.updMem_mem, State.updMem_mem, mem]

theorem State.writeScratch_congr (a : Nat) (v : Word) : (t.writeScratch portB a v).1.mem = (s.writeScratch portB a v).1.mem ∧
    (t.writeScratch portB a v).2 = (s.writeScratch portB a v).2 := by
  have bad := State.scratchBad_congr mem (a % 0x100000)
  by_cases written : a / 0x100000 = 0 ∨ s.scratchBad (a % 0x100000) ≠ 2
  · rw [State.writeScratch_done written, State.writeScratch_done (by rwa [bad]), State.scratchWord_congr mem]
    exact ⟨State.portPut_congr ((t.beforePut_mem portB a).trans (mem.trans (s.beforePut_mem portB a).symm)) _ _ _, rfl⟩
  · obtain ⟨masked, lost⟩ := not_or.1 written
    rw [State.writeScratch_bad masked (not_not.1 lost), State.writeScratch_bad masked (bad.trans (not_not.1 lost))]
    exact ⟨by rw [State.readScratch_mem, State.readScratch_mem, mem], State.readScratch_congr mem portB _⟩

/-- What an access does to the banks, and what it answers, depends on the banks alone. -/
theorem State.accessScratch_congr (a : ScratchAcc) : (t.accessScratch portB a).1.mem = (s.accessScratch portB a).1.mem ∧
    (t.accessScratch portB a).2 = (s.accessScratch portB a).2 := by
  by_cases inside : a.addr < 0x300000
  · obtain ⟨u, kept, access⟩ := t.accessScratch_in inside portB
    obtain ⟨v, kept', access'⟩ := s.accessScratch_in inside portB
    have same : u.mem = v.mem := kept.mem.trans (mem.trans kept'.mem.symm)
    rw [access, access']
    split
    · exact State.writeScratch_congr same portB _ _
    · exact ⟨by rw [State.readScratch_mem, State.readScratch_mem, same], State.readScratch_congr same portB _⟩
  · rw [State.accessScratch_out s (by omega), State.accessScratch_out t (by omega)]
    exact ⟨mem, rfl⟩

end Congr

theorem State.accessScratch_kept (a : ScratchAcc) (portB : Bool) :
    ScratchKept (scratchErrors ++ bookKeys) s (s.accessScratch portB a).1 := by
  by_cases inside : a.addr < 0x300000
  · obtain ⟨u, kept, access⟩ := s.accessScratch_in inside portB
    rw [access]
    split
    · exact (ScratchKept.ofBook (by simp) kept).trans (u.writeScratch_kept portB _ _ (by simp [scratchErrors]) (by simp [scratchErrors]))
    · exact (ScratchKept.ofBook (by simp) kept).trans (.readScratch u portB _ (by simp [scratchErrors]) (by simp [scratchErrors]))
  · rw [State.accessScratch_out s (by omega)]
    exact .refl s

/-- An uncorrectable word reads as 0 at port B, and a write of it through a bit-set or bit-clear window is no more than its read (R441). -/
theorem State.accessScratch_lost {s : State} {b : ScratchAcc} (inside : b.addr < 0x300000) (bad : s.scratchBad (b.addr % 0x100000) = 2)
    (masked : b.write = false ∨ 0x100000 ≤ b.addr) : s.accessScratch true b =
      ((s.scratchFails (b.addr % 0x100000)).loopWord (b.addr % 0x100000) 0, .word 0) := by
  have read := State.readScratch_uncorrectable true (by omega : 2 ≤ s.scratchBad (b.addr % 0x100000))
  unfold State.accessScratch
  rw [if_neg (by simp [inScratch, inside]), if_pos rfl]
  split
  next writes => exact (State.writeScratch_bad (by have := masked.resolve_left (by simp [writes]); omega) bad true b.data).trans read
  next => exact read

section Both

variable {s : State} {a b : ScratchAcc} (clocked : s.clocked = true)
include clocked

theorem exec_scratchAccess_collide (collide : scratchCollide a b = true) : exec (.scratchAccess (some a) (some b)) s =
    .next ((((((s.portA a.addr).accessScratch true b).1.inc Key.SCRATCH_COLLISIONS).emit (.scratch false .collided)).emit
      (.scratch true ((s.portA a.addr).accessScratch true b).2)).markB (some b)) := by
  refine (if_pos clocked).trans ?_
  unfold State.scratchPorts
  dsimp only
  rw [if_pos collide]

/-- Two writes of one word: what stands is what port B's write alone would leave, and port A is told so. -/
theorem exec_scratchAccess_collided (collide : scratchCollide a b = true) : ∃ t u r, exec (.scratchAccess (some a) (some b)) s = .next t ∧
    exec (.scratchAccess none (some b)) s = .next u ∧ (∀ y, t.scratchWord y = u.scratchWord y) ∧ u.out = .scratch true r :: s.out ∧
    t.out = .scratch true r :: .scratch false .collided :: s.out ∧
    t.reg Key.SCRATCH_COLLISIONS = (s.reg Key.SCRATCH_COLLISIONS + 1) % 2 ^ keyWidth Key.SCRATCH_COLLISIONS := by
  have counted : s.BookKept (s.portA a.addr) := .pmc s _ _ _
  obtain ⟨banks, answer⟩ := State.accessScratch_congr counted.mem true b
  have kept := (State.ScratchKept.ofBook (by simp) counted).trans (State.accessScratch_kept _ b true)
  have alone := State.accessScratch_kept s b true
  obtain ⟨l, marked⟩ := State.markB_eq (((((s.portA a.addr).accessScratch true b).1.inc Key.SCRATCH_COLLISIONS).emit (.scratch false .collided)).emit
      (.scratch true ((s.portA a.addr).accessScratch true b).2)) (some b)
  obtain ⟨l', marked'⟩ := State.markB_eq ((s.accessScratch true b).1.emit (.scratch true (s.accessScratch true b).2)) (some b)
  refine ⟨_, _, (s.accessScratch true b).2, (exec_scratchAccess_collide clocked collide).trans (congrArg _ marked),
    (exec_scratchAccess_b clocked b).trans (congrArg _ marked'), fun y => ?_, congrArg _ alone.out, ?_, ?_⟩
  · simpa using State.scratchWord_congr banks y
  · rw [← answer]
    exact congrArg _ (congrArg _ kept.out)
  · rw [State.updMem_reg, State.emit_reg, State.emit_reg, State.inc_reg_self _ (by decide), kept.reg _ (by decide)]

/-- Port A writes what port B does not: port B's access sees the word as it stood. -/
theorem exec_scratchAccess_aWrites (writes : a.write = true) (apart : scratchCollide a b = false) :
    exec (.scratchAccess (some a) (some b)) s = .next ((((((s.accessScratch true b).1.accessScratch false a).1.emit
      (.scratch false ((s.accessScratch true b).1.accessScratch false a).2))).emit (.scratch true (s.accessScratch true b).2)).markB (some b)) := by
  refine (if_pos clocked).trans ?_
  unfold State.scratchPorts
  dsimp only
  rw [if_neg (by simp [apart]), if_pos writes]

/-- Port A reads: it sees the word as it stood. -/
theorem exec_scratchAccess_aReads (reads : a.write = false) :
    exec (.scratchAccess (some a) (some b)) s = .next ((((((s.accessScratch false a).1.accessScratch true b).1.emit
      (.scratch false (s.accessScratch false a).2))).emit (.scratch true ((s.accessScratch false a).1.accessScratch true b).2)).markB (some b)) := by
  refine (if_pos clocked).trans ?_
  unfold State.scratchPorts
  dsimp only
  rw [if_neg (by simp [scratchCollide, reads]), if_neg (by simp [reads])]

end Both

end Sys2Proof.Machine

namespace Sys2Proof.Proofs

open Sys2Proof.Machine

/-- Settles O48: at either port a write puts the word that its window makes of the old one (`accessScratch_write`), and a read gives the plain
word (`accessScratch_read`). -/
theorem aliasWindowsSetAndClear : Obligations.AliasWindowsSetAndClear := by
  intro s portB x k v acc i clocked low window at_ data good row
  subst data
  obtain ⟨b, own, run⟩ := exec_scratchAccess_one clocked row
  refine ⟨fun writes => ?_, fun reads => ?_⟩
  · obtain ⟨u, kept, mem, access⟩ := State.accessScratch_write portB low window at_ good writes
    have put := kept.trans (u.portPut_kept portB x (aliased k (s.scratchWord x) acc.data))
    obtain ⟨l, marked⟩ := ((u.portPut portB x (aliased k (s.scratchWord x) acc.data)).emit (.scratch portB .done)).markB_eq b
    rw [access, marked] at run
    refine ⟨_, run, congrArg _ put.out, (u.portPut_bad portB x _ x).trans (if_pos rfl), (u.portPut_word portB x _ x).trans (if_pos rfl),
      fun y other => ⟨?_, ?_⟩, put.bulk, fun r book other => put.reg r (by simp [book, other]), put.tabs, put.ports, put.pos, put.grid⟩
    · exact ((u.portPut_word portB x _ y).trans (if_neg other)).trans (State.scratchWord_congr mem y)
    · exact ((u.portPut_bad portB x _ y).trans (if_neg other)).trans (State.scratchBad_congr mem y)
  · obtain ⟨u, kept, mem, access⟩ := State.accessScratch_read portB low window at_ good reads
    rw [access, State.markB_read _ fun y hy => by rw [own y hy]; exact reads] at run
    exact ⟨_, run, congrArg _ kept.out, mem, fun r book other => kept.reg r (by simp [book, other]), kept.tabs, kept.ports, kept.pos,
      kept.grid⟩

/-- Settles O49: what the banks hold and answer after an access depends on the banks alone (`accessScratch_congr`), whichever port came before;
an access that meets no uncorrectable word is the window's (`accessScratch_write`, `accessScratch_read`). -/
theorem portsMeetAtAWord : Obligations.PortsMeetAtAWord := by
  intro s a b x clocked atA atB inB
  have low : x < 0x100000 := by omega
  refine ⟨fun inA writesA writesB => ?_, fun inA clean readsA writesB => ?_, fun inA clean writesA readsB => ?_, fun outA => ?_, fun bad masked => ?_,
    fun low u w => if_pos low, if_pos clocked⟩
  · have collide : scratchCollide a b = true := by simp [scratchCollide, writesA, writesB, inScratch, inA, inB, atA, atB]
    exact exec_scratchAccess_collided clocked collide
  · obtain ⟨u, keptA, mem, read⟩ := State.accessScratch_read (s := s) false low (k := a.addr / 0x100000) (by omega) (by omega) (by omega) readsA
    obtain ⟨v, keptB, -, written⟩ := State.accessScratch_write (s := u) true low (k := b.addr / 0x100000) (by omega) (by omega)
      (by rw [State.scratchBad_congr mem, clean]; omega) writesB
    have kept := (keptA.trans keptB).trans (v.portPut_kept true x (aliased (b.addr / 0x100000) (u.scratchWord x) b.data))
    have run := exec_scratchAccess_aReads (b := b) clocked readsA
    rw [read] at run
    dsimp only at run
    rw [written] at run
    obtain ⟨l, marked⟩ := (((v.portPut true x (aliased (b.addr / 0x100000) (u.scratchWord x) b.data)).emit
      (.scratch false (.word (s.scratchWord x)))).emit (.scratch true .done)).markB_eq (some b)
    exact ⟨_, run.trans (congrArg _ marked), congrArg _ (congrArg _ kept.out), kept.reg _ (by decide)⟩
  · obtain ⟨u, keptB, mem, read⟩ := State.accessScratch_read (s := s) true low (k := b.addr / 0x100000) (by omega) (by omega) (by omega) readsB
    obtain ⟨v, keptA, -, written⟩ := State.accessScratch_write (s := u) false low (k := a.addr / 0x100000) (by omega) (by omega)
      (by rw [State.scratchBad_congr mem, clean]; omega) writesA
    have kept := (keptB.trans keptA).trans (v.portPut_kept false x (aliased (a.addr / 0x100000) (u.scratchWord x) a.data))
    have run := exec_scratchAccess_aWrites (b := b) clocked writesA (by simp [scratchCollide, readsB])
    rw [read] at run
    dsimp only at run
    rw [written] at run
    obtain ⟨l, marked⟩ := (((v.portPut false x (aliased (a.addr / 0x100000) (u.scratchWord x) a.data)).emit
      (.scratch false .done)).emit (.scratch true (.word (s.scratchWord x)))).markB_eq (some b)
    exact ⟨_, run.trans (congrArg _ marked), congrArg _ (congrArg _ kept.out)⟩
  · rw [exec_scratchAccess_a clocked, s.accessScratch_out outA]
  · rw [exec_scratchAccess_b clocked, State.accessScratch_lost inB (by rwa [atB]) masked, atB]
    rfl

end Sys2Proof.Proofs
end

section
/-! Proofs about the upkeep of the memories: scrubbing, refresh, tracking, training and alerts (R441-R451, R542). -/

namespace Sys2Proof.Machine

/-! ## The scrubber of the Scratch Banks (R441, R442) -/

/-- The word that the scrubber visits: a correctable error is mended. -/
def State.scrubbed (x : Nat) (s : State) : State :=
  if s.scratchBad x = 1 then (s.readScratch false x).1.putScratch x (s.scratchWord x) else (s.readScratch false x).1

section Scrub

variable (s : State) (x : Nat)

theorem exec_scrubVisit {s : State} (clocked : s.clocked = true) :
    exec .scrubVisit s = .next ((s.scrubbed s.mem.scrubAddr).updMem fun m => { m with scrubAddr := (s.mem.scrubAddr + 1) % 0x100000 }) :=
  if_pos clocked

theorem State.scrubbed_word (y : Nat) : (s.scrubbed x).scratchWord y = s.scratchWord y := by
  have read : (s.readScratch false x).1.scratchWord y = s.scratchWord y := State.scratchWord_congr (State.readScratch_mem false s x) y
  unfold State.scrubbed
  split
  · rw [State.putScratch_word, read]
    split
    next own => rw [own]
    next => rfl
  · exact read

theorem State.scrubbed_bad (y : Nat) : (s.scrubbed x).scratchBad y = if y = x ∧ s.scratchBad y = 1 then 0 else s.scratchBad y := by
  have read : (s.readScratch false x).1.scratchBad y = s.scratchBad y := State.scratchBad_congr (State.readScratch_mem false s x) y
  unfold State.scrubbed
  by_cases own : y = x
  · subst own
    by_cases marked : s.scratchBad y = 1 <;> simp [marked, State.putScratch_bad, read]
  · split <;> simp [own, State.putScratch_bad, read]

theorem State.scrubbed_kept : ScratchKept scratchErrors s (s.scrubbed x) := by
  have read : ScratchKept scratchErrors s (s.readScratch false x).1 := .readScratch s false x (by simp [scratchErrors]) (by simp [scratchErrors])
  unfold State.scrubbed
  split
  · exact read.trans (.putScratch _ _ _)
  · exact read

variable {s x}

theorem State.scrubbed_clean (clean : s.scratchBad x = 0) : s.scrubbed x = s := by
  rw [State.scrubbed, if_neg (by omega), State.readScratch_clean false clean]

theorem State.scrubbed_counts (marked : s.scratchBad x = 1) :
    (s.scrubbed x).reg Key.SCRATCH_CE = (s.reg Key.SCRATCH_CE + 1) % 2 ^ keyWidth Key.SCRATCH_CE := by
  rw [State.scrubbed, if_pos marked, State.readScratch_correctable false marked, State.putScratch, State.updMem_reg, State.raise_reg,
    State.inc_reg_self _ (by decide)]

end Scrub

/-! ## The scrubber of bulk memory (R443, R448) -/

/-- What tells of bad words of bulk memory (R437, R443). -/
def bulkErrors : List Nat := [Key.BM_CE, Key.BM_UE, Key.BM_LAST_ERR, Key.BM_OUT_OF_RANGE]

/-- A scrubbed burst leaves the words of bulk memory, and beside the marks and counts of errors all else that is named here. -/
structure State.ScrubKept (s t : State) : Prop where
  word : ∀ y, t.bulkWord y = s.bulkWord y
  scratch : t.mem.scratch = s.mem.scratch
  tabs : t.tabs = s.tabs
  reg : ∀ k, k ∉ bulkErrors → t.reg k = s.reg k

namespace State.ScrubKept

variable {s t u : State}

theorem refl (s : State) : s.ScrubKept s := ⟨fun _ => rfl, rfl, rfl, fun _ _ => rfl⟩

theorem trans (h : s.ScrubKept t) (g : t.ScrubKept u) : s.ScrubKept u :=
  ⟨fun y => (g.word y).trans (h.word y), g.scratch.trans h.scratch, g.tabs.trans h.tabs, fun k other => (g.reg k other).trans (h.reg k other)⟩

theorem setReg (s : State) {k : Nat} (v : Nat) (counted : k ∈ bulkErrors) : s.ScrubKept (s.setReg k v) :=
  ⟨fun _ => rfl, rfl, rfl, fun _ other => State.setReg_reg_ne s v (ne_of_mem_of_not_mem counted other).symm⟩

theorem inc (s : State) {k : Nat} (counted : k ∈ bulkErrors) : s.ScrubKept (s.inc k) := setReg s _ counted

theorem raise (s : State) (k d : Nat) : s.ScrubKept (s.raise k d) := by constructor <;> simp [State.bulkWord]

theorem readBulk (s : State) (a : Nat) : s.ScrubKept (s.readBulk a).1 := by
  have outside : s.ScrubKept s.bmOutOfRange := (inc s (by decide)).trans (raise _ _ _)
  have mended : s.ScrubKept ((s.inc Key.BM_CE).raise 0x5E 0) := (inc s (by decide)).trans (raise _ _ _)
  have lost : s.ScrubKept (((s.inc Key.BM_UE).setReg Key.BM_LAST_ERR a).raise 0x5F 0) :=
    ((inc s (by decide)).trans (setReg _ a (by decide))).trans (raise _ _ _)
  unfold State.readBulk
  split
  · exact refl s
  split
  · exact outside
  split
  · exact refl s
  · exact mended
  · exact lost

/-- A word that is written back as it stands. -/
theorem putBack (s : State) (a : Nat) : s.ScrubKept (s.putBulk a (s.bulkWord a)) := by
  refine ⟨fun y => ?_, rfl, rfl, fun _ _ => rfl⟩
  have put : (s.putBulk a (s.bulkWord a)).bulkWord y = match if y = a then some (s.bulkWord a) else Map.get (fun _ => none) s.mem.bulk y with
      | some w => w
      | none => Config.bulkWord s.mem.gen y := by
    rw [← Map.get_put]
    rfl
  rw [put]
  split_ifs with own
  · rw [own]
  · rfl

theorem scrubWord (a : Nat) (s : State) : s.ScrubKept (s.scrubWord a) := by
  have read := readBulk s a
  unfold State.scrubWord
  dsimp only
  split
  · rw [← read.word a]
    exact read.trans (putBack _ a)
  · exact read

theorem forEach (l : List Nat) (s : State) : s.ScrubKept (s.forEach l State.scrubWord) :=
  State.forEach_holds (P := s.ScrubKept) (fun a _ t kept => kept.trans (scrubWord a t)) (refl s)

end State.ScrubKept

theorem exec_bmScrubRead_idle {s : State} (clocked : s.clocked = true) (idle : s.bmReady = false ∨ s.reg Key.BM_SCRUB_INTERVAL = 0) :
    exec .bmScrubRead s = .next s := by
  refine (if_pos clocked).trans (congrArg _ (if_neg ?_))
  rintro ⟨ready, interval⟩
  exact idle.elim (by simp [ready]) interval

/-- A burst is scrubbed, and the scrubber goes on behind it, or to the start at the end of the capacity. -/
theorem exec_bmScrubRead_burst {s : State} (clocked : s.clocked = true) (ready : s.bmReady = true) (interval : s.reg Key.BM_SCRUB_INTERVAL ≠ 0) :
    ∃ u, s.ScrubKept u ∧ exec .bmScrubRead s = .next (u.updMem fun m => { m with
      scrubBurst := if s.reg Key.BM_CAPACITY ≤ s.mem.scrubBurst + 8 then 0 else s.mem.scrubBurst + 8 }) :=
  ⟨_, .forEach ((List.range 8).map (s.mem.scrubBurst + ·)) s, (if_pos clocked).trans (congrArg _ (if_pos ⟨ready, interval⟩))⟩

/-! ## Refresh and tracking (R448, R450, R542) -/

section Service

variable {s : State} (clocked : s.clocked = true)
include clocked

theorem exec_bmRefresh_ready (ready : s.bmReady = true) :
    exec .bmRefresh s = .next (s.updMem fun m => { m with refresh := s.reg Key.BM_REFRESH }) :=
  (if_pos clocked).trans (congrArg _ (if_pos ready))

theorem exec_bmRefresh_idle (idle : s.bmReady = false) : exec .bmRefresh s = .next s :=
  (if_pos clocked).trans (congrArg _ (if_neg (by simp [idle])))

/-- The check counts an eye that has moved; the first one after a rest lets bulk memory serve again. -/
theorem exec_bmTrackCheck_made {moved : Bool} {u : State} (counted : u = if moved = true then s.inc Key.BM_TRACK_ADJ else s)
    (ready : s.bmReady = true) (alone : s.trainsNow = false) :
    exec (.bmTrackCheck moved) s = .next (if s.mem.checkDue then u.bmServe else u) := by
  have due : u.mem.checkDue = s.mem.checkDue := by
    rw [counted]
    split <;> rfl
  rw [← due, counted]
  exact (if_pos clocked).trans (congrArg _ (if_pos ⟨ready, by simp [alone]⟩))

/-- The check is not made while training runs, or begins on its clock (R451). -/
theorem exec_bmTrackCheck_abandoned {moved : Bool} (trains : s.bmReady = false ∨ s.trainsNow = true) : exec (.bmTrackCheck moved) s = .next s := by
  refine (if_pos clocked).trans (congrArg _ (if_neg ?_))
  rintro ⟨ready, alone⟩
  exact trains.elim (by simp [ready]) alone

end Service

/-! ## Training (R444, R449) -/

/-- Bulk memory with nothing waiting; the cameras' captures are no longer held. -/
def State.served (s : State) : State :=
  (s.updMem fun m => { m with waiting := [], checkDue := false }).forEach [0, 1] fun c s => s.updCam c fun r => { r with capHeld := 0 }

theorem State.served_reg (s : State) (k : Nat) : s.served.reg k = s.reg k := rfl

theorem State.served_faults (s : State) : s.served.faults = s.faults := rfl

theorem State.bmServe_eq (s : State) : s.bmServe = s.mem.waiting.foldl (fun s e => s.writeBulk e.1 e.2) s.served := rfl

/-- A word that waited is written where the memory backs it. -/
theorem State.bmServe_cons {u : State} {a : Nat} {w : Word} {l : List (Nat × Word)} (waiting : u.mem.waiting = (a, w) :: l)
    (ready : u.bmReady = true) (backed : a < u.reg Key.BM_CAPACITY) :
    u.bmServe = ((u.putBulk a w).updMem fun m => { m with waiting := l }).bmServe := by
  have state : u.reg Key.BM_STATE = 2 := by simpa [State.bmReady] using ready
  have free : u.served.bmHolds = false := by
    change (decide (u.reg Key.BM_STATE ≤ 1) || false) = false
    simp [state]
  have serves : u.served.bmReady = true := ready
  have first : u.served.writeBulk a w = ((u.putBulk a w).updMem fun m => { m with waiting := l }).served := by
    unfold State.writeBulk
    rw [if_neg (by simp [free]), if_neg (not_not.2 serves), if_neg (by rw [State.served_reg]; omega)]
    rfl
  rw [State.bmServe_eq, waiting, List.foldl_cons, first]
  rfl

/-- Where bulk memory has failed the writes that waited come to nothing (R449). -/
theorem State.bmServe_failed {u : State} (failed : u.reg Key.BM_STATE = 3) : u.bmServe = u.served := by
  have none_ (e : Nat × Word) : u.served.writeBulk e.1 e.2 = u.served := by
    unfold State.writeBulk
    rw [if_neg, if_pos]
    · change ¬ (u.reg Key.BM_STATE == 2) = true
      simp [failed]
    · change ¬ (decide (u.reg Key.BM_STATE ≤ 1) || false) = true
      simp [failed]
  rw [State.bmServe_eq]
  induction u.mem.waiting with
  | nil => rfl
  | cons e l ih => rw [List.foldl_cons, none_ e, ih]

/-- With nothing waiting only the wait itself ends. -/
theorem State.bmServe_empty {u : State} (empty : u.mem.waiting = []) : u.bmServe = u.served := by
  rw [State.bmServe_eq, empty]
  rfl

theorem State.served_mem (u : State) : u.served.mem = { u.mem with waiting := [], checkDue := false } := rfl

section Cause

variable (s : State) (k i d : Nat)

/-- A cause that begins is kept, and is raised unless it was there (R476). -/
theorem State.cause_holds : ((s.cause k i true d).src k).causes.contains i = true := by
  unfold State.cause
  rw [if_pos rfl]
  split
  · assumption
  · have src : ((s.updSrc k fun r => { r with causes := i :: r.causes }).raise k d).src k =
        (s.updSrc k fun r => { r with causes := i :: r.causes }).src k := by
      unfold State.raise
      split <;> rfl
    rw [src, State.updSrc_src_self]
    simp

variable {s k i}

theorem State.cause_raises (exists_ : srcExists s.nPorts k = true) (fresh : (s.src k).causes.contains i = false) :
    (s.cause k i true d).faults.raised = s.faults.raised ++ [⟨k, d % 65536, false⟩] := by
  unfold State.cause
  rw [if_pos rfl, if_neg (Bool.eq_false_iff.1 fresh)]
  exact congrArg (fun t : State => t.faults.raised) (if_pos exists_)

end Cause

section Training

variable {s : State} (clocked : s.clocked = true)
include clocked

theorem exec_bmTrainingDone_idle (idle : s.bmTraining = false) (fail : BitVec 10) : exec (.bmTrainingDone fail) s = .next s :=
  (if_pos clocked).trans (congrArg _ (if_pos (by simp [idle])))

theorem exec_bmTrainingDone_ready (trains : s.bmTraining = true) : exec (.bmTrainingDone 0) s =
    .next ((((((s.setReg Key.BM_CONTROL 0).setReg Key.BM_STATE 2).setReg Key.BM_TRAIN_FAIL 0).setReg Key.BM_CAPACITY
      (bmCapacityOf s.mem.density)).bmServe).cause 0x62 0 false 0) :=
  (if_pos clocked).trans (congrArg _ ((if_neg (by simp [trains])).trans (if_pos rfl)))

/-- BM_STATE FAILED with the lanes that failed. -/
def State.trainingFailed (fail : Nat) (s : State) : State :=
  ((s.setReg Key.BM_CONTROL 0).setReg Key.BM_STATE 3).setReg Key.BM_TRAIN_FAIL fail

omit clocked in
theorem State.trainingFailed_state (fail : Nat) : (s.trainingFailed fail).reg Key.BM_STATE = 3 := by
  rw [State.trainingFailed, State.setReg_reg_ne _ _ (by decide), State.setReg_reg_self _ (by decide) (by decide)]

omit clocked in
theorem State.trainingFailed_reg (fail : Nat) {k : Nat} (other : k ∉ [Key.BM_CONTROL, Key.BM_STATE, Key.BM_TRAIN_FAIL]) :
    (s.trainingFailed fail).reg k = s.reg k := by
  simp only [List.mem_cons, List.not_mem_nil, or_false, not_or] at other
  rw [State.trainingFailed, State.setReg_reg_ne _ _ other.2.2, State.setReg_reg_ne _ _ other.2.1, State.setReg_reg_ne _ _ other.1]

omit clocked in
theorem State.trainingFailed_control (fail : Nat) : (s.trainingFailed fail).reg Key.BM_CONTROL = 0 := by
  rw [State.trainingFailed, State.setReg_reg_ne _ _ (by decide), State.setReg_reg_ne _ _ (by decide),
    State.setReg_reg_self _ (by decide) (by decide)]

omit clocked in
theorem State.trainingFailed_lanes (fail : BitVec 10) : (s.trainingFailed fail.toNat).reg Key.BM_TRAIN_FAIL = fail.toNat :=
  State.setReg_reg_self _ (lt_of_lt_of_le fail.isLt (by decide)) (by decide)

theorem exec_bmTrainingDone_failed (trains : s.bmTraining = true) {fail : BitVec 10} (lanes : fail ≠ 0) :
    exec (.bmTrainingDone fail) s = .next ((s.trainingFailed fail.toNat).served.cause 0x62 0 true 0) := by
  rw [← State.bmServe_failed (State.trainingFailed_state _)]
  exact (if_pos clocked).trans (congrArg _ ((if_neg (by simp [trains])).trans (if_neg lanes)))

omit clocked in
theorem State.trainingFailed_rest (fail : Nat) : (s.trainingFailed fail).mem = s.mem ∧ (s.trainingFailed fail).tabs = s.tabs ∧
    (s.trainingFailed fail).faults = s.faults := ⟨rfl, rfl, rfl⟩

/-- What a failed training leaves: the lanes that failed, source 0x62, and no write waiting. -/
theorem exec_bmTrainingDone_told (trains : s.bmTraining = true) {fail : BitVec 10} (lanes : fail ≠ 0) :
    ∃ t, exec (.bmTrainingDone fail) s = .next t ∧ t.reg Key.BM_STATE = 3 ∧ t.reg Key.BM_TRAIN_FAIL = fail.toNat ∧
      (t.src 0x62).causes.contains 0 = true ∧
      ((s.src 0x62).causes.contains 0 = false → t.faults.raised = s.faults.raised ++ [⟨0x62, 0, false⟩]) ∧ t.reg Key.BM_CONTROL = 0 ∧
      (∀ k, k ∉ [Key.BM_CONTROL, Key.BM_STATE, Key.BM_TRAIN_FAIL] → t.reg k = s.reg k) ∧
      t.mem = { s.mem with waiting := [], checkDue := false } ∧ t.tabs = s.tabs := by
  have told (k : Nat) : ((s.trainingFailed fail.toNat).served.cause 0x62 0 true 0).reg k = (s.trainingFailed fail.toNat).reg k :=
    State.cause_reg _ _ _ _ _ k
  obtain ⟨mem, tabs, faults⟩ := s.trainingFailed_rest fail.toNat
  refine ⟨_, exec_bmTrainingDone_failed clocked trains lanes, ?_, ?_, State.cause_holds _ _ _ _, fun fresh => ?_, ?_, fun k other => ?_, ?_, ?_⟩
  · rw [told, State.trainingFailed_state]
  · rw [told, State.trainingFailed_lanes]
  · have known : srcExists (s.trainingFailed fail.toNat).served.nPorts 0x62 = true := by
      rw [srcExists, Bool.and_eq_true]
      exact ⟨by decide, rfl⟩
    have held : ((s.trainingFailed fail.toNat).served.src 0x62).causes.contains 0 = false := by
      rw [State.src, State.served_faults, faults]
      exact fresh
    rw [State.cause_raises 0 known held, State.served_faults, faults]
  · rw [told, State.trainingFailed_control]
  · rw [told, State.trainingFailed_reg _ other]
  · rw [State.cause_mem, State.served_mem, mem]
  · exact (State.cause_tabs _ _ _ _ _).trans tabs

/-! ## Alerts (R446) -/

theorem exec_bmAlert {l : List Nat} (recent : l = s.clk :: s.mem.alerts.filter fun t => decide (s.clk < t + 500000)) :
    exec .bmAlert s = .next (if 4 ≤ l.length then (((s.inc Key.BM_PAR_RETRY).updMem fun m => { m with alerts := [] }).raise 0x61 0)
      else (s.inc Key.BM_PAR_RETRY).updMem fun m => { m with alerts := l }) := by
  subst recent
  exact if_pos clocked

end Training

end Sys2Proof.Machine

namespace Sys2Proof.Proofs

open Sys2Proof.Machine

/-- Settles O50: the scrubbers mend marks and count, and give every word back as it stood (`scrubbed_word`, `ScrubKept`); training and the check
after a rest let the writes that waited through in order (`bmServe_cons`). That the list of alerts is emptied when it raises is the model's
choice (log 50). -/
theorem memoryIsKeptUp : Obligations.MemoryIsKeptUp := by
  refine ⟨fun s clocked => ⟨?_, fun ready interval => ?_, exec_bmScrubRead_idle clocked, exec_bmRefresh_ready clocked, exec_bmRefresh_idle clocked,
    fun moved u counted ready alone => ?_, fun moved => exec_bmTrackCheck_abandoned clocked, rfl⟩,
    fun s clocked => ⟨exec_bmTrainingDone_ready clocked, fun u empty => ?_, fun u a w l waiting ready _ => State.bmServe_cons waiting ready,
      fun fail trains => exec_bmTrainingDone_told clocked trains, fun fail idle => exec_bmTrainingDone_idle clocked idle fail, fun l recent => ?_⟩⟩
  · have kept := s.scrubbed_kept s.mem.scrubAddr
    exact ⟨_, exec_scrubVisit clocked, rfl, s.scrubbed_word _, s.scrubbed_bad _, fun clean => by rw [State.scrubbed_clean clean]; rfl,
      State.scrubbed_counts, kept.reg, kept.bulk, kept.tabs⟩
  · obtain ⟨u, kept, run⟩ := exec_bmScrubRead_burst clocked ready interval
    exact ⟨_, run, rfl, kept.word, kept.scratch, kept.tabs, kept.reg⟩
  · rw [exec_bmTrackCheck_made clocked counted ready alone]
    exact ⟨fun rested => by rw [rested]; rfl, fun due => by rw [due]; rfl⟩
  · refine ⟨u.served, State.bmServe_empty empty, ?_, fun _ => rfl, rfl, rfl, rfl⟩
    rw [State.served_mem, ← empty]
  · rw [exec_bmAlert clocked recent]
    exact ⟨fun few => by rw [if_neg (by omega)], fun many => by rw [if_pos many]⟩

end Sys2Proof.Proofs
end

section
/-! Proofs about the DMA movers: slots, completion, pauses and the copy of a burst (R456-R466). -/

namespace Sys2Proof.Machine

/-! ## One read of the running channel (R462) -/

/-- The reads of the present share that channel `c` has used. -/
def State.shareUsed (s : State) (c : Nat) : Nat := if (s.dch c).win = s.ct / 4608 then (s.dch c).used else 0

/-- A read of channel `c` is counted against its share. -/
def State.readCounted (s : State) (c : Nat) : State := s.updDch c fun r => { r with win := s.ct / 4608, used := s.shareUsed c + 1 }

section Read

variable {s : State} {c : Nat}

theorem State.dmaRead_spent (spent : s.dmaShare c ≤ s.shareUsed c) : s.dmaRead c = s := if_pos spent

theorem State.dmaRead_left (left : s.shareUsed c < s.dmaShare c) : s.dmaRead c = match (s.dch c).pos with
    | .fetch d => (s.readCounted c).dmaFetch c d
    | .run => ((s.readCounted c).updDch c fun r => { r with begun := true }).dmaStep c
    | _ => s := if_neg (Nat.not_le.2 left)

theorem State.dmaRead_run (run : (s.dch c).pos = .run) (left : s.shareUsed c < s.dmaShare c) :
    s.dmaRead c = ((s.readCounted c).updDch c fun r => { r with begun := true }).dmaStep c := by rw [State.dmaRead_left left, run]

theorem State.dmaRead_fetch {d : Nat} (fetch : (s.dch c).pos = .fetch d) (left : s.shareUsed c < s.dmaShare c) :
    s.dmaRead c = (s.readCounted c).dmaFetch c d := by rw [State.dmaRead_left left, fetch]

/-- A transfer that ends makes no read. -/
theorem State.dmaRead_ending (ending : (s.dch c).pos = .readback ∨ (s.dch c).pos = .status) : s.dmaRead c = s := by
  obtain left | spent := Nat.lt_or_ge (s.shareUsed c) (s.dmaShare c)
  · obtain pos | pos := ending <;> rw [State.dmaRead_left left, pos]
  · exact State.dmaRead_spent spent

end Read

/-! ## Slots (R461, R462) -/

/-- A slot of mover `m` begins: it is taken, and the mover selects. -/
def State.slotTaken (s : State) (m : Nat) : State := (s.updMover m fun x => { x with slot := some (s.ct / 72) }).selectMover m

section Slot

variable {s u : State} {m : Fin 4} {c : Nat} (clocked : s.clocked = true)
include clocked

theorem exec_dmaSlot_taken (taken : s.slotDue m = false) : exec (.dmaSlot m) s = .next s :=
  (if_pos clocked).trans (congrArg _ (if_pos (by simp [taken])))

variable (slot : u = s.slotTaken m) (channel : c = u.moverChannel m) (due : s.slotDue m = true)
include slot channel due

theorem exec_dmaSlot_unused (idle : c = 0xFF ∨ (u.dch c).st ≠ .running) : exec (.dmaSlot m) s = .next u := by
  subst slot channel
  exact (if_pos clocked).trans (congrArg _ ((if_neg (by simp [due])).trans (if_pos idle)))

variable (some_ : c ≠ 0xFF) (runs : (u.dch c).st = .running)
include some_ runs

/-- A running channel first reads its link, which takes no slot. -/
theorem exec_dmaSlot_runs : ∃ v, v = (match (u.dch c).pos with
      | .link d => u.dmaLink c d false
      | _ => u) ∧ exec (.dmaSlot m) s = .next (if (v.dch c).st = .running then v.dmaRead c else v) := by
  subst slot channel
  exact ⟨_, rfl, (if_pos clocked).trans (congrArg _ ((if_neg (by simp [due])).trans (if_neg (not_or.2 ⟨some_, not_not.2 runs⟩))))⟩

theorem exec_dmaSlot_reads (unlinked : ∀ d, (u.dch c).pos ≠ .link d) : exec (.dmaSlot m) s = .next (u.dmaRead c) := by
  obtain ⟨v, linked, run⟩ := exec_dmaSlot_runs clocked slot channel due some_ runs
  have same : v = u := by
    rw [linked]
    split
    next d pos => exact absurd pos (unlinked d)
    next => rfl
  rw [run, same, if_pos runs]

theorem exec_dmaSlot_link {d : Nat} (pos : (u.dch c).pos = .link d) : exec (.dmaSlot m) s =
    .next (if ((u.dmaLink c d false).dch c).st = .running then (u.dmaLink c d false).dmaRead c else u.dmaLink c d false) := by
  obtain ⟨v, linked, run⟩ := exec_dmaSlot_runs clocked slot channel due some_ runs
  rw [pos] at linked
  rw [run, linked]

end Slot

/-! ## Completion (R459, R463-R465) -/

section Completion

variable {s : State} {ch : Fin 32} (clocked : s.clocked = true)
include clocked

theorem exec_dmaReadbackDone_idle (idle : (s.dch ch).pos ≠ .readback ∨ (s.dch ch).retry ≠ []) : exec (.dmaReadbackDone ch) s = .next s :=
  (if_pos clocked).trans (congrArg _ (if_pos (by simpa using idle)))

theorem exec_dmaDescDone_idle (idle : (s.dch ch).pos ≠ .status ∨ (s.dch ch).retry ≠ []) : exec (.dmaDescDone ch) s = .next s :=
  (if_pos clocked).trans (congrArg _ (if_pos (by simpa using idle)))

theorem exec_dmaReadbackDone_ends (pos : (s.dch ch).pos = .readback) (written : (s.dch ch).retry = []) :
    exec (.dmaReadbackDone ch) s = .next (match (s.dch ch).lastDst with
      | none => s.updDch ch fun r => { r with pos := .status }
      | some a =>
        let r := s.moverRead (if inScratch a then a % 0x100000 else a)
        if r.2.isSome then r.1.updDch ch fun r => { r with pos := .status }
        else r.1.updDch ch fun r => { r with pos := .status, ending := 3, endErr := 2 }) :=
  (if_pos clocked).trans (congrArg _ (if_neg (by simp [pos, written])))

theorem exec_dmaReadbackDone_read {a : Nat} (pos : (s.dch ch).pos = .readback) (written : (s.dch ch).retry = [])
    (last : (s.dch ch).lastDst = some a) : exec (.dmaReadbackDone ch) s = .next
      (if (s.moverRead (if inScratch a then a % 0x100000 else a)).2.isSome then
        (s.moverRead (if inScratch a then a % 0x100000 else a)).1.updDch ch fun r => { r with pos := .status }
      else (s.moverRead (if inScratch a then a % 0x100000 else a)).1.updDch ch fun r => { r with pos := .status, ending := 3, endErr := 2 }) := by
  rw [exec_dmaReadbackDone_ends clocked pos written, last]

theorem exec_dmaReadbackDone_unwritten (pos : (s.dch ch).pos = .readback) (written : (s.dch ch).retry = []) (last : (s.dch ch).lastDst = none) :
    exec (.dmaReadbackDone ch) s = .next (s.updDch ch fun r => { r with pos := .status }) := by
  rw [exec_dmaReadbackDone_ends clocked pos written, last]

section Status

variable (pos : (s.dch ch).pos = .status) (written : (s.dch ch).retry = [])
include pos written

theorem exec_dmaDescDone_direct (direct : s.reg (Key.CH_MODE ch) = 0) : exec (.dmaDescDone ch) s = .next
    (((s.dmaOutcome ch).updDch ch fun r => { r with st := .idle, pos := .none, late := false, stop := false }).selectMover (moverOf ch)) :=
  (if_pos clocked).trans (congrArg _ ((if_neg (by simp [pos, written])).trans (if_pos direct)))

variable (chain : s.reg (Key.CH_MODE ch) ≠ 0)
include chain

theorem exec_dmaDescDone_collides {d : Nat} (descriptor : d = s.reg (Key.CH_CUR ch)) (hits : s.portBHits (d + 3) = true ∨ s.portBHits d = true) :
    exec (.dmaDescDone ch) s = .next (s.statusCollides ch d) := by
  subst descriptor
  exact (if_pos clocked).trans (congrArg _ ((if_neg (by simp [pos, written])).trans ((if_neg chain).trans (if_pos hits))))

/-- The status of the descriptor at `d` and its OWN are written, and the chain goes on, stops, or ends on a write that failed. -/
theorem exec_dmaDescDone_chain {d w : Nat} {a b : State × Bool} (descriptor : d = s.reg (Key.CH_CUR ch)) (free : s.portBHits (d + 3) = false)
    (free' : s.portBHits d = false)
    (status : w = fld (s.dch ch).ending 2 70 + b2n (s.dch ch).late * 2 ^ 69 + fld (s.dch ch).endErr 2 67 +
      fld (min 16777215 (s.reg (Key.CH_DONE ch))) 24 40)
    (first : a = (s.updDch ch fun r => { r with tries := 0 }).moverWrite (d + 3 + 0x100000) w)
    (second : b = a.1.moverWrite (d + 0x200000) (2 ^ 71)) :
    exec (.dmaDescDone ch) s = .next (if ¬ a.2 ∨ ¬ b.2 then (if a.2 then b.1 else a.1).chainError ch d
      else if (s.dch ch).ending = 2 then (((b.1.dmaOutcome ch).inc (Key.CH_DESC_DONE ch)).updDch ch fun r =>
        { r with st := .idle, pos := .none, after := false, late := false, stop := false }).selectMover (moverOf ch)
      else if (s.dch ch).stop then (((b.1.dmaOutcome ch).inc (Key.CH_DESC_DONE ch)).updDch ch fun r =>
        { r with st := .idle, pos := .none, after := true, late := false, stop := false }).selectMover (moverOf ch)
      else ((b.1.dmaOutcome ch).inc (Key.CH_DESC_DONE ch)).dmaLink ch d (s.dch ch).last) := by
  rw [descriptor] at free free'
  change execDmaDescDone ch s = _
  unfold execDmaDescDone whenClocked
  dsimp only
  rw [if_pos clocked, if_neg (by simp [pos, written]), if_neg chain, if_neg (by simp [free, free']), ← status, ← descriptor, ← first, ← second]

end Status

/-! ## Pauses (R466) -/

theorem exec_dmaPauseDone_idle (idle : (s.dch ch).st ≠ .pausing) : exec (.dmaPauseDone ch) s = .next s :=
  (if_pos clocked).trans (congrArg _ (if_pos idle))

theorem exec_dmaPauseDone_paused (pausing : (s.dch ch).st = .pausing) : exec (.dmaPauseDone ch) s = .next
    ((match (s.dch ch).pos with
      | .fetch d => (s.updDch ch fun r => { r with st := .paused }).setReg (Key.CH_CUR ch) d
      | _ => s.updDch ch fun r => { r with st := .paused }).selectMover (moverOf ch)) :=
  (if_pos clocked).trans (congrArg _ (if_neg (not_not.2 pausing)))

end Completion

end Sys2Proof.Machine

namespace Sys2Proof.Proofs

open Sys2Proof.Machine

/-- Settles O51: each command of the movers by the place of its channel. That a pausing channel is PAUSED at once, with nothing in flight, and the
AFTER that a stop leaves are the model's choices (logs 24 and 51). -/
theorem moversRunAndComplete : Obligations.MoversRunAndComplete := by
  refine ⟨fun s u m c clocked slot channel => ⟨exec_dmaSlot_taken clocked, exec_dmaSlot_unused clocked slot channel, fun used due some_ runs spent => ?_⟩,
    fun s ch clocked => ⟨fun a r pos written last read => ?_, exec_dmaReadbackDone_unwritten clocked, exec_dmaReadbackDone_idle clocked,
      exec_dmaDescDone_idle clocked, exec_dmaDescDone_direct clocked, fun pos written chain => exec_dmaDescDone_collides clocked pos written chain rfl,
      fun d w a b u pos written chain descriptor free free' status first second told => ?_, exec_dmaPauseDone_idle clocked,
      fun d pausing pos => ?_, fun pausing pos => ?_⟩⟩
  · subst spent
    have reads := exec_dmaSlot_reads clocked slot channel due some_ runs
    refine ⟨fun run none_ => ?_, fun run left => ?_, fun d fetch left => ?_, fun ending => ?_, fun d link stops => ?_, fun d link goes => ?_⟩
    · rw [reads (by simp [run]), State.dmaRead_spent none_]
    · rw [reads (by simp [run]), State.dmaRead_run run left]
      rfl
    · rw [reads (by simp [fetch]), State.dmaRead_fetch fetch left]
      rfl
    · rw [reads (by obtain pos | pos := ending <;> simp [pos]), State.dmaRead_ending ending]
    · rw [exec_dmaSlot_link clocked slot channel due some_ runs link, if_neg stops]
    · rw [exec_dmaSlot_link clocked slot channel due some_ runs link, if_pos goes]
  · rw [exec_dmaReadbackDone_read clocked pos written last, ← read]
    exact ⟨fun good => by rw [if_pos good], fun bad => by rw [if_neg (by simp [bad])]⟩
  · rw [exec_dmaDescDone_chain clocked pos written chain descriptor free free' status first second, ← told]
    refine ⟨fun bad => ?_, fun good bad => ?_, fun good good' goes stop => ?_, fun good good' stops => ?_⟩
    · rw [if_pos (.inl (by simp [bad])), if_neg (by simp [bad])]
    · rw [if_pos (.inr (by simp [bad])), if_pos good]
    · rw [if_neg (by simp [good, good']), if_neg goes, if_neg (by simp [stop])]
    · rw [if_neg (by simp [good, good'])]
      by_cases aborted : (s.dch ch).ending = 2
      · rw [if_pos aborted, decide_eq_false (not_not.2 aborted)]
      · rw [if_neg aborted, if_pos (stops.resolve_left aborted), decide_eq_true aborted]
  · rw [exec_dmaPauseDone_paused clocked pausing, pos]
  · rw [exec_dmaPauseDone_paused clocked pausing]
    split
    next d fetch => exact absurd fetch (pos d)
    next => rfl

end Sys2Proof.Proofs
end

section
/-! Proofs about a burst of a direct transfer within the Scratch Banks (R456, R464). -/

namespace Sys2Proof.Machine

/-! ## Reads and writes of a mover within the banks -/

/-- From `s` to `t` words of the banks were written by port A, and nothing else changed. -/
def State.BanksWritten (s t : State) : Prop := ∃ m l, t = { s with mem := m, loop := l } ∧ m.bulk = s.mem.bulk

section Access

variable {s : State}

theorem State.pmc_off (off : s.reg Key.TRACE_MODE = 0) (ev q n : Nat) : s.pmc ev q n = s := if_pos (.inl off)

theorem State.moverRead_word (off : s.reg Key.TRACE_MODE = 0) {a : Nat} (low : a < 0x100000) (clean : s.scratchBad a = 0) :
    s.moverRead a = (s, some (s.scratchWord a).toNat) := by
  have inside : inScratch a = true := decide_eq_true (by omega)
  rw [State.moverRead, if_pos inside, State.portA, State.pmc_off off, Nat.mod_eq_of_lt low, State.readScratch_clean false clean]

/-- The words of a burst as its reads give them. -/
def State.burstWords (s : State) (a n : Nat) : List Nat := (List.range n).map fun k => (s.scratchWord (a + k)).toNat

theorem State.moverReads_words (off : s.reg Key.TRACE_MODE = 0) {a n : Nat} (low : a + n ≤ 0x100000)
    (clean : ∀ k < n, s.scratchBad (a + k) = 0) : s.moverReads a n = (s, some (s.burstWords a n)) := by
  induction n with
  | zero => rfl
  | succ n ih =>
    have before := ih (by omega) fun k less => clean k (by omega)
    unfold State.moverReads at before ⊢
    rw [List.range_succ, List.foldl_append, before]
    simp [State.moverRead_word off (a := a + n) (by omega) (clean n (by omega)), State.burstWords, List.range_succ]

theorem State.moverWrite_word (off : s.reg Key.TRACE_MODE = 0) {a : Nat} (low : a < 0x100000) (v : Nat) :
    s.moverWrite a v = (s.portPut false a (BitVec.ofNat 72 v), true) := by
  have inside : inScratch a = true := decide_eq_true (by omega)
  rw [State.moverWrite, if_pos inside, State.portA, State.pmc_off off, s.writeScratch_plain (Nat.div_eq_of_lt low), Nat.mod_eq_of_lt low]
  rfl

theorem State.BanksWritten.refl (s : State) : s.BanksWritten s := ⟨s.mem, s.loop, rfl, rfl⟩

theorem State.BanksWritten.portPut (s : State) (a : Nat) (w : Word) : s.BanksWritten (s.portPut false a w) := by
  obtain ⟨l, put⟩ := (s.putScratch a w).loopWord_loop a w
  exact ⟨(s.putScratch a w).mem, l, put, rfl⟩

theorem State.BanksWritten.trans {s t u : State} (h : s.BanksWritten t) (g : t.BanksWritten u) : s.BanksWritten u := by
  obtain ⟨m, l, rfl, bulk⟩ := h
  obtain ⟨m', l', rfl, bulk'⟩ := g
  exact ⟨m', l', rfl, bulk'.trans bulk⟩

/-- What the writes of port A leave alone. -/
theorem State.BanksWritten.kept {s t : State} (h : s.BanksWritten t) : t.mem.bulk = s.mem.bulk ∧ t.ident = s.ident ∧ t.tabs = s.tabs ∧
    t.ports = s.ports ∧ (∀ k, t.reg k = s.reg k) ∧ ∀ c, t.dch c = s.dch c := by
  obtain ⟨m, l, rfl, bulk⟩ := h
  exact ⟨bulk, rfl, rfl, rfl, fun _ => rfl, fun _ => rfl⟩

end Access

/-! ## The words of a burst are put -/

/-- One write of a burst. -/
def burstStep (r : State × Bool) (e : Nat × Nat) : State × Bool := ((r.1.moverWrite e.1 e.2).1, r.2 && (r.1.moverWrite e.1 e.2).2)

/-- Writes at addresses of the banks, each to a word of its own: each puts its word, and no other word changes. -/
theorem State.burstStep_words {s : State} (off : s.reg Key.TRACE_MODE = 0) (l : List (Nat × Nat)) (low : ∀ e ∈ l, e.1 < 0x100000)
    (apart : (l.map Prod.fst).Nodup) : ∃ t, l.foldl burstStep (s, true) = (t, true) ∧ s.BanksWritten t ∧
      (∀ e ∈ l, t.scratchWord e.1 = BitVec.ofNat 72 e.2) ∧ ∀ y ∉ l.map Prod.fst, t.scratchWord y = s.scratchWord y := by
  induction l generalizing s with
  | nil => exact ⟨s, rfl, .refl s, by simp, fun y _ => rfl⟩
  | cons e l ih =>
    have first : burstStep (s, true) e = (s.portPut false e.1 (BitVec.ofNat 72 e.2), true) := by
      rw [burstStep, State.moverWrite_word off (low e List.mem_cons_self)]
      rfl
    have put := State.BanksWritten.portPut s e.1 (BitVec.ofNat 72 e.2)
    have off' : (s.portPut false e.1 (BitVec.ofNat 72 e.2)).reg Key.TRACE_MODE = 0 := by
      obtain ⟨m, l, same, -⟩ := put
      rw [same]
      exact off
    rw [List.map_cons, List.nodup_cons] at apart
    obtain ⟨fresh, apart⟩ := apart
    obtain ⟨t, rest, written, words, others⟩ := ih off' (fun e' he => low e' (List.mem_cons_of_mem _ he)) apart
    refine ⟨t, by rw [List.foldl_cons, first, rest], put.trans written, fun e' he => ?_, fun y hy => ?_⟩
    · obtain rfl | he := List.mem_cons.1 he
      · rw [others _ fresh, State.portPut_word, if_pos rfl]
      · exact words e' he
    · rw [List.map_cons, List.mem_cons, not_or] at hy
      rw [others y hy.2, State.portPut_word, if_neg hy.1]

/-- The writes of the burst that puts the words at `src` to `dst`. -/
def State.burstList (s : State) (src dst n : Nat) : List (Nat × Nat) := (s.burstWords src n).zipIdx.map fun e => (dst + e.2, e.1)

section Burst

variable {s : State} {src dst n : Nat}

theorem State.burstList_eq : s.burstList src dst n = (List.range n).map fun k => (dst + k, (s.scratchWord (src + k)).toNat) := by
  refine List.ext_getElem (by simp [State.burstList, State.burstWords]) fun k _ _ => ?_
  simp [State.burstList, State.burstWords]

theorem State.burstList_fst : (s.burstList src dst n).map Prod.fst = (List.range n).map (dst + ·) := by
  rw [State.burstList_eq, List.map_map]
  rfl

/-- Where no word of a burst meets a write of port B, its words are put one after the other. -/
theorem State.burstWrite_free (c : Nat) (free : (s.burstList src dst n).filter (fun e => inScratch e.1 && s.portBHits (e.1 % 0x100000)) = []) :
    s.burstWrite c dst (s.burstWords src n) = (s.burstList src dst n).foldl burstStep (s, true) := by
  have writes : (s.burstWords src n).zipIdx.map (fun e => (dst + e.2, e.1)) = s.burstList src dst n := rfl
  unfold State.burstWrite
  dsimp only
  rw [writes, free]
  simp only [List.contains_nil, Bool.not_false, List.filter_true, List.isEmpty_nil, if_true]
  rfl

/-- A burst whose words port B does not write meanwhile. -/
theorem State.burstWrite_words (off : s.reg Key.TRACE_MODE = 0) (c : Nat) (low : dst + n ≤ 0x100000) (free : ∀ k < n, s.portBHits (dst + k) = false) :
    ∃ t, s.burstWrite c dst (s.burstWords src n) = (t, true) ∧ s.BanksWritten t ∧
      (∀ k < n, t.scratchWord (dst + k) = s.scratchWord (src + k)) ∧ ∀ y, y < dst ∨ dst + n ≤ y → t.scratchWord y = s.scratchWord y := by
  have inside : ∀ e ∈ s.burstList src dst n, e.1 < 0x100000 ∧ s.portBHits e.1 = false := fun e he => by
    rw [State.burstList_eq, List.mem_map] at he
    obtain ⟨k, hk, rfl⟩ := he
    rw [List.mem_range] at hk
    exact ⟨by dsimp only; omega, free k hk⟩
  have none_ : (s.burstList src dst n).filter (fun e => inScratch e.1 && s.portBHits (e.1 % 0x100000)) = [] := by
    refine List.filter_eq_nil_iff.2 fun e he => ?_
    obtain ⟨under, miss⟩ := inside e he
    rw [Nat.mod_eq_of_lt under, miss]
    simp
  have apart : ((s.burstList src dst n).map Prod.fst).Nodup := by
    rw [State.burstList_fst]
    exact List.nodup_range.map fun _ _ same => Nat.add_left_cancel same
  obtain ⟨t, run, written, words, others⟩ := State.burstStep_words off (s.burstList src dst n) (fun e he => (inside e he).1) apart
  refine ⟨t, ?_, written, fun k hk => ?_, fun y outside => others y ?_⟩
  · rw [State.burstWrite_free c none_, run]
  · have word := words (dst + k, (s.scratchWord (src + k)).toNat) (by rw [State.burstList_eq]; exact List.mem_map.2 ⟨k, by simpa, rfl⟩)
    simpa using word
  · rw [State.burstList_fst, List.mem_map]
    rintro ⟨k, hk, rfl⟩
    rw [List.mem_range] at hk
    omega

end Burst

/-! ## A burst of a direct transfer (R456, R464) -/

/-- The objects of channel `c` after a burst of `n` words from `src` to `dst` that leaves `left`. -/
def State.burstCounted (c src dst n left : Nat) (t : State) : State :=
  ((((t.setReg (Key.CH_DST c) (dst + n)).setReg (Key.CH_COUNT c) left).addReg (Key.CH_DONE c) n).addReg (Key.CH_WORDS c) n).setReg (Key.CH_SRC c) (src + n)

section Counted

variable (t : State) {c : Nat} (src dst n left : Nat)

theorem State.burstCounted_dch (q : Nat) : (t.burstCounted c src dst n left).dch q = t.dch q := by
  simp [State.burstCounted, State.dch]

theorem State.burstCounted_done (ch : c < 32) : (t.burstCounted c src dst n left).reg (Key.CH_DONE c) =
    (t.reg (Key.CH_DONE c) + n) % 2 ^ keyWidth (Key.CH_DONE c) := by
  have width : ∀ c < 32, keyWidth (Key.CH_DONE c) ≤ 72 := by decide
  rw [State.burstCounted, State.setReg_reg_ne _ _ (by simp), State.addReg_reg_ne _ _ (by simp), State.addReg, State.setReg_reg_mod _ _ (width c ch),
    State.setReg_reg_ne _ _ (by simp), State.setReg_reg_ne _ _ (by simp)]

variable {src dst n left}

theorem State.burstCounted_src (ch : c < 32) (low : src + n ≤ 0x100000) : (t.burstCounted c src dst n left).reg (Key.CH_SRC c) = src + n := by
  have width : ∀ c < 32, 0x100000 < 2 ^ keyWidth (Key.CH_SRC c) ∧ keyWidth (Key.CH_SRC c) ≤ 72 := by decide
  obtain ⟨fits, word⟩ := width c ch
  exact State.setReg_reg_self _ (by omega) word

theorem State.burstCounted_dst (ch : c < 32) (low : dst + n ≤ 0x100000) : (t.burstCounted c src dst n left).reg (Key.CH_DST c) = dst + n := by
  have width : ∀ c < 32, 0x100000 < 2 ^ keyWidth (Key.CH_DST c) ∧ keyWidth (Key.CH_DST c) ≤ 72 := by decide
  obtain ⟨fits, word⟩ := width c ch
  rw [State.burstCounted, State.setReg_reg_ne _ _ (by simp), State.addReg_reg_ne _ _ (by simp), State.addReg_reg_ne _ _ (by simp),
    State.setReg_reg_ne _ _ (by simp), State.setReg_reg_self _ (by omega) word]

theorem State.burstCounted_count (ch : c < 32) (fits : left < 2 ^ 32) : (t.burstCounted c src dst n left).reg (Key.CH_COUNT c) = left := by
  have width : ∀ c < 32, keyWidth (Key.CH_COUNT c) = 32 := by decide
  rw [State.burstCounted, State.setReg_reg_ne _ _ (by simp), State.addReg_reg_ne _ _ (by simp), State.addReg_reg_ne _ _ (by simp),
    State.setReg_reg_self _ (by rwa [width c ch]) (by rw [width c ch]; decide)]

end Counted

/-- A direct transfer's burst within clean words of the banks that port B leaves alone. -/
theorem State.dmaBurstMove_direct {s : State} {c src dst n : Nat} (at_ : dst = s.reg (Key.CH_DST c)) (lowSrc : src + n ≤ 0x100000)
    (lowDst : dst + n ≤ 0x100000) (clean : ∀ k < n, s.scratchBad (src + k) = 0) (some_ : 1 ≤ n) (direct : (s.dch c).indexed = false)
    (off : s.reg Key.TRACE_MODE = 0) {t : State}
    (moved : s.burstWrite c dst (s.burstWords src n) = (t, true)) (same : t.reg (Key.CH_COUNT c) = s.reg (Key.CH_COUNT c))
    (still : t.dch c = s.dch c) : ∃ f : DmaCh → DmaCh, (∀ r, (f r).pos = r.pos ∧ (f r).lastDst = some (dst + n - 1)) ∧
      s.dmaBurstMove c src n = if s.reg (Key.CH_COUNT c) - n = 0 then
        ((t.burstCounted c src dst n (s.reg (Key.CH_COUNT c) - n)).updDch c f).dmaFinish c 1 0
      else (t.burstCounted c src dst n (s.reg (Key.CH_COUNT c) - n)).updDch c f := by
  have waits {a : Nat} (low : a + n ≤ 0x100000) : s.accessWaits a = false := by
    rw [State.accessWaits, bulkOffset, if_neg (by omega)]
    rfl
  refine ⟨fun r => { r with part := if r.indexed ∧ ¬ (s.dch c).part + n = (s.dch c).elem + 1 then r.part + n else 0, lastDst := some (dst + n - 1) },
    fun r => ⟨rfl, rfl⟩, ?_⟩
  unfold State.dmaBurstMove
  dsimp only
  rw [← at_, if_neg (by simp [waits lowSrc, waits lowDst]), State.moverReads_words off lowSrc clean]
  dsimp only
  rw [State.pmc_off off, moved]
  dsimp only
  rw [if_neg (by simp), still, direct, same, if_neg Bool.false_ne_true, if_neg Bool.false_ne_true]
  rfl

end Sys2Proof.Machine

namespace Sys2Proof.Proofs

open Sys2Proof.Machine

/-- Settles O52: the reads of the burst give its words (`moverReads_words`), each write puts its own (`burstWrite_words`), and the channel's
objects move on (`burstCounted`). That the words are written on the clock of their reads is the model's choice (log 24). -/
theorem directBurstCopiesWords : Obligations.DirectBurstCopiesWords := by
  intro s c src dst n _ at_ ch some_ _ lowSrc lowDst _ clean direct _ fits off free
  obtain ⟨t, moved, written, words, others⟩ := State.burstWrite_words (src := src) off c lowDst free
  obtain ⟨bulk, ident, tabs, ports, reg, dch⟩ := written.kept
  obtain ⟨f, told, run⟩ := State.dmaBurstMove_direct at_ lowSrc lowDst clean some_ direct off moved (reg _) (dch c)
  obtain ⟨u, counted⟩ : ∃ u, u = (t.burstCounted c src dst n (s.reg (Key.CH_COUNT c) - n)).updDch c f := ⟨_, rfl⟩
  rw [← counted] at run
  obtain ⟨mem, ident', tabs', ports'⟩ : u.mem = t.mem ∧ u.ident = t.ident ∧ u.tabs = t.tabs ∧ u.ports = t.ports := by
    simp [counted, State.burstCounted]
  have word (y : Nat) : u.scratchWord y = t.scratchWord y := State.scratchWord_congr mem y
  have channel : u.dch c = f (s.dch c) := by rw [counted, State.updDch_dch_self, State.burstCounted_dch, dch]
  obtain ⟨pos, last⟩ := told (s.dch c)
  rw [← channel] at pos last
  have source : u.reg (Key.CH_SRC c) = src + n := by rw [counted, State.updDch_reg, State.burstCounted_src _ ch lowSrc]
  have target : u.reg (Key.CH_DST c) = dst + n := by rw [counted, State.updDch_reg, State.burstCounted_dst _ ch lowDst]
  have count : u.reg (Key.CH_COUNT c) = s.reg (Key.CH_COUNT c) - n := by rw [counted, State.updDch_reg, State.burstCounted_count _ ch (by omega)]
  have moved : u.reg (Key.CH_DONE c) = (s.reg (Key.CH_DONE c) + n) % 2 ^ keyWidth (Key.CH_DONE c) := by
    rw [counted, State.updDch_reg, State.burstCounted_done _ _ _ _ _ ch, reg]
  rw [← mem] at bulk
  rw [← ident'] at ident
  refine ⟨_, run, ?_⟩
  by_cases ends : s.reg (Key.CH_COUNT c) - n = 0
  · rw [if_pos ends, State.dmaFinish]
    refine ⟨fun k hk => (word _).trans (words k hk), fun y outside => (word y).trans (others y outside), source, target, count, moved, by omega,
      fun _ => ?_, bulk, tabs'.trans tabs, ports'.trans ports⟩
    rw [State.updDch_dch_self, last, ident]
    simp
  · rw [if_neg ends]
    exact ⟨fun k hk => (word _).trans (words k hk), fun y outside => (word y).trans (others y outside), source, target, count, moved, fun _ => pos,
      by omega, bulk, tabs'.trans tabs, ports'.trans ports⟩

end Sys2Proof.Proofs
end

section
/-! Proofs about the event log: what a queued record changes, and which record is programmed (R509-R515). -/

namespace Sys2Proof.Machine

/-! ## Queued records (R512-R514) -/

/-- A record that is queued, or lost, touches the log's queue, its lost records and nothing else. -/
theorem State.logAdd_mgmt (s : State) (kind code : Nat) (payload : List Nat) (mark : Option Nat) : ∃ queue lost owed,
    s.logAdd kind code payload mark = s.updMgmt fun m => { m with queue := queue, lost := lost, owed := owed } := by
  unfold State.logAdd
  split
  · exact ⟨s.mgmt.queue, s.mgmt.lost, s.mgmt.owed, rfl⟩
  split
  · exact ⟨_, s.mgmt.lost, s.mgmt.owed, rfl⟩
  · exact ⟨s.mgmt.queue, _, _, rfl⟩

theorem State.logAdd_room {s : State} (up : s.calderaUp = true) (room : s.mgmt.queue.length < 256) (kind code : Nat) (payload : List Nat)
    (mark : Option Nat) : s.logAdd kind code payload mark =
      s.updMgmt fun m => { m with queue := m.queue ++ [⟨s.ct, kind, code, payload, mark⟩] } := by
  rw [State.logAdd, if_neg (not_not.2 up), if_pos room]

/-! ## The record to program (R511, R515) -/

/-- A programmed record leaves the objects, the memories, the tables and the ports; its own event may be one that is lost. -/
structure State.LogKept (s t : State) : Prop where
  reg : ∀ k, k ≠ Key.EVENT_LOST → t.reg k = s.reg k
  mem : t.mem = s.mem
  tabs : t.tabs = s.tabs
  ports : t.ports = s.ports

theorem State.LogKept.refl (s : State) : s.LogKept s := ⟨fun _ _ => rfl, rfl, rfl, rfl⟩

theorem State.LogKept.updMgmt {s t : State} (h : s.LogKept t) (f : Mgmt → Mgmt) : s.LogKept (t.updMgmt f) := ⟨h.reg, h.mem, h.tabs, h.ports⟩

theorem State.LogKept.calderaEvent {s t : State} (h : s.LogKept t) (code arg : Nat) : s.LogKept (t.calderaEvent code arg) where
  reg k other := (State.event_reg_ne t _ _ _ other).trans (h.reg k other)
  mem := (State.event_mem t _ _ _).trans h.mem
  tabs := (State.event_tabs t _ _ _).trans h.tabs
  ports := (State.event_ports t _ _ _).trans h.ports

/-- The oldest record of the queue is programmed: an anchor is due after LOG_ANCHOR_EVERY records. -/
def State.recordProgrammed (r : LogReq) (rest : List LogReq) (s : State) : State :=
  (s.updNor fun x => { x.program (logBytes s.nor.next r 0 (x.prevHash s.nor.next)) with hist := r.mark.getD x.hist }).updMgmt fun m => { m with
    queue := rest, since := m.since + 1, anchorDue := m.anchorDue || decide (s.reg Key.LOG_ANCHOR_EVERY ≤ m.since + 1) }

/-- One record tells how many were lost (R514). -/
def State.lossesTold (s : State) : State :=
  ((s.updMgmt fun m => { m with owed := 0 }).logAdd 0x07 0 (beBytes 4 s.mgmt.owed)).calderaEvent 0x21 s.mgmt.owed

section Program

variable {s : State} (on : s.on = true)
include on

theorem exec_logProgram_down (down : s.calderaUp = false) : exec .logProgram s = .next s :=
  (if_pos on).trans (congrArg _ (if_pos (by simp [down])))

variable (up : s.calderaUp = true)
include up

theorem exec_logProgram_dead (dead : s.nor.ok = false) : exec .logProgram s = .next (s.raise 0x14 4) :=
  (if_pos on).trans (congrArg _ ((if_neg (by simp [up])).trans (if_pos (by simp [dead]))))

variable (answers : s.nor.ok = true)
include answers

theorem exec_logProgram_anchor (due : s.mgmt.anchorDue = true) (signs : s.canSign = true) : exec .logProgram s =
    .next ((State.updMgmt { s.updNor (fun n => n.program s.anchorBytes) with free := s.free + 1 }
      fun m => { m with anchorDue := false, since := 0 }).calderaEvent 0x20 s.nor.next) :=
  (if_pos on).trans (congrArg _ ((if_neg (by simp [up])).trans ((if_neg (by simp [answers])).trans (if_pos ⟨due, signs⟩))))

variable (none_ : s.mgmt.anchorDue = false ∨ s.canSign = false)
include none_

theorem exec_logProgram_empty (empty : s.mgmt.queue = []) : exec .logProgram s = .next s := by
  have idle : ¬ (s.mgmt.anchorDue = true ∧ s.canSign = true) := by obtain h | h := none_ <;> simp [h]
  refine (if_pos on).trans (congrArg _ ((if_neg (by simp [up])).trans ((if_neg (by simp [answers])).trans ((if_neg idle).trans ?_))))
  rw [empty]

theorem exec_logProgram_record {r : LogReq} {rest : List LogReq} (queued : s.mgmt.queue = r :: rest) : exec .logProgram s =
    .next (if 0 < s.mgmt.owed then (s.recordProgrammed r rest).lossesTold else s.recordProgrammed r rest) := by
  have idle : ¬ (s.mgmt.anchorDue = true ∧ s.canSign = true) := by obtain h | h := none_ <;> simp [h]
  refine (if_pos on).trans (congrArg _ ((if_neg (by simp [up])).trans ((if_neg (by simp [answers])).trans ((if_neg idle).trans ?_))))
  rw [queued]
  rfl

end Program

/-- What is told of the losses is in the queue where it has room, and nothing is owed any more. -/
theorem State.lossesTold_queue {s : State} (up : s.calderaUp = true) (room : s.mgmt.queue.length < 256) :
    s.lossesTold.mgmt = { s.mgmt with owed := 0, queue := s.mgmt.queue ++ [⟨s.ct, 0x07, 0, beBytes 4 s.mgmt.owed, none⟩] } := by
  have up' : (s.updMgmt fun m => { m with owed := 0 }).calderaUp = true := up
  rw [State.lossesTold, State.calderaEvent, State.event_mgmt, State.logAdd_room up' room]
  rfl

theorem State.lossesTold_kept (s : State) : s.LogKept s.lossesTold ∧ s.lossesTold.nor = s.nor ∧ s.lossesTold.mgmt.since = s.mgmt.since ∧
    s.lossesTold.mgmt.anchorDue = s.mgmt.anchorDue := by
  obtain ⟨queue, lost, owed, added⟩ := (s.updMgmt fun m => { m with owed := 0 }).logAdd_mgmt 0x07 0 (beBytes 4 s.mgmt.owed) none
  have told : s.lossesTold = ((s.updMgmt fun m => { m with owed := 0 }).updMgmt fun m => { m with
      queue := queue, lost := lost, owed := owed }).calderaEvent 0x21 s.mgmt.owed := by rw [State.lossesTold, added]
  rw [told]
  refine ⟨(((State.LogKept.refl s).updMgmt _).updMgmt _).calderaEvent _ _, ?_, ?_, ?_⟩ <;> simp [State.calderaEvent]

end Sys2Proof.Machine

namespace Sys2Proof.Proofs

open Sys2Proof.Machine

/-- Settles O58: which record is programmed (`exec_logProgram_anchor`, `exec_logProgram_record`), and that the record of losses and the own events
touch only the queue and EVENT_LOST (`lossesTold_kept`). That anchors are not counted toward the next one and that a signature's random number is
the unit's own are the model's choices (logs 54 and 13). -/
theorem logRecordsAreProgrammed : Obligations.LogRecordsAreProgrammed := by
  intro s on
  refine ⟨exec_logProgram_down on, exec_logProgram_dead on, fun up answers due signs => ⟨_, exec_logProgram_anchor on up answers due signs, ?_⟩,
    fun up answers none_ => ⟨exec_logProgram_empty on up answers none_, fun r rest queued =>
      ⟨_, exec_logProgram_record on up answers none_ queued, ?_⟩⟩, if_pos on⟩
  · have kept : s.LogKept (State.updMgmt { s.updNor (fun n => n.program s.anchorBytes) with free := s.free + 1 }
        fun m => { m with anchorDue := false, since := 0 }) := ⟨fun _ _ => rfl, rfl, rfl, rfl⟩
    obtain ⟨reg, mem, tabs, ports⟩ := kept.calderaEvent 0x20 s.nor.next
    exact ⟨State.event_nor _ _ _ _, State.event_mgmt _ _ _ _, State.event_free _ _ _ _, reg, mem, tabs, ports⟩
  · by_cases owed : 0 < s.mgmt.owed
    · obtain ⟨⟨reg, mem, tabs, ports⟩, nor, since, due⟩ := (s.recordProgrammed r rest).lossesTold_kept
      rw [if_pos owed]
      refine ⟨nor, since, due, by omega, fun _ room => ?_, reg, mem, tabs, ports⟩
      have told := State.lossesTold_queue (s := s.recordProgrammed r rest) up room
      exact ⟨congrArg Mgmt.owed told, congrArg Mgmt.queue told⟩
    · rw [if_neg owed]
      exact ⟨rfl, rfl, rfl, fun none_ => ⟨rfl, none_⟩, fun some_ => absurd some_ owed, fun _ _ => rfl, rfl, rfl, rfl⟩

end Sys2Proof.Proofs
end

section
/-! Proofs about the written objects of faults, Caldera, updates, lifecycle, keys, power and trace: those of the unit itself act at their
acceptance, and those that Caldera carries out act where it holds no earlier request (R118). -/

namespace Sys2Proof.Machine

/-- The dictionary's object of key `k` is IMMEDIATE, and Caldera carries its writes out. -/
def calderaCarriesOut (k : Nat) : Bool := (objOf k).any fun o => o.commit == .imm && o.fw

section CalderaWrites

variable {s t : State} {i : Instr} {q : Req} (h : s.Writes i q t) {r : Dreq} {index sub k : Nat} (row : reqOf i = some ⟨r, .write, index, sub⟩)
  (key : index * 256 + sub = k) (carried : calderaCarriesOut k = true)
include h row key carried

/-- Where Caldera holds no request the row stands for its part too, and the write acts. -/
theorem State.Writes.exec_carried (own : byCaldera i = true) {u : State} (effect : t.applyWrite k (t.valueOf q) = u) (free : t.dict.fw = []) :
    Machine.exec i s = .next (u.answers q St.OK t.ct) := by
  obtain rfl : q = ⟨r, .write, index, sub⟩ := Option.some.inj (h.req.symm.trans row)
  obtain ⟨o, known, imm, -⟩ : ∃ o, objOf k = some o ∧ o.commit = .imm ∧ o.fw = true := by
    simpa [calderaCarriesOut, Option.any_eq_true] using carried
  exact effect ▸ h.exec rfl (Req.key_eq key) o known imm (.inr ⟨own, free⟩)

/-- Behind requests that Caldera holds the write waits. -/
theorem State.Writes.exec_waits (held : t.dict.fw ≠ []) : Machine.exec i s =
    .next { t with dict := { t.dict with fw := t.dict.fw ++ [⟨q.r, q.op, q.index, q.sub, t.clk, t.ct⟩] } } := by
  obtain rfl : q = ⟨r, .write, index, sub⟩ := Option.some.inj (h.req.symm.trans row)
  obtain ⟨o, known, -, fw⟩ : ∃ o, objOf k = some o ∧ o.commit = .imm ∧ o.fw = true := by
    simpa [calderaCarriesOut, Option.any_eq_true] using carried
  have named : t.objects ⟨r, .write, index, sub⟩ = [o] := h.accepts.written rfl (by rw [Req.key_eq key, known])
  have firmware : t.fwNamed ⟨r, .write, index, sub⟩ = true := by simp [State.fwNamed, named, fw, Op.noObject]
  have ungrouped : r.group.toNat = 0 := by rw [show r.group = 0 from h.group]; rfl
  rw [exec_request row (by rw [← State.wired_clocked s i]; exact h.accepts.clocked), h.accepts.dreq]
  unfold State.run
  rw [h.accepts.late]
  dsimp only
  rw [if_neg (by simp [h.accepts.ready]), if_pos ⟨firmware, by simp [held], by simp [ungrouped]⟩]

end CalderaWrites

section Rows

variable {i : Instr} {r : Dreq}

theorem reqOf_update (row : i ∈ [Instr.updateInstall r, .updateActivate r, .updateConfirm r, .updateAbort r]) :
    reqOf i = some ⟨r, .write, 0x2B01, 1⟩ ∧ byCaldera i = true := by
  simp only [List.mem_cons, List.not_mem_nil, or_false] at row
  obtain rfl | rfl | rfl | rfl := row <;> exact ⟨rfl, rfl⟩

theorem reqOf_lifecycle (row : i ∈ [Instr.lifecycleAdvance r, .lifecycleRetire r]) :
    reqOf i = some ⟨r, .write, 0x2C00, 1⟩ ∧ byCaldera i = true := by
  simp only [List.mem_cons, List.not_mem_nil, or_false] at row
  obtain rfl | rfl := row <;> exact ⟨rfl, rfl⟩

theorem carried_update : calderaCarriesOut Key.UPDATE_COMMAND = true := by decide

theorem carried_lifecycle : calderaCarriesOut Key.LIFECYCLE_CMD = true := by decide

theorem carried_window : calderaCarriesOut Key.LOG_WINDOW_SEQ = true := by decide

theorem carried_keys : calderaCarriesOut Key.KEY_COMMIT = true := by decide

/-- Each of these rows is a write of one object that Caldera carries out. -/
theorem reqOf_byCaldera (row : i ∈ [Instr.logWindowSeq r, .updateInstall r, .updateActivate r, .updateConfirm r, .updateAbort r,
      .lifecycleAdvance r, .lifecycleRetire r, .keyCommit r]) : ∃ index sub, reqOf i = some ⟨r, .write, index, sub⟩ ∧
    calderaCarriesOut (index * 256 + sub) = true := by
  obtain rfl | update | lifecycle | rfl : i = .logWindowSeq r ∨ i ∈ [Instr.updateInstall r, .updateActivate r, .updateConfirm r, .updateAbort r] ∨
      i ∈ [Instr.lifecycleAdvance r, .lifecycleRetire r] ∨ i = .keyCommit r := by simpa [or_assoc] using row
  · exact ⟨_, _, rfl, carried_window⟩
  · exact ⟨_, _, (reqOf_update update).1, carried_update⟩
  · exact ⟨_, _, (reqOf_lifecycle lifecycle).1, carried_lifecycle⟩
  · exact ⟨_, _, rfl, carried_keys⟩

end Rows

end Sys2Proof.Machine

namespace Sys2Proof.Proofs

open Sys2Proof.Machine

/-- Settles O36: the unit's own objects act at once (`Writes.exec_eq`); that a row stands for Caldera's part too where no earlier request waits
(`Writes.exec_carried`, `Writes.exec_waits`) is the model's choice (log 38). -/
theorem managementWritesAct : Obligations.ManagementWritesAct := by
  intro s t q r k
  have counter : takesEffectNow (Key.PMC_SEL k) = true := by revert k; decide
  refine ⟨fun h => h.exec_eq rfl rfl (by decide) (State.applyWrite_faultClear t _),
    fun h => h.exec_eq rfl rfl (by decide) (State.applyWrite_firstClear t _),
    fun h => h.exec_eq rfl rfl (by decide) (State.applyWrite_histClear t _),
    fun h => h.exec_eq rfl rfl (by decide) (State.applyWrite_inject t _),
    fun h => h.exec_eq rfl rfl (by decide) (State.applyWrite_calderaRestart t _),
    fun h free => h.exec_carried rfl rfl carried_window rfl (State.applyWrite_logWindowSeq t _) free,
    fun i hi h free => ?_, fun i hi h free => ?_,
    fun h free => h.exec_carried rfl rfl carried_keys rfl (State.applyWrite_keyCommit t _) free,
    fun i hi h held => ?_,
    fun h => h.exec_eq rfl rfl (by decide) (State.applyWrite_powerReq t _),
    fun h => h.exec_eq rfl rfl (by decide) (State.applyWrite_traceMode t _),
    fun h => h.exec_eq rfl rfl (by decide) (State.applyWrite_traceRestart t _),
    fun h => h.exec_eq rfl rfl counter (State.applyWrite_pmcSel t _ k)⟩
  · obtain ⟨row, own⟩ := reqOf_update hi
    exact h.exec_carried row rfl carried_update own (State.applyWrite_updateCommand t _) free
  · obtain ⟨row, own⟩ := reqOf_lifecycle hi
    exact h.exec_carried row rfl carried_lifecycle own (State.applyWrite_lifecycleCmd t _) free
  · obtain ⟨index, sub, row, carried⟩ := reqOf_byCaldera hi
    exact h.exec_waits row rfl carried held

end Sys2Proof.Proofs
end

section
/-! Proofs about the history ring, and the clearing of sources and records (R481, R482, R485, R492, R495). -/

namespace Sys2Proof.Machine

/-! ## The ring (R482) -/

/-- From `s` to `t` only Caldera's own record has changed. -/
def State.MgmtOnly (s t : State) : Prop := ∃ m, t = s.updMgmt fun _ => m

theorem State.MgmtOnly.refl (s : State) : s.MgmtOnly s := ⟨s.mgmt, rfl⟩

theorem State.MgmtOnly.updMgmt {s t : State} (h : s.MgmtOnly t) (f : Mgmt → Mgmt) : s.MgmtOnly (t.updMgmt f) := by
  obtain ⟨m, rfl⟩ := h
  exact ⟨f m, rfl⟩

theorem State.MgmtOnly.logAdd {s t : State} (h : s.MgmtOnly t) (kind code : Nat) (payload : List Nat) (mark : Option Nat) :
    s.MgmtOnly (t.logAdd kind code payload mark) := by
  obtain ⟨queue, lost, owed, added⟩ := t.logAdd_mgmt kind code payload mark
  rw [added]
  exact h.updMgmt _

/-- The copy of the history to the log is Caldera's own. -/
theorem State.histCopy_mgmt (s : State) : s.MgmtOnly s.histCopy := by
  unfold State.histCopy
  split
  · exact .refl s
  · refine State.MgmtOnly.updMgmt (List.foldlRecOn (motive := s.MgmtOnly) _ _ ?_ fun t kept j _ => kept.logAdd _ _ _ _) _
    split
    · exact (State.MgmtOnly.refl s).logAdd _ _ _ _
    · exact .refl s

/-- The entry `w` is put at place `i` of the ring. -/
def State.putRing (i : Nat) (w : Nat × Nat) (s : State) : State :=
  (s.setReg (Key.HISTORY (2 * i)) w.1).setReg (Key.HISTORY (2 * i + 1)) w.2

theorem keyWidth_history : ∀ k < 32, keyWidth (Key.HISTORY k) = 72 := by decide

theorem State.setReg_history (s : State) {k : Nat} (hk : k < 32) (v : Nat) : (s.setReg (Key.HISTORY k) v).reg (Key.HISTORY k) = v % 2 ^ 72 := by
  rw [State.setReg_reg_mod _ _ (keyWidth_history k hk).le, keyWidth_history k hk]

theorem State.putRing_first (s : State) {i : Nat} (hi : i < 16) (w : Nat × Nat) :
    (s.putRing i w).reg (Key.HISTORY (2 * i)) = w.1 % 2 ^ 72 := by
  rw [State.putRing, State.setReg_reg_ne _ _ (by simp), State.setReg_history _ (by omega)]

theorem State.putRing_second (s : State) {i : Nat} (hi : i < 16) (w : Nat × Nat) :
    (s.putRing i w).reg (Key.HISTORY (2 * i + 1)) = w.2 % 2 ^ 72 := State.setReg_history _ (by omega) _

theorem State.putRing_other (s : State) {i : Nat} (w : Nat × Nat) {k : Nat} (even : k ≠ Key.HISTORY (2 * i)) (odd : k ≠ Key.HISTORY (2 * i + 1)) :
    (s.putRing i w).reg k = s.reg k := by
  rw [State.putRing, State.setReg_reg_ne _ _ odd, State.setReg_reg_ne _ _ even]

/-- The entries of a batch are put into the ring from entry number `n` on. -/
def State.putBatch (n : Nat) (l : List (Nat × Nat)) (s : State) : State :=
  l.zipIdx.foldl (fun s e => s.putRing ((n + e.2) % 16) e.1) s

section Ring

variable (s : State) (n : Nat)

theorem State.putBatch_snoc (l : List (Nat × Nat)) (w : Nat × Nat) :
    s.putBatch n (l ++ [w]) = (s.putBatch n l).putRing ((n + l.length) % 16) w := by
  simp [State.putBatch, List.zipIdx_append]

theorem State.putBatch_other (l : List (Nat × Nat)) {k : Nat} (other : ∀ i < 32, k ≠ Key.HISTORY i) : (s.putBatch n l).reg k = s.reg k := by
  induction l using List.reverseRecOn with
  | nil => rfl
  | append_singleton l w ih => rw [State.putBatch_snoc, State.putRing_other _ _ (other _ (by omega)) (other _ (by omega)), ih]

theorem State.putBatch_rest (l : List (Nat × Nat)) : (s.putBatch n l).mem = s.mem ∧ (s.putBatch n l).tabs = s.tabs ∧
    (s.putBatch n l).ports = s.ports := by
  induction l using List.reverseRecOn with
  | nil => exact ⟨rfl, rfl, rfl⟩
  | append_singleton l w ih => rwa [State.putBatch_snoc]

/-- The last 16 entries of a batch stay in the ring. -/
theorem State.putBatch_entry (l : List (Nat × Nat)) {j : Nat} {e : Nat × Nat} (entry : l[j]? = some e) (late : l.length ≤ j + 16) :
    (s.putBatch n l).reg (Key.HISTORY (2 * ((n + j) % 16))) = e.1 % 2 ^ 72 ∧
      (s.putBatch n l).reg (Key.HISTORY (2 * ((n + j) % 16) + 1)) = e.2 % 2 ^ 72 := by
  induction l using List.reverseRecOn with
  | nil => simp at entry
  | append_singleton l w ih =>
    rw [State.putBatch_snoc]
    rw [List.length_append, List.length_singleton] at late
    obtain before | last : j < l.length ∨ l.length ≤ j := by omega
    · rw [List.getElem?_append_left before] at entry
      obtain ⟨first, second⟩ := ih entry (by omega)
      have apart : (n + j) % 16 ≠ (n + l.length) % 16 := by omega
      rw [State.putRing_other _ _ (by simp only [Key.HISTORY]; omega) (by simp only [Key.HISTORY]; omega),
        State.putRing_other _ _ (by simp only [Key.HISTORY]; omega) (by simp only [Key.HISTORY]; omega)]
      exact ⟨first, second⟩
    · rw [List.getElem?_append_right last, List.getElem?_singleton] at entry
      split at entry
      next own =>
        obtain rfl : w = e := Option.some.inj entry
        obtain rfl : j = l.length := by omega
        exact ⟨State.putRing_first _ (by omega) w, State.putRing_second _ (by omega) w⟩
      next => cases entry

end Ring

section Batch

variable {s : State} (on : s.on = true)
include on

theorem exec_histBatchWrite_none (none_ : s.faults.batch = none) : exec .histBatchWrite s = .next s := by
  refine (if_pos on).trans ?_
  rw [none_]

variable {b : Batch} (batch : s.faults.batch = some b)
include batch

theorem exec_histBatchWrite_idle (idle : b.written = true ∨ s.clk < b.clk + 3) : exec .histBatchWrite s = .next s := by
  refine (if_pos on).trans ?_
  rw [batch]
  exact congrArg _ (if_pos idle)

theorem exec_histBatchWrite_writes (fresh : b.written = false) (due : b.clk + 3 ≤ s.clk) : exec .histBatchWrite s =
    .next (((s.putBatch (s.reg Key.HIST_COUNT) b.entries).addReg Key.HIST_COUNT b.entries.length).updFaults fun f =>
      { f with batch := some { b with written := true } }).histCopy := by
  refine (if_pos on).trans ?_
  have waits : ¬ (b.written = true ∨ s.clk < b.clk + 3) := by simp [fresh, due]
  rw [batch]
  exact congrArg _ (if_neg waits)

end Batch

/-! ## Clearing of sources (R492) -/

theorem State.clearSrc_quiet {s : State} {k : Nat} (quiet : ∀ a, (s.src k).lastArr = some a → a.1 ≠ s.clk) :
    State.clearSrc k s = s.updSrc k fun r => { r with status := false, up := 0, winOpen := false, winCount := 0 } := by
  have none_ : (s.src k).lastArr.filter (fun a => a.1 = s.clk) = none := Option.filter_eq_none_iff.2 fun a ha => by simpa using quiet a ha
  rw [State.clearSrc, none_]

theorem State.clearSrc_arrived {s : State} {k : Nat} {real : Bool} (arrived : (s.src k).lastArr = some (s.clk, real)) :
    State.clearSrc k s = s.updSrc k fun r => { r with up := 0, winOpen := real, winStart := s.ct, winCount := b2n real } := by
  have own : (s.src k).lastArr.filter (fun a => a.1 = s.clk) = some (s.clk, real) := by simp [arrived]
  rw [State.clearSrc, own]

/-- The clearing of a source changes that source's record, by what its record and the clock say. -/
theorem State.clearSrc_src (s : State) (k : Nat) : ∃ f, State.clearSrc k s = s.updSrc k f ∧
    ∀ t : State, t.src k = s.src k → t.clk = s.clk → t.ct = s.ct → State.clearSrc k t = t.updSrc k f := by
  unfold State.clearSrc
  cases arr : (s.src k).lastArr.filter (fun a => a.1 = s.clk) with
  | none => exact ⟨_, rfl, fun t same clk _ => by rw [same, clk, arr]⟩
  | some a => exact ⟨_, rfl, fun t same clk ct => by rw [same, clk, arr, ct]⟩

/-- Another source's clearing leaves a source, the clock and chain time. -/
theorem State.clearSrc_other (t : State) {j k : Nat} (other : j ≠ k) :
    (State.clearSrc j t).src k = t.src k ∧ (State.clearSrc j t).clk = t.clk ∧ (State.clearSrc j t).ct = t.ct := by
  obtain ⟨f, cleared, -⟩ := t.clearSrc_src j
  rw [cleared]
  exact ⟨State.updSrc_src_ne t f other.symm, rfl, rfl⟩

/-- FAULT_CLEAR 0xFFFF clears what a single clear would. -/
theorem State.faultClear_all (s : State) {k : Nat} (hk : k < 256) :
    (s.faultClear 0xFFFF).src k = if s.clearable k = true then (State.clearSrc k s).src k else s.src k := by
  have all : s.faultClear 0xFFFF = s.forEach ((List.range 256).filter s.clearable) State.clearSrc := if_pos rfl
  rw [all]
  split
  next cleared =>
    obtain ⟨f, own, same⟩ := s.clearSrc_src k
    refine State.forEach_settles (Q := fun t => t.src k = s.src k ∧ t.clk = s.clk ∧ t.ct = s.ct) (R := fun t => t.src k = (State.clearSrc k s).src k)
      (List.nodup_range.filter _) (List.mem_filter.2 ⟨List.mem_range.2 hk, cleared⟩) (fun j other t h => ?_) (fun t h => ?_) (fun j other t h => ?_)
      ⟨rfl, rfl, rfl⟩
    · obtain ⟨src, clk, ct⟩ := t.clearSrc_other other
      exact ⟨src.trans h.1, clk.trans h.2.1, ct.trans h.2.2⟩
    · obtain ⟨src, clk, ct⟩ := h
      rw [same t src clk ct, own, State.updSrc_src_self, State.updSrc_src_self, src]
    · exact (t.clearSrc_other other).1.trans h
  next barred =>
    refine State.forEach_holds (P := fun t => t.src k = s.src k) (fun j hj t h => ?_) rfl
    have other : j ≠ k := by
      rintro rfl
      exact barred (List.mem_filter.1 hj).2
    exact (t.clearSrc_other other).1.trans h

theorem State.faultClear_one (s : State) {k : Nat} (hk : k < 256) : s.faultClear k = State.clearSrc k s := if_neg (by omega)

/-! ## Clearing of records (R481, R485) -/

section Empty

variable (s : State)

theorem State.emptyHistory_reg (k : Nat) : s.emptyHistory.reg k = (s.forEach (List.range 32) fun i s => s.setReg (Key.HISTORY i) 0).reg k := by
  rw [State.emptyHistory, State.updFaults_reg]

theorem State.emptyHistory_entry {k : Nat} (hk : k < 32) : s.emptyHistory.reg (Key.HISTORY k) = 0 := by
  rw [State.emptyHistory_reg]
  refine State.forEach_settles (Q := fun _ => True) (R := fun t => t.reg (Key.HISTORY k) = 0) List.nodup_range (List.mem_range.2 hk)
    (fun _ _ _ _ => trivial) (fun t _ => ?_) (fun j other t h => ?_) trivial
  · rw [State.setReg_history t hk]
    rfl
  · rwa [State.setReg_reg_ne _ _ (by simp only [Key.HISTORY]; omega)]

theorem State.emptyHistory_other {k : Nat} (other : ∀ i < 32, k ≠ Key.HISTORY i) : s.emptyHistory.reg k = s.reg k := by
  rw [State.emptyHistory_reg]
  exact State.forEach_holds (P := fun t => t.reg k = s.reg k)
    (fun i hi t h => by rwa [State.setReg_reg_ne _ _ (other i (List.mem_range.1 hi))]) rfl

theorem State.putFirst_valid (w : Nat × Nat) : (s.putFirst w).flag Key.FIRST_VALID = true := by
  rw [State.flag, State.putFirst, State.setReg_reg_self _ (by decide) (by decide)]
  rfl

theorem State.putFirst_words (w : Nat × Nat) : (s.putFirst w).reg (Key.FIRST_FAULT 0) = w.1 % 2 ^ 72 ∧
    (s.putFirst w).reg (Key.FIRST_FAULT 1) = w.2 % 2 ^ 72 := by
  have width : ∀ k < 2, keyWidth (Key.FIRST_FAULT k) = 72 := by decide
  constructor
  · rw [State.putFirst, State.setReg_reg_ne _ _ (by decide), State.setReg_reg_ne _ _ (by decide), State.setReg_reg_mod _ _ (by decide), width 0 (by decide)]
  · rw [State.putFirst, State.setReg_reg_ne _ _ (by decide), State.setReg_reg_mod _ _ (by decide), width 1 (by decide)]

theorem State.putFirst_other (w : Nat × Nat) {k : Nat} (other : k ∉ [Key.FIRST_VALID, Key.FIRST_FAULT 0, Key.FIRST_FAULT 1]) :
    (s.putFirst w).reg k = s.reg k := by
  simp only [List.mem_cons, List.not_mem_nil, or_false, not_or] at other
  obtain ⟨valid, first, second⟩ := other
  rw [State.putFirst, State.setReg_reg_ne _ _ valid, State.setReg_reg_ne _ _ second, State.setReg_reg_ne _ _ first]

variable {s}

theorem State.firstClear_quiet (quiet : ∀ e, s.faults.firstNow = some e → e.1 ≠ s.clk) : s.firstClear = s.setReg Key.FIRST_VALID 0 := by
  have none_ : s.faults.firstNow.filter (fun e => e.1 = s.clk) = none := Option.filter_eq_none_iff.2 fun e he => by simpa using quiet e he
  rw [State.firstClear, none_]

theorem State.firstClear_arrived {w : Nat × Nat} (arrived : s.faults.firstNow = some (s.clk, w)) : s.firstClear = s.putFirst w := by
  have own : s.faults.firstNow.filter (fun e => e.1 = s.clk) = some (s.clk, w) := by simp [arrived]
  rw [State.firstClear, own]

end Empty

end Sys2Proof.Machine

namespace Sys2Proof.Proofs

open Sys2Proof.Machine

/-- Settles O54: the entries of a batch go into the ring one behind the other (`putBatch_entry`), and what a clearing leaves of a source or a
record depends on the arrivals of its clock (`clearSrc_quiet`, `clearSrc_arrived`, `firstClear_quiet`, `firstClear_arrived`). -/
theorem historyAndClearing : Obligations.HistoryAndClearing := by
  refine ⟨fun s on => ⟨fun b batch fresh due => ⟨_, exec_histBatchWrite_writes on batch fresh due, ?_⟩,
    fun b batch idle => exec_histBatchWrite_idle on batch idle, exec_histBatchWrite_none on, fun due => (if_pos on).trans (congrArg _ (if_pos due)),
    fun due => (if_pos on).trans (congrArg _ (if_neg (by simp [due])))⟩,
    fun s => ⟨fun k hk quiet => ?_, fun k hk real arrived => ?_, fun k hk => s.faultClear_all hk, fun idle => ?_, fun busy => ?_, fun quiet => ?_,
      fun w0 w1 arrived => ?_⟩⟩
  · set n := s.reg Key.HIST_COUNT with count
    have apart : ∀ i < 32, Key.HIST_COUNT ≠ Key.HISTORY i := fun i _ => by simp only [Key.HIST_COUNT, Key.HISTORY]; omega
    obtain ⟨m, copied⟩ := (((s.putBatch n b.entries).addReg Key.HIST_COUNT b.entries.length).updFaults fun f =>
      { f with batch := some { b with written := true } }).histCopy_mgmt
    have reg (k : Nat) (other : k ≠ Key.HIST_COUNT) : ((s.putBatch n b.entries).addReg Key.HIST_COUNT b.entries.length).reg k =
        (s.putBatch n b.entries).reg k := State.addReg_reg_ne _ _ other
    obtain ⟨mem, tabs, ports⟩ := s.putBatch_rest n b.entries
    rw [copied]
    refine ⟨?_, rfl, mem, tabs, ports, fun j e entry late => ?_, fun k other ring => ?_⟩
    · rw [State.updMgmt_reg, State.updFaults_reg, State.addReg, State.setReg_reg_mod _ _ (by decide), s.putBatch_other n _ apart, count]
    · obtain ⟨first, second⟩ := s.putBatch_entry n b.entries entry late
      rw [State.updMgmt_reg, State.updMgmt_reg, State.updFaults_reg, State.updFaults_reg, reg _ (apart _ (by omega)).symm,
        reg _ (apart _ (by omega)).symm]
      exact ⟨first, second⟩
    · rw [State.updMgmt_reg, State.updFaults_reg, reg k other, s.putBatch_other n _ ring]
  · rw [s.faultClear_one hk, State.clearSrc_quiet quiet, State.srcClass, State.updSrc_src_self]
    exact ⟨rfl, rfl, rfl, rfl, fun j other => State.updSrc_src_ne s _ other, rfl⟩
  · rw [s.faultClear_one hk, State.clearSrc_arrived arrived, State.srcClass, State.updSrc_src_self]
    exact ⟨rfl, rfl, rfl, rfl⟩
  · have now : s.histClear = s.emptyHistory := if_neg (by simp [idle])
    rw [now]
    exact ⟨fun k hk => s.emptyHistory_entry hk, rfl, fun k other => s.emptyHistory_other other⟩
  · have waits : s.histClear = s.updFaults fun f => { f with clearWait := true } := if_pos busy
    rw [waits]
    exact ⟨rfl, rfl⟩
  · rw [State.firstClear_quiet quiet]
    refine ⟨?_, fun k other => State.setReg_reg_ne s _ other⟩
    rw [State.flag, State.setReg_reg_self _ (by decide) (by decide)]
    rfl
  · rw [State.firstClear_arrived arrived]
    obtain ⟨first, second⟩ := s.putFirst_words (w0, w1)
    exact ⟨s.putFirst_valid _, first, second, fun k other => s.putFirst_other _ other⟩

end Sys2Proof.Proofs
end

section
/-! Proofs about the chip reset, the power-on reset and start-up (R493, R494, R529, R543, R555-R561, R565, R567). -/

namespace Sys2Proof.Machine

/-- The filter of a map by its keys keeps the words under the keys that it keeps. -/
theorem Map.get_filter_low {α : Type} (d : Nat → α) (m : Map α) {n x : Nat} (low : x < n) :
    Map.get d (m.filter fun e => decide (e.1 < n)) x = Map.get d m x := by
  induction m with
  | nil => rfl
  | cons e m ih =>
    obtain ⟨j, a⟩ := e
    rw [List.filter_cons]
    by_cases own : j = x
    · subst own
      simp [low, Map.get]
    · split <;> simp [Map.get, own, ih]

/-! ## What a chip reset keeps (R494, R565) -/

theorem State.blank_reg (s : State) {k : Nat} (other : k ≠ Key.LIFECYCLE) : s.blank.reg k = (regDefault k).toNat := by
  rw [State.blank, State.syncLife, State.setReg_reg_ne _ _ other]
  rfl

theorem lifeOf_le (pairs : Nat) : lifeOf pairs ≤ 4 := by
  unfold lifeOf
  split <;> decide

theorem State.blank_life (s : State) : s.blank.reg Key.LIFECYCLE = lifeOf s.otp.pairs := by
  have fits : lifeOf s.otp.pairs < 2 ^ keyWidth Key.LIFECYCLE := lt_of_le_of_lt (lifeOf_le _) (by decide)
  rw [State.blank, State.syncLife, State.setReg_reg_self _ fits (by decide)]

theorem State.blank_src (s : State) (k : Nat) : s.blank.src k = {} := rfl

/-- The objects `l` are taken over from `s`. -/
def State.keepRegs (s : State) (l : List Nat) (t : State) : State := t.forEach l fun k t => t.setReg k (s.reg k)

/-- The Grave sources `l` are latched. -/
def State.latchSrcs (l : List Nat) (t : State) : State := t.forEach l fun k t => t.updSrc k fun r => { r with status := true, latched := true }

section Kept

variable (s t : State) {l : List Nat} {k : Nat}

theorem State.keepRegs_in (nodup : l.Nodup) (listed : k ∈ l) (width : keyWidth k ≤ 72) : (s.keepRegs l t).reg k = s.reg k % 2 ^ keyWidth k :=
  State.forEach_settles (Q := fun _ => True) (R := fun u => u.reg k = s.reg k % 2 ^ keyWidth k) nodup listed (fun _ _ _ _ => trivial)
    (fun u _ => State.setReg_reg_mod u _ width) (fun _ other u h => (State.setReg_reg_ne u _ other.symm).trans h) trivial

theorem State.keepRegs_out (other : k ∉ l) : (s.keepRegs l t).reg k = t.reg k :=
  State.forEach_holds (P := fun u => u.reg k = t.reg k)
    (fun _ hj u h => (State.setReg_reg_ne u _ (ne_of_mem_of_not_mem hj other).symm).trans h) rfl

variable (l) in
theorem State.keepRegs_only : ∃ regs, s.keepRegs l t = { t with regs := regs } := by
  refine State.forEach_holds (P := fun u => ∃ regs, u = { t with regs := regs }) (fun k _ u only => ?_) ⟨t.regs, rfl⟩
  obtain ⟨regs, rfl⟩ := only
  exact ⟨_, rfl⟩

theorem State.latchSrcs_in (nodup : l.Nodup) (listed : k ∈ l) : ((t.latchSrcs l).src k).latched = true ∧ ((t.latchSrcs l).src k).status = true :=
  State.forEach_settles (Q := fun _ => True) (R := fun u => (u.src k).latched = true ∧ (u.src k).status = true) nodup listed (fun _ _ _ _ => trivial)
    (fun u _ => by rw [State.updSrc_src_self]; exact ⟨rfl, rfl⟩) (fun _ other u h => by rwa [State.updSrc_src_ne _ _ other.symm]) trivial

theorem State.latchSrcs_out (other : k ∉ l) : (t.latchSrcs l).src k = t.src k :=
  State.forEach_holds (P := fun u => u.src k = t.src k)
    (fun _ hj u h => by rwa [State.updSrc_src_ne _ _ (ne_of_mem_of_not_mem hj other).symm]) rfl

variable (l) in
theorem State.latchSrcs_only : ∃ srcs, t.latchSrcs l = { t with faults := { t.faults with srcs := srcs } } := by
  refine State.forEach_holds (P := fun u => ∃ srcs, u = { t with faults := { t.faults with srcs := srcs } }) (fun k _ u only => ?_)
    ⟨t.faults.srcs, rfl⟩
  obtain ⟨srcs, rfl⟩ := only
  exact ⟨_, rfl⟩

theorem State.latchSrcs_reg (k : Nat) : (t.latchSrcs l).reg k = t.reg k := by
  obtain ⟨srcs, only⟩ := t.latchSrcs_only l
  rw [only]
  rfl

end Kept

/-- The Grave sources that are latched. -/
def State.graves (s : State) : List Nat := (List.range 256).filter fun k => (s.src k).latched

/-- The blank unit with what a chip reset keeps of the objects and of the latched sources. -/
def State.chipKept (s : State) : State :=
  if s.graves.isEmpty then (s.keepRegs keptKeys s.blank).latchSrcs s.graves
  else ((s.keepRegs keptKeys s.blank).latchSrcs s.graves).setReg Key.FIRE_INHIBIT 1

section Chip

variable (s : State)

theorem State.chipHold_eq : s.chipHold = { s.chipKept with
    faults := { s.chipKept.faults with batch := s.faults.batch, lostMark := s.faults.lostMark, lastGrave := s.faults.lastGrave }
    mem := { s.chipKept.mem with scratch := s.mem.lowBanks.scratch, scratchErr := s.mem.lowBanks.scratchErr }
    mgmt := { s.chipKept.mgmt with restartDue := some 1 }
    boot := { s.chipKept.boot with phase := .held } } := rfl

theorem State.chipHold_reg (k : Nat) : s.chipHold.reg k = s.chipKept.reg k := by rw [State.chipHold_eq]; rfl

theorem State.chipHold_src (k : Nat) : s.chipHold.src k = s.chipKept.src k := by rw [State.chipHold_eq]; rfl

theorem State.chipKept_reg {k : Nat} (other : k ≠ Key.FIRE_INHIBIT) : s.chipKept.reg k = (s.keepRegs keptKeys s.blank).reg k := by
  unfold State.chipKept
  split
  · rw [State.latchSrcs_reg]
  · rw [State.setReg_reg_ne _ _ other, State.latchSrcs_reg]

theorem State.chipKept_src (k : Nat) : s.chipKept.src k = ((s.keepRegs keptKeys s.blank).latchSrcs s.graves).src k := by
  unfold State.chipKept
  split <;> rfl

/-- Beside the objects and the sources the kept unit is the blank one. -/
theorem State.chipKept_only : ∃ regs srcs, s.chipKept = { s.blank with regs := regs, faults := { s.blank.faults with srcs := srcs } } := by
  obtain ⟨regs, kept⟩ := s.keepRegs_only s.blank keptKeys
  obtain ⟨srcs, latched⟩ := (s.keepRegs keptKeys s.blank).latchSrcs_only s.graves
  rw [kept] at latched
  unfold State.chipKept
  rw [kept, latched]
  split <;> exact ⟨_, _, rfl⟩

/-- The blocks start as a reset leaves them, and every burned or stored bit stays. -/
theorem State.chipHold_rest : s.chipHold.otp = s.otp ∧ s.chipHold.otp2 = s.otp2 ∧ s.chipHold.nor = s.nor ∧ s.chipHold.link = {} ∧
    s.chipHold.ports = [] ∧ s.chipHold.dict = {} ∧ s.chipHold.pos = {} ∧ s.chipHold.grid = {} := by
  obtain ⟨regs, srcs, only⟩ := s.chipKept_only
  rw [State.chipHold_eq, only]
  exact ⟨rfl, rfl, rfl, rfl, rfl, rfl, rfl, rfl⟩

theorem keptKeys_facts : keptKeys.Nodup ∧ (∀ k ∈ keptKeys, keyWidth k ≤ 72 ∧ k ≠ Key.FIRE_INHIBIT) ∧ Key.LIFECYCLE ∉ keptKeys ∧
    Key.FIRE_INHIBIT ∉ keptKeys := by decide

theorem State.chipHold_kept {k : Nat} (kept : k ∈ keptKeys) : s.chipHold.reg k = s.reg k % 2 ^ keyWidth k := by
  obtain ⟨nodup, facts, -⟩ := keptKeys_facts
  obtain ⟨width, other⟩ := facts k kept
  rw [State.chipHold_reg, State.chipKept_reg _ other, State.keepRegs_in _ _ nodup kept width]

theorem State.chipHold_default {k : Nat} (lost : k ∉ keptKeys) (life : k ≠ Key.LIFECYCLE) (inhibit : k ≠ Key.FIRE_INHIBIT) :
    s.chipHold.reg k = (regDefault k).toNat := by
  rw [State.chipHold_reg, State.chipKept_reg _ inhibit, State.keepRegs_out _ _ lost, State.blank_reg _ life]

theorem State.chipHold_life : s.chipHold.reg Key.LIFECYCLE = lifeOf s.otp.pairs := by
  obtain ⟨-, -, life, -⟩ := keptKeys_facts
  rw [State.chipHold_reg, State.chipKept_reg _ (by decide), State.keepRegs_out _ _ life, State.blank_life]

theorem State.chipHold_inhibit : s.chipHold.reg Key.FIRE_INHIBIT = b2n ((List.range 256).any fun k => (s.src k).latched) := by
  obtain ⟨-, -, -, inhibit⟩ := keptKeys_facts
  have some_ : (List.range 256).any (fun k => (s.src k).latched) = !s.graves.isEmpty := by
    rw [State.graves, Bool.eq_iff_iff, List.any_eq_true, Bool.not_eq_true', List.isEmpty_eq_false_iff_exists_mem]
    simp
  rw [State.chipHold_reg, some_, State.chipKept]
  split
  next none_ =>
    rw [State.latchSrcs_reg, State.keepRegs_out _ _ inhibit, State.blank_reg _ (by decide), none_]
    decide
  next graves =>
    rw [State.setReg_reg_self _ (by decide) (by decide), Bool.eq_false_iff.2 graves]
    rfl

variable {s}

theorem State.chipHold_latched {k : Nat} (hk : k < 256) (latched : (s.src k).latched = true) :
    (s.chipHold.src k).latched = true ∧ (s.chipHold.src k).status = true := by
  rw [State.chipHold_src, State.chipKept_src]
  exact State.latchSrcs_in _ (List.nodup_range.filter _) (List.mem_filter.2 ⟨List.mem_range.2 hk, latched⟩)

theorem State.chipHold_unlatched {k : Nat} (free : (s.src k).latched = false) : s.chipHold.src k = {} := by
  have other : k ∉ s.graves := fun listed => Bool.false_ne_true (free.symm.trans (List.mem_filter.1 listed).2)
  rw [State.chipHold_src, State.chipKept_src, State.latchSrcs_out _ other]
  obtain ⟨regs, only⟩ := s.keepRegs_only s.blank keptKeys
  rw [only]
  exact s.blank_src k

theorem State.chipHold_scratch {x : Nat} (low : x < 0xE0000) : s.chipHold.scratchWord x = s.scratchWord x := by
  rw [State.chipHold_eq]
  exact Map.get_filter_low _ _ low

end Chip

/-! ## Start-up (R529, R535, R557) -/

/-- From `s` to `t` sources may have been raised, and nothing else. -/
def State.RaisedOnly (s t : State) : Prop := ∃ l, t = s.updFaults fun f => { f with raised := l }

namespace State.RaisedOnly

variable {s t : State}

theorem refl (s : State) : s.RaisedOnly s := ⟨s.faults.raised, rfl⟩

theorem raise (h : s.RaisedOnly t) (k d : Nat) : s.RaisedOnly (t.raise k d) := by
  obtain ⟨l, rfl⟩ := h
  rw [State.raise_eq]
  split
  · exact ⟨_, rfl⟩
  · exact ⟨l, rfl⟩

theorem ite (h : s.RaisedOnly t) (c : Prop) [Decidable c] (k d : Nat) : s.RaisedOnly (if c then t.raise k d else t) := by
  split
  · exact h.raise k d
  · exact h

theorem updBoot (h : s.RaisedOnly t) (f : Boot → Boot) : (s.updBoot f).RaisedOnly (t.updBoot f) := by
  obtain ⟨l, rfl⟩ := h
  exact ⟨l, rfl⟩

theorem otpCompare (h : s.RaisedOnly t) : s.RaisedOnly t.otpCompare := by
  unfold State.otpCompare
  exact (((((h.ite _ _ _).ite _ _ _).ite _ _ _).ite _ _ _).ite _ _ _).ite _ _ _

end State.RaisedOnly

/-- Start-up completes half-burned pairs, shows the lifecycle they stand for, and raises what it finds. -/
theorem State.startUp_eq (s : State) : ∃ g, (∀ o : Otp, (g o).pairs = completePairs o.pairs) ∧
    ((((s.burn g).syncLife).updBoot fun x => { x with phase := .starting }).RaisedOnly s.startUp) := by
  obtain ⟨g, completes, burned⟩ : ∃ g, (∀ o : Otp, (g o).pairs = completePairs o.pairs) ∧
      (if lifeOf (completePairs s.otp.pairs) = 4 then (s.burn fun o => { o with pairs := completePairs o.pairs }).burn Otp.destroy
        else s.burn fun o => { o with pairs := completePairs o.pairs }) = s.burn g := by
    split
    · exact ⟨fun o => Otp.destroy { o with pairs := completePairs o.pairs }, fun _ => rfl, rfl⟩
    · exact ⟨_, fun _ => rfl, rfl⟩
  refine ⟨g, completes, ?_⟩
  rw [← burned]
  exact (((State.RaisedOnly.refl _).ite _ _ _).updBoot _).otpCompare

/-- What start-up leaves alone. -/
theorem State.startUp_kept (s : State) : s.startUp.boot.phase = .starting ∧ s.startUp.otp.pairs = completePairs s.otp.pairs ∧
    (∀ k, s.startUp.src k = s.src k) ∧ (∀ k, k ≠ Key.LIFECYCLE → s.startUp.reg k = s.reg k) ∧ s.startUp.mgmt = s.mgmt ∧
    s.startUp.mem = s.mem ∧ s.startUp.ports = s.ports ∧ s.startUp.nor = s.nor ∧ s.startUp.aonTime = s.aonTime := by
  obtain ⟨g, completes, l, same⟩ := s.startUp_eq
  rw [same]
  exact ⟨rfl, completes _, fun _ => rfl, fun k other => State.setReg_reg_ne (s.burn g) _ other, rfl, rfl, rfl, rfl, rfl⟩

/-! ## The commands -/

section ChipReset

variable {s u : State} (on : s.on = true) (cut : u = if s.boot.cutting then s else s.forEach (List.range s.nPorts) (State.cutPort 6 false))
include on cut

theorem exec_chipReset_cuts (armed : u.armed = true) : exec .chipReset s = .next (u.updBoot fun x => { x with cutting := true }) := by
  subst cut
  exact (if_pos on).trans (congrArg _ (if_pos armed))

theorem exec_chipReset_holds (quiet : u.armed = false) : exec .chipReset s = .next u.chipHold := by
  subst cut
  exact (if_pos on).trans (congrArg _ (if_neg (by simp [quiet])))

end ChipReset

/-- The blank unit with the island of `s`, or after the loss of VAON without it. -/
def State.powered (lost : Bool) (s : State) : State :=
  (if lost then
    let t := s.blank.updNor fun n => { n with hist := 0 }
    { t with power := { t.power with vaonAt := s.clk }, mgmt := { t.mgmt with actPending := false } }
  else s.keepIsland (s.blank.updNor fun n => { n with hist := 0 })).updMgmt fun m => { m with restartDue := some 0 }

section PowerOn

variable {s : State}

theorem exec_powerOnReset_shelf (shelf : s.boot.phase = .shelf) (off : s.power.pwrEn = false) : exec (.powerOnReset false) s = .next s :=
  congrArg _ (if_pos ⟨shelf, by simp [off], by simp⟩)

theorem exec_powerOnReset_starts {lost : Bool} (starts : s.boot.phase ≠ .shelf ∨ s.power.pwrEn = true ∨ lost = true) :
    exec (.powerOnReset lost) s = .next (s.powered lost).startUp := by
  refine congrArg _ (if_neg ?_)
  rintro ⟨shelf, off, kept⟩
  exact (starts.resolve_left (not_not.2 shelf)).elim off kept

theorem State.powered_rest (s : State) (lost : Bool) : (s.powered lost).mgmt.restartDue = some 0 ∧ (s.powered lost).otp = s.otp ∧
    (∀ k, (s.powered lost).src k = {}) ∧ (s.powered lost).mem = { gen := s.free } ∧ (s.powered lost).ports = [] ∧
    (s.powered lost).nor = { s.nor with hist := 0 } := by
  cases lost <;> exact ⟨rfl, rfl, fun _ => rfl, rfl, rfl, rfl⟩

theorem State.powered_lost (s : State) : (s.powered true).reg Key.GRAVE_PRIOR = 0xFF ∧ (s.powered true).reg Key.SHELF_COUNT = 0 ∧
    (s.powered true).mgmt.actPending = false ∧ (s.powered true).aonTime = 0 := by
  have reg (k : Nat) : (s.powered true).reg k = s.blank.reg k := rfl
  refine ⟨?_, ?_, rfl, ?_⟩
  · rw [reg, State.blank_reg _ (by decide)]
    decide
  · rw [reg, State.blank_reg _ (by decide)]
    decide
  · have since : (s.powered true).aonTime = (s.clk - s.clk) * 32768 / 500000000 := rfl
    rw [since, Nat.sub_self]

theorem State.powered_island (s : State) : (s.powered false).reg Key.GRAVE_PRIOR = s.faults.lastGrave.getD 0xFF % 256 ∧
    (s.powered false).reg Key.SHELF_COUNT = s.reg Key.SHELF_COUNT % 2 ^ keyWidth Key.SHELF_COUNT ∧
    (s.powered false).mgmt.actPending = s.mgmt.actPending := by
  have reg (k : Nat) : (s.powered false).reg k = (s.keepIsland (s.blank.updNor fun n => { n with hist := 0 })).reg k := rfl
  have width : keyWidth Key.GRAVE_PRIOR = 8 := by decide
  refine ⟨?_, ?_, rfl⟩
  · rw [reg, State.keepIsland, State.setReg_reg_mod _ _ (by decide), width]
    rfl
  · rw [reg, State.keepIsland, State.setReg_reg_ne _ _ (by decide), State.setReg_reg_mod _ _ (by decide)]

end PowerOn

section Start

variable {s : State}

theorem exec_startupComplete_ready (starting : s.boot.phase = .starting) (trained : 2 ≤ s.reg Key.BM_STATE)
    (started : s.reg Key.CALDERA_STATE = 2 ∨ s.reg Key.CALDERA_STATE = 3) :
    exec .startupComplete s = .next ((s.updBoot fun x => { x with phase := .running }).setReg Key.POWER_STATE 1) :=
  congrArg _ (if_pos (by simpa [State.startupDone, starting, trained] using started))

theorem exec_startupComplete_waits (ends : s.boot.phase ≠ .starting ∨ s.reg Key.BM_STATE < 2 ∨ s.reg Key.CALDERA_STATE < 2) :
    exec .startupComplete s = .next s := by
  refine congrArg _ (if_neg fun done => ?_)
  simp only [State.startupDone, Bool.and_eq_true, Bool.or_eq_true, beq_iff_eq, decide_eq_true_eq] at done
  obtain ⟨⟨starting, trained⟩, started⟩ := done
  have := ends.resolve_left (not_not.2 starting)
  omega

theorem exec_shelfWake_shelf (shelf : s.boot.phase = .shelf) :
    exec .shelfWake s = .next ((s.updPower fun p => { p with pwrEn := true }).setReg Key.WAKE_CAUSE 3) := congrArg _ (if_pos shelf)

theorem exec_shelfWake_entry (out : s.boot.phase ≠ .shelf) (due : s.powerDue = true) (asked : s.power.req.any (fun e => e.1 == 4) = true) :
    exec .shelfWake s = .next (s.updPower fun p => { p with woken := true }) :=
  congrArg _ ((if_neg out).trans (if_pos (by rw [due, asked]; rfl)))

theorem exec_shelfWake_idle (out : s.boot.phase ≠ .shelf) (idle : s.powerDue = false ∨ s.power.req.any (fun e => e.1 == 4) = false) :
    exec .shelfWake s = .next s := by
  refine congrArg _ ((if_neg out).trans (if_neg ?_))
  rw [Bool.and_eq_true]
  rintro ⟨due, asked⟩
  obtain h | h := idle
  · rw [h] at due
    cases due
  · rw [h] at asked
    cases asked

end Start

end Sys2Proof.Machine

namespace Sys2Proof.Proofs

open Sys2Proof.Machine

/-- Settles O56: what the chip reset keeps is put into a blank unit (`chipHold_kept`, `chipHold_default`), and start-up adds the completed pairs and
raises (`startUp_kept`). That RESET_N waits for no history record in progress, which the reset keeps, and that a power-on reset may come in any phase
are the model's choices (log 60). -/
theorem chipResetAndStartUp : Obligations.ChipResetAndStartUp := by
  refine ⟨fun s u on cut => ⟨exec_chipReset_cuts on cut, fun quiet => ⟨_, exec_chipReset_holds on cut quiet, rfl, rfl, fun k => u.chipHold_kept,
      fun k => u.chipHold_default, u.chipHold_life, fun k => State.chipHold_latched, fun k _ => State.chipHold_unlatched, u.chipHold_inhibit,
      fun x => State.chipHold_scratch, u.chipHold_rest⟩, if_pos on⟩,
    fun s => ⟨fun held => congrArg _ (if_pos held), fun out => congrArg _ (if_neg out), exec_powerOnReset_shelf,
      fun lost starts => ⟨_, exec_powerOnReset_starts starts, ?_⟩, fun starting => congrArg _ (if_pos starting),
      fun out => ⟨congrArg _ (if_neg out), exec_startupComplete_waits (.inl out)⟩, exec_startupComplete_ready,
      fun _ waits => exec_startupComplete_waits (.inr waits), exec_shelfWake_shelf, exec_shelfWake_entry, exec_shelfWake_idle⟩⟩
  · obtain ⟨phase, pairs, src, reg, mgmt, mem, ports, nor, aon⟩ := (s.powered lost).startUp_kept
    obtain ⟨due, otp, blank, memory, none_, flash⟩ := s.powered_rest lost
    rw [phase, pairs, mgmt, mem, ports, nor, aon, reg _ (by decide), reg _ (by decide), due, otp, memory, none_, flash]
    refine ⟨rfl, rfl, rfl, fun k => ?_, fun kept => ?_, fun gone => ?_, rfl, rfl, rfl, rfl, rfl⟩
    · rw [src, blank]
      exact ⟨rfl, rfl⟩
    · subst kept
      exact s.powered_island
    · subst gone
      exact s.powered_lost

end Sys2Proof.Proofs
end

section
/-! Proofs about what the reactions of a clock leave of the Collector's own records (R307, R480-R488). -/

namespace Sys2Proof.Machine

/-- The objects of the first-fault record, of the injection that is pending, and of the lost entries. -/
def recordKeys : List Nat := [Key.FIRST_VALID, Key.FIRST_FAULT 0, Key.FIRST_FAULT 1, Key.INJ_PENDING, Key.HIST_LOST]

/-- From `s` to `t` the records of the Collector stand, and no source's STATUS was cleared. -/
structure State.RecordKept (s t : State) : Prop where
  reg : ∀ k ∈ recordKeys, t.reg k = s.reg k
  batch : t.faults.batch = s.faults.batch
  lostMark : t.faults.lostMark = s.faults.lostMark
  injAt : t.faults.injAt = s.faults.injAt
  status : ∀ k, (s.src k).status = true → (t.src k).status = true

theorem State.RecordKept.trans {s t u : State} (h : s.RecordKept t) (g : t.RecordKept u) : s.RecordKept u where
  reg k record := (g.reg k record).trans (h.reg k record)
  batch := g.batch.trans h.batch
  lostMark := g.lostMark.trans h.lostMark
  injAt := g.injAt.trans h.injAt
  status k up := g.status k (h.status k up)

/-- From `s` to `t` the records stand, and the arrivals whose reactions wait for the end of the clock as well. -/
structure State.CutKept (s t : State) : Prop extends s.RecordKept t where
  now : t.faults.now = s.faults.now

namespace State.CutKept

variable {s t u : State}

theorem same (regs : t.regs = s.regs) (faults : t.faults = s.faults) : s.CutKept t where
  reg k _ := by rw [State.reg, State.reg, regs]
  batch := by rw [faults]
  lostMark := by rw [faults]
  injAt := by rw [faults]
  status k up := by rw [State.src, faults]; exact up
  now := by rw [faults]

theorem refl (s : State) : s.CutKept s := same rfl rfl

theorem trans (h : s.CutKept t) (g : t.CutKept u) : s.CutKept u := ⟨h.toRecordKept.trans g.toRecordKept, g.now.trans h.now⟩

theorem ite {c : Prop} {_ : Decidable c} (ht : s.CutKept t) (hu : s.CutKept u) : s.CutKept (if c then t else u) := by
  split
  · exact ht
  · exact hu

theorem forEach {f : Nat → State → State} (hf : ∀ i t, State.CutKept t (f i t)) (l : List Nat) (s : State) : s.CutKept (s.forEach l f) :=
  State.forEach_holds (P := s.CutKept) (fun i _ t kept => kept.trans (hf i t)) (refl s)

theorem setReg (s : State) {k : Nat} (v : Nat) (other : k ∉ recordKeys) : s.CutKept (s.setReg k v) :=
  ⟨⟨fun _ record => State.setReg_reg_ne s v (ne_of_mem_of_not_mem record other), rfl, rfl, rfl, fun _ up => up⟩, rfl⟩

theorem addReg (s : State) {k : Nat} (n : Nat) (other : k ∉ recordKeys) : s.CutKept (s.addReg k n) := setReg s _ other

theorem updSrc (s : State) (k : Nat) {f : Src → Src} (up : ∀ r, r.status = true → (f r).status = true) : s.CutKept (s.updSrc k f) := by
  refine ⟨⟨fun _ _ => rfl, rfl, rfl, rfl, fun j was => ?_⟩, rfl⟩
  rw [State.updSrc_src]
  split
  next own => exact up _ (own ▸ was)
  next => exact was

theorem raise (s : State) (k d : Nat) : s.CutKept (s.raise k d) := by
  rw [State.raise_eq]
  exact ite ⟨⟨fun _ _ => rfl, rfl, rfl, rfl, fun _ up => up⟩, rfl⟩ (refl s)

theorem cause (s : State) (k i : Nat) (on : Bool) (d : Nat) : s.CutKept (s.cause k i on d) :=
  ite (ite (refl s) ((updSrc s k (by exact fun _ up => up)).trans (raise _ k d))) (updSrc s k fun _ up => up)

/-! ## The windows of the Delay Store (R230-R234) -/

theorem updPlane (s : State) (q : Nat) (f : Plane → Plane) : s.CutKept (s.updPlane q f) := same rfl rfl

theorem freeBelow (s : State) (q e : Nat) : s.CutKept (s.freeBelow q e) :=
  (same rfl rfl : s.CutKept (s.updIngress _)).trans (addReg _ _ (by decide))

theorem setBottom (s : State) (q b : Nat) (afresh : Bool) : s.CutKept (s.setBottom q b afresh) := (updPlane s q _).trans (freeBelow _ q b)

theorem windowPlane (start : Bool) (q : Nat) (s : State) : s.CutKept (s.windowPlane start q) := by
  unfold State.windowPlane
  dsimp only
  split
  · exact (ite (setBottom s q _ true) ((updPlane s q _).trans (freeBelow _ q _))).trans (updPlane _ q _)
  · exact (ite (setBottom s q _ true) (ite (setBottom s q _ false) (refl s))).trans (updPlane _ q _)

theorem judgeShallow (handed : Bool) (q : Nat) (s : State) : s.CutKept (s.judgeShallow handed q) := ite (refl s) (cause s _ _ _ _)

theorem windows (s : State) (start : Bool) : s.CutKept (s.windows start) :=
  (ite (forEach (fun q t => updPlane t q _) _ s) (ite (forEach (fun q t => updPlane t q _) _ s) (forEach (windowPlane start) _ s))).trans
    (forEach (judgeShallow false) _ _)

/-! ## Cuts (R307-R310) -/

theorem updPort (s : State) (p : Nat) (f : Port → Port) : s.CutKept (s.updPort p f) := same rfl rfl

theorem recordStop (s : State) (p cause : Nat) (cut partial_ : Bool) (ct : Nat) : s.CutKept (s.recordStop p cause cut partial_ ct) := by
  have stop : Key.STOP_CAUSE p ∉ recordKeys ∧ Key.STOP_CT p ∉ recordKeys ∧ Key.STOP_LINE p ∉ recordKeys ∧ Key.STOP_POS p ∉ recordKeys := by
    simp only [recordKeys, List.mem_cons, List.not_mem_nil, or_false, Key.STOP_CAUSE, Key.STOP_CT, Key.STOP_LINE, Key.STOP_POS, Key.FIRST_VALID,
      Key.FIRST_FAULT, Key.INJ_PENDING, Key.HIST_LOST]
    omega
  obtain ⟨why, when_, line, pos⟩ := stop
  unfold State.recordStop
  dsimp only
  have stopped := (setReg s (b2n partial_ * 128 + b2n cut * 64 + cause) why).trans (setReg _ ct when_)
  split
  · exact stopped
  · exact (stopped.trans (setReg _ _ line)).trans (setReg _ _ pos)

theorem portDisarmed (s : State) (p : Nat) : s.CutKept (s.portDisarmed p) := ((updPort s p _).trans (cause _ _ _ _ _)).trans (windows _ false)

theorem endPort (p : Nat) (s : State) : s.CutKept (s.endPort p) := ite ((updPort s p _).trans (updPort _ p _)) (refl s)

theorem rampPort (s : State) (p t8 : Nat) : s.CutKept (s.rampPort p t8) := updPort s p _

theorem cutPort (cause : Nat) (hold : Bool) (p : Nat) (s : State) : s.CutKept (s.cutPort cause hold p) := by
  have stops (part : Bool) := recordStop s p cause true part s.ct
  unfold State.cutPort
  dsimp only
  split
  · exact ite (rampPort s p _) (refl s)
  · exact refl s
  · exact ite (refl s) (ite (updPort s p _) (portDisarmed s p))
  · refine ite ((stops _).trans (ite (updPort _ p _) (ite (updPort _ p _) (portDisarmed _ p)))) (ite ?_ (endPort p s))
    exact ((stops _).trans (rampPort _ p _)).trans (updPort _ p _)
  · exact ((stops _).trans (rampPort _ p _)).trans (updPort _ p _)

theorem fireInhibit (s : State) : s.CutKept s.fireInhibit := (setReg s 1 (by decide)).trans (forEach (cutPort 6 false) _ _)

/-! ## Reactions (R488) -/

theorem updFaults (s : State) {f : Faults → Faults} (srcs : (f s.faults).srcs = s.faults.srcs) (batch : (f s.faults).batch = s.faults.batch)
    (lostMark : (f s.faults).lostMark = s.faults.lostMark) (injAt : (f s.faults).injAt = s.faults.injAt) (now : (f s.faults).now = s.faults.now) :
    s.CutKept (s.updFaults f) :=
  ⟨⟨fun _ _ => rfl, batch, lostMark, injAt, fun k up => by rw [State.src, State.updFaults_faults, srcs]; exact up⟩, now⟩

theorem issue (s : State) (e : Nat × Bool) : s.CutKept (s.issue e) := by
  unfold State.issue
  extract_lets k r up tell s1
  have told (b nmi : Bool) (t : State) : t.CutKept (tell b nmi t) := ite (same rfl rfl) (refl t)
  have queued : s.CutKept s1 := ((told _ false s).trans (told _ true _)).trans (updFaults _ rfl rfl rfl rfl rfl)
  exact ite (queued.trans (fireInhibit s1)) queued

end State.CutKept

/-- The reactions of a clock leave the records, and none waits any longer. -/
theorem State.reactionsNow_kept (s : State) : s.RecordKept s.reactionsNow ∧ s.reactionsNow.faults.now = [] := by
  unfold State.reactionsNow
  split
  next none_ => exact ⟨(State.CutKept.refl s).toRecordKept, List.isEmpty_iff.1 none_⟩
  next =>
    have taken : s.RecordKept (s.updFaults fun f => { f with now := [] }) := ⟨fun _ _ => rfl, rfl, rfl, rfl, fun _ up => up⟩
    have issued := List.foldlRecOn (motive := (s.updFaults fun f => { f with now := [] }).CutKept) s.faults.now State.issue (.refl _)
      fun t kept e _ => kept.trans (.issue t e)
    exact ⟨taken.trans issued.toRecordKept, issued.now⟩

end Sys2Proof.Machine
end

section
/-! Proofs about the arrivals of a cycle: they merge by source, escalate, are recorded, and set STATUS (R478-R488, R495). -/

namespace Sys2Proof.Machine

/-! ## Raises of one source merge (R478, R498) -/

/-- The raises of a cycle, one arrival a source. -/
def arrivalsOf (l : List Raise) : List Arrival := l.foldl (fun a r => mergeRaise r a) []

theorem mergeRaise_srcs (r : Raise) (l : List Arrival) : (mergeRaise r l).map Arrival.src =
    if r.src ∈ l.map Arrival.src then l.map Arrival.src else l.map Arrival.src ++ [r.src] := by
  induction l with
  | nil => rfl
  | cons a l ih =>
    unfold mergeRaise
    by_cases own : a.src = r.src
    · simp [own]
    · rw [if_neg own, List.map_cons, ih]
      by_cases later : r.src ∈ l.map Arrival.src <;> simp [later, Ne.symm own]

/-- Each source that is raised has one arrival. -/
theorem arrivalsOf_srcs (l : List Raise) : ((arrivalsOf l).map Arrival.src).Nodup ∧
    ∀ k, k ∈ (arrivalsOf l).map Arrival.src ↔ k ∈ l.map Raise.src := by
  induction l using List.reverseRecOn with
  | nil => exact ⟨List.nodup_nil, fun k => Iff.rfl⟩
  | append_singleton l r ih =>
    obtain ⟨nodup, mem⟩ := ih
    have last : arrivalsOf (l ++ [r]) = mergeRaise r (arrivalsOf l) := by simp [arrivalsOf]
    rw [last, mergeRaise_srcs]
    split
    next known =>
      refine ⟨nodup, fun k => ?_⟩
      rw [mem, List.map_append, List.mem_append, List.map_singleton, List.mem_singleton]
      refine ⟨.inl, fun raised => raised.elim id fun own => ?_⟩
      rw [own]
      exact (mem _).1 known
    next new =>
      refine ⟨List.nodup_append.2 ⟨nodup, List.nodup_singleton _, fun a ha b hb => ?_⟩, fun k => by simp [mem]⟩
      rintro rfl
      exact new (List.mem_singleton.1 hb ▸ ha)

theorem arrivalsOf_length (l : List Raise) : (arrivalsOf l).length = (l.map Raise.src).dedup.length := by
  obtain ⟨nodup, mem⟩ := arrivalsOf_srcs l
  have perm : ((arrivalsOf l).map Arrival.src).Perm (l.map Raise.src).dedup :=
    (List.perm_ext_iff_of_nodup nodup (List.nodup_dedup _)).2 fun k => by rw [mem, List.mem_dedup]
  rw [← perm.length_eq, List.length_map]

/-! ## Escalation and collection order (R479, R486) -/

/-- From `s` to `t` only records of sources have changed, and no STATUS of them. -/
def State.SrcsOnly (s t : State) : Prop :=
  (∃ srcs, t = { s with faults := { s.faults with srcs := srcs } }) ∧ ∀ k, (s.src k).status = true → (t.src k).status = true

theorem State.SrcsOnly.refl (s : State) : s.SrcsOnly s := ⟨⟨s.faults.srcs, rfl⟩, fun _ up => up⟩

theorem State.SrcsOnly.updSrc {s t : State} (h : s.SrcsOnly t) (k : Nat) {f : Src → Src} (up : ∀ r, r.status = true → (f r).status = true) :
    s.SrcsOnly (t.updSrc k f) := by
  obtain ⟨only, status⟩ := h
  refine ⟨?_, fun j was => ((State.CutKept.updSrc t k up).status j (status j was))⟩
  obtain ⟨srcs, rfl⟩ := only
  exact ⟨_, rfl⟩

theorem State.SrcsOnly.escalate {s t : State} (h : s.SrcsOnly t) (k : Nat) : s.SrcsOnly (t.escalate k).1 := by
  unfold State.escalate
  extract_lets cfg n r
  split
  · exact h
  split
  · exact h.updSrc k fun _ up => up
  · exact h.updSrc k fun _ up => up

/-- Escalation changes the records of the sources, and keeps the arrivals and their order. -/
theorem State.escalateAll_kept (s : State) (l : List Arrival) :
    s.SrcsOnly (s.escalateAll l).1 ∧ (s.escalateAll l).2.map Arrival.src = l.map Arrival.src := by
  induction l using List.reverseRecOn with
  | nil => exact ⟨.refl s, rfl⟩
  | append_singleton l x ih =>
    obtain ⟨only, srcs⟩ := ih
    unfold State.escalateAll at only srcs ⊢
    rw [List.foldl_append]
    generalize l.foldl _ (s, []) = a at only srcs
    have judged : s.SrcsOnly (if a.1.arrivalCounts x then a.1.escalate x.src else (a.1, false)).1 := by
      split
      · exact only.escalate x.src
      · exact only
    refine ⟨judged.updSrc x.src fun _ up => up, ?_⟩
    simp [srcs]

theorem collect_perm (l : List Arrival) : (collect l).Perm l := List.perm_insertionSort _ l

/-! ## Recording (R481-R483) -/

/-- The first arrival becomes FIRST where none is kept. -/
theorem State.first_eq (s : State) (a : Arrival) : ∃ u, (∃ now, u = s.updFaults fun f => { f with firstNow := now }) ∧
    s.first a = if s.flag Key.FIRST_VALID then u else u.putFirst (s.entryWords a false) := by
  refine ⟨_, ?_, rfl⟩
  split
  · exact ⟨s.faults.firstNow, rfl⟩
  · exact ⟨_, rfl⟩

/-- Word 0 of an entry is a word (R484). -/
theorem fld_entry_lt (t k : Nat) : fld t 64 8 + fld k 8 0 < 2 ^ 72 := by
  have time : t % 2 ^ 64 < 2 ^ 64 := Nat.mod_lt _ (by norm_num)
  have source : k % 2 ^ 8 < 2 ^ 8 := Nat.mod_lt _ (by norm_num)
  calc fld t 64 8 + fld k 8 0 = t % 2 ^ 64 * 2 ^ 8 + k % 2 ^ 8 := by rw [fld, fld, pow_zero, mul_one]
    _ < 2 ^ 72 := by omega

theorem State.setReg_only (s : State) (k v : Nat) : ∃ regs, s.setReg k v = { s with regs := regs } := ⟨_, rfl⟩

theorem State.putFirst_only (s : State) (w : Nat × Nat) : ∃ regs, s.putFirst w = { s with regs := regs } := by
  unfold State.putFirst
  obtain ⟨first, one⟩ := s.setReg_only (Key.FIRST_FAULT 0) w.1
  rw [one]
  obtain ⟨second, two⟩ := State.setReg_only { s with regs := first } (Key.FIRST_FAULT 1) w.2
  rw [two]
  exact State.setReg_only { s with regs := second } Key.FIRST_VALID 1

section First

variable (s : State) (a : Arrival)

theorem State.first_valid : (s.first a).flag Key.FIRST_VALID = true := by
  obtain ⟨u, ⟨now, rfl⟩, first⟩ := s.first_eq a
  rw [first]
  split
  next valid => exact valid
  next => exact State.putFirst_valid _ _

variable {s} in
theorem State.first_later (valid : s.flag Key.FIRST_VALID = true) (k : Nat) : (s.first a).reg k = s.reg k := by
  obtain ⟨u, ⟨now, rfl⟩, first⟩ := s.first_eq a
  rw [first, if_pos valid]
  rfl

variable {s} in
theorem State.first_new (fresh : s.flag Key.FIRST_VALID = false) :
    (s.first a).reg (Key.FIRST_FAULT 0) = fld s.ct 64 8 + fld a.src 8 0 := by
  obtain ⟨u, ⟨now, rfl⟩, first⟩ := s.first_eq a
  obtain ⟨word, -⟩ := State.putFirst_words (s.updFaults fun f => { f with firstNow := now }) (s.entryWords a false)
  rw [first, if_neg (by simp [fresh]), word, State.entryWords, Nat.mod_eq_of_lt (fld_entry_lt s.ct a.src)]

/-- Beside the first-fault record the first arrival changes no object and, of the Collector, only its note of it. -/
theorem State.first_kept : (∀ k, k ∉ [Key.FIRST_VALID, Key.FIRST_FAULT 0, Key.FIRST_FAULT 1] → (s.first a).reg k = s.reg k) ∧
    ∃ regs now, s.first a = { s with regs := regs, faults := { s.faults with firstNow := now } } := by
  obtain ⟨u, ⟨now, rfl⟩, first⟩ := s.first_eq a
  rw [first]
  split
  · exact ⟨fun _ _ => rfl, s.regs, now, rfl⟩
  · refine ⟨fun k other => State.putFirst_other _ _ other, ?_⟩
    obtain ⟨regs, only⟩ := State.putFirst_only (s.updFaults fun f => { f with firstNow := now }) (s.entryWords a false)
    exact ⟨regs, now, only⟩

end First

section Record

variable {s : State} (l : List Arrival)

theorem State.record_late (late : s.batchLate = true) :
    s.record l = (s.addReg Key.HIST_LOST l.length).updFaults fun f => { f with lostMark := true } := if_pos late

/-- What a batch of this very clock holds already (log 52). -/
def State.batchBefore (s : State) : List (Nat × Nat) := ((s.faults.batch.filter fun b => b.clk = s.clk).map Batch.entries).getD []

theorem State.record_batch (free : s.batchLate = false) : ∃ es, es.length = l.length ∧
    s.record l = s.updFaults fun f => { f with batch := some ⟨s.clk, s.batchBefore ++ es, false⟩, lostMark := false } :=
  ⟨_, by rw [List.length_map, List.length_zipIdx], if_neg (by simp [free])⟩

variable (s) in
/-- Recording changes no object but the count of lost entries, and of the Collector only the batch and its mark. -/
theorem State.record_kept : (∀ k, k ≠ Key.HIST_LOST → (s.record l).reg k = s.reg k) ∧
    ∃ regs batch mark, s.record l = { s with regs := regs, faults := { s.faults with batch := batch, lostMark := mark } } := by
  by_cases late : s.batchLate = true
  · rw [State.record_late l late]
    exact ⟨fun k other => State.addReg_reg_ne s _ other, _, s.faults.batch, true, rfl⟩
  · obtain ⟨es, -, batch⟩ := State.record_batch (s := s) l (Bool.eq_false_iff.2 late)
    rw [batch]
    exact ⟨fun _ _ => rfl, s.regs, _, false, rfl⟩

end Record

/-! ## STATUS, counts and events (R480) -/

/-- From `s` to `t` arrivals were told, and the reactions of `l` wait for the end of the clock. -/
def State.Told (s : State) (l : List (Nat × Bool)) (t : State) : Prop :=
  s.RecordKept t ∧ ∃ regs trace link srcs grave, t = { s with
    regs := regs, trace := trace, link := link, faults := { s.faults with srcs := srcs, lastGrave := grave, now := s.faults.now ++ l } }

namespace State.Told

variable {s t u : State} {l m : List (Nat × Bool)}

theorem kept (h : s.Told l t) : s.RecordKept t := h.1

theorem refl (s : State) : s.Told [] s := by
  refine ⟨(CutKept.refl s).toRecordKept, s.regs, s.trace, s.link, s.faults.srcs, s.faults.lastGrave, ?_⟩
  rw [List.append_nil]

theorem trans (h : s.Told l t) (g : t.Told m u) : s.Told (l ++ m) u := by
  obtain ⟨kept, regs, trace, link, srcs, grave, rfl⟩ := h
  obtain ⟨kept', regs', trace', link', srcs', grave', rfl⟩ := g
  exact ⟨kept.trans kept', regs', trace', link', srcs', grave', by rw [← List.append_assoc]⟩

theorem ite {c : Prop} {_ : Decidable c} (ht : s.Told l t) (hu : s.Told l u) : s.Told l (if c then t else u) := by
  split
  · exact ht
  · exact hu

end State.Told

section React

variable {s t : State} {l : List (Nat × Bool)}

theorem State.Told.same (regs : t.regs = s.regs) (faults : t.faults = s.faults) (only : ∃ trace link, t = { s with trace := trace, link := link }) :
    s.Told [] t := by
  refine ⟨(CutKept.same regs faults).toRecordKept, ?_⟩
  obtain ⟨trace, link, rfl⟩ := only
  exact ⟨s.regs, trace, link, s.faults.srcs, s.faults.lastGrave, by rw [List.append_nil]⟩

theorem State.Told.addReg (s : State) {k : Nat} (n : Nat) (other : k ∉ recordKeys) : s.Told [] (s.addReg k n) :=
  ⟨(CutKept.addReg s n other).toRecordKept, _, s.trace, s.link, s.faults.srcs, s.faults.lastGrave, by rw [List.append_nil]; rfl⟩

theorem State.Told.updSrc (s : State) (k : Nat) {f : Src → Src} (up : ∀ r, r.status = true → (f r).status = true) : s.Told [] (s.updSrc k f) :=
  ⟨(CutKept.updSrc s k up).toRecordKept, s.regs, s.trace, s.link, _, s.faults.lastGrave, by rw [List.append_nil]; rfl⟩

theorem State.Told.grave (s : State) (k : Nat) : s.Told [] (s.updFaults fun f => { f with lastGrave := some k }) :=
  ⟨⟨fun _ _ => rfl, rfl, rfl, rfl, fun _ up => up⟩, s.regs, s.trace, s.link, s.faults.srcs, _, by rw [List.append_nil]; rfl⟩

theorem State.Told.waits (s : State) (e : Nat × Bool) : s.Told [e] (s.updFaults fun f => { f with now := f.now ++ [e] }) :=
  ⟨⟨fun _ _ => rfl, rfl, rfl, rfl, fun _ up => up⟩, s.regs, s.trace, s.link, s.faults.srcs, s.faults.lastGrave, rfl⟩

theorem State.Told.pmc (s : State) (ev q n : Nat) : s.Told [] (s.pmc ev q n) := by
  have kept := State.BookKept.pmc s ev q n
  have apart : ∀ k ∈ recordKeys, k ∉ bookKeys := by decide
  refine ⟨⟨fun k record => kept.reg k (apart k record), ?_, ?_, ?_, fun k up => ?_⟩, ?_⟩
  · rw [kept.faults]
  · rw [kept.faults]
  · rw [kept.faults]
  · rw [State.src, kept.faults]
    exact up
  · obtain ⟨regs, only⟩ := s.pmc_eq ev q n
    exact ⟨regs, s.trace, s.link, s.faults.srcs, s.faults.lastGrave, by rw [List.append_nil]; exact only⟩

theorem State.Told.traceRec (s : State) (kind data : Nat) : s.Told [] (s.traceRec kind data) := by
  obtain ⟨trace, only⟩ := s.traceRec_eq kind data
  rw [only]
  exact .same rfl rfl ⟨trace, s.link, rfl⟩

theorem State.Told.event (s : State) (cls code arg : Nat) : s.Told [] (s.event cls code arg) := by
  unfold State.event
  dsimp only
  split
  · exact .same rfl rfl ⟨s.trace, _, rfl⟩
  · exact (addReg s 1 (by decide : Key.EVENT_LOST ∉ recordKeys)).trans (.same rfl rfl ⟨_, _, rfl⟩)

end React

/-- An arrival sets STATUS of its source, and its reactions wait. -/
theorem State.react_told (s : State) (hlost : Bool) (a : Arrival) :
    s.Told [(a.src, a.real)] (s.react hlost a) ∧ ((s.react hlost a).src a.src).status = true := by
  unfold State.react
  extract_lets k s1 s2 s3 s4 s5
  have counter : 0x2A1200 + k ∉ recordKeys := by
    simp only [recordKeys, List.mem_cons, List.not_mem_nil, or_false, Key.FIRST_VALID, Key.FIRST_FAULT, Key.INJ_PENDING, Key.HIST_LOST]
    omega
  have status : s.Told [] (s.updSrc k fun r => { r with status := true, latched := r.latched || srcBase k == 3 }) := .updSrc s k fun _ _ => rfl
  have up : ((s.updSrc k fun r => { r with status := true, latched := r.latched || srcBase k == 3 }).src k).status = true := by
    rw [State.updSrc_src_self]
  have counted : State.Told (s.updSrc k fun r => { r with status := true, latched := r.latched || srcBase k == 3 }) [] s1 := .addReg _ 1 counter
  have injected : s1.Told [] s2 := .ite (.addReg s1 1 (by decide)) (.refl s1)
  have grave : s2.Told [] s3 := .ite (.grave s2 k) (.refl s2)
  have waits : s3.Told [(k, a.real)] s4 := .waits s3 _
  have booked : s4.Told [] s5 := (State.Told.pmc s4 _ _ _).trans (.traceRec _ _ _)
  have rest := (((counted.trans injected).trans grave).trans waits).trans booked
  have sent (cls code arg : Nat) : s5.Told [] (s5.event cls code arg) := .event s5 _ _ _
  have all (t : State) (last : s5.Told [] t) : s.Told [(k, a.real)] t ∧ (t.src k).status = true :=
    ⟨(status.trans rest).trans last, (rest.trans last).kept.status k up⟩
  split
  · exact all _ (sent _ _ _)
  · exact all _ (.refl s5)

/-- All arrivals of a cycle: each source has its STATUS. -/
theorem State.reacts_told (hlost : Bool) (o : List Arrival) (s : State) :
    s.Told (o.map fun a => (a.src, a.real)) (o.foldl (fun s a => s.react hlost a) s) ∧
      ∀ a ∈ o, ((o.foldl (fun s a => s.react hlost a) s).src a.src).status = true := by
  induction o generalizing s with
  | nil => exact ⟨.refl s, by simp⟩
  | cons a o ih =>
    obtain ⟨told, up⟩ := s.react_told hlost a
    obtain ⟨rest, all⟩ := ih (s.react hlost a)
    rw [List.foldl_cons, List.map_cons]
    refine ⟨told.trans rest, fun b hb => ?_⟩
    obtain rfl | later := List.mem_cons.1 hb
    · exact rest.kept.status _ up
    · exact all b later

/-! ## The command -/

/-- An injection that was pending is used. -/
def State.injectionUsed (s : State) (l : List Raise) : State :=
  if l.any Raise.inj then (s.setReg Key.INJ_PENDING 0xFF).updFaults fun f => { f with injAt := none } else s

/-- The arrivals of a cycle are escalated, and the first of them in collection order is kept. -/
def State.arrived (s : State) (l : List Raise) : State × List Arrival :=
  let e := ((s.updFaults fun f => { f with raised := [] }).injectionUsed l).escalateAll (arrivalsOf l)
  (e.1, collect e.2)

theorem exec_faultArrival_none {s : State} (on : s.on = true) {rs : List RaiseIn}
    (none_ : s.standing (s.faults.raised ++ rs.map fun r => ⟨r.src.val, r.detail.toNat, r.inj⟩) = []) :
    exec (.faultArrival rs) s = .next (s.updFaults fun f => { f with raised := [] }) :=
  (if_pos on).trans (congrArg _ (if_pos (by rw [none_]; rfl)))

/-- The arrivals are recorded in collection order, and each is told. -/
def State.collected (s : State) (l : List Raise) : State :=
  let e := s.arrived l
  e.2.foldl (fun t a => t.react e.1.batchLate a) ((match e.2.head? with
    | none => e.1
    | some a => e.1.first a).record e.2)

theorem State.collected_cons {s e : State} {l : List Raise} {a : Arrival} {o : List Arrival} (arrived : s.arrived l = (e, a :: o)) :
    s.collected l = (a :: o).foldl (fun t a => t.react e.batchLate a) ((e.first a).record (a :: o)) := by
  rw [State.collected, arrived]
  rfl

/-- Where no command waits on the clock, the reactions come at once. -/
theorem exec_faultArrival_some {s : State} (on : s.on = true) {rs : List RaiseIn} {l : List Raise}
    (stands : l = s.standing (s.faults.raised ++ rs.map fun r => ⟨r.src.val, r.detail.toNat, r.inj⟩)) (some_ : l ≠ []) :
    exec (.faultArrival rs) s = .next (if (s.collected l).pending.isEmpty then (s.collected l).reactionsNow else s.collected l) := by
  subst stands
  exact (if_pos on).trans (congrArg _ (if_neg (by simpa using some_)))

end Sys2Proof.Machine
end

section
/-! Proofs about the collection of a cycle's arrivals: what becomes of the records of the Collector (R478-R488, R495). -/

namespace Sys2Proof.Machine

/-! ## The arrivals of a cycle -/

/-- From `s` to `t` the raises were taken, and nothing has changed but objects and the records of the Collector. -/
def State.CollectOnly (s t : State) : Prop := ∃ regs srcs batch mark injAt firstNow, t = { s with
  regs := regs, faults := { s.faults with
    raised := [], srcs := srcs, batch := batch, lostMark := mark, injAt := injAt, firstNow := firstNow } }

/-- The state in which the arrivals of `l` are recorded: injections are used and sources escalated. -/
structure State.Escalated (s : State) (l : List Raise) (e : State) : Prop where
  only : ∃ regs srcs injAt, e = { s with regs := regs, faults := { s.faults with raised := [], srcs := srcs, injAt := injAt } }
  reg : ∀ k, k ≠ Key.INJ_PENDING → e.reg k = s.reg k
  used : l.any Raise.inj = true → e.reg Key.INJ_PENDING = 0xFF ∧ e.faults.injAt = none

theorem State.injectionUsed_escalated (s : State) (l : List Raise) :
    s.Escalated l ((s.updFaults fun f => { f with raised := [] }).injectionUsed l) := by
  unfold State.injectionUsed
  split
  next =>
    obtain ⟨regs, set_⟩ := (s.updFaults fun f => { f with raised := [] }).setReg_only Key.INJ_PENDING 0xFF
    have value : ((s.updFaults fun f => { f with raised := [] }).setReg Key.INJ_PENDING 0xFF).reg Key.INJ_PENDING = 0xFF :=
      State.setReg_reg_self _ (by decide) (by decide)
    have other (k : Nat) (hk : k ≠ Key.INJ_PENDING) : ((s.updFaults fun f => { f with raised := [] }).setReg Key.INJ_PENDING 0xFF).reg k = s.reg k :=
      State.setReg_reg_ne _ _ hk
    rw [set_] at value other ⊢
    exact ⟨⟨regs, s.faults.srcs, none, rfl⟩, other, fun _ => ⟨value, rfl⟩⟩
  next none_ => exact ⟨⟨s.regs, s.faults.srcs, s.faults.injAt, rfl⟩, fun _ _ => rfl, fun inj => absurd inj none_⟩

theorem State.Escalated.srcs {s e u : State} {l : List Raise} (h : s.Escalated l e) (only : ∃ srcs, u = { e with faults := { e.faults with srcs := srcs } }) :
    s.Escalated l u := by
  obtain ⟨⟨regs, _, injAt, rfl⟩, reg, used⟩ := h
  obtain ⟨srcs, rfl⟩ := only
  exact ⟨⟨regs, srcs, injAt, rfl⟩, reg, used⟩

/-- There is an arrival for each source that is raised, and for no other. -/
theorem State.arrived_cons (s : State) {l : List Raise} (some_ : l ≠ []) : ∃ e a o, s.arrived l = (e, a :: o) ∧ s.Escalated l e ∧
    (a :: o).length = (l.map Raise.src).dedup.length ∧ ∀ k, k ∈ (a :: o).map Arrival.src ↔ k ∈ l.map Raise.src := by
  obtain ⟨only, srcs⟩ := ((s.updFaults fun f => { f with raised := [] }).injectionUsed l).escalateAll_kept (arrivalsOf l)
  have escalated := (s.injectionUsed_escalated l).srcs only.1
  have perm := ((collect_perm (((s.updFaults fun f => { f with raised := [] }).injectionUsed l).escalateAll (arrivalsOf l)).2).map Arrival.src)
  rw [srcs] at perm
  have order : collect (((s.updFaults fun f => { f with raised := [] }).injectionUsed l).escalateAll (arrivalsOf l)).2 = (s.arrived l).2 := rfl
  have state : (((s.updFaults fun f => { f with raised := [] }).injectionUsed l).escalateAll (arrivalsOf l)).1 = (s.arrived l).1 := rfl
  rw [order] at perm
  rw [state] at escalated
  generalize s.arrived l = r at perm escalated
  obtain ⟨e, o⟩ := r
  have length : o.length = (l.map Raise.src).dedup.length := by
    rw [← arrivalsOf_length, ← List.length_map, perm.length_eq, List.length_map]
  have mem (k : Nat) : k ∈ o.map Arrival.src ↔ k ∈ l.map Raise.src := perm.mem_iff.trans ((arrivalsOf_srcs l).2 k)
  match o, length, mem with
  | [], _, mem =>
    obtain ⟨r, hr⟩ := List.exists_mem_of_ne_nil l some_
    exact absurd ((mem r.src).2 (List.mem_map_of_mem hr)) List.not_mem_nil
  | a :: o, length, mem => exact ⟨e, a, o, rfl, escalated, length, mem⟩

/-! ## What is recorded of them -/

theorem State.recorded_valid (e : State) (a : Arrival) (o : List Arrival) : ((e.first a).record o).flag Key.FIRST_VALID = true := by
  obtain ⟨reg, -⟩ := State.record_kept (e.first a) o
  rw [State.flag, reg _ (by decide)]
  exact e.first_valid a

section Recorded

variable {s e : State} {l : List Raise} (h : s.Escalated l e) (a : Arrival) (o : List Arrival)
include h

theorem State.Escalated.first_late : (e.first a).batchLate = s.batchLate := by
  obtain ⟨⟨regs, srcs, injAt, rfl⟩, -, -⟩ := h
  obtain ⟨-, regs', now, first⟩ := State.first_kept _ a
  rw [first]
  rfl

theorem State.Escalated.first_before : (e.first a).batchBefore = s.batchBefore ∧ (e.first a).clk = s.clk := by
  obtain ⟨⟨regs, srcs, injAt, rfl⟩, -, -⟩ := h
  obtain ⟨-, regs', now, first⟩ := State.first_kept _ a
  rw [first]
  exact ⟨rfl, rfl⟩

theorem State.Escalated.recorded_only : s.CollectOnly ((e.first a).record o) := by
  obtain ⟨⟨regs, srcs, injAt, rfl⟩, -, -⟩ := h
  obtain ⟨-, regs', now, first⟩ := State.first_kept _ a
  obtain ⟨-, regs'', batch, mark, record⟩ := State.record_kept (State.first _ a) o
  rw [record, first]
  exact ⟨regs'', srcs, batch, mark, injAt, now, rfl⟩

theorem State.Escalated.recorded_later (valid : s.flag Key.FIRST_VALID = true) {k : Nat} (first : k ∈ [Key.FIRST_FAULT 0, Key.FIRST_FAULT 1]) :
    ((e.first a).record o).reg k = s.reg k := by
  have apart : ∀ k ∈ [Key.FIRST_FAULT 0, Key.FIRST_FAULT 1], k ≠ Key.HIST_LOST ∧ k ≠ Key.INJ_PENDING := by decide
  obtain ⟨lost, pending⟩ := apart k first
  obtain ⟨reg, -⟩ := State.record_kept (e.first a) o
  have valid' : e.flag Key.FIRST_VALID = true := by rwa [State.flag, h.reg _ (by decide)]
  rw [reg k lost, State.first_later a valid', h.reg k pending]

theorem State.Escalated.recorded_new (fresh : s.flag Key.FIRST_VALID = false) :
    ((e.first a).record o).reg (Key.FIRST_FAULT 0) = fld s.ct 64 8 + fld a.src 8 0 := by
  obtain ⟨reg, -⟩ := State.record_kept (e.first a) o
  have fresh' : e.flag Key.FIRST_VALID = false := by rwa [State.flag, h.reg _ (by decide)]
  have time : e.ct = s.ct := by
    obtain ⟨⟨regs, srcs, injAt, rfl⟩, -, -⟩ := h
    rfl
  rw [reg _ (by decide), State.first_new a fresh', time]

theorem State.Escalated.recorded_used (inj : l.any Raise.inj = true) :
    ((e.first a).record o).reg Key.INJ_PENDING = 0xFF ∧ ((e.first a).record o).faults.injAt = none := by
  obtain ⟨pending, at_⟩ := h.used inj
  obtain ⟨reg, _, now, first⟩ := e.first_kept a
  obtain ⟨reg', _, batch, mark, record⟩ := State.record_kept (e.first a) o
  constructor
  · rw [reg' _ (by decide), reg _ (by decide), pending]
  · rw [record, first]
    exact at_

theorem State.Escalated.first_lost : (e.first a).reg Key.HIST_LOST = s.reg Key.HIST_LOST := by
  obtain ⟨reg, -⟩ := e.first_kept a
  rw [reg _ (by decide), h.reg _ (by decide)]

theorem State.Escalated.recorded_batch (free : s.batchLate = false) : ((e.first a).record o).reg Key.HIST_LOST = s.reg Key.HIST_LOST ∧
    ((e.first a).record o).faults.lostMark = false ∧
    ∃ es, es.length = o.length ∧ ((e.first a).record o).faults.batch = some ⟨s.clk, s.batchBefore ++ es, false⟩ := by
  obtain ⟨before, clk⟩ := h.first_before a
  obtain ⟨es, length, record⟩ := State.record_batch (s := e.first a) o (by rw [h.first_late, free])
  rw [before, clk] at record
  rw [record]
  exact ⟨h.first_lost a, rfl, es, length, rfl⟩

theorem State.Escalated.recorded_late (late : s.batchLate = true) :
    ((e.first a).record o).reg Key.HIST_LOST = (s.reg Key.HIST_LOST + o.length) % 2 ^ keyWidth Key.HIST_LOST ∧
    ((e.first a).record o).faults.lostMark = true ∧ ((e.first a).record o).faults.batch = s.faults.batch := by
  rw [State.record_late o (by rw [h.first_late, late])]
  refine ⟨?_, rfl, ?_⟩
  · rw [State.updFaults_reg, State.addReg, State.setReg_reg_mod _ _ (by decide), h.first_lost]
  · obtain ⟨-, regs', now, first⟩ := e.first_kept a
    obtain ⟨⟨regs, srcs, injAt, rfl⟩, -, -⟩ := h
    rw [State.updFaults_faults, State.addReg_faults, first]

end Recorded

/-! ## Batches in progress (R482, R483) -/

section Batches

variable {s : State}

/-- No batch is in progress: neither one of an earlier cycle nor one of this clock. -/
theorem State.batch_idle (idle : s.batchBusy = false) : s.batchLate = false ∧ s.batchBefore = [] := by
  unfold State.batchBusy at idle
  unfold State.batchLate State.batchBefore
  cases batch : s.faults.batch with
  | none => exact ⟨rfl, rfl⟩
  | some b =>
    rw [batch] at idle
    have past : ¬ s.clk < b.clk + 4 := of_decide_eq_false idle
    have other : ¬ b.clk = s.clk := by omega
    exact ⟨by simp [past], by rw [Option.filter_some, if_neg (by simpa using other)]; rfl⟩

theorem State.batch_own {b : Batch} (batch : s.faults.batch = some b) (own : b.clk = s.clk) : s.batchLate = false ∧ s.batchBefore = b.entries := by
  unfold State.batchLate State.batchBefore
  rw [batch]
  exact ⟨by simp [own], by rw [Option.filter_some, if_pos (by simpa using own)]; rfl⟩

end Batches

/-- What the told arrivals, and the reactions where they come at once, leave of the recorded state `v`. -/
theorem State.collected_ends {s v t : State} {l : List (Nat × Bool)} (only : s.CollectOnly v) (told : v.Told l t) :
    v.RecordKept (if t.pending.isEmpty then t.reactionsNow else t) ∧
    (∀ k, (t.src k).status = true → ((if t.pending.isEmpty then t.reactionsNow else t).src k).status = true) ∧
    (s.pending = [] → (if t.pending.isEmpty then t.reactionsNow else t).faults.now = []) ∧
    (s.pending ≠ [] → (if t.pending.isEmpty then t.reactionsNow else t).faults.now = s.faults.now ++ l ∧
      (if t.pending.isEmpty then t.reactionsNow else t).faults.resets = s.faults.resets ∧
      (if t.pending.isEmpty then t.reactionsNow else t).out = s.out ∧ (if t.pending.isEmpty then t.reactionsNow else t).ports = s.ports) := by
  obtain ⟨kept, rest⟩ := told
  obtain ⟨issued, none_⟩ := t.reactionsNow_kept
  have same : t.pending = s.pending ∧ t.faults.now = s.faults.now ++ l ∧ t.faults.resets = s.faults.resets ∧ t.out = s.out ∧ t.ports = s.ports := by
    obtain ⟨regs, trace, link, srcs, grave, rfl⟩ := rest
    obtain ⟨regs', srcs', batch, mark, injAt, firstNow, rfl⟩ := only
    exact ⟨rfl, rfl, rfl, rfl, rfl⟩
  obtain ⟨pending, now, resets, out, ports⟩ := same
  rw [pending]
  cases waits : s.pending with
  | nil => exact ⟨kept.trans issued, issued.status, fun _ => none_, fun some_ => absurd rfl some_⟩
  | cons c rest => exact ⟨kept, fun _ up => up, fun empty => absurd empty (List.cons_ne_nil c rest), fun _ => ⟨now, resets, out, ports⟩⟩

end Sys2Proof.Machine

namespace Sys2Proof.Proofs

open Sys2Proof.Machine

/-- Settles O53: the arrivals of the cycle, one a source (`arrived_cons`), are recorded (`recorded_batch`, `recorded_late`), and what comes after,
reactions that come at once included, leaves the records (`collected_ends`). That a second FAULT_ARRIVAL of a cycle joins its batch and that an injection
is used by the first that names it are the model's choices (logs 52 and 22). -/
theorem arrivalsAreCollected : Obligations.ArrivalsAreCollected := by
  intro s rs l on stands
  refine ⟨fun none_ => exec_faultArrival_none on (stands ▸ none_), fun some_ => ⟨_, exec_faultArrival_some on stands some_, ?_⟩⟩
  obtain ⟨e, a, o, arrived, escalated, length, mem⟩ := s.arrived_cons some_
  obtain ⟨told, up⟩ := State.reacts_told e.batchLate (a :: o) ((e.first a).record (a :: o))
  rw [← State.collected_cons arrived] at told up
  obtain ⟨kept, status, now, waits⟩ := State.collected_ends (escalated.recorded_only a (a :: o)) told
  set t := if (s.collected l).pending.isEmpty then (s.collected l).reactionsNow else s.collected l
  have keys : Key.FIRST_VALID ∈ recordKeys ∧ Key.FIRST_FAULT 0 ∈ recordKeys ∧ Key.FIRST_FAULT 1 ∈ recordKeys ∧ Key.INJ_PENDING ∈ recordKeys ∧
      Key.HIST_LOST ∈ recordKeys := by decide
  obtain ⟨valid, first, second, pending, lost⟩ := keys
  rw [← length]
  refine ⟨fun r hr => ?_, ?_, fun later => ⟨?_, ?_⟩, fun fresh => ?_, fun inj => ?_, fun idle => ?_, fun b batch own => ?_, fun late => ?_, now,
    fun some_ => ?_⟩
  · obtain ⟨b, hb, source⟩ := List.mem_map.1 ((mem r.src).2 (List.mem_map_of_mem hr))
    rw [← source]
    exact status _ (up b hb)
  · rw [State.flag, kept.reg _ valid]
    exact e.recorded_valid a (a :: o)
  · rw [kept.reg _ first, escalated.recorded_later a (a :: o) later (by simp)]
  · rw [kept.reg _ second, escalated.recorded_later a (a :: o) later (by simp)]
  · obtain ⟨r, hr, source⟩ := List.mem_map.1 ((mem a.src).1 (List.mem_map_of_mem List.mem_cons_self))
    exact ⟨r, hr, by rw [kept.reg _ first, escalated.recorded_new a (a :: o) fresh, source]⟩
  · obtain ⟨used, gone⟩ := escalated.recorded_used a (a :: o) inj
    exact ⟨(kept.reg _ pending).trans used, kept.injAt.trans gone⟩
  · obtain ⟨free, before⟩ := State.batch_idle idle
    obtain ⟨same, mark, es, count, batch⟩ := escalated.recorded_batch a (a :: o) free
    rw [before] at batch
    exact ⟨kept.lostMark.trans mark, (kept.reg _ lost).trans same, _, kept.batch.trans batch, rfl, rfl, count⟩
  · obtain ⟨free, before⟩ := State.batch_own batch own
    obtain ⟨same, -, es, count, joined⟩ := escalated.recorded_batch a (a :: o) free
    rw [before] at joined
    exact ⟨(kept.reg _ lost).trans same, es, kept.batch.trans joined, count⟩
  · obtain ⟨count, mark, batch⟩ := escalated.recorded_late a (a :: o) late
    exact ⟨kept.lostMark.trans mark, kept.batch.trans batch, (kept.reg _ lost).trans count⟩
  · obtain ⟨queued, resets, out, ports⟩ := waits some_
    exact ⟨by rw [queued, List.length_append, List.length_map], resets, out, ports⟩

end Sys2Proof.Proofs
end
